-- ==== Sys2Proof/Word.lean ====
section
/-! DEFINITION. The words of the block: 64-bit dictionary words, bytes, and byte strings as one little-endian number. -/

namespace Sys2Proof

/-- A dictionary word (02 R38: every object value travels in 64 bits). -/
abbrev Word := BitVec 64

/-- A byte of package memory, of a structure or of a packet. -/
abbrev Byte := BitVec 8

/-- A string of `len` bytes; byte `i` is `(val >>> 8 i) % 256`, so that a structure's field at bit `b` is a shift of
`val` (00 R6, R7: bit 0 is the least significant, structures are little-endian). -/
structure Bytes where
  len : Nat
  val : Nat
deriving DecidableEq, Repr

end Sys2Proof
end

