-- ==== Sys2Proof/Syntax.lean ====
section
/-! DEFINITION. The commands the block takes: one constructor per row of spec/opcode_table.json, and the types of their
operands. -/

namespace Sys2Proof

/-- The path an access arrives on (00 Table 0-2); the path alone gives the role (R2). -/
inductive Path where
  /-- One of the 64 dictionary slots of the physical function's window (02 Table 2-11): HOST. -/
  | host (slot : Nat)
  /-- One of the 8 slots of the tenant window of virtual function `vf` (02 R63): TNT. -/
  | tenant (vf slot : Nat)
  /-- MCTP over the management interface, from the endpoint `eid` with message tag `tag` (02 R67): FM. -/
  | mctp (eid tag : Nat)
  /-- A DICT packet that chip `chip` sent by its port `port` (06 R186): FM. -/
  | fabric (chip port : Nat)
  /-- The key port's control words (02 R65): ROT. -/
  | key
  /-- The local control bus of Reed core `n`: FW. -/
  | reed (n : Nat)
  /-- The JX9 debug access path (00 R4): DBG. -/
  | debug
deriving DecidableEq, Repr

/-- What travels with every dictionary access besides its object and value: the path, the notify bit and the sequence
number the requester chose (02 Table 2-8). -/
structure Access where
  path : Path
  notify : Bool
  seq : Nat
deriving DecidableEq, Repr

/-- The completion statuses (01 Table 1-6). -/
inductive Status where
  | ok | aborted | busError | xlateFault | guardFault | withdrawn | sealFail | remoteReject
  | timeout | misaligned | poison | fenced | keyRevoked | conflict
deriving DecidableEq, Repr

/-- What a read or a write outside the block answers: a status, the data and whether any beat is poisoned. -/
structure Answer where
  st : Status
  data : Bytes
  poison : Bool
deriving DecidableEq, Repr

/-- A channel command comes by the channel's doorbell (word of its BAR slot) or by the dictionary command (05 R153,
R168, R169). -/
inductive ChannelVia where
  | doorbell (vf rel : Nat) (word : Word)
  | command (acc : Access) (chan : Nat) (arg : Word)
deriving DecidableEq, Repr

/-- A frame as a port pipe hands it over (06 Table 6-1): addresses, the tag of a VLAN if any, the EtherType, the Seal
header's initialisation vector, the ciphertext and the authentication tag. -/
structure Frame where
  dst : BitVec 48
  src : BitVec 48
  vlan : Option (BitVec 16)
  etherType : BitVec 16
  iv : BitVec 96
  body : Bytes
  tag : BitVec 128
deriving DecidableEq, Repr

/-- The fields of a runner instruction word that its operation reads (09 Table 9-4). -/
structure RunnerOp where
  pg : Nat
  pn : Bool
  vd : Nat
  sa : Nat
  sb : Nat
  sc : Nat
deriving DecidableEq, Repr

/-- A line of the spill area and its tag as the host answers them (10 R318). -/
structure LineAnswer where
  line : Nat
  st : Status
  data : Bytes
  tag : Word
  poison : Bool
deriving DecidableEq, Repr

/-- A wait-for edge of the graph the WGD reads (12 R399). -/
structure WaitEdge where
  /-- The queue whose head waits and the queue it waits for: unit number * 65536 + queue. -/
  src : Nat
  dst : Nat
  /-- The PID of the waiting head (0: none), and how many PCLK cycles it has waited. -/
  pid : Nat
  age : Nat
deriving DecidableEq, Repr

/-- The integration straps, read at reset release (01 R12, Table 1-7; 14 R431). -/
structure Straps where
  esMask : BitVec 128
  msMask : BitVec 32
  stackGranules : Nat
  zones : Nat
  /-- The die number of each station: Engine Stations 0-127, then Memory Stations 0-31. -/
  dieOf : List Nat
  /-- The UCIe module of each station, in the same order. -/
  modOf : List Nat
deriving DecidableEq, Repr


/-- One constructor per row of spec/opcode_table.json: a command, an arrival or an event of the block, with what the
sender presents (95_what_each_step_holds.md: each whole and indivisible). -/
inductive Instr where
  /-- R16: An engine cluster presents a READ of 1–8 beats; the Engine Station translates, range-checks and stamps it and sends it to the Memory Station, or refuses it on EQ_STATUS. -/
  | read (es va beats : Nat)
  /-- R17: An engine cluster presents a WRITE of 1–8 beats with its data; the station translates, checks and forwards it, or refuses it. -/
  | write (es va beats : Nat) (data : Bytes)
  /-- R16: Engine atomic fetch-and-add on an 8-byte target, done at the Memory Station as one read-modify-write under the line lock. -/
  | fetchAdd (es va beats : Nat) (addend : Word)
  /-- R16: Engine atomic compare-and-swap on an 8-byte target, done under the line lock and returning the original value. -/
  | cmpSwap (es va beats : Nat) (new compare : Word)
  /-- R16: Engine atomic swap on an 8-byte target, done under the line lock and returning the original value. -/
  | swap (es va beats : Nat) (value : Word)
  /-- R165: An engine raises a request on a pacing line whose SOURCE is ENGINE, after its earlier writes have been issued. -/
  | pace (es va : Nat)
  /-- R349: A cluster reports that its part of the step is finished; the Kth COMMIT ends the step. -/
  | commit (es : Nat)
  /-- R349: A cluster rings a queue-pair doorbell of its step's partition from the engine side. -/
  | post (es va : Nat) (word : Word)
  /-- R349: An idle cluster parks a WAIT, which the station holds until it dispatches a step there; it also counts as an outstanding COMMIT. -/
  | wait (es : Nat)
  /-- R16: An engine request that carries a reserved EQ_OP is refused with GUARD_FAULT on EQ_STATUS. -/
  | reservedEqOp (es op : Nat)
  /-- R18: Read data returns at the memory request interface; poison or MR_ERR on any beat completes the read with POISON. -/
  | memoryReadResponse (tag poison : Nat) (err : Bool)
  /-- R30: A response arrives for a tag whose epoch has moved on; it is discarded and counted. -/
  | staleResponse (tag epoch : Nat)
  /-- R27: A freed transaction tag goes round-robin to a request that waits for one, within the reserve and ceiling rules. -/
  | tagGrant (pool : Nat)
  /-- R14: A UCIe module stays down after adapter retry, and every station on it is taken out of service. -/
  | ucieModuleDown (module : Nat)
  /-- R21: A customer-die PLL loses lock, and every station on that die is fenced as a station-domain fault. -/
  | diePllLockLoss (die : Nat)
  /-- R21: The JX9 PLL loses lock, and the whole block is fenced. -/
  | corePllLockLoss
  /-- R35: Every 1 ms of local time, all TAP counters are refreshed with their sources rounded down to a multiple of 1,024. -/
  | tapRefresh
  /-- R34: A write of zero clears a SAT counter, its overflow bit and re-arms FSRC 3; a write of any other value is refused with RANGE. -/
  | counterWrite (acc : Access) (index sub size : Nat) (value : Word)
  /-- R66: Dictionary READ operation: checked in the order of R43 and, on OK, returns the object value zero-extended in RDATA. -/
  | opRead (acc : Access) (index sub size : Nat)
  /-- R47: Dictionary WRITE to an object that has no behaviour of its own: checked, and on OK the value holds from that cycle. -/
  | opWrite (acc : Access) (index sub size : Nat) (value : Word)
  /-- R57: Opens a BLOB transfer of length L and makes the caller its owner. -/
  | blobBegin (acc : Access) (index sub length : Nat)
  /-- R57: Sends the next segment of an open BLOB transfer. -/
  | blobSeg (acc : Access) (index sub segment : Nat) (data : Bytes)
  /-- R57: Closes a BLOB transfer; it commits the content, or starts validation and answers PENDING. -/
  | blobEnd (acc : Access) (index sub : Nat)
  /-- R57: Reads one 256-byte segment of the committed content of a BLOB. -/
  | blobRead (acc : Access) (index sub segment : Nat)
  /-- R57: Abandons an open BLOB transfer and keeps the old content. -/
  | blobAbort (acc : Access) (index sub : Nat)
  /-- R43: A request that carries the CMD_DONE or a reserved operation code is answered TYPE before any right is checked. -/
  | cmdDone (acc : Access) (index sub op : Nat)
  /-- R57: Validation of a validating BLOB ends: the new content is committed, or the old content is kept with RANGE and an offset. -/
  | blobValidationDone (index sub : Nat)
  /-- R59: No segment, close or abort arrives from the owner for 100 ms, so the transfer is abandoned and counted. -/
  | blobAbandon (index sub : Nat)
  /-- R62: A write shorter than 8 bytes to REQ starts nothing and sets RESP to TYPE with SEQ 0. -/
  | reqShortWrite (fn slot width : Nat)
  /-- R69: An MCTP dictionary message arrives; it is discarded and counted if malformed, otherwise replayed or performed and answered. -/
  | mctpMessage (eid tag : Nat) (ic : Bool) (body : Bytes)
  /-- R67: MCTP control message that assigns the endpoint ID held in MCTP_EID. -/
  | setEndpointId (src tag inst eid : Nat)
  /-- R67: MCTP control message that returns the endpoint ID. -/
  | getEndpointId (src tag inst : Nat)
  /-- R67: MCTP control message that returns the supported MCTP version. -/
  | getMctpVersionSupport (src tag inst : Nat)
  /-- R67: MCTP control message that returns the supported message types. -/
  | getMessageTypeSupport (src tag inst : Nat)
  /-- R67: MCTP control message that returns the vendor-defined message support. -/
  | getVendorDefinedMessageSupport (src tag inst : Nat)
  /-- R316: ROT writes FM_CHIP; this selects the accepted DICT source and clears the DICT counter windows. -/
  | fmChipWrite (acc : Access) (value : Word)
  /-- R77: Builds a persistent image of every non-default persistable object and stores it. -/
  | persistSave (acc : Access) (arg : Word)
  /-- R78: Sets every persistable object to its default and stores an empty image, only while every partition is FREE. -/
  | restoreDefaults (acc : Access) (arg : Word)
  /-- R82: Moves a FREE partition to BUILDING with its descriptor at the defaults. -/
  | create (acc : Access) (pid : Nat) (arg : Word)
  /-- R83: Adds ES0–ES63 to the staged engine mask. -/
  | addEnginesLo (acc : Access) (pid : Nat) (arg : Word)
  /-- R83: Adds ES64–ES127 to the staged engine mask. -/
  | addEnginesHi (acc : Access) (pid : Nat) (arg : Word)
  /-- R83: Adds a run of granules to the staged set. -/
  | addGranules (acc : Access) (pid : Nat) (arg : Word)
  /-- R87: Replaces the staged link share. -/
  | addLinkShare (acc : Access) (pid : Nat) (arg : Word)
  /-- R82: Replaces the staged queue-pair range. -/
  | addQp (acc : Access) (pid : Nat) (arg : Word)
  /-- R82: Replaces the staged memory-key range. -/
  | addKeys (acc : Access) (pid : Nat) (arg : Word)
  /-- R82: Replaces the staged Ladle channel range. -/
  | addChannels (acc : Access) (pid : Nat) (arg : Word)
  /-- R82: Replaces weight, reserve and cap; in LIVE it takes effect from the next budget window. -/
  | addSched (acc : Access) (pid : Nat) (arg : Word)
  /-- R82: Replaces the partition's energy allowance. -/
  | addEnergy (acc : Access) (pid : Nat) (arg : Word)
  /-- R82: Replaces the SEALED, FAULT_DOMAIN and HOST_LINK attributes. -/
  | addAttr (acc : Access) (pid : Nat) (arg : Word)
  /-- R82: Replaces the staged bound virtual function. -/
  | addVf (acc : Access) (pid : Nat) (arg : Word)
  /-- R96: Starts the withdrawal of a LIVE partition and fences all of its traffic. -/
  | withdraw (acc : Access) (pid : Nat) (arg : Word)
  /-- R96: The partition's outstanding transactions have drained; the generation step and the hand-back follow. -/
  | withdrawDrainDone (pid : Nat)
  /-- R96: DRAIN_TIMEOUT passes since the fence; transactions still outstanding are answered WITHDRAWN and their tags are freed. -/
  | withdrawDrainTimeout (pid : Nat)
  /-- R102: Returns the staged resources of a BUILDING partition, or starts the release of a SCRUBBING one. -/
  | release (acc : Access) (pid : Nat) (arg : Word)
  /-- R102: The scrub has finished and the 1 ms floor has passed; granules become owner 0 and CLEAN, the VF is unbound, and the partition is FREE. -/
  | releaseComplete (pid : Nat)
  /-- R99: A Memory Station finishes zeroing a granule in SCRUBBING. -/
  | granuleScrubDone (granule : Nat)
  /-- R95: Moves a FREE context slot to OPEN and reports its GEN. -/
  | ctxOpen (acc : Access) (pid : Nat) (arg : Word)
  /-- R94: Fences an OPEN context and moves it to CLOSING. -/
  | ctxClose (acc : Access) (pid : Nat) (arg : Word)
  /-- R94: The close steps are done and 1 ms has passed; GEN advances and the slot returns to FREE. -/
  | ctxCloseComplete (pid cx : Nat)
  /-- R108: FLR of a bound VF resets its slots and MSI-X state and withdraws a LIVE partition with cause 2. -/
  | functionLevelReset (vf : Nat)
  /-- R108: Clearing VF Enable withdraws every LIVE bound partition with cause 3. -/
  | vfEnableClear
  /-- R109: The TDISP_STATE input of a VF changes; it is recorded, and for a sealed LIVE partition it may withdraw the partition or admit its host traffic. -/
  | tdispStateChange (vf code : Nat)
  /-- R106: A write to the BAR of an unbound VF is discarded and counted, and its dictionary requests are answered RIGHTS. -/
  | unboundVfWrite (vf offset width : Nat) (value : Word)
  /-- R114: Writing LOG_ENABLE turns dirty-page logging on or off; 0 then 1 resets the indices, PHASE and OVERFLOW. -/
  | logEnableWrite (acc : Access) (pid : Nat) (value : Word)
  /-- R341: A TLP targeting a VF BAR0 is accepted only on the bound IDE stream with T set while the VF is RUN; otherwise it is discarded or answered UR and counted. -/
  | tlpReceive (vf : Nat) (posted tbit : Bool) (stream offset width : Nat) (value : Word)
  /-- R132: A freed walker goes round-robin to a miss that waits for one. -/
  | walkerGrant
  /-- R126: A table read of a walk returns; the walk goes on, stops with a fault, or installs its entries. -/
  | walkTableReadDone (walk : Nat) (ans : Answer)
  /-- R129: A walk's table read gets no answer within WALK_TIMEOUT, so the walk stops with WALK_ERROR. -/
  | walkTimeout (walk : Nat)
  /-- R137: Sets or clears a partition's stage-2 root and removes the entries made under the old one. -/
  | s2RootSet (acc : Access) (pid : Nat) (arg : Word)
  /-- R138: Sets or clears a context's stage-1 root and removes the entries made under the old one. -/
  | s1RootSet (acc : Access) (pid : Nat) (arg : Word)
  /-- R145: A tenant invalidates a stage-1 range or a whole context. -/
  | s1Invalidate (acc : Access) (pid : Nat) (arg : Word)
  /-- R140: An aligned 16-byte write of a record to an invalidation slot queues it, rejects it, or discards it when the slot is full. -/
  | invalidationRecord (slot offset : Nat) (data : Bytes)
  /-- R142: A record's entries are removed and the tiles that used them have been answered; DONE is published in slot order. -/
  | invalidationComplete (slot : Nat)
  /-- R139: An 8-byte write with bit 63 set to CLEAR clears DONE.OVERFLOW. -/
  | doneClear (slot width : Nat) (value : Word)
  /-- R154: A channel doorbell replaces TAIL, and an IDLE channel starts fetching descriptors. -/
  | kick (vf rel : Nat) (word : Word)
  /-- R169: Channel abort, by doorbell or command: the current descriptor completes ABORTED, or the halted one is handled by KIND, then TAIL is set to HEAD. -/
  | abort (via : ChannelVia)
  /-- R168: Channel resume, by doorbell or command: a halted channel repeats the failed step by KIND. -/
  | resume (via : ChannelVia)
  /-- R153: Software raises a request on a SOFTWARE pacing line through any doorbell of the partition. -/
  | paceDoorbell (vf rel : Nat) (word : Word)
  /-- R158: A fetched descriptor arrives; it is used, found not owned, or rejected by the checks of R158. -/
  | descriptorArrival (chan : Nat) (ans : Answer)
  /-- R162: A burst's read data or write acknowledgement arrives and moves staging forward; more reads or writes issue. -/
  | burstResponse (chan burst : Nat) (ans : Answer)
  /-- R167: After a failed burst, all bursts in flight are answered, and the channel halts on the first failure with FAIL_VA and FAIL_INFO and an interrupt. -/
  | channelHalt (chan : Nat)
  /-- R164: A request on a pacing line releases one burst to the waiting channel of highest priority. -/
  | paceRequestTaken (line : Nat)
  /-- R170: The read-back of the last destination beat returns; the status write follows, or the channel halts with KIND 3. -/
  | readbackResponse (chan : Nat) (ans : Answer)
  /-- R170: The status and control words are accepted; the interrupt is raised if due and HEAD advances, or the channel halts with KIND 4. -/
  | statusWritebackDone (chan : Nat) (ans : Answer)
  /-- R174: Writing ENABLE moves a channel between OFF and IDLE. -/
  | ladleEnableWrite (acc : Access) (chan : Nat) (value : Word)
  /-- R152: Writing RING_BASE or RING_CFG of an OFF channel sets HEAD and TAIL to 0. -/
  | ladleRingConfigWrite (acc : Access) (chan sub : Nat) (value : Word)
  /-- R163: Clears a pacing line's level and OVERFLOW. -/
  | paceReset (acc : Access) (arg : Word)
  /-- R188: A port pipe wins arbitration for a frame, selects a path, seals the frame and sends it. -/
  | packetTransmit (port : Nat)
  /-- R193: An arriving WRITE packet meets the receive checks and is placed at its key offset, or is refused with a NAK. -/
  | rxWrite (port : Nat) (frame : Frame)
  /-- R262: An arriving REDUCE packet meets the receive checks and check 13, and goes to application, a ledger hit, a wait or a NAK. -/
  | rxReduce (port : Nat) (frame : Frame)
  /-- R205: An arriving READ_REQ is executed and its READ_RESP packets are sent. -/
  | rxReadReq (port : Nat) (frame : Frame)
  /-- R206: An arriving READ_RESP acknowledges its PSN and is placed in the local buffer. -/
  | rxReadResp (port : Nat) (frame : Frame)
  /-- R207: An arriving ATOMIC is performed under the line lock and answered, or answered from the replay cache. -/
  | rxAtomic (port : Nat) (frame : Frame)
  /-- R207: An arriving ATOMIC_RESP acknowledges and completes its atomic. -/
  | rxAtomicResp (port : Nat) (frame : Frame)
  /-- R201: An arriving ACK marks PSNs acknowledged, and messages complete. -/
  | rxAck (port : Nat) (frame : Frame)
  /-- R209: An arriving NAK completes the refused message with its mapped status and moves the queue pair to ERROR. -/
  | rxNak (port : Nat) (frame : Frame)
  /-- R239: An arriving CREDIT packet renews the lease and updates or bases the sender's limits. -/
  | rxCredit (port : Nat) (frame : Frame)
  /-- R186: An arriving DICT packet is accepted into the fabric bridge from FM_CHIP, or discarded and counted. -/
  | rxDict (port : Nat) (frame : Frame)
  /-- R418: An arriving MIRROR packet is accepted from PARTNER_CHIP, its records are applied in MSEQ order, or ACK records are taken. -/
  | rxMirror (port : Nat) (frame : Frame)
  /-- R210: An arriving SEAL_NAK fails the packet whose counter it names with SEAL_FAIL, or is counted as unmatched. -/
  | rxSealNak (port : Nat) (frame : Frame)
  /-- R195: The Memory Station or host link acknowledges a placement; PLACED is set and the tracker counts, and a complete message is finished. -/
  | placementAck (qp psn : Nat)
  /-- R200: ACK_DELAY passes since the first placement not reported, and an ACK is sent. -/
  | ackDelayExpiry (qp : Nat)
  /-- R203: The retransmission timer of an unacknowledged PSN expires; it is sent again with a new ENTROPY, or a READ_REQ is re-issued. -/
  | retransmissionTimerExpiry (qp psn : Nat)
  /-- R204: A PSN is still unacknowledged after its last retransmission wait, so its message completes with TIMEOUT. -/
  | retryLimitExpiry (qp psn : Nat)
  /-- R190: LINK_UP of a port pipe falls; it goes DOWN, requeues its frames and raises PORT_LINK. -/
  | linkUpFall (port : Nat)
  /-- R212: LINK_UP rises, and the port pipe becomes UP or DEGRADED. -/
  | linkUpRise (port : Nat) (degraded : Bool)
  /-- R212: LINK_DEGRADED changes while the link is up, and the port pipe moves between UP and DEGRADED. -/
  | linkDegradedChange (port : Nat) (degraded : Bool)
  /-- R214: A write to ETHERTYPE, MAC_PREFIX or VLAN_CFG is refused with STATE while any port pipe is UP or DEGRADED. -/
  | transportConfigWrite (acc : Access) (sub : Nat) (value : Word)
  /-- R222: Reads the set-up record and initialises a RESET queue pair to INIT. -/
  | qpInit (acc : Access) (pid : Nat) (arg : Word)
  /-- R222: Reads the set-up record and connects an INIT queue pair to READY. -/
  | qpConnect (acc : Access) (pid : Nat) (arg : Word)
  /-- R218: Completes every pending WQE ABORTED, stops retransmission and clears the connection. -/
  | qpReset (acc : Access) (pid : Nat) (arg : Word)
  /-- R218: The last teardown completion has been written, and the queue pair enters RESET. -/
  | qpResetComplete (qp : Nat)
  /-- R217: Moves a READY queue pair to DRAINING. -/
  | qpDrain (acc : Access) (pid : Nat) (arg : Word)
  /-- R217: No sent message is unfinished and no accepted packet unplaced, so the queue pair moves to RESET. -/
  | qpDrainComplete (qp : Nat)
  /-- R217: DRAIN_TIMEOUT passes in DRAINING; unfinished messages complete WITHDRAWN and the queue pair moves to RESET. -/
  | qpDrainTimeout (qp : Nat)
  /-- R245: Writes a queue pair's query record to a query slot. -/
  | qpQuery (acc : Access) (pid : Nat) (arg : Word)
  /-- R233: Reads the registration record and moves a FREE key to VALID with a new GEN. -/
  | keyReg (acc : Access) (pid : Nat) (arg : Word)
  /-- R235: Moves a VALID key to REVOKING. -/
  | keyRevoke (acc : Access) (pid : Nat) (arg : Word)
  /-- R235: OUTSTANDING reaches zero and the key moves to FREE. -/
  | keyRevokeComplete (key : Nat)
  /-- R236: DRAIN_TIMEOUT passes in REVOKING; counted transactions are answered KEY_REVOKED and the key becomes FREE. -/
  | keyRevokeTimeout (key : Nat)
  /-- R245: Writes a key entry to a query slot. -/
  | keyQuery (acc : Access) (pid : Nat) (arg : Word)
  /-- R222: The set-up or registration record read returns, and the command is checked and finished within 0.5 µs. -/
  | setupRecordReadDone (pid sub : Nat) (ans : Answer)
  /-- R245: The query record write is answered, and the query command finishes. -/
  | queryWriteDone (pid sub : Nat) (ans : Answer)
  /-- R224: Queue-pair doorbell that replaces the send-queue tail. -/
  | sqTail (vf rel : Nat) (word : Word)
  /-- R224: Queue-pair doorbell that replaces the completion-queue consumer index and frees room for waiting completions. -/
  | cqCons (vf rel : Nat) (word : Word)
  /-- R224: Queue-pair doorbell that arms MSIX_VEC for the next completion entry. -/
  | cqArm (vf rel : Nat) (word : Word)
  /-- R226: A WQE at the send-queue head has been read and is checked; it starts or fails the queue pair into ERROR. -/
  | wqeFetchDone (qp : Nat) (ans : Answer)
  /-- R225: Starts a WRITE message from LOCAL_VA as WRITE packets. -/
  | wqeWrite (qp : Nat) (payload : Answer)
  /-- R225: Starts a REDUCE message with the RDX taken from the WQE. -/
  | wqeReduce (qp : Nat) (payload : Answer)
  /-- R225: Starts a READ message as READ_REQ packets. -/
  | wqeRead (qp : Nat)
  /-- R225: Sends a fetch-and-add ATOMIC. -/
  | wqeFetchAdd (qp : Nat)
  /-- R225: Sends a compare-and-swap ATOMIC. -/
  | wqeCmpSwap (qp : Nat)
  /-- R225: Sends a swap ATOMIC. -/
  | wqeSwap (qp : Nat)
  /-- R225: Sends nothing and completes OK in its turn. -/
  | wqeNop (qp : Nat)
  /-- R226: A read of the send queue or payload, or a response placement, fails; the WQE completes with the status and the queue pair enters ERROR. -/
  | localFailure (qp : Nat) (st : Status)
  /-- R229: A send or receive completion entry is written when the completion queue has room. -/
  | completionWrite (qp : Nat)
  /-- R444: A completion entry write is answered with an error; the queue pair enters ERROR, or the entry is lost. -/
  | completionWriteFail (qp : Nat) (st : Status)
  /-- R240: Every CREDIT_REFRESH, CREDIT packets go to chips in BASE and ACTIVE, and idle targets are halved. -/
  | creditRefreshTimer
  /-- R239: A sender's lease from a chip lapses; it forfeits its units and becomes unsynchronised. -/
  | creditLeaseExpiry (chip : Nat)
  /-- R240: QUIET ends: U := G and the chip enters BASE, or its credit state is dropped. -/
  | quietPeriodEnd (chip : Nat)
  /-- R240: An ACTIVE source sends nothing for CREDIT_IDLE and returns to QUIET. -/
  | creditIdleExpiry (chip : Nat)
  /-- R240: Puts a chip in CREDIT_PEERS into QUIET to resynchronise its credit. -/
  | creditResync (acc : Access) (arg : Word)
  /-- R243: A write to CREDIT_FLOOR, CREDIT_LEASE or CREDIT_REFRESH is refused with CONFLICT if it breaks the pool or lease limits. -/
  | creditConfigWrite (acc : Access) (sub : Nat) (value : Word)
  /-- R252: Reads the group record of an IDLE, DONE or ABORTED group and starts arming it. -/
  | groupArm (acc : Access) (pid : Nat) (arg : Word)
  /-- R252: The group record returns and is checked; ledger clearing starts, or the command fails. -/
  | groupRecordReadDone (pid group : Nat) (ans : Answer)
  /-- R253: The ledger rows are cleared and the group becomes ARMED. -/
  | groupArmed (pid group : Nat)
  /-- R276: Makes a group ABORTED for check 13 and stops its program or cast. -/
  | groupAbort (acc : Access) (pid : Nat) (arg : Word)
  /-- R276: The applications already past check 13 finish, and the group writes its record with ABORTED. -/
  | groupAbortDone (pid group : Nat)
  /-- R248: A write to GROUP_LIMIT is checked against the pool of 16,384 and against the group states. -/
  | groupLimitWrite (acc : Access) (pid : Nat) (value : Word)
  /-- R267: A request waiting for a line lock or a lock entry takes it in arrival order. -/
  | lineLockGrant (ms line : Nat)
  /-- R265: Under the anchor lock, the ledger and data are read, then the values are written or combined and the ledger bit is set, or a ledger hit or refusal follows. -/
  | application (ms pid group slot contrib : Nat) (poison : Bool)
  /-- R265: The TPE adds PAY_LEN to the group's applied bytes and sets the cached ledger bit. -/
  | applicationReport (pid group slot contrib : Nat)
  /-- R268: A local-contributor slot read returns and is applied, or the group is aborted on failure. -/
  | localSlotReadDone (pid group slot : Nat) (ans : Answer)
  /-- R272: The output cast has converted every element into OUT_VA, and the read-back is issued. -/
  | outputCastDone (pid group : Nat) (ans : Answer)
  /-- R270: The last beat's read-back is answered; the completion record is written, MSI-X raised if due, and the group is DONE. -/
  | groupReadbackDone (pid group : Nat) (ans : Answer)
  /-- R295: The group's stream table read returns, and streams start binding, or the program fails. -/
  | streamTableReadDone (pid group : Nat) (ans : Answer)
  /-- R297: Every used stream's extent is translated, and phase 1 starts. -/
  | streamBindDone (pid group : Nat)
  /-- R290: A station finishes a phase of the completion program over its elements. -/
  | phaseDone (pid group ms : Nat) (poison : Bool)
  /-- R294: After the last station finishes phase 1, the core sums the scalar and phase 2 starts at every station. -/
  | secondPhaseStart (pid group : Nat)
  /-- R304: A validated program takes a free version place and becomes the current version. -/
  | programMadeCurrent (pid prog : Nat)
  /-- R306: Removes the current version of a program number. -/
  | progUnload (acc : Access) (pid : Nat) (arg : Word)
  /-- R302: A write to PROG_LIMIT is checked against the pool of 64 and against loaded versions. -/
  | progLimitWrite (acc : Access) (pid : Nat) (value : Word)
  /-- R284: Runner instruction that does nothing. -/
  | nop (ms : Nat) (o : RunnerOp)
  /-- R284: Runner binary32 add. -/
  | fadd (ms : Nat) (o : RunnerOp)
  /-- R284: Runner binary32 subtract. -/
  | fsub (ms : Nat) (o : RunnerOp)
  /-- R284: Runner binary32 multiply. -/
  | fmul (ms : Nat) (o : RunnerOp)
  /-- R284: Runner fused multiply-add with one rounding. -/
  | ffma (ms : Nat) (o : RunnerOp)
  /-- R284: Runner fused negative multiply-add, c − a × b. -/
  | fnma (ms : Nat) (o : RunnerOp)
  /-- R284: Runner floating-point minimum under R258. -/
  | fmin (ms : Nat) (o : RunnerOp)
  /-- R284: Runner floating-point maximum under R258. -/
  | fmax (ms : Nat) (o : RunnerOp)
  /-- R284: Runner absolute value. -/
  | fabs (ms : Nat) (o : RunnerOp)
  /-- R284: Runner negation. -/
  | fneg (ms : Nat) (o : RunnerOp)
  /-- R284: Runner clip to ±|b|. -/
  | fclip (ms : Nat) (o : RunnerOp)
  /-- R284: Runner bit copy. -/
  | mov (ms : Nat) (o : RunnerOp)
  /-- R284: Runner 32-bit wrapping add. -/
  | iadd (ms : Nat) (o : RunnerOp)
  /-- R284: Runner 32-bit wrapping subtract. -/
  | isub (ms : Nat) (o : RunnerOp)
  /-- R284: Runner 32-bit multiply keeping the low word. -/
  | imul (ms : Nat) (o : RunnerOp)
  /-- R284: Runner signed integer minimum. -/
  | imin (ms : Nat) (o : RunnerOp)
  /-- R284: Runner signed integer maximum. -/
  | imax (ms : Nat) (o : RunnerOp)
  /-- R284: Runner bitwise AND. -/
  | and (ms : Nat) (o : RunnerOp)
  /-- R284: Runner bitwise OR. -/
  | or (ms : Nat) (o : RunnerOp)
  /-- R284: Runner bitwise XOR. -/
  | xor (ms : Nat) (o : RunnerOp)
  /-- R284: Runner shift left. -/
  | shl (ms : Nat) (o : RunnerOp)
  /-- R284: Runner logical shift right. -/
  | shr (ms : Nat) (o : RunnerOp)
  /-- R284: Runner arithmetic shift right. -/
  | sra (ms : Nat) (o : RunnerOp)
  /-- R284: Runner floating-point compare into a predicate. -/
  | fcmp (ms : Nat) (o : RunnerOp)
  /-- R284: Runner integer compare into a predicate. -/
  | icmp (ms : Nat) (o : RunnerOp)
  /-- R284: Runner predicate select. -/
  | sel (ms : Nat) (o : RunnerOp)
  /-- R284: Runner predicate logic. -/
  | plog (ms : Nat) (o : RunnerOp)
  /-- R286: Runner reciprocal within the bounds of Table 9-6. -/
  | rcp (ms : Nat) (o : RunnerOp)
  /-- R286: Runner reciprocal square root. -/
  | rsqrt (ms : Nat) (o : RunnerOp)
  /-- R286: Runner correctly rounded square root. -/
  | sqrt (ms : Nat) (o : RunnerOp)
  /-- R286: Runner base-2 exponential. -/
  | exp2 (ms : Nat) (o : RunnerOp)
  /-- R286: Runner base-2 logarithm. -/
  | log2 (ms : Nat) (o : RunnerOp)
  /-- R284: Runner conversion selected by its code. -/
  | cvt (ms : Nat) (o : RunnerOp)
  /-- R284: Runner maximum magnitude over the guarded lanes of the bundle. -/
  | bamax (ms : Nat) (o : RunnerOp)
  /-- R284: Runner binary exponent extraction. -/
  | expb (ms : Nat) (o : RunnerOp)
  /-- R284: Runner scaling by a power of two. -/
  | scalb (ms : Nat) (o : RunnerOp)
  /-- R296: Runner load of the next element of a stream. -/
  | ld (ms : Nat) (o : RunnerOp) (poison : Bool)
  /-- R299: Runner store of element i to a stream, converted to the stream's format. -/
  | st (ms : Nat) (o : RunnerOp)
  /-- R292: Runner combine into the scalar accumulator by the selected mode. -/
  | sred (ms : Nat) (o : RunnerOp)
  /-- R293: Runner read of a function of the scalar from phase 1. -/
  | lds (ms : Nat) (o : RunnerOp)
  /-- R290: Runner phase boundary between the two passes. -/
  | bar (ms : Nat) (o : RunnerOp)
  /-- R309: A key-port cycle with KP_WE appends KP_WORD to the selected staging register, or is discarded and counted. -/
  | keyPortWord (slot : Nat) (word : BitVec 32)
  /-- R310: Installs the staged spill key as current, or as the next key and starts the Anneal. -/
  | spillKeyInstall (acc : Access) (arg : Word)
  /-- R310: Installs the staged link key as current or as next. -/
  | linkKeyInstall (acc : Access) (arg : Word)
  /-- R310: Next link key becomes current and current becomes previous; LINK_GRACE starts. -/
  | linkKeySwitch (acc : Access) (arg : Word)
  /-- R310: Zeroes the current spill key and the root counters and sets SPILL_STATE to OFF. -/
  | spillKeyDestroy (acc : Access) (arg : Word)
  /-- R310: Zeroes all link keys while no port pipe is up. -/
  | linkKeyDestroy (acc : Access) (arg : Word)
  /-- R315: LINK_GRACE passes since a switch, and the previous link key is destroyed. -/
  | linkGraceExpiry
  /-- R331: Starts initialising the tree area under a fresh spill key. -/
  | spillInit (acc : Access) (arg : Word)
  /-- R331: Every node has been written and the root zeroed; SPILL_FRESH is cleared and SPILL_STATE becomes READY. -/
  | spillInitComplete
  /-- R322: A request reads the spill window; it is checked, then served line by line, or refused. -/
  | spillRead (pid cx offset length : Nat)
  /-- R323: A spill line, its tag and its path nodes arrive and are verified, returning data, zeros, POISON or SEAL_FAIL. -/
  | spillReadReturn (line : Nat) (ans : Answer) (tag : Word)
  /-- R324: A request writes the spill window; a whole line is encrypted and written, a partial line is read, verified and merged. -/
  | spillWrite (pid cx offset : Nat) (data : Bytes)
  /-- R325: A write would pass minor 4,095; the leaf is locked, its lines re-verified, MAJOR advanced and the lines re-encrypted. -/
  | minorCounterOverflow (leaf : Nat) (lines : List LineAnswer)
  /-- R321: A fetched tree node is verified against its parent counter and used, or it is condemned. -/
  | treeNodeFetchReturn (level node : Nat) (ans : Answer)
  /-- R321: A dirty node is evicted; its parent counter advances and it is written back with a new MAC. -/
  | nodeEviction (level node : Nat)
  /-- R335: The Anneal engine locks a leaf, re-encrypts its lines under the next key, writes them and advances the boundary. -/
  | annealLeafConversion (lines : List LineAnswer)
  /-- R333: The spill units of a withdrawn partition have been reset or retired, and SPILL_PSTATE returns to NONE. -/
  | spillUnitResetDone (pid : Nat)
  /-- R332: A write to SPILL_RANGE while BUILDING is checked against size, overlaps and retired units. -/
  | spillRangeWrite (acc : Access) (pid : Nat) (value : Word)
  /-- R341: ROT writes IDE_STREAM; the write is refused with STATE while the VF is CONFIG_LOCKED or RUN. -/
  | ideStreamWrite (acc : Access) (pid : Nat) (value : Word)
  /-- R345: A step-queue doorbell sets the queue TAIL and clears RING_STATUS. -/
  | stepDoorbell (vf queue : Nat) (word : Word)
  /-- R346: A step descriptor and its range list arrive from the ring; they are checked and queued or failed, or RING_STATUS is set. -/
  | stepDescriptorArrival (pid queue : Nat) (desc ranges : Answer)
  /-- R347: A cluster presents SUB_VALID with a descriptor, and the station buffers it. -/
  | submission (es : Nat) (desc : Bytes)
  /-- R347: A buffered submission goes to the Chanter once its partition is below STEP_CEILING. -/
  | submissionForward (es : Nat) (ranges : Answer)
  /-- R369: At a dispatch opportunity the Chanter chooses eligible head steps and answers the WAITs of the chosen clusters. -/
  | stepDispatch
  /-- R355: A cluster answers KILL_DONE; once all have answered, the killed step returns to QUEUED or ends. -/
  | killDone (es : Nat)
  /-- R355: A cluster does not answer KILL_DONE within KILL_TIMEOUT; its station goes out of service and the step ends FENCED. -/
  | killTimeoutExpiry (es : Nat)
  /-- R361: A step's quantum ends, and it becomes displaceable. -/
  | quantumExpiry (step : Nat)
  /-- R356: STEP_TIMEOUT passes since dispatch, and the step is killed with TIMEOUT. -/
  | stepTimeoutExpiry (step : Nat)
  /-- R363: Every 10 µs, energy, power and temperature are sampled, calibrated and free energy recomputed. -/
  | telemetrySample (counts : List (Nat × BitVec 32)) (power : BitVec 32) (temps : List (Nat × BitVec 16))
  /-- R365: A 100 µs budget window begins, and the Reed cores start recomputing budgets and standings. -/
  | budgetWindowStart
  /-- R371: The Reed cores finish the window's deficit, debt, cap and budget update, or it is counted late. -/
  | policyUpdateDone
  /-- R356: Ends the queued steps of a queue with ABORTED and kills its running step unless it is BOUND. -/
  | queueFlush (acc : Access) (pid : Nat) (arg : Word)
  /-- R374: A write to a step queue's RING_BASE or RING_CFG sets HEAD and TAIL to 0, or is refused with STATE. -/
  | chanterRingConfigWrite (acc : Access) (pid sub : Nat) (value : Word)
  /-- R375: The FCU takes one event from its queue, records and counts it, and applies the reaction of its current severity. -/
  | fcuEvent
  /-- R379: A count window ends without reaching COUNT_N and closes with no effect. -/
  | countWindowExpiry (source : Nat)
  /-- R380: A write of SEVERITY, COUNT_N, COUNT_WINDOW or SCOPE is checked, sets CURRENT and closes the window. -/
  | faultSourceConfigWrite (acc : Access) (source sub : Nat) (value : Word)
  /-- R385: 2 µs pass after the latest reaction, and FAULT_L is released if PULSE or already released by command. -/
  | faultLHoldExpiry
  /-- R385: Command that permits FAULT_L to be released in LATCH mode. -/
  | faultLRelease (acc : Access) (arg : Word)
  /-- R384: Finishes when a FENCE or FATAL record newer than the argument SEQ is logged; for the HOST role. -/
  | faultWaitHost (acc : Access) (arg : Word)
  /-- R384: Finishes when a FENCE or FATAL record newer than the argument SEQ is logged; for the FM role. -/
  | faultWaitFm (acc : Access) (arg : Word)
  /-- R388: A fenced domain's outstanding requests have completed; it moves to DUMPING, OUT or RESETTING. -/
  | domainDrainDone (dom : Nat)
  /-- R388: The drain timeout passes; outstanding requests are answered FENCED and their tags freed. -/
  | domainDrainTimeout (dom : Nat)
  /-- R390: A domain's reset is done; it moves to RETRAINING or IN_SERVICE. -/
  | domainResetDone (dom : Nat)
  /-- R387: A port pipe realigns or a Memory Station reports MI_READY, and the domain returns to IN_SERVICE. -/
  | domainRetrainDone (dom : Nat)
  /-- R445: Takes a unit that may go out of service through fence and drain to OUT. -/
  | unitOut (acc : Access) (arg : Word)
  /-- R445: Returns an OUT unit through reset, self test and retraining to service. -/
  | unitReturn (acc : Access) (arg : Word)
  /-- R445: Fences, drains and resets an IN_SERVICE partition domain and returns it. -/
  | domainFence (acc : Access) (arg : Word)
  /-- R394: Starts whole-block recovery from FENCED: drain, dump and start-up from step 2. -/
  | recoverBlock (acc : Access) (arg : Word)
  /-- R399: Every 64 µs the WGD takes the wait-for relation and raises HANG_WAIT_GRAPH on a standing cycle. -/
  | wgdScan (edges : List WaitEdge)
  /-- R401: A Drone's counter has not changed for WINDOW while armed, so HANG_DRONE is raised and a new window starts. -/
  | droneExpiry (drone : Nat)
  /-- R403: Starts a crash dump by command. -/
  | skimStart (acc : Access) (arg : Word)
  /-- R404: A unit delivers its last scan word and its record is written; Skim goes to the next unit or ends the dump. -/
  | skimUnitRecord (words : List (BitVec 32))
  /-- R404: A unit has not delivered its last word in 50 µs and is recorded NO_RESPONSE. -/
  | skimUnitTimeout (words : List (BitVec 32))
  /-- R403: Empties the Skim buffer and sets SKIM_STATE to EMPTY. -/
  | skimRelease (acc : Access) (arg : Word)
  /-- R407: A write of INJECT_MODE selects OFF, CHECKBITS or FACTORY, with FACTORY refused while locked. -/
  | injectModeWrite (acc : Access) (value : Word)
  /-- R407: ROT locks injection from 0 to 1, and FACTORY mode is turned OFF. -/
  | injectLockWrite (acc : Access) (value : Word)
  /-- R409: Raises any implemented fault source as if its checker had raised it, in FACTORY mode. -/
  | injectEvent (acc : Access) (arg : Word)
  /-- R421: Clears the replay buffer and emits a full copy with SYNC set. -/
  | mirrorStart (acc : Access) (arg : Word)
  /-- R414: Stops sending mirror records and moves MIRROR_STATE to OFF. -/
  | mirrorStop (acc : Access) (arg : Word)
  /-- R418: 2 µs after the first record applied since the last ACK, the partner sends an ACK record. -/
  | mirrorAckTimer
  /-- R416: After 16 µs with no record emitted, a MARK record is emitted. -/
  | markTimer
  /-- R416: Every 16 µs a QP record is emitted for a queue pair whose state differs from the last record sent. -/
  | qpRecordRefresh (qp : Nat)
  /-- R419: No acknowledgement advances for MIRROR_RETX, and every unacknowledged record is sent again. -/
  | mirrorRetxExpiry
  /-- R420: No acknowledgement for MIRROR_TIMEOUT while records are outstanding; the state becomes BROKEN. -/
  | mirrorTimeoutExpiry
  /-- R420: The lag reaches 20 µs and the state becomes LAGGING, or falls below 10 µs and returns to SYNCED. -/
  | lagThreshold
  /-- R421: Setting MIRROR_ENABLE on a LIVE partition emits a full copy for that partition. -/
  | mirrorEnableWrite (acc : Access) (pid : Nat) (value : Word)
  /-- R430: A write to PARTNER_CHIP or MIRROR_PORT is refused with STATE unless MIRROR_STATE is OFF or BROKEN. -/
  | partnerChipWrite (acc : Access) (sub : Nat) (value : Word)
  /-- R422: A write of SHADOW_PID, SHADOW_QP_BASE or SHADOW_KEY_BASE is checked for state, fit and overlap. -/
  | shadowMappingWrite (acc : Access) (pid sub : Nat) (value : Word)
  /-- R425: Makes this ITC answer for the partner chip: current shadows' keys and queue pairs resume and the WQEs are resent. -/
  | takeover (acc : Access) (arg : Word)
  /-- R428: Resets the taken-over queue pairs, clears ALIAS_CHIP and empties the taken shadows. -/
  | aliasEnd (acc : Access) (arg : Word)
  /-- R431: The root of trust releases the block from reset; local time starts, the straps are read and start-up step 1 begins. -/
  | resetRelease (powerOn coreLocked : Bool) (straps : Straps)
  /-- R20: A die PLL reports lock and its stations leave reset; when all are locked, step 1 completes. -/
  | pllLock (core : Bool) (die : Nat)
  /-- R432: 10 ms pass in step 1; stations on unlocked dies go OUT, or the block HALTs if the JX9 PLL is unlocked. -/
  | startupPllTimeout
  /-- R432: The units report self test; failures take units OUT or HALT the block, and step 3 follows. -/
  | selfTestReport (failed : List Nat) (image : Option Bytes)
  /-- R433: The root of trust ends step 4 once a spill key is current; MI_TRAIN is asserted. -/
  | keysDone (acc : Access) (arg : Word)
  /-- R434: A Memory Station reports MI_READY; its start-up scrub begins and step 5 completes when all have reported. -/
  | miReady (ms : Nat)
  /-- R432: MI_READY does not rise within 1.2 s; the station is OUT and FSRC 18 is recorded. -/
  | miReadyTimeout (ms : Nat)
  /-- R376: MI_READY falls after training, raising MEMORY_INTERFACE for the Memory Station. -/
  | miReadyFall (ms : Nat)
  /-- R431: A port pipe is realigned to its MAC; when all are, step 7 runs. -/
  | portPipeRealigned (port : Nat)
  /-- R431: Translation buffers are emptied and roots invalidated; STARTUP_STEP reads RUNNING. -/
  | startupTranslationDone
  /-- R434: The start-up scrub finishes a granule, which becomes owner 0 and CLEAN. -/
  | startupScrubGranuleDone (granule : Nat)
  /-- R437: Checks the Hold entry conditions and starts gating into Hold. -/
  | holdEnter (acc : Access) (arg : Word)
  /-- R438: Gating is complete and POWER_STATE becomes HOLD. -/
  | holdEntryDone
  /-- R440: A wake source arrives in Hold; it is held, WAKE_CAUSE is recorded and the wake sequence starts. -/
  | wake (cause : Nat)
  /-- R441: The domains are ungated and settled; held events are released and POWER_STATE becomes RUN. -/
  | wakeComplete
  /-- R88: The partition COMMIT command (0x21pp.10) runs the checks of Table 3-3 and, if all pass, claims the staged resources, sets the owner maps and moves the partition from BUILDING to LIVE. -/
  | partitionCommit (acc : Access) (pid : Nat) (arg : Word)
  /-- R376: The JX9 host port reports a link error, which raises fault source 27 (HOST_LINK) naming the DXE. -/
  | hostLinkError (link : Nat)
  /-- R376: A Reed-core firmware self-check fails, which raises fault source 26 (FIRMWARE) naming that core, with default severity FENCE. -/
  | firmwareSelfCheckFail (core : Nat)
  /-- R197: A frame arrives that fails EtherType, fails its seal, or carries a reserved TYPE, a wrong DST_CHIP or a wrong length; it is discarded and counted, with a SEAL_NAK or the protocol-error source as Table 6-13 gives. -/
  | rxMalformedFrame (port : Nat) (frame : Frame)
deriving DecidableEq, Repr

end Sys2Proof
end

