-- ==== Sys2Proof/Config.lean ====
section
/-! DEFINITION. What the spec leaves open: the free values, constants without a body, so that no proof can see a value. -/

namespace Sys2Proof.Config

/-- The free values of the model: the value of draw number `n` (State's `fresh` counts the draws). Used where the spec
leaves a value open and the block goes on: which buffer entry a fill replaces (04 R130), the result of RCP, RSQRT, EXP2,
LOG2 and LDS within its bound (09 R286, R293), and the others notes/assumptions/3.md names. -/
opaque freePick : Nat → Nat

end Sys2Proof.Config
end

