-- ==== Sys2Proof/Machine/State.lean ====
section
/-! DEFINITION. The state of the block, unit by unit, and the state after reset. Every field is named in INVENTORY.md
with the rule of the spec that gives it. Plain data only. -/

namespace Sys2Proof.Machine

/-- A sparse array: entries in strictly rising order of their number; an entry not listed holds the array's default. -/
abbrev SMap (α : Type) := List (Nat × α)

/-- The context tag every request carries (01 R10): partition, context, generation. -/
structure Ctx where
  pid : Nat
  cx : Nat
  gen : Nat
deriving DecidableEq, Repr

/-! ## Clocks and straps (01 R12, R20-R22; 14 R431) -/

structure Clock where
  /-- Local time, PCLK cycles since reset release (R22). -/
  now : Nat
  /-- The root of trust has released the block from reset. -/
  released : Bool
  coreLock : Bool
  dieLock : BitVec 16
  /-- Memory Stations whose MI_READY is high (14 R434). -/
  miReady : BitVec 32
deriving DecidableEq, Repr

/-! ## What the block presents at its boundary (01 Table 1-2) -/

/-- How a transaction layer packet leaves the host port (03 R107; 10 R340, R341): its host link, and the selective IDE
stream on which it is sent with T = 1 (none: sent with T = 0). -/
structure Via where
  link : Bool
  ide : Option Nat
deriving DecidableEq, Repr

inductive Out where
  /-- EQ_STATUS: the status of an engine request (01 R15). -/
  | eqStatus (es : Nat) (st : Status)
  /-- ED_RDATA: data to an engine cluster (01 R17). -/
  | edData (es : Nat) (data : Bytes)
  /-- KILL_REQ (11 R355). -/
  | killReq (es : Nat)
  /-- A read or a write at the memory request interface (01 R18). -/
  | memRead (tag pa len : Nat)
  /-- Bit `i` of `poison` is MW_POISON of the write's 64-byte beat `i`. -/
  | memWrite (pa : Nat) (data : Bytes) (poison : Nat)
  /-- The UCIe modules that carry the 64-byte flits of a block of data between the core and a Memory Station's die, in
  byte-address order (01 R12). -/
  | dieFlits (ms : Nat) (modules : List Nat)
  /-- A read or a write of host memory. -/
  | hostRead (tag addr len : Nat) (via : Via)
  | hostWrite (addr : Nat) (data : Bytes) (poison : Bool) (via : Via)
  /-- MI_TRAIN (12 R391). -/
  | miTrain (ms : Nat)
  /-- A frame at a port pipe (06 R177). -/
  | frame (port : Nat) (f : Frame)
  /-- The response to a dictionary access: RESP, RDATA, segment (02 R65). -/
  | resp (path : Path) (word rdata : Word) (seg : Option Nat)
  /-- An MCTP message: endpoint, tag, tag owner, body (02 R67, R71). -/
  | mctp (eid tag : Nat) (owner : Bool) (body : Bytes)
  /-- MSIX_REQ for a vector of a function (01 R19), sent as a write. -/
  | msix (fn vec : Nat) (via : Via)
  /-- FAULT_L driven low (true) or released (12 R385). -/
  | faultL (low : Bool)
  /-- A completion of a read of a function's BAR. -/
  | barData (fn : Nat) (data : Bytes)
  | unsupportedRequest (fn : Nat)
deriving DecidableEq, Repr

/-! ## Transaction tags (01 R27-R30, Table 1-5) -/

inductive Pool where
  | mem | fabric | host
deriving DecidableEq, Repr

/-- Which request holds a tag: its kind and the numbers that name it within the kind. -/
inductive ReqKind where
  | engineRead | walk | chanDesc | chanRead | chanWrite | chanReadback | chanStatus
  | frame | placement | setupRecord | queryWrite | wqeFetch | wqePayload | completion
  | groupRecord | localSlot | castOut | groupRecordOut | streamTable | spillLine | treeNode | anneal
  | stepDesc | stepRanges | inval | posted
deriving DecidableEq, Repr

structure Holder where
  kind : ReqKind
  a : Nat
  b : Nat
deriving DecidableEq, Repr

/-- Part of a translated tile: a physical address and its length, with what names the buffer entry it was translated
with (its page, the RWIN of its leaf, its IPA page) and the tile's number (04 R130, R134, R142). -/
structure Seg where
  pa : Nat
  len : Nat
  rwin : Nat
  ipaPage : Nat
  ipaBig : Bool
  ctx : Ctx
  page : Nat
  big : Bool
  tile : Nat
deriving DecidableEq, Repr

/-- A tag in use: its number, the context of the request that holds it (whose partition is charged for it), the tile
the request reaches and the request. -/
structure TagUse where
  tag : Nat
  ctx : Ctx
  segs : List Seg
  holder : Holder
deriving DecidableEq, Repr

/-- A request waiting for a tag of a pool (R27). -/
structure TagWait where
  pool : Pool
  ctx : Ctx
  segs : List Seg
  holder : Holder
  /-- What the block presents when the request is issued (its tag still to be filled in). -/
  msg : List Out
deriving DecidableEq, Repr

structure Tags where
  /-- Tags in use, in rising order of the tag. -/
  used : List TagUse
  /-- Requests waiting, oldest first. -/
  waits : List TagWait
  /-- The partition served last in each pool (memory, fabric, host). -/
  turnMem : Nat
  turnFabric : Nat
  turnHost : Nat
  /-- The 4-bit epoch of each tag (unlisted: 0). -/
  epochs : SMap Nat
deriving DecidableEq, Repr

/-! ## Dictionary Engine (02) -/

/-- Who opened a BLOB transfer (02, "BLOB transfer"). -/
inductive Owner where
  | host (slot : Nat) | tenant (vf slot pid : Nat) | mctp (eid : Nat) | fabric (chip : Nat) | reed (n : Nat)
  | key | debug
deriving DecidableEq, Repr

/-- An open BLOB transfer (R57-R60). -/
structure Transfer where
  owner : Owner
  acc : Access
  len : Nat
  nextSeg : Nat
  content : Nat
  last : Nat
  /-- The command sequence number while VALIDATING. -/
  validating : Option Nat
deriving DecidableEq, Repr

/-- A pending command (R50-R55). -/
structure PendCmd where
  key : Nat
  cmdSeq : Nat
  acc : Access
  arg : Nat
  start : Nat
deriving DecidableEq, Repr

/-- The registers of a dictionary slot (Table 2-6). -/
structure Slot where
  wdata : Word
  resp : Word
  rdata : Word
  seg : Nat
deriving DecidableEq, Repr

/-- A response record kept for a remote path (R72). -/
structure Kept where
  seq : Nat
  resp : Word
  data : Word
  seg : Option Nat
deriving DecidableEq, Repr

structure Dict where
  /-- Scalar objects by index * 256 + sub-index (unlisted: the object table's default). -/
  objs : SMap Word
  /-- Committed content of BLOB objects (unlisted: the object table's default). -/
  blobs : SMap Bytes
  xfers : SMap Transfer
  cmdSeq : Nat
  cmds : List PendCmd
  /-- Slots: function * 64 + slot. -/
  slots : SMap Slot
  /-- Kept responses, newest first: endpoint id, or 256 + chip for the fabric. -/
  kept : SMap (List Kept)
  /-- DICT records due to a chip and not yet framed, oldest first (06 R186). -/
  fabricOut : List (Nat × Bytes)
  /-- Places of the fabric bridge held (06 R186). -/
  places : Nat
  /-- Highest accepted Seal counter and map of the 64 below it, by sending port of FM_CHIP (10 R316). -/
  dictWin : SMap (Nat × Nat)
  /-- TAP values of the partitions' objects as of the latest refresh, by index * 256 + sub-index (01 R35; unlisted: 0). -/
  taps : SMap Nat
  /-- The stored persistent image (outside the block, in the root of trust's store, R73); none: nothing stored. -/
  image : Option Bytes
deriving DecidableEq, Repr

/-! ## Partitions, contexts, functions (03) -/

/-- Life-cycle states (Table 3-1). -/
inductive PState where
  | free | building | live | withdrawing | scrubbing
deriving DecidableEq, Repr

/-- States of a context slot (03, "Contexts and generations"). -/
inductive CtxState where
  | free | open | closing
deriving DecidableEq, Repr

structure CtxSlot where
  st : CtxState
  gen : Nat
  /-- Local time of the fence of a CTX_CLOSE (R94). -/
  fencedAt : Nat
  /-- A CTX_CLOSE brought the slot to CLOSING (and not a withdrawal). -/
  byCommand : Bool
deriving DecidableEq, Repr

/-- A withdrawal in progress (R96). -/
structure Withdrawal where
  fencedAt : Nat
  /-- DRAIN_TIMEOUT as read at the fence, in microseconds. -/
  drain : Nat
  /-- Transactions answered WITHDRAWN at the drain timeout. -/
  expired : Nat
  /-- Steps 1 to 4 of Table 3-5 have run. -/
  handed : Bool
deriving DecidableEq, Repr

/-- A partition: its life-cycle state, the staged or held descriptor (Tables 3-2, 3-15), its contexts, roots and
accounts. -/
structure Part where
  st : PState
  engines : Nat
  granules : Nat
  share : Nat
  qpBase : Nat
  qpCount : Nat
  keyBase : Nat
  keyCount : Nat
  chanBase : Nat
  chanCount : Nat
  sched : Nat
  energy : Nat
  sealed : Bool
  domain : Nat
  hostLink : Bool
  vf : Nat
  cause : Nat
  ctxs : SMap CtxSlot
  /-- Stage-1 roots by context: IPA[47:12] (unlisted: not VALID) (04 R138). -/
  s1Roots : SMap Nat
  wd : Withdrawal
  /-- PHASE of the pass over the dirty-page ring (R111). -/
  logPhase : Bool
deriving DecidableEq, Repr

/-- Scrub state of a granule (Table 4-16). -/
inductive Scrub where
  | clean | inUse | scrubbing | unscrubbed
deriving DecidableEq, Repr

/-- An owner-map entry (Table 4-16); EXISTS follows from the straps. -/
structure OwnerEntry where
  owner : Nat
  sealed : Bool
  scrub : Scrub
deriving DecidableEq, Repr

/-- An MSI-X vector: table entry and pending bit (R104). -/
structure Vector where
  addr : BitVec 64
  data : BitVec 32
  ctrl : BitVec 32
  pend : Bool
deriving DecidableEq, Repr

structure Ptb where
  parts : SMap Part
  /-- TDISP_STATE by virtual function (R109). -/
  tdisp : SMap Nat
  vfEnable : Bool
  /-- MSI-X vectors: function * 256 + vector. -/
  msix : SMap Vector
  /-- Owner maps by granule number (R146). -/
  owners : SMap OwnerEntry
deriving DecidableEq, Repr

/-! ## Translation (04) -/

/-- Rights of a leaf (Table 4-7). -/
structure Rights where
  rd : Bool
  wr : Bool
  amo : Bool
deriving DecidableEq, Repr

/-- What a request does to memory (Table 4-10, OP). -/
inductive Access4 where
  | read | write | atomic | reduce
deriving DecidableEq, Repr

/-- A buffer entry (R130): combined (VA page of a CTX) or stage-2 (IPA page of a PID; then cx, gen and the stage-1
rights play no part). Pages are counted in units of 32 MiB; `big` marks a 1 GiB page. -/
structure TEntry where
  stage2 : Bool
  ctx : Ctx
  page : Nat
  big : Bool
  pa : Nat
  r1 : Rights
  r2 : Rights
  rwin : Nat
  ipaPage : Nat
  ipaBig : Bool
deriving DecidableEq, Repr

/-- Who asks for a translation, for FAULT_INFO (Table 4-10) and for the outcome of a walk. -/
structure Asker where
  holder : Holder
  source : Nat
  unit : Nat
deriving DecidableEq, Repr

/-- A running walk (R126-R132): the entries it has read so far, by physical address. -/
structure Walk where
  num : Nat
  ctx : Ctx
  va : Nat
  reads : SMap Nat
  /-- The table read it waits for, and when it was issued. -/
  need : Nat
  since : Nat
  askers : List Asker
deriving DecidableEq, Repr

/-- The outcome of a stopped walk, kept for the requester that waited for it (R126, R129). -/
structure WalkFault where
  holder : Holder
  ctx : Ctx
  page : Nat
  st : Status
  cause : Nat
  level : Nat
deriving DecidableEq, Repr

/-- An invalidation scope (Table 4-13). -/
inductive Scope where
  | sync | s1Range | s1Context | s2Range | partition | all
deriving DecidableEq, Repr

/-- A queued invalidation record; `waitOn` holds the numbers of the tiles that used removed entries (R142). -/
structure InvRec where
  seq : Nat
  rejected : Bool
  waitOn : List Nat
deriving DecidableEq, Repr

structure InvSlot where
  overflow : Bool
  rejected : Bool
  seq : Nat
  queue : List InvRec
deriving DecidableEq, Repr

/-- A root or invalidation command waiting for tiles that used removed entries (R137, R138, R145). -/
structure InvCmd where
  key : Nat
  waitOn : List Nat
  /-- S1_ROOT_SET: the partition, context and root that stand again if a withdrawal overtakes it (02 R54, R56). -/
  undo : Option (Nat × Nat × Option Nat)
deriving DecidableEq, Repr

structure Hub where
  /-- The 128-entry buffer of each Engine Station. -/
  esTlb : SMap (List TEntry)
  shared : List TEntry
  walks : List Walk
  /-- Misses waiting for a walker, oldest first. -/
  missWait : List (Ctx × Nat × Asker)
  walkTurn : Nat
  walkFaults : List WalkFault
  inv : SMap InvSlot
  invCmds : List InvCmd
  /-- The number of the next tile to be translated. -/
  nextTile : Nat
deriving DecidableEq, Repr

/-! ## Ladle (05) -/

/-- The channel states (Table 5-8). -/
inductive ChanState where
  | off | idle | active | paceWait | halted
deriving DecidableEq, Repr

/-- Where a burst in flight stands (R160-R162): its source tile awaits translation, its read beats win slots, its data
are awaited, its destination tile awaits translation, its write beats win slots, its acknowledgement is awaited. -/
inductive BurstPhase where
  | wantRead | readBeats | reading | wantWrite | writeBeats | writing
  | failed (st : Status) (write : Bool) (va : Nat)
deriving DecidableEq, Repr

structure Burst where
  num : Nat
  phase : BurstPhase
  /-- Beats that have won a slot in the phase `readBeats` or `writeBeats`: the position a pre-empted channel keeps
  (R161). -/
  slots : Nat
  /-- Where the tile being moved lies. -/
  segs : List Seg
  data : Nat
  /-- Beats that came back, or met a check point, poisoned. -/
  poison : Nat
deriving DecidableEq, Repr

/-- What a channel that is ACTIVE is doing: fetching a descriptor, moving bursts, reading the last beat back, or
writing the status and control words (R154, R170). -/
inductive ChanPhase where
  | rest | fetch | bursts | readback | writeback | control
deriving DecidableEq, Repr

/-- An ABORT accepted and not yet done: the command's result object, if it came as a command (R168, R169). -/
structure AbortReq where
  key : Option Nat
deriving DecidableEq, Repr

structure Chan where
  st : ChanState
  phase : ChanPhase
  /-- The copy of the descriptor at HEAD (512 bits). -/
  desc : Nat
  /-- The next burst to start. -/
  next : Nat
  flights : List Burst
  /-- A destination beat of this descriptor has been written. -/
  wrote : Bool
  /-- Status and residue (beats) of the descriptor being completed. -/
  endSt : Status
  residue : Nat
  /-- The rejected descriptor's interrupt is also that of its halt (R158). -/
  rejected : Bool
  /-- KIND and failing burst of the latest halt (Table 5-6); its status is in FAIL_INFO. -/
  haltKind : Nat
  haltBurst : Nat
  abort : Option AbortReq
  /-- A teardown asks the channel to stop at the next burst boundary (R172). -/
  stop : Option Status
  /-- The channel goes OFF after the write-back (R172). -/
  offAfter : Bool
  /-- Where the single access in progress lies (descriptor fetch, read-back, write-back). -/
  io : List Seg
  /-- The last burst written, and one more than the last since the descriptor or a RESUME began (R170, R171). -/
  lastBurst : Nat
  ackTop : Nat
deriving DecidableEq, Repr

structure Ladle where
  chans : SMap Chan
  /-- Level and OVERFLOW of each pacing line (R164). -/
  pace : SMap (Nat × Bool)
  /-- The channels served last: by a pacing line, with a read slot, with a write slot (R160, R164). -/
  turn : Nat
  turnRead : Nat
  turnWrite : Nat
  /-- Beat slots spent in the present cycle of local time (R160). -/
  readSlots : Nat
  writeSlots : Nat
deriving DecidableEq, Repr

/-! ## Fabric transport, queue pairs, keys, credits (06, 07) -/

/-- Queue-pair states (Table 7-1). -/
inductive QpState where
  | reset | init | ready | error | draining | takenOver
deriving DecidableEq, Repr

/-- Key states (Table 7-9). -/
inductive KeyState where
  | free | valid | revoking
deriving DecidableEq, Repr

/-- A key entry (Table 7-9), with the time it entered REVOKING (R236). -/
structure Key where
  st : KeyState
  gen : Nat
  pid : Nat
  cx : Nat
  base : Nat
  len : Nat
  /-- READ, WRITE, REDUCE and ATOMIC as bits 3 to 0. -/
  rights : Nat
  bind : Bool
  bindQp : Nat
  out : Nat
  since : Nat
deriving DecidableEq, Repr

/-- A completion tracker (R195). -/
structure Tracker where
  msn : Nat
  bytes : Nat
  rcq : Bool
  count : Nat
  keyIndex : Nat
  baseOff : Nat
  opcode : Nat
  /-- The receive completion is due and not yet written (R230). -/
  waits : Bool
deriving DecidableEq, Repr

/-- A PSN handed out and not yet acknowledged (R201-R204, R210). -/
structure Flight where
  psn : Nat
  attempt : Nat
  /-- When its timer last started; it runs once the packet has been sent or is held (R191, R238). -/
  since : Nat
  running : Bool
  /-- Port and seal counter of its latest transmission. -/
  stamp : Option (Nat × Nat)
  /-- The first PSN of the request it belongs to, which holds its transaction tag (01 R27). -/
  req : Nat
deriving DecidableEq, Repr

/-- Who started a message: the WQE at a send-queue index, or a request of an engine or of the Ladle that translated
through a remote leaf (R120). -/
inductive Origin where
  | wqe (index : Nat)
  | request (h : Holder) (ctx : Ctx)
  /-- A message of the failed chip sent again after a takeover, with its send-queue index there (13 R425). -/
  | copied (index : Nat)
deriving DecidableEq, Repr

/-- A message of the send side. -/
structure SendMsg where
  msn : Nat
  origin : Origin
  /-- Its work-queue entry (Table 7-6). -/
  wqe : Nat
  /-- First PSN, number of PSNs, and how many of them have been handed out. -/
  base : Nat
  n : Nat
  sent : Nat
  /-- Payload of a WRITE or REDUCE; bytes received of a READ that a request started. -/
  data : Nat
  /-- Bytes of a READ placed. -/
  got : Nat
  /-- The status it completed with, the NAK's status and the original value of an atomic. -/
  st : Option Status
  rstat : Nat
  result : Nat
deriving DecidableEq, Repr

/-- A completion entry due (Table 7-7, PHASE not yet in it); `slot` is the tracker it frees. -/
structure Cqe where
  entry : Nat
  slot : Option Nat
  /-- It is the entry of R216, which raises the vector whether armed or not. -/
  always : Bool
deriving DecidableEq, Repr

/-- What the send queue is doing with the WQE at `sqNext` (R225, R226). -/
inductive Fetch where
  | rest | wantWqe | readWqe | wantPayload | readPayload | ready
deriving DecidableEq, Repr

structure Qp where
  st : QpState
  /-- ERR_STATUS (code of Table 1-6; 0: none). -/
  err : Nat
  pid : Nat
  cx : Nat
  ownGen : Nat
  sqBase : Nat
  sqLog : Nat
  cqBase : Nat
  cqLog : Nat
  retx : Nat
  retry : Nat
  tcMask : Nat
  entropy : Nat
  vec : Nat
  rChip : Nat
  rQp : Nat
  rGen : Nat
  sendPsn : Nat
  nextMsn : Nat
  sqHead : Nat
  sqTail : Nat
  /-- The next WQE to fetch, what the queue pair does with it, its words and the pages of its payload. -/
  sqNext : Nat
  fetch : Fetch
  cur : Nat
  io : List Seg
  msgs : List SendMsg
  /-- Requests of engines and of the Ladle waiting to start a message, oldest first. -/
  asks : List SendMsg
  /-- MSNs of messages taken over whose payload is still to be read (13 R425 step 6). -/
  copies : List Nat
  flights : List Flight
  rxBase : Nat
  accepted : Nat
  placed : Nat
  /-- Oldest message not complete at the receive side, and which of it and the 7 after it are complete. -/
  rxMsn : Nat
  rxDone : Nat
  trackers : SMap Tracker
  refusing : Option Status
  /-- The last 16 executed atomics, newest first: PSN and original value (R207). -/
  replay : List (Nat × Nat)
  /-- Packets placed since the last ACK, and when the first of them was (R200). -/
  unreported : Nat
  unreportedAt : Nat
  cqProd : Nat
  cqCons : Nat
  phase : Bool
  armed : Bool
  due : List Cqe
  drainAt : Nat
  /-- DRAINING without retransmission (R217, Table 3-6). -/
  quiet : Bool
  /-- QP_RESET, drain or hand-back completes the WQEs left with this status (R217, R218). -/
  tearing : Option Status
  /-- The teardown is a QP_RESET (or ALIAS_END). -/
  resetting : Bool
  txMsgs : Nat
  rxMsgs : Nat
  txBytes : Nat
  rxBytes : Nat
  retxPkts : Nat
  /-- The five counters at the partition's latest TAP refresh (R246). -/
  taps : List Nat
  /-- A slot taken over (R425, R426), and the queue pair and partition of the primary it answers for. -/
  isAlias : Bool
  primary : Nat
  primaryPid : Nat
  /-- The body of the last mirror record sent for it (R416). -/
  mirrored : Bytes
deriving DecidableEq, Repr

/-- A packet waiting to be sent. -/
structure Tx where
  /-- Precedence of R244: 0 control, 1 mirror, 2 data. -/
  prec : Nat
  pid : Nat
  qp : Nat
  chip : Nat
  psn : Nat
  attempt : Nat
  /-- Traffic class charged for credit. -/
  tc : Option Nat
  /-- PCP class: the traffic class, or none (PCP_CTRL). -/
  pcp : Option Nat
  entropy : Nat
  dstQp : Nat
  /-- The plain text from the BTH on. -/
  body : Bytes
  port : Nat
  rport : Nat
  /-- The packet carries PSNs whose timers it drives. -/
  tracked : Bool
  /-- The key whose READ_REQ ends when this response has been sent (R234). -/
  lastOf : Option Nat
  waited : Bool
  retx : Bool
  /-- Numbers the responses of one READ_REQ among the packets queued. -/
  req : Nat
deriving DecidableEq, Repr

structure Port where
  linkUp : Bool
  degraded : Bool
  queue : List Tx
  /-- Transmit counter of the Seal header (R313). -/
  ctr : Nat
  realigning : Bool
  /-- Deficit of each partition in bytes, the partition served last, and the queue pair served last in each (R244). -/
  deficit : SMap Nat
  turn : Nat
  qpTurn : SMap Nat
  /-- The mirror's token bucket: tokens and when they were reckoned (R413). -/
  tokens : Nat
  tokensAt : Nat
deriving DecidableEq, Repr

/-- What an accepted request, or a READ_RESP, still has to do. -/
inductive WorkKind where
  | write | read | atomic | response
deriving DecidableEq, Repr

structure Work where
  kind : WorkKind
  qp : Nat
  psn : Nat
  /-- Absolute key index. -/
  key : Nat
  ctx : Ctx
  va : Nat
  len : Nat
  data : Nat
  /-- Bit `i`: beat `i` of its data is poisoned. -/
  poison : Nat
  /-- Message, ACKREQ, and the extension header of the packet; which of the works on the PSN this is. -/
  msn : Nat
  ackreq : Bool
  ext : Nat
  copy : Nat
  port : Nat
  issued : Bool
  segs : List Seg
deriving DecidableEq, Repr

/-- Credit held from a chip (R238, R239). -/
structure TxCredit where
  synced : Bool
  limit : List Nat
  used : List Nat
  leaseAt : Nat
deriving DecidableEq, Repr

/-- States of Table 7-12. -/
inductive CreditState where
  | quiet | base | active
deriving DecidableEq, Repr

/-- Credit granted to a chip (R237, R240, R241). -/
structure RxCredit where
  st : CreditState
  g : List Nat
  u : List Nat
  t : List Nat
  /-- When the state was entered, whether and when the last CREDIT was sent, and the last credit-class arrival. -/
  entered : Nat
  sent : Bool
  sentAt : Nat
  arrivedAt : Nat
  /-- Classes in which the source sent something since the last CREDIT_REFRESH. -/
  seen : List Bool
  /-- When the last period of CREDIT_REFRESH began: at entry to BASE, then at each refresh. -/
  refreshed : Nat
deriving DecidableEq, Repr

structure Tpe where
  qps : SMap Qp
  keys : SMap Key
  ports : SMap Port
  noPath : List Tx
  /-- Entropy counter of packets without a queue pair (R189). -/
  entropy : Nat
  works : List Work
  txCredit : SMap TxCredit
  rxCredit : SMap RxCredit
  /-- Receive-pool slots occupied and reserved (R237). -/
  occupied : Nat
  reserved : Nat
  creditTurn : Nat
deriving DecidableEq, Repr

/-! ## Answers kept for internal requesters -/

/-- The outcome of a request that the SSU or the transport finished for another unit, kept until the requester takes
it. -/
structure Reply where
  holder : Holder
  st : Status
  data : Bytes
  poison : Bool
deriving DecidableEq, Repr

/-! ## Mirror (13) -/

/-- A mirror record (Table 13-2); `born` is when the change it carries was made. -/
structure MRec where
  kind : Nat
  pid : Nat
  index : Nat
  mseq : Nat
  sync : Bool
  body : Bytes
  born : Nat
  /-- It has been sent at least once. -/
  sent : Bool
deriving DecidableEq, Repr

/-- A record received for a shadow's queue pair or key, until TAKEOVER (R423, R425). -/
structure Shadow where
  part : Bytes
  acct : Bytes
  groups : SMap Bytes
  qps : SMap Bytes
  keys : SMap Bytes
  /-- ATOMIC records by primary queue pair, newest first. -/
  atomics : SMap (List (Nat × Nat))
  takenGroups : Bytes
  /-- ALIAS_END has released the reserved slots (R428). -/
  released : Bool
deriving DecidableEq, Repr

/-- A changed object whose record waits for room in the replay buffer (R419), and since when; `kind` is 256 more for a
record of a full copy. -/
structure MirrorMark where
  kind : Nat
  pid : Nat
  index : Nat
  since : Nat
deriving DecidableEq, Repr

structure Mirror where
  /-- Records emitted and not yet sent; records sent and not acknowledged, oldest first. -/
  queue : List MRec
  replay : List MRec
  marks : List MirrorMark
  mseq : Nat
  /-- The last SYNC record of the copy under way (R421). -/
  syncEnd : Option Nat
  /-- When an acknowledgement last advanced or records last became outstanding; when records were last sent (R419). -/
  ackAt : Nat
  sentAt : Nat
  recordAt : Nat
  /-- Records applied since the last ACK, and when the first of them was (R418). -/
  applied : Nat
  appliedAt : Nat
  /-- The MIRROR packet that is next waits for credit, and has been counted (07 R238). -/
  noCredit : Bool
  shadows : SMap Shadow
deriving DecidableEq, Repr

/-! ## Keys of the seals (10) -/

/-- Staging registers and installed keys (10 R309-R315): a key is its 256-bit number. -/
structure Keyring where
  stageSpill : List (BitVec 32)
  stageLink : List (BitVec 32)
  linkCur : Option Nat
  linkNext : Option Nat
  linkPrev : Option Nat
  switchAt : Nat
  spillCur : Option Nat
  spillNext : Option Nat
  fresh : Bool
deriving DecidableEq, Repr

/-! ## Crucibles and runner programs (08, 09) -/

/-- Group states (Table 8-4). -/
inductive GState where
  | idle | arming | armed | completing | done | aborted
deriving DecidableEq, Repr

/-- Where a group's completion stands (Table 8-9): its stream table is read, its streams are bound, phase 1 runs, phase
2 is due or runs, the cast or the read-back is under way. -/
inductive GStage where
  | rest | table | bind | phase1 | between | phase2 | cast | readback
deriving DecidableEq, Repr

/-- A version of a runner program (R304): its serial number in the store and its image. -/
structure Version where
  serial : Nat
  image : Bytes
deriving DecidableEq, Repr

/-- A bound stream (R297): its number, its entry and its extent. -/
structure Bound where
  num : Nat
  entry : Nat
  segs : List Seg
deriving DecidableEq, Repr

/-- The bytes of a piece of memory that a completion program loads or stores (09 R296, R300): of `len` bytes from a
physical address, in each run of `period` bytes the `take` bytes after the first `skip`. `who` is the stream, 8 the
accumulator. -/
structure Extent where
  who : Nat
  stored : Bool
  pa : Nat
  len : Nat
  period : Nat
  skip : Nat
  take : Nat
deriving DecidableEq, Repr

structure Group where
  st : GState
  /-- The state before the GROUP_ARM under way (R252, R54). -/
  prev : GState
  /-- The group record of this round, once read and checked (Table 8-1). -/
  record : Option Nat
  /-- While ARMING: the record of the new round has been read and checked. -/
  checked : Bool
  /-- Where the record read, the stream table read or the read-back in progress lies. -/
  io : List Seg
  applied : Nat
  messages : Nat
  hits : Nat
  /-- Cached ledger bits: slot to the map of its contributors (R261, R262). -/
  cached : SMap Nat
  /-- Physical address of each 32 MiB page of the image, as last translated. -/
  pages : List (Option Nat)
  armedAt : Nat
  arr : Option Version
  cmp : Option Version
  /-- The local slot being read, and where it lies (R268). -/
  localSlot : Nat
  localIo : List Seg
  stage : GStage
  streams : List Bound
  /-- What the running program loads or stores. -/
  extents : List Extent
  /-- Ranges written by others while the completion program runs (R300): address and length. -/
  disturbed : List (Nat × Nat)
  /-- Results of the stations that have finished the phase, by station (R292), and the scalar (R293). -/
  results : SMap Nat
  scalar : Nat
  /-- Virtual address of the last beat written by the program or the cast. -/
  lastVa : Option Nat
  saturated : Nat
  nans : Nat
  /-- A completion record not yet written because its translation waits: its bytes. -/
  recordDue : Option Nat
  /-- A GROUP_ABORT whose applications have not all finished: the status the group ends with by R32, and whether its
  record is written (R276, R277). -/
  ending : Option (Status × Bool)
deriving DecidableEq, Repr

/-- An application past check 13 (R265): waiting for its translation, for its anchor's lock, holding it, or applied and
not yet reported. -/
inductive AppSt where
  | xlate | queued | locked | applied
deriving DecidableEq, Repr

structure App where
  num : Nat
  pid : Nat
  group : Nat
  slot : Nat
  contrib : Nat
  payload : Bytes
  /-- A flit of the packet was uncorrectable (01 R25). -/
  poison : Bool
  isLocal : Bool
  /-- Of a packet: queue pair, PSN, MSN, absolute key, ACKREQ and port. -/
  qp : Nat
  psn : Nat
  msn : Nat
  key : Nat
  ackreq : Bool
  port : Nat
  pa : Nat
  /-- The first piece of the tile its address was translated as. -/
  tile : Seg
  st : AppSt
deriving DecidableEq, Repr

/-- Who waits for a line lock (R267). -/
inductive LockWho where
  | app (num : Nat)
  | packet (qp psn : Nat)
  | engine (es num : Nat)
deriving DecidableEq, Repr

structure LockWait where
  ms : Nat
  pa : Nat
  /-- How many lines its lock covers: two for an application whose ledger row has 512 bytes (R265). -/
  lines : Nat
  who : LockWho
  since : Nat
deriving DecidableEq, Repr

/-- A lane of a bundle (R280): 32 registers, the predicates p0-p3 as bits 0-3, and whether its element is one of the
group's. -/
structure Lane where
  regs : List Nat
  preds : Nat
  active : Bool
deriving DecidableEq, Repr

/-- A completion program at one Memory Station (R290, R292): its phase, the bundle it runs (slot, bundle of the slot,
next instruction, lanes), the station's 128 partials and the words of its broadcast streams. -/
structure Job where
  pid : Nat
  group : Nat
  phase : Nat
  slot : Nat
  bundle : Nat
  pc : Nat
  lanes : List Lane
  partials : List Nat
  bcast : SMap Nat
  fin : Bool
deriving DecidableEq, Repr

structure Crucible where
  /-- Groups: 65536 x PID + relative group. -/
  groups : SMap Group
  apps : List App
  nextApp : Nat
  /-- Lock entries: station, first line (physical address / 256) and how many lines; requests waiting, oldest first. -/
  locks : List (Nat × Nat × Nat)
  waits : List LockWait
  /-- Programs at each station, the one whose bundle runs first. -/
  jobs : SMap (List Job)
  /-- Current versions: PID * 256 + program. -/
  progs : SMap Version
  serial : Nat
  /-- Programs validated and waiting for a version place (R304): PID * 256 + program. -/
  valid : List Nat
deriving DecidableEq, Repr

/-! ## Spill Seal Unit (10) -/

/-- A node of the counter cache (Tables 10-4, 10-5): its 512 bits and its dirty mark. -/
structure TreeNode where
  val : Nat
  dirty : Bool
deriving DecidableEq, Repr

/-- A spill access under way (R322). -/
structure SpillOp where
  num : Nat
  holder : Holder
  ctx : Ctx
  write : Bool
  off : Nat
  len : Nat
  data : Nat
  /-- Bit `i`: beat `i` of the data written is poisoned. -/
  poison : Nat
  left : Nat
  st : Status
  got : Nat
deriving DecidableEq, Repr

/-- One line of a spill access: whether its data and tag (of a minor-counter overflow: its leaf's lines) have been asked
for, whether it waits for an overflow, and its data and tag once they have come (R322-R325). -/
structure LineOp where
  op : Nat
  line : Nat
  asked : Bool
  beyond : Bool
  ans : Option LineAnswer
deriving DecidableEq, Repr

structure Ssu where
  root : List Nat
  /-- Cached nodes: level * 2^30 + node. -/
  cache : SMap TreeNode
  /-- Nodes being fetched. -/
  fetching : List Nat
  /-- Condemned nodes in the order of CONDEMNED (level 10: the root), and retired spill units (R328, R333). -/
  condemned : List (Nat × Nat)
  retired : List Nat
  ops : List SpillOp
  lines : List LineOp
  nextOp : Nat
  /-- Lines poisoned by the Anneal under way (R336), and when its last leaf was converted (R335). -/
  annealPoisoned : Nat
  annealAt : Nat
  /-- The leaf at the boundary is locked and its lines are being read (Table 10-10). -/
  annealLock : Bool
  /-- When each node was last written back (R321). -/
  wroteAt : SMap Nat
  /-- Leaves done of the unit resets under way, by partition (R333). -/
  resets : SMap Nat
deriving DecidableEq, Repr

/-! ## Engine Stations and the Chanter (01 R15-R17; 11) -/

/-- A request of an engine cluster that its station holds: Table 1-9's EQ_OP (a WAIT that stands for a COMMIT is 11). -/
structure EReq where
  num : Nat
  op : Nat
  va : Nat
  len : Nat
  data : Nat
  compare : Nat
  ctx : Ctx
  segs : List Seg
  issued : Bool
  /-- It stays behind an earlier request to its line or page (04 R131). -/
  behind : Bool
deriving DecidableEq, Repr

/-- A submission buffered at a station (R347). -/
structure Sub where
  pid : Nat
  desc : Nat
deriving DecidableEq, Repr

structure Station where
  /-- A WAIT is parked. -/
  waiting : Bool
  /-- The step dispatched there, until it ends or its kill is answered, and its partition. -/
  step : Option Nat
  pid : Nat
  /-- The partition whose step last ran there; 0: none has, 64: one that is gone (R86). -/
  lastPid : Nat
  /-- KILL_REQ is asserted, since when. -/
  killing : Bool
  killAt : Nat
  reqs : List EReq
  subs : List Sub
deriving DecidableEq, Repr

/-- Step states (Table 11-6). -/
inductive StepState where
  | queued | dispatching | running | bound
deriving DecidableEq, Repr

/-- What a kill under way comes to: the step is queued again, or ends with a status (R355, R356). -/
inductive KillEnd where
  | again | ends (st : Status)
deriving DecidableEq, Repr

structure Step where
  num : Nat
  pid : Nat
  queue : Nat
  /-- The context it was queued in. -/
  ctx : Ctx
  desc : Nat
  /-- Its range entries (Table 11-2). -/
  ranges : List Nat
  seq : Nat
  st : StepState
  kills : Nat
  /-- Its clusters in rank order, those whose R86 kill is not yet answered, and those that have committed. -/
  clusters : List Nat
  before : List Nat
  committed : List Nat
  /-- When its WAITs were answered. -/
  since : Nat
  /-- Engine-cluster-cycles and energy of this run. -/
  cycles : Nat
  energy : Nat
  kill : Option KillEnd
  /-- Clusters whose KILL_DONE the kill still waits for. -/
  left : List Nat
  /-- The quantum has ended; engine-cluster-cycles since it was first displaced while BOUND. -/
  past : Bool
  displaced : Bool
  overrun : Nat
deriving DecidableEq, Repr

/-- A step result waiting for its translation (R353). -/
structure StepResult where
  num : Nat
  queue : Nat
  ctx : Ctx
  va : Nat
  body : Nat
deriving DecidableEq, Repr

/-- Per-cluster accounts of a window (R357, R358), in engine-cluster-cycles; keys PID * 128 + cluster, or the cluster. -/
structure Window where
  occupied : SMap Nat
  backlogged : SMap Nat
  contendedUse : SMap Nat
  contended : SMap Nat
  /-- Energy measured, by cluster, and by partition. -/
  energy : SMap Nat
  partEnergy : SMap Nat
  /-- Sums of the calibrated samples and their number: package power, and each zone's temperature. -/
  power : Int × Nat
  temps : SMap (Int × Nat)
deriving DecidableEq, Repr

/-- A window that is over, whose update the Reed cores have yet to finish (R371): when it ended, its accounts, the overrun
committed in it, and SCHED and ENERGY_ALLOWANCE as they stand after the update (Table 3-2). -/
structure PastWindow where
  since : Nat
  win : Window
  excess : SMap Nat
  set : SMap (Nat × Nat)
deriving DecidableEq, Repr

structure Chanter where
  stations : SMap Station
  /-- Queued and running steps, each queue in its order. -/
  steps : List Step
  nextStep : Nat
  nextReq : Nat
  /-- STEP_SEQ to come, by partition. -/
  seqs : SMap Nat
  /-- Ring reads under way: PID * 8 + queue to where the descriptor lies (nothing yet: its translation waits). -/
  rings : SMap (List Seg)
  results : List StepResult
  /-- DEFICIT in engine-cluster-cycles, and overrun not yet subtracted, by partition. -/
  deficit : SMap Int
  overDue : SMap Nat
  /-- By how much the partition's cap allowance on a cluster is lowered in this window. -/
  capCut : SMap Nat
  now : Window
  /-- Windows whose updates are due, oldest first. -/
  past : List PastWindow
  windowAt : Nat
  /-- The latest EN_COUNT of each station. -/
  enCount : SMap Nat
  /-- Energy not yet a whole µJ, by partition. -/
  enRest : SMap Nat
  /-- The latest PKG_POWER reading was invalid; zones whose latest reading was; zones tripped. -/
  powerBad : Bool
  zonesBad : List Nat
  tripped : List Nat
  /-- The budgets of this window in µW·10 ns parts: the package's, if any. -/
  pkgBudget : Option Nat
  zoneBudget : SMap Nat
  /-- SCHED and ENERGY_ALLOWANCE as the latest update left them standing (a partition not listed: its own; Table 3-2,
  R371). -/
  inForce : SMap (Nat × Nat)
  /-- Steps counted in BUDGET_WAITS in this window. -/
  counted : List Nat
  /-- The partition and the queue of it chosen last. -/
  turn : Nat
  queueTurn : SMap Nat
  /-- Steps ended by the QUEUE_FLUSH under way, by partition. -/
  flushed : SMap Nat
deriving DecidableEq, Repr

/-! ## Faults, hangs, Skim (12) -/

/-- An event waiting for the FCU (R381). -/
structure Event where
  fsrc : Nat
  unit : Nat
  pid : Nat
  addr : Nat
  detail : Nat
  injected : Bool
deriving DecidableEq, Repr

/-- The states of a reset domain (Table 12-5). -/
inductive DomState where
  | inService | fencing | dumping | resetting | retraining | out | blockFenced
deriving DecidableEq, Repr

structure Domain where
  st : DomState
  /-- The entry was DEGRADE or UNIT_OUT, so that the domain ends OUT. -/
  toOut : Bool
  /-- The entry was UNIT_OUT (a dump then ends in RESETTING, Table 12-5). -/
  byCommand : Bool
  /-- Skim was triggered at the entry. -/
  dump : Bool
  /-- A DEGRADE during recovery (R395). -/
  degraded : Bool
  since : Nat
  drain : Nat
  /-- The domain was OUT when the block was fenced. -/
  wasOut : Bool
deriving DecidableEq, Repr

structure SkimState where
  /-- Units still to be read, in ascending number. -/
  left : List Nat
  /-- Bytes of the dump after the header. -/
  body : Bytes
  start : Nat
  asked : Nat
  trigSeq : Nat
  units : Nat
  noResp : Nat
deriving DecidableEq, Repr

/-- A wait-for cycle standing at the last scan: its member queues and the scans it has stood (R400). -/
structure Standing where
  members : List Nat
  scans : Nat
deriving DecidableEq, Repr

/-- A Drone: the counter value last seen, when its window began and whether it was armed (R401). -/
structure Drone where
  seen : Nat
  start : Nat
  armed : Bool
deriving DecidableEq, Repr

structure Fcu where
  queue : List Event
  held : List Event
  /-- The ring of 256 records by slot; number of records written so far. -/
  log : SMap Nat
  logged : Nat
  firstFatal : Nat
  lastFence : Nat
  /-- SEQ of the latest FENCE or FATAL record outside recovery and FACTORY (R384). -/
  qualifying : Option Nat
  /-- Open count windows: source to opening time and count (R379). -/
  windows : SMap (Nat × Nat)
  /-- Reset domains: the unit's number, or 0x1_0000 + partition domain. -/
  doms : SMap Domain
  /-- Time of the latest FENCE or FATAL reaction, and whether FAULT_L_RELEASE has finished since (R385). -/
  faultAt : Nat
  faultReleased : Bool
  standing : List Standing
  drones : SMap Drone
  /-- Progress counters that the Drones and Skim watch, by unit (Table 12-9). -/
  progress : SMap Nat
  skim : SkimState
  /-- FSRC of each unit's latest event (Table 12-12, word 6). -/
  lastSrc : SMap Nat
  /-- While whole-block recovery drains the block (R394 step 1): when it began, and its drain timeout in µs. -/
  blockDrain : Option (Nat × Nat)
deriving DecidableEq, Repr

/-! ## The whole block -/

structure Block where
  clk : Clock
  straps : Straps
  tags : Tags
  dict : Dict
  ptb : Ptb
  /-- Package memory, one byte per local address (unlisted: 0). -/
  mem : List Host.Cell
  hub : Hub
  ladle : Ladle
  tpe : Tpe
  /-- Answers the SSU and the transport hold for other units. -/
  replies : List Reply
  mirror : Mirror
  ring : Keyring
  ssu : Ssu
  cru : Crucible
  cha : Chanter
  fcu : Fcu
  /-- Wake sources held until the wake is complete, oldest first (14 R440). -/
  held : List Instr
  /-- Counter of the free values (the model's own). -/
  fresh : Nat
  /-- What the block has presented at its boundary, oldest first. -/
  out : List Out
deriving DecidableEq, Repr

/-- The state of the machine: the block, and the commands waiting for it, first in, first out. -/
structure State where
  dev : Block
  pending : List Instr
deriving DecidableEq, Repr

/-- A fault would stop the machine; the spec names no stop of the block (01, 12: it reports, fences and goes on), so
that there is none. -/
inductive Fault
deriving DecidableEq, Repr

/-- Why a command has no meaning. -/
inductive Refusal where
  /-- Answered by an arm of Dispatch.lean alone, for a command whose meaning is not written; safe: nothing is claimed. -/
  | notModelled (mnemonic : String)
deriving DecidableEq, Repr

/-! ## Reset -/

def Window.fresh : Window := ⟨[], [], [], [], [], [], (0, 0), []⟩

def Chanter.reset : Chanter :=
  { stations := [], steps := [], nextStep := 0, nextReq := 0, seqs := [], rings := [], results := [], deficit := []
    overDue := [], capCut := [], now := Window.fresh, past := [], windowAt := 0
    enCount := [], enRest := [], powerBad := false, zonesBad := [], tripped := [], pkgBudget := none, zoneBudget := []
    inForce := [], counted := [], turn := 0, queueTurn := [], flushed := [] }

/-- The block held in reset (14 R431, R432; log 1): every unit at the values Tables 1-7 to 14-6 give, nothing listed in
the sparse arrays, STARTUP_STEP 1, and the clock inputs low. -/
def Block.reset : Block :=
  { clk := ⟨0, false, false, 0, 0⟩
    straps := ⟨0, 0, 0, 0, [], []⟩
    tags := ⟨[], [], 0, 0, 0, []⟩
    dict := ⟨[], [], [], 0, [], [], [], [], 0, [], [], none⟩
    ptb := ⟨[], [], true, [], []⟩
    mem := []
    hub := ⟨[], [], [], [], 0, [], [], [], 1⟩
    ladle := ⟨[], [], 0, 0, 0, 0, 0⟩
    tpe := ⟨[], [], [], [], 0, [], [], [], 0, 0, 0⟩
    replies := []
    mirror := ⟨[], [], [], 0, none, 0, 0, 0, 0, 0, false, []⟩
    ring := ⟨[], [], none, none, none, 0, none, none, false⟩
    ssu := ⟨[0, 0, 0, 0, 0, 0, 0, 0], [], [], [], [], [], [], 0, 0, 0, false, [], []⟩
    cru := ⟨[], [], 0, [], [], [], [], 0, []⟩
    cha := Chanter.reset
    fcu := ⟨[], [], [], 0, 0, 0, none, [], [], 0, false, [], [], [], ⟨[], ⟨0, 0⟩, 0, 0, 0, 0, 0⟩, [], none⟩
    held := []
    fresh := 0
    out := [] }

def State.reset : State := ⟨Block.reset, []⟩

end Sys2Proof.Machine
end

