-- ==== Sys2Proof/Machine/Bits.lean ====
section
/-! DEFINITION. Bit fields of numbers, byte strings, and the operations on sparse arrays. -/

namespace Sys2Proof.Machine

/-! ## Bit fields (00 R6) -/

/-- The `w` bits of `n` from bit `lo` up. -/
def bits (n lo w : Nat) : Nat := (n >>> lo) % 2 ^ w

def bitAt (n i : Nat) : Bool := n.testBit i

/-- Bit `b` of a word that has the bits `[hi:lo]` reserved: all zero? -/
def zeroBits (n lo w : Nat) : Bool := bits n lo w == 0

def ofBool (b : Bool) : Nat := if b then 1 else 0

/-- `n` with the field of `w` bits at `lo` replaced by `v`. -/
def setBits (n lo w v : Nat) : Nat :=
  (n % 2 ^ lo) + ((v % 2 ^ w) <<< lo) + ((n >>> (lo + w)) <<< (lo + w))

def setBit (n i : Nat) (v : Bool) : Nat := setBits n i 1 (ofBool v)

/-- Two's complement of width `w`, as an integer. -/
def toSigned (w n : Nat) : Int := if n % 2 ^ w < 2 ^ (w - 1) then (n % 2 ^ w : Nat) else (n % 2 ^ w : Nat) - (2 ^ w : Nat)

/-- The `w`-bit two's complement of an integer. -/
def ofSigned (w : Nat) (i : Int) : Nat := (i % (2 ^ w : Nat)).toNat

/-- The lowest bit set in the low `fuel` bits of `n`. -/
def lowestBit (n : Nat) : Nat → Nat → Option Nat
  | _, 0 => none
  | i, fuel + 1 => if n.testBit i then some i else lowestBit n (i + 1) fuel

/-- How many of the low `fuel` bits of `n` are set. -/
def popCount (n : Nat) : Nat → Nat
  | 0 => 0
  | fuel + 1 => popCount n fuel + ofBool (n.testBit fuel)

/-- The numbers below `fuel` whose bit is set, rising. -/
def bitList (n fuel : Nat) : List Nat := (List.range fuel).filter (n.testBit ·)

/-! ## Byte strings (00 R7) -/

def byteOf (n i : Nat) : Nat := (n >>> (8 * i)) % 256

/-- `len` bytes of a little-endian number from byte `off`. -/
def slice (n off len : Nat) : Nat := (n >>> (8 * off)) % 2 ^ (8 * len)

/-- The bytes of a little-endian number in the opposite order. -/
def swapBytes (n : Nat) : Nat → Nat
  | 0 => 0
  | len + 1 => (n % 256) * 2 ^ (8 * len) + swapBytes (n / 256) len

/-- `n` with `len` bytes from byte `off` replaced. -/
def patch (n off len v : Nat) : Nat := setBits n (8 * off) (8 * len) v

def bytesAppend (a b : Bytes) : Bytes := ⟨a.len + b.len, a.val + (b.val <<< (8 * a.len))⟩

def bytesSlice (b : Bytes) (off len : Nat) : Bytes := ⟨len, slice b.val off len⟩

def bytesOf (len v : Nat) : Bytes := ⟨len, v % 2 ^ (8 * len)⟩

/-! ## Sparse arrays -/

/-- The entry of number `k`, if it is listed. -/
def find? {α : Type} : SMap α → Nat → Option α
  | [], _ => none
  | (k', v) :: m, k => if k' = k then some v else find? m k

/-- The entry of number `k`, or the array's default. -/
def look {α : Type} (m : SMap α) (d : α) (k : Nat) : α := (find? m k).getD d

/-- The array without an entry of number `k`. -/
def erase {α : Type} : SMap α → Nat → SMap α
  | [], _ => []
  | (k', v) :: m, k => if k' = k then erase m k else (k', v) :: erase m k

/-- The array with `v` listed at `k`, in its place in the rising order. -/
def insert {α : Type} : SMap α → Nat → α → SMap α
  | [], k, v => [(k, v)]
  | (k', v') :: m, k, v =>
    if k < k' then (k, v) :: (k', v') :: m
    else if k' = k then (k, v) :: m
    else (k', v') :: insert m k v

/-- The array with `v` at `k`; a value equal to the default `d` is not listed. -/
def store {α : Type} [DecidableEq α] (m : SMap α) (d : α) (k : Nat) (v : α) : SMap α :=
  match m with
  | [] => if v = d then [] else [(k, v)]
  | e :: m => if v = d then erase (e :: m) k else insert (e :: m) k v

/-- Strictly rising numbers. -/
def risingFrom {α : Type} : Nat → SMap α → Bool
  | _, [] => true
  | n, (k, _) :: m => decide (n ≤ k) && risingFrom (k + 1) m

/-- The canonical form of a sparse array whose default is `d`. -/
def canonical {α : Type} [DecidableEq α] (d : α) (m : SMap α) : Bool :=
  risingFrom 0 m && m.all fun e => decide (e.2 ≠ d)

end Sys2Proof.Machine
end

