-- ==== Sys2Proof/Machine/Objects.lean ====
section
/-! DEFINITION. The object table of the dictionary: every Index.Sub of the spec's object tables with its type, the right of
each role, its default and its legal values (02 R38-R41, and the tables of every chapter). -/

namespace Sys2Proof.Machine

/-- Object types (Table 2-1). -/
inductive OType where
  | u8 | u16 | u32 | u64 | i32 | bits32 | enum8 | fx | cmd | blob
deriving DecidableEq, Repr

/-- The entry of a role (00, "Object references"). -/
inductive Right where
  | none | ro | rw | wo | x
deriving DecidableEq, Repr

/-- Which values a write may carry. -/
inductive Legal where
  /-- Any value of the type. -/
  | any
  /-- A counter: only zero (01 R34). -/
  | counter
  | range (lo hi : Nat)
  | rangeOr (lo hi other : Nat)
  | signed (lo hi : Int)
  /-- A multiple of 2^`align` below 2^`top`. -/
  | mult (align top : Nat)
  /-- Stated object by object in `legalSpecial`. -/
  | special
deriving DecidableEq, Repr

/-- Rows `base` to `base + span - 1`, sub-indices `sub` to `sub + count - 1`. For a BLOB, `dflt` is the object's maximum
length. -/
structure ObjRow where
  base : Nat
  span : Nat
  sub : Nat
  count : Nat
  ty : OType
  host : Right
  tnt : Right
  fm : Right
  rot : Right
  fw : Right
  dflt : Nat
  legal : Legal
deriving DecidableEq, Repr

/-- Objects of 0x1000-0x1FFF (02 Table 2-2). -/
def objects1a : List ObjRow := [
  ⟨0x1000, 1, 0x01, 1, .u16, .ro, .ro, .ro, .ro, .ro, 0x2e5b, .any⟩,  -- VENDOR_ID
  ⟨0x1000, 1, 0x02, 1, .u16, .ro, .ro, .ro, .ro, .ro, 256, .any⟩,  -- BLOCK_REVISION
  ⟨0x1000, 1, 0x03, 1, .u16, .ro, .ro, .rw, .ro, .rw, 4095, (.range 0 4095)⟩,  -- CHIP_ID
  ⟨0x1000, 1, 0x04, 1, .u64, .ro, .none, .ro, .ro, .ro, 0, .any⟩,  -- ES_MASK_LO
  ⟨0x1000, 1, 0x05, 1, .u64, .ro, .none, .ro, .ro, .ro, 0, .any⟩,  -- ES_MASK_HI
  ⟨0x1000, 1, 0x06, 1, .bits32, .ro, .none, .ro, .ro, .ro, 0, .any⟩,  -- MS_MASK
  ⟨0x1100, 1, 0x01, 1, .u64, .ro, .ro, .ro, .ro, .ro, 0, .counter⟩,  -- LOCAL_TIME
  ⟨0x1100, 1, 0x02, 1, .bits32, .ro, .none, .ro, .ro, .ro, 0, .any⟩,  -- CLOCK_STATUS
  ⟨0x1200, 1, 0x01, 1, .u64, .ro, .none, .ro, .none, .rw, 0, .counter⟩,  -- BC_CORRECTED
  ⟨0x1200, 1, 0x02, 1, .u32, .ro, .none, .ro, .none, .rw, 0, .counter⟩,  -- BC_UNCORRECTABLE
  ⟨0x1200, 1, 0x03, 1, .u64, .ro, .none, .ro, .none, .rw, 0, .counter⟩,  -- SECDED_CORRECTED
  ⟨0x1200, 1, 0x04, 1, .u32, .ro, .none, .ro, .none, .rw, 0, .counter⟩,  -- SECDED_UNCORRECTABLE
  ⟨0x1200, 1, 0x05, 1, .u32, .ro, .none, .ro, .none, .ro, 0, .any⟩,  -- BC_LAST_SITE
  ⟨0x1200, 1, 0x06, 1, .bits32, .ro, .none, .ro, .none, .ro, 0, .any⟩,  -- BC_OVERFLOW
  ⟨0x1300, 1, 0x01, 1, .u32, .ro, .none, .ro, .ro, .ro, 0x8000, .any⟩,  -- MEM_TAGS
  ⟨0x1300, 1, 0x02, 1, .u32, .ro, .none, .ro, .ro, .ro, 0x6000, .any⟩,  -- FABRIC_TAGS
  ⟨0x1300, 1, 0x03, 1, .u32, .ro, .none, .ro, .ro, .ro, 8192, .any⟩,  -- HOST_TAGS
  ⟨0x1300, 1, 0x04, 1, .u32, .ro, .none, .ro, .none, .ro, 0, .any⟩,  -- MEM_TAGS_INUSE
  ⟨0x1300, 1, 0x05, 1, .u32, .ro, .none, .ro, .none, .ro, 0, .any⟩,  -- FABRIC_TAGS_INUSE
  ⟨0x1300, 1, 0x06, 1, .u32, .ro, .none, .ro, .none, .ro, 0, .any⟩,  -- HOST_TAGS_INUSE
  ⟨0x1300, 1, 0x07, 1, .u64, .ro, .none, .ro, .none, .rw, 0, .counter⟩,  -- STALE_RESPONSES
  ⟨0x1301, 1, 0x01, 63, .u32, .rw, .none, .ro, .none, .rw, 8192, (.range 64 32768)⟩,  -- MEM_TAG_CEILING
  ⟨0x1302, 1, 0x01, 63, .u32, .rw, .none, .ro, .none, .rw, 6144, (.range 64 24576)⟩,  -- FABRIC_TAG_CEILING
  ⟨0x1303, 1, 0x01, 63, .u32, .rw, .none, .ro, .none, .rw, 2048, (.range 64 8192)⟩,  -- HOST_TAG_CEILING
  ⟨0x1400, 1, 0x01, 1, .u16, .ro, .none, .ro, .rw, .ro, 0xffff, (.rangeOr 0 4095 0xFFFF)⟩,  -- FM_CHIP
  ⟨0x1400, 1, 0x02, 1, .u32, .ro, .none, .ro, .none, .ro, 0, .any⟩,  -- CMD_PENDING
  ⟨0x1400, 1, 0x03, 1, .u32, .ro, .none, .ro, .ro, .ro, 256, .any⟩,  -- CMD_QUEUE_DEPTH
  ⟨0x1401, 1, 0x01, 1, .blob, .rw, .none, .rw, .ro, .rw, 0x10000, .any⟩,  -- PERSIST_IMAGE
  ⟨0x1401, 1, 0x02, 1, .cmd, .x, .none, .x, .none, .x, 0, .any⟩,  -- PERSIST_SAVE
  ⟨0x1401, 1, 0x03, 1, .cmd, .x, .none, .x, .none, .x, 0, .any⟩,  -- RESTORE_DEFAULTS
  ⟨0x1401, 1, 0x04, 1, .enum8, .ro, .none, .ro, .ro, .ro, 0, .any⟩,  -- IMAGE_STATUS
  ⟨0x1401, 1, 0x05, 1, .u32, .ro, .none, .ro, .ro, .ro, 0, .any⟩,  -- IMAGE_APPLIED
  ⟨0x1401, 1, 0x06, 1, .u32, .ro, .none, .ro, .ro, .ro, 0, .any⟩,  -- IMAGE_REJECTED
  ⟨0x1401, 1, 0x07, 1, .u32, .ro, .none, .ro, .ro, .ro, 0, .any⟩,  -- IMAGE_FIRST_REJECT
  ⟨0x1401, 1, 0x81, 1, .u64, .ro, .none, .ro, .ro, .ro, 0, .any⟩,  -- PERSIST_IMAGE_RESULT
  ⟨0x1401, 1, 0x82, 1, .u64, .ro, .none, .ro, .none, .ro, 0, .any⟩,  -- PERSIST_SAVE_RESULT
  ⟨0x1401, 1, 0x83, 1, .u64, .ro, .none, .ro, .none, .ro, 0, .any⟩,  -- RESTORE_DEFAULTS_RESULT
  ⟨0x1402, 1, 0x01, 1, .u8, .ro, .none, .ro, .none, .ro, 0, .any⟩,  -- MCTP_EID
  ⟨0x1402, 1, 0x02, 1, .u64, .ro, .none, .ro, .none, .rw, 0, .counter⟩,  -- MCTP_DISCARDED
  ⟨0x1402, 1, 0x03, 1, .u64, .ro, .none, .ro, .none, .rw, 0, .counter⟩ ]  -- DICT_DISCARDED

/-- Objects of 0x1000-0x1FFF (02 Table 2-2). -/
def objects1b : List ObjRow := [
  ⟨0x1402, 1, 0x04, 1, .u64, .ro, .none, .ro, .none, .rw, 0, .counter⟩,  -- REPLAYED
  ⟨0x1402, 1, 0x05, 1, .u64, .ro, .none, .ro, .none, .rw, 0, .counter⟩,  -- ACCESSES
  ⟨0x1402, 1, 0x06, 1, .u64, .ro, .none, .ro, .none, .rw, 0, .counter⟩ ]  -- BLOB_ABANDONED

/-- Objects of 0x2000-0x2FFF (02 Table 2-2). -/
def objects2a : List ObjRow := [
  ⟨0x2000, 1, 0x01, 1, .u64, .ro, .none, .ro, .ro, .ro, 0, .any⟩,  -- LIVE_MASK
  ⟨0x2000, 1, 0x02, 1, .u16, .ro, .none, .ro, .none, .ro, 0, .any⟩,  -- SHARE_COMMITTED
  ⟨0x2000, 1, 0x03, 1, .u32, .ro, .none, .ro, .none, .ro, 0, .any⟩,  -- GRANULES_CLEAN
  ⟨0x2000, 1, 0x04, 1, .u32, .ro, .none, .ro, .none, .ro, 0, .any⟩,  -- GRANULES_SCRUBBING
  ⟨0x2000, 1, 0x05, 1, .u64, .ro, .none, .ro, .none, .rw, 0, .counter⟩,  -- SCRUB_BYTES
  ⟨0x2000, 1, 0x06, 1, .u64, .ro, .none, .ro, .none, .rw, 0, .counter⟩,  -- COMMIT_CONFLICTS
  ⟨0x2000, 1, 0x07, 1, .u64, .ro, .none, .ro, .none, .rw, 0, .counter⟩,  -- DOORBELL_UNBOUND
  ⟨0x2000, 1, 0x08, 1, .u8, .ro, .none, .ro, .ro, .ro, 0, .any⟩,  -- STACK_GRANULES
  ⟨0x2101, 63, 0x01, 1, .cmd, .x, .none, .none, .none, .x, 0, .any⟩,  -- CREATE
  ⟨0x2101, 63, 0x02, 11, .cmd, .x, .none, .none, .none, .x, 0, .any⟩,  -- ADD_ENGINES_LO to ADD_VF
  ⟨0x2101, 63, 0x10, 3, .cmd, .x, .none, .none, .none, .x, 0, .any⟩,  -- COMMIT, WITHDRAW, RELEASE
  ⟨0x2101, 63, 0x18, 2, .cmd, .x, .none, .none, .none, .x, 0, .any⟩,  -- CTX_OPEN, CTX_CLOSE
  ⟨0x2101, 63, 0x81, 12, .u64, .ro, .none, .ro, .ro, .ro, 0, .any⟩,  -- Results of the above
  ⟨0x2101, 63, 0x90, 3, .u64, .ro, .none, .ro, .ro, .ro, 0, .any⟩,  -- Results of the above
  ⟨0x2101, 63, 0x98, 2, .u64, .ro, .none, .ro, .ro, .ro, 0, .any⟩,  -- Results of the above
  ⟨0x2201, 63, 0x01, 1, .enum8, .ro, .ro, .ro, .ro, .ro, 0, .any⟩,  -- STATE
  ⟨0x2201, 63, 0x02, 1, .u64, .ro, .ro, .ro, .ro, .ro, 0, .any⟩,  -- ENGINES_LO
  ⟨0x2201, 63, 0x03, 1, .u64, .ro, .ro, .ro, .ro, .ro, 0, .any⟩,  -- ENGINES_HI
  ⟨0x2201, 63, 0x04, 1, .u32, .ro, .ro, .ro, .ro, .ro, 0, .any⟩,  -- GRANULE_COUNT
  ⟨0x2201, 63, 0x05, 1, .blob, .ro, .ro, .ro, .ro, .ro, 256, .any⟩,  -- GRANULE_MAP
  ⟨0x2201, 63, 0x06, 1, .u16, .ro, .ro, .ro, .ro, .ro, 0, .any⟩,  -- LINK_SHARE
  ⟨0x2201, 63, 0x07, 1, .u64, .ro, .ro, .ro, .ro, .ro, 0, .any⟩,  -- QP_RANGE
  ⟨0x2201, 63, 0x08, 1, .u64, .ro, .ro, .ro, .ro, .ro, 0, .any⟩,  -- KEY_RANGE
  ⟨0x2201, 63, 0x09, 1, .u64, .ro, .ro, .ro, .ro, .ro, 0, .any⟩,  -- CHANNEL_RANGE
  ⟨0x2201, 63, 0x0A, 1, .u32, .ro, .ro, .ro, .ro, .ro, 1, .any⟩,  -- SCHED
  ⟨0x2201, 63, 0x0B, 1, .u32, .ro, .ro, .ro, .ro, .ro, 0, .any⟩,  -- ENERGY_ALLOWANCE
  ⟨0x2201, 63, 0x0C, 1, .bits32, .ro, .ro, .ro, .ro, .ro, 0, .any⟩,  -- ATTR
  ⟨0x2201, 63, 0x0D, 1, .u8, .ro, .ro, .ro, .ro, .ro, 0, .any⟩,  -- VF
  ⟨0x2201, 63, 0x0E, 1, .enum8, .ro, .ro, .ro, .ro, .ro, 0, .any⟩,  -- TDISP_STATE
  ⟨0x2201, 63, 0x0F, 1, .enum8, .ro, .ro, .ro, .ro, .ro, 0, .any⟩,  -- WITHDRAW_CAUSE
  ⟨0x2201, 63, 0x10, 1, .u32, .rw, .ro, .ro, .none, .rw, 0x2710, (.range 100 1000000)⟩,  -- DRAIN_TIMEOUT
  ⟨0x2201, 63, 0x11, 1, .u32, .ro, .none, .ro, .none, .ro, 0, .any⟩,  -- CONFLICT_INDEX
  ⟨0x2201, 63, 0x12, 1, .u16, .ro, .ro, .ro, .none, .ro, 0, .any⟩,  -- CTX_OPEN_COUNT
  ⟨0x2201, 63, 0x13, 1, .u64, .ro, .ro, .ro, .none, .rw, 0, .counter⟩,  -- GEN_DISCARDS
  ⟨0x2201, 63, 0x14, 1, .u64, .ro, .ro, .ro, .none, .rw, 0, .counter⟩,  -- DOORBELL_DISCARDS
  ⟨0x2201, 63, 0x15, 1, .u64, .ro, .ro, .ro, .none, .rw, 0, .counter⟩,  -- DRAIN_EXPIRED
  ⟨0x2201, 63, 0x16, 1, .u32, .ro, .ro, .ro, .none, .ro, 0, .any⟩,  -- SCRUB_REMAINING
  ⟨0x2201, 63, 0x20, 1, .blob, .ro, .ro, .ro, .none, .ro, 2048, .any⟩,  -- CTX_TABLE
  ⟨0x2401, 63, 0x01, 1, .u64, .rw, .none, .none, .none, .rw, 0, (.mult 12 64)⟩,  -- LOG_BASE
  ⟨0x2401, 63, 0x02, 1, .u32, .rw, .none, .none, .none, .rw, 4096, .special⟩ ]  -- LOG_ENTRIES

/-- Objects of 0x2000-0x2FFF (02 Table 2-2). -/
def objects2b : List ObjRow := [
  ⟨0x2401, 63, 0x03, 1, .enum8, .rw, .none, .none, .none, .rw, 0, (.range 0 1)⟩,  -- LOG_ENABLE
  ⟨0x2401, 63, 0x04, 1, .u32, .rw, .none, .none, .none, .rw, 0, .special⟩,  -- LOG_CONS
  ⟨0x2401, 63, 0x05, 1, .u32, .ro, .none, .none, .none, .ro, 0, .any⟩,  -- LOG_PROD
  ⟨0x2401, 63, 0x06, 1, .bits32, .ro, .none, .none, .none, .ro, 0, .any⟩,  -- LOG_STATUS
  ⟨0x2401, 63, 0x07, 1, .u32, .rw, .none, .none, .none, .rw, 0, .counter⟩,  -- LOG_DROPPED
  ⟨0x2401, 63, 0x08, 1, .u64, .ro, .none, .none, .none, .rw, 0, .counter⟩ ]  -- LOG_RECORDS

/-- Objects of 0x3000-0x3FFF (02 Table 2-2). -/
def objects3a : List ObjRow := [
  ⟨0x3000, 1, 0x01, 1, .u64, .rw, .none, .ro, .none, .rw, 0, (.mult 43 64)⟩,  -- HOST_APERTURE_BASE
  ⟨0x3000, 1, 0x02, 1, .u8, .ro, .none, .ro, .ro, .ro, 64, .any⟩,  -- WALKERS
  ⟨0x3000, 1, 0x03, 1, .u32, .ro, .none, .ro, .ro, .ro, 0x8000, .any⟩,  -- SHARED_ENTRIES
  ⟨0x3000, 1, 0x04, 1, .u32, .rw, .none, .ro, .none, .rw, 50, (.range 1 1000)⟩,  -- WALK_TIMEOUT
  ⟨0x3000, 1, 0x05, 1, .u8, .rw, .none, .ro, .none, .rw, 16, (.range 1 64)⟩,  -- WALK_CAP
  ⟨0x3000, 1, 0x06, 1, .u64, .rw, .none, .none, .none, .rw, 0, (.mult 12 64)⟩,  -- INV_DONE_BASE
  ⟨0x3000, 1, 0x07, 1, .u64, .ro, .none, .ro, .none, .rw, 0, .counter⟩,  -- WALKS
  ⟨0x3000, 1, 0x08, 1, .u64, .ro, .none, .ro, .none, .rw, 0, .counter⟩,  -- SHARED_MISSES
  ⟨0x3000, 1, 0x09, 1, .u64, .ro, .none, .ro, .none, .rw, 0, .counter⟩,  -- INV_RECORDS
  ⟨0x3000, 1, 0x0A, 1, .u64, .ro, .none, .ro, .none, .rw, 0, .counter⟩,  -- INV_REJECTED
  ⟨0x3000, 1, 0x0B, 1, .u64, .ro, .none, .ro, .none, .rw, 0, .counter⟩,  -- INV_DISCARDED
  ⟨0x3000, 1, 0x0C, 1, .u8, .ro, .none, .ro, .none, .ro, 0, .any⟩,  -- WALKERS_BUSY
  ⟨0x3300, 128, 0x01, 1, .u64, .ro, .none, .ro, .none, .rw, 0, .counter⟩,  -- ES_MISSES
  ⟨0x3400, 32, 0x01, 1, .blob, .ro, .none, .ro, .ro, .ro, 128, .any⟩,  -- OWNER_MAP
  ⟨0x3400, 32, 0x02, 1, .u64, .ro, .none, .ro, .none, .rw, 0, .counter⟩,  -- GUARD_COUNT
  ⟨0x3400, 32, 0x03, 1, .u64, .ro, .none, .ro, .none, .ro, 0, .any⟩,  -- GUARD_LAST_PA
  ⟨0x3400, 32, 0x04, 1, .bits32, .ro, .none, .ro, .none, .ro, 0, .any⟩,  -- GUARD_LAST_INFO
  ⟨0x3101, 63, 0x01, 1, .cmd, .x, .none, .none, .none, .x, 0, .any⟩,  -- S2_ROOT_SET
  ⟨0x3101, 63, 0x02, 1, .cmd, .x, .x, .none, .none, .x, 0, .any⟩,  -- S1_ROOT_SET
  ⟨0x3101, 63, 0x03, 1, .cmd, .x, .x, .none, .none, .x, 0, .any⟩,  -- S1_INVALIDATE
  ⟨0x3101, 63, 0x04, 1, .u64, .ro, .none, .ro, .ro, .ro, 0, .any⟩,  -- S2_ROOT
  ⟨0x3101, 63, 0x05, 1, .u64, .ro, .ro, .ro, .none, .rw, 0, .counter⟩,  -- XLATE_FAULTS
  ⟨0x3101, 63, 0x06, 1, .u64, .ro, .ro, .ro, .none, .ro, 0, .any⟩,  -- FAULT_VA
  ⟨0x3101, 63, 0x07, 1, .bits32, .ro, .ro, .ro, .none, .ro, 0, .any⟩,  -- FAULT_INFO
  ⟨0x3101, 63, 0x08, 1, .u64, .ro, .ro, .ro, .none, .rw, 0, .counter⟩,  -- GUARD_FAULTS
  ⟨0x3101, 63, 0x09, 1, .u64, .ro, .none, .ro, .none, .ro, 0, .any⟩,  -- GUARD_LAST_PA
  ⟨0x3101, 63, 0x0A, 1, .bits32, .ro, .none, .ro, .none, .ro, 0, .any⟩,  -- GUARD_LAST_INFO
  ⟨0x3101, 63, 0x10, 1, .blob, .rw, .rw, .ro, .none, .rw, 8192, .any⟩,  -- RWIN_TABLE
  ⟨0x3101, 63, 0x11, 1, .blob, .ro, .ro, .ro, .none, .ro, 8192, .any⟩,  -- S1_ROOTS
  ⟨0x3101, 63, 0x81, 1, .u64, .ro, .none, .ro, .ro, .ro, 0, .any⟩,  -- S2_ROOT_SET_RESULT
  ⟨0x3101, 63, 0x82, 2, .u64, .ro, .ro, .ro, .ro, .ro, 0, .any⟩ ]  -- S1_ROOT_SET_RESULT, S1_INVALIDATE_RESULT

/-- Objects of 0x4000-0x4FFF (02 Table 2-2). -/
def objects4a : List ObjRow := [
  ⟨0x4000, 1, 0x01, 1, .u16, .ro, .ro, .ro, .ro, .ro, 512, .any⟩,  -- CHANNELS
  ⟨0x4000, 1, 0x02, 1, .u16, .ro, .ro, .ro, .ro, .ro, 4096, .any⟩,  -- STAGING_BYTES
  ⟨0x4000, 1, 0x03, 1, .u8, .ro, .ro, .ro, .ro, .ro, 8, .any⟩,  -- BEAT_SLOTS
  ⟨0x4000, 1, 0x04, 1, .u64, .ro, .none, .ro, .none, .rw, 0, .counter⟩,  -- BYTES_READ
  ⟨0x4000, 1, 0x05, 1, .u64, .ro, .none, .ro, .none, .rw, 0, .counter⟩,  -- BYTES_WRITTEN
  ⟨0x4000, 1, 0x06, 1, .u64, .ro, .none, .ro, .none, .rw, 0, .counter⟩,  -- DESC_REJECTED
  ⟨0x4000, 1, 0x07, 1, .u64, .ro, .none, .ro, .none, .rw, 0, .counter⟩,  -- PACE_DROPPED
  ⟨0x4000, 1, 0x20, 1, .blob, .rw, .none, .ro, .none, .rw, 2048, .any⟩,  -- PACE_MAP
  ⟨0x4000, 1, 0x21, 1, .blob, .ro, .none, .ro, .none, .ro, 512, .any⟩,  -- PACE_LEVEL
  ⟨0x4000, 1, 0x40, 1, .cmd, .x, .none, .none, .none, .x, 0, .any⟩,  -- PACE_RESET
  ⟨0x4000, 1, 0xA0, 1, .u64, .ro, .none, .ro, .none, .ro, 0, .any⟩,  -- PACE_MAP_RESULT
  ⟨0x4000, 1, 0xC0, 1, .u64, .ro, .none, .none, .none, .ro, 0, .any⟩,  -- PACE_RESET_RESULT
  ⟨0x4200, 512, 0x01, 1, .u64, .rw, .rw, .none, .none, .rw, 0, (.mult 12 52)⟩,  -- RING_BASE
  ⟨0x4200, 512, 0x02, 1, .bits32, .rw, .rw, .none, .none, .rw, 4, .special⟩,  -- RING_CFG
  ⟨0x4200, 512, 0x03, 1, .enum8, .rw, .rw, .none, .none, .rw, 0, (.range 0 1)⟩,  -- ENABLE
  ⟨0x4200, 512, 0x04, 1, .u8, .rw, .ro, .none, .none, .rw, 7, (.range 0 15)⟩,  -- PRIO_MAX
  ⟨0x4200, 512, 0x05, 1, .u8, .rw, .rw, .none, .none, .rw, 1, (.range 1 63)⟩,  -- MSIX_VEC
  ⟨0x4200, 512, 0x06, 1, .enum8, .ro, .ro, .ro, .none, .ro, 0, .any⟩,  -- STATE
  ⟨0x4200, 512, 0x07, 1, .u16, .ro, .ro, .ro, .none, .ro, 0, .any⟩,  -- HEAD
  ⟨0x4200, 512, 0x08, 1, .u16, .ro, .ro, .ro, .none, .ro, 0, .any⟩,  -- TAIL
  ⟨0x4200, 512, 0x09, 1, .u64, .ro, .ro, .ro, .none, .ro, 0, .any⟩,  -- FAIL_VA
  ⟨0x4200, 512, 0x0A, 1, .bits32, .ro, .ro, .ro, .none, .ro, 0, .any⟩,  -- FAIL_INFO
  ⟨0x4200, 512, 0x10, 1, .u64, .ro, .ro, .ro, .none, .rw, 0, .counter⟩,  -- DESCS
  ⟨0x4200, 512, 0x11, 1, .u64, .ro, .ro, .ro, .none, .rw, 0, .counter⟩,  -- BYTES
  ⟨0x4200, 512, 0x12, 1, .u64, .ro, .ro, .ro, .none, .rw, 0, .counter⟩,  -- BURSTS
  ⟨0x4200, 512, 0x13, 1, .u64, .ro, .ro, .ro, .none, .rw, 0, .counter⟩,  -- PREEMPTIONS
  ⟨0x4200, 512, 0x14, 1, .u64, .ro, .ro, .ro, .none, .rw, 0, .counter⟩,  -- HALTS
  ⟨0x4200, 512, 0x15, 1, .u64, .ro, .ro, .ro, .none, .rw, 0, .counter⟩,  -- NOT_OWNED
  ⟨0x4200, 512, 0x40, 1, .cmd, .x, .x, .none, .none, .x, 0, .any⟩,  -- ABORT
  ⟨0x4200, 512, 0x41, 1, .cmd, .x, .x, .none, .none, .x, 0, .any⟩,  -- RESUME
  ⟨0x4200, 512, 0xC0, 2, .u64, .ro, .ro, .ro, .none, .ro, 0, .any⟩ ]  -- Results of the above

/-- Objects of 0x5000-0x5FFF (02 Table 2-2). -/
def objects5a : List ObjRow := [
  ⟨0x5000, 1, 0x01, 1, .u8, .ro, .ro, .ro, .ro, .ro, 1, .any⟩,  -- JFT_VERSION
  ⟨0x5000, 1, 0x02, 1, .u16, .ro, .none, .rw, .none, .rw, 0x88b5, (.range 1536 65535)⟩,  -- ETHERTYPE
  ⟨0x5000, 1, 0x03, 1, .u64, .ro, .none, .rw, .none, .rw, 0x20000000000, .special⟩,  -- MAC_PREFIX
  ⟨0x5000, 1, 0x04, 1, .bits32, .ro, .none, .rw, .none, .rw, 0, .special⟩,  -- VLAN_CFG
  ⟨0x5000, 1, 0x05, 1, .u32, .ro, .none, .rw, .none, .rw, 1000, (.range 100 100000)⟩,  -- ACK_DELAY
  ⟨0x5000, 1, 0x06, 1, .u8, .ro, .none, .rw, .none, .rw, 16, (.range 1 64)⟩,  -- ACK_COALESCE
  ⟨0x5000, 1, 0x07, 1, .u32, .ro, .none, .ro, .none, .ro, 0, .any⟩,  -- NO_PATH_HELD
  ⟨0x5000, 1, 0x08, 1, .u64, .ro, .none, .ro, .none, .rw, 0, .counter⟩,  -- NO_PATH_EXPIRIES
  ⟨0x5000, 1, 0x09, 1, .u64, .ro, .none, .ro, .none, .rw, 0, .counter⟩,  -- SEAL_NAK_UNMATCHED
  ⟨0x5000, 1, 0x10, 1, .blob, .ro, .none, .rw, .none, .rw, 0x20000, .any⟩,  -- ROUTE_TABLE
  ⟨0x5000, 1, 0x90, 1, .u64, .ro, .none, .ro, .none, .ro, 0, .any⟩,  -- ROUTE_TABLE_RESULT
  ⟨0x5100, 36, 0x01, 1, .enum8, .ro, .none, .ro, .none, .ro, 0, .any⟩,  -- STATE
  ⟨0x5100, 36, 0x02, 1, .u64, .ro, .none, .ro, .none, .rw, 0, .counter⟩,  -- TX_PACKETS
  ⟨0x5100, 36, 0x03, 1, .u64, .ro, .none, .ro, .none, .rw, 0, .counter⟩,  -- RX_PACKETS
  ⟨0x5100, 36, 0x04, 1, .u64, .ro, .none, .ro, .none, .rw, 0, .counter⟩,  -- TX_BYTES
  ⟨0x5100, 36, 0x05, 1, .u64, .ro, .none, .ro, .none, .rw, 0, .counter⟩,  -- RX_BYTES
  ⟨0x5100, 36, 0x06, 1, .u64, .ro, .none, .ro, .none, .rw, 0, .counter⟩,  -- RETX_PACKETS
  ⟨0x5100, 36, 0x07, 1, .u64, .ro, .none, .ro, .none, .rw, 0, .counter⟩,  -- DUP_DISCARDS
  ⟨0x5100, 36, 0x08, 1, .u64, .ro, .none, .ro, .none, .rw, 0, .counter⟩,  -- WINDOW_DISCARDS
  ⟨0x5100, 36, 0x09, 1, .u64, .ro, .none, .ro, .none, .rw, 0, .counter⟩,  -- MALFORMED
  ⟨0x5100, 36, 0x0A, 1, .u64, .ro, .none, .ro, .none, .rw, 0, .counter⟩,  -- ETHERTYPE_DISCARDS
  ⟨0x5100, 36, 0x0B, 1, .u64, .ro, .none, .ro, .none, .rw, 0, .counter⟩,  -- SEAL_FAILS
  ⟨0x5100, 36, 0x0C, 1, .u64, .ro, .none, .ro, .none, .rw, 0, .counter⟩,  -- REQUEUED
  ⟨0x5100, 36, 0x0D, 1, .u64, .ro, .none, .ro, .none, .rw, 0, .counter⟩,  -- NAKS_SENT
  ⟨0x5100, 36, 0x0E, 1, .u64, .ro, .none, .ro, .none, .rw, 0, .counter⟩,  -- LINK_DOWNS
  ⟨0x5010, 1, 0x01, 1, .u16, .ro, .none, .ro, .ro, .ro, 6144, .any⟩,  -- RX_POOL_SLOTS
  ⟨0x5010, 1, 0x02, 1, .u16, .ro, .none, .ro, .none, .ro, 6144, .any⟩,  -- RX_POOL_FREE
  ⟨0x5010, 1, 0x03, 1, .bits32, .ro, .none, .rw, .none, .rw, 0x1010101, .special⟩,  -- CREDIT_FLOOR
  ⟨0x5010, 1, 0x04, 1, .u16, .ro, .none, .rw, .none, .rw, 256, (.range 16 1024)⟩,  -- CREDIT_MAX
  ⟨0x5010, 1, 0x05, 1, .u32, .ro, .none, .rw, .none, .rw, 50, (.range 10 1000)⟩,  -- CREDIT_REFRESH
  ⟨0x5010, 1, 0x06, 1, .u32, .ro, .none, .rw, .none, .rw, 500, (.range 100 100000)⟩,  -- CREDIT_LEASE
  ⟨0x5010, 1, 0x07, 1, .u32, .ro, .none, .rw, .none, .rw, 100, (.range 10 100000)⟩,  -- FLIGHT_MAX
  ⟨0x5010, 1, 0x08, 1, .u32, .ro, .none, .rw, .none, .rw, 500, (.range 100 1000000)⟩,  -- CREDIT_IDLE
  ⟨0x5010, 1, 0x09, 1, .u64, .ro, .none, .ro, .none, .rw, 0, .counter⟩,  -- CREDIT_SENT
  ⟨0x5010, 1, 0x0A, 1, .u64, .ro, .none, .ro, .none, .rw, 0, .counter⟩,  -- CREDIT_WAITS
  ⟨0x5010, 1, 0x0B, 1, .u32, .ro, .none, .ro, .none, .rw, 0, .counter⟩,  -- CREDIT_OVERRUNS
  ⟨0x5010, 1, 0x0C, 1, .u64, .ro, .none, .ro, .none, .rw, 0, .counter⟩,  -- CREDIT_RECLAIMS
  ⟨0x5010, 1, 0x0D, 1, .bits32, .ro, .none, .ro, .none, .ro, 0, .any⟩,  -- CREDIT_OVERFLOW
  ⟨0x5010, 1, 0x10, 1, .blob, .ro, .none, .rw, .none, .rw, 512, .any⟩,  -- CREDIT_PEERS
  ⟨0x5010, 1, 0x20, 1, .cmd, .none, .none, .x, .none, .x, 0, .any⟩ ]  -- CREDIT_RESYNC

/-- Objects of 0x5000-0x5FFF (02 Table 2-2). -/
def objects5b : List ObjRow := [
  ⟨0x5010, 1, 0x90, 1, .u64, .ro, .none, .ro, .none, .ro, 0, .any⟩,  -- CREDIT_PEERS_RESULT
  ⟨0x5010, 1, 0xA0, 1, .u64, .none, .none, .ro, .none, .ro, 0, .any⟩,  -- CREDIT_RESYNC_RESULT
  ⟨0x5020, 1, 0x01, 1, .u32, .ro, .ro, .ro, .ro, .ro, 0x10000, .any⟩,  -- QUEUE_PAIRS
  ⟨0x5020, 1, 0x02, 1, .u32, .ro, .ro, .ro, .ro, .ro, 0x40000, .any⟩,  -- MEMORY_KEYS
  ⟨0x5020, 1, 0x03, 1, .u32, .ro, .none, .ro, .none, .ro, 0, .any⟩,  -- QPS_CONNECTED
  ⟨0x5020, 1, 0x04, 1, .u32, .ro, .none, .ro, .none, .ro, 0, .any⟩,  -- KEYS_VALID
  ⟨0x5020, 1, 0x05, 1, .u64, .ro, .none, .ro, .none, .rw, 0, .counter⟩,  -- ESTABLISHED
  ⟨0x5020, 1, 0x06, 1, .u64, .ro, .none, .ro, .none, .rw, 0, .counter⟩,  -- QP_ERRORS
  ⟨0x5020, 1, 0x07, 1, .u64, .ro, .none, .ro, .none, .rw, 0, .counter⟩,  -- KEY_REVOKED_NAKS
  ⟨0x5020, 1, 0x08, 1, .u64, .ro, .none, .ro, .none, .rw, 0, .counter⟩,  -- KEY_GUARD_NAKS
  ⟨0x5201, 63, 0x01, 1, .cmd, .x, .none, .none, .none, .x, 0, .any⟩,  -- QP_INIT
  ⟨0x5201, 63, 0x02, 1, .cmd, .x, .none, .none, .none, .x, 0, .any⟩,  -- QP_CONNECT
  ⟨0x5201, 63, 0x03, 1, .cmd, .x, .x, .none, .none, .x, 0, .any⟩,  -- QP_RESET
  ⟨0x5201, 63, 0x04, 1, .cmd, .x, .x, .none, .none, .x, 0, .any⟩,  -- QP_DRAIN
  ⟨0x5201, 63, 0x05, 1, .cmd, .x, .x, .none, .none, .x, 0, .any⟩,  -- QP_QUERY
  ⟨0x5201, 63, 0x08, 1, .cmd, .x, .none, .none, .none, .x, 0, .any⟩,  -- KEY_REG
  ⟨0x5201, 63, 0x09, 1, .cmd, .x, .x, .none, .none, .x, 0, .any⟩,  -- KEY_REVOKE
  ⟨0x5201, 63, 0x0A, 1, .cmd, .x, .x, .none, .none, .x, 0, .any⟩,  -- KEY_QUERY
  ⟨0x5201, 63, 0x40, 1, .u64, .rw, .none, .none, .none, .rw, 0, (.mult 12 64)⟩,  -- SETUP_BASE
  ⟨0x5201, 63, 0x41, 1, .u64, .rw, .rw, .none, .none, .rw, 0, (.mult 12 62)⟩,  -- QUERY_BASE
  ⟨0x5201, 63, 0x42, 1, .u32, .ro, .ro, .ro, .none, .ro, 0, .any⟩,  -- QPS_CONNECTED
  ⟨0x5201, 63, 0x43, 1, .u32, .ro, .ro, .ro, .none, .ro, 0, .any⟩,  -- KEYS_VALID
  ⟨0x5201, 63, 0x44, 1, .u64, .ro, .ro, .ro, .none, .rw, 0, .counter⟩,  -- KEY_NAKS
  ⟨0x5201, 63, 0x45, 1, .u64, .ro, .ro, .ro, .none, .rw, 0, .counter⟩,  -- QP_ERRORS
  ⟨0x5201, 63, 0x46, 1, .u64, .ro, .ro, .ro, .none, .rw, 0, .counter⟩,  -- CREDIT_WAITS
  ⟨0x5201, 63, 0x81, 2, .u64, .ro, .none, .ro, .ro, .ro, 0, .any⟩,  -- Results of QP_INIT, QP_CONNECT and KEY_REG
  ⟨0x5201, 63, 0x88, 1, .u64, .ro, .none, .ro, .ro, .ro, 0, .any⟩,  -- Results of QP_INIT, QP_CONNECT and KEY_REG
  ⟨0x5201, 63, 0x83, 3, .u64, .ro, .ro, .ro, .ro, .ro, 0, .any⟩,  -- Results of QP_RESET, QP_DRAIN, QP_QUERY, KEY_REVOKE and KEY_QUERY
  ⟨0x5201, 63, 0x89, 2, .u64, .ro, .ro, .ro, .ro, .ro, 0, .any⟩ ]  -- Results of QP_RESET, QP_DRAIN, QP_QUERY, KEY_REVOKE and KEY_QUERY

/-- Objects of 0x6000-0x6FFF (02 Table 2-2). -/
def objects6a : List ObjRow := [
  ⟨0x6000, 1, 0x01, 1, .u16, .ro, .ro, .ro, .ro, .ro, 128, .any⟩,  -- LANES_PER_STATION
  ⟨0x6000, 1, 0x02, 1, .u16, .ro, .ro, .ro, .ro, .ro, 0x4000, .any⟩,  -- GROUP_POOL
  ⟨0x6000, 1, 0x03, 1, .u16, .ro, .none, .ro, .none, .ro, 0, .any⟩,  -- GROUP_POOL_ASSIGNED
  ⟨0x6000, 1, 0x04, 1, .u16, .ro, .none, .ro, .none, .ro, 0, .any⟩,  -- GROUPS_ARMED
  ⟨0x6000, 1, 0x05, 1, .u64, .ro, .none, .ro, .none, .rw, 0, .counter⟩,  -- APPLIED_PACKETS
  ⟨0x6000, 1, 0x06, 1, .u64, .ro, .none, .ro, .none, .rw, 0, .counter⟩,  -- LEDGER_HITS
  ⟨0x6000, 1, 0x07, 1, .u64, .ro, .none, .ro, .none, .rw, 0, .counter⟩,  -- NOT_ARMED_DISCARDS
  ⟨0x6000, 1, 0x08, 1, .u64, .ro, .none, .ro, .none, .rw, 0, .counter⟩,  -- GROUP_CONFLICT_NAKS
  ⟨0x6000, 1, 0x09, 1, .u64, .ro, .none, .ro, .none, .rw, 0, .counter⟩,  -- GROUPS_ABORTED
  ⟨0x6000, 1, 0x0A, 1, .u16, .ro, .ro, .ro, .ro, .ro, 1024, .any⟩,  -- LOCK_ENTRIES
  ⟨0x6101, 63, 0x01, 1, .cmd, .x, .x, .none, .none, .x, 0, .any⟩,  -- GROUP_ARM
  ⟨0x6101, 63, 0x02, 1, .cmd, .x, .x, .none, .none, .x, 0, .any⟩,  -- GROUP_ABORT
  ⟨0x6101, 63, 0x20, 1, .blob, .ro, .ro, .ro, .ro, .ro, 4096, .any⟩,  -- GROUP_STATES
  ⟨0x6101, 63, 0x40, 1, .u16, .rw, .ro, .ro, .none, .rw, 0, (.range 0 4096)⟩,  -- GROUP_LIMIT
  ⟨0x6101, 63, 0x41, 1, .u64, .rw, .rw, .none, .none, .rw, 0, (.mult 12 62)⟩,  -- GROUP_BASE
  ⟨0x6101, 63, 0x42, 1, .u64, .ro, .ro, .ro, .none, .rw, 0, .counter⟩,  -- GROUPS_DONE
  ⟨0x6101, 63, 0x43, 1, .u64, .ro, .ro, .ro, .none, .rw, 0, .counter⟩,  -- GROUPS_ABORTED
  ⟨0x6101, 63, 0x44, 1, .u64, .ro, .ro, .ro, .none, .rw, 0, .counter⟩,  -- LEDGER_HITS
  ⟨0x6101, 63, 0x45, 1, .u64, .ro, .ro, .ro, .none, .rw, 0, .counter⟩,  -- BYTES_APPLIED
  ⟨0x6101, 63, 0x81, 2, .u64, .ro, .ro, .ro, .ro, .ro, 0, .any⟩,  -- Results of the commands above
  ⟨0x6300, 32, 0x01, 1, .u64, .ro, .none, .ro, .none, .rw, 0, .counter⟩,  -- APPLICATIONS
  ⟨0x6300, 32, 0x02, 1, .u64, .ro, .none, .ro, .none, .rw, 0, .counter⟩,  -- LOCK_WAITS
  ⟨0x6300, 32, 0x03, 1, .u64, .ro, .none, .ro, .none, .rw, 0, .counter⟩,  -- LOCK_WAIT_CYCLES
  ⟨0x6300, 32, 0x04, 1, .u16, .ro, .none, .ro, .none, .ro, 0, .any⟩,  -- LOCKS_HELD
  ⟨0x6300, 32, 0x05, 1, .bits32, .ro, .none, .ro, .none, .ro, 255, .any⟩,  -- LANE_GROUPS
  ⟨0x6300, 32, 0x06, 1, .u64, .ro, .none, .ro, .none, .rw, 0, .counter⟩,  -- CAST_ELEMENTS
  ⟨0x6010, 1, 0x01, 1, .u8, .ro, .ro, .ro, .ro, .ro, 64, .any⟩,  -- PROG_SLOTS
  ⟨0x6010, 1, 0x02, 1, .u8, .ro, .none, .ro, .none, .ro, 0, .any⟩,  -- PROG_SLOTS_ASSIGNED
  ⟨0x6010, 1, 0x03, 1, .u8, .ro, .none, .ro, .none, .ro, 0, .any⟩,  -- VERSIONS_IN_USE
  ⟨0x6010, 1, 0x04, 1, .u64, .ro, .none, .ro, .none, .rw, 0, .counter⟩,  -- PROGRAMS_LOADED
  ⟨0x6010, 1, 0x05, 1, .u64, .ro, .none, .ro, .none, .rw, 0, .counter⟩,  -- PROGRAMS_REJECTED
  ⟨0x6010, 1, 0x06, 1, .u64, .ro, .none, .ro, .none, .rw, 0, .counter⟩,  -- LANE_CYCLES_ARRIVAL
  ⟨0x6010, 1, 0x07, 1, .u64, .ro, .none, .ro, .none, .rw, 0, .counter⟩,  -- LANE_CYCLES_COMPLETION
  ⟨0x6010, 1, 0x08, 1, .u64, .ro, .none, .ro, .none, .rw, 0, .counter⟩,  -- PROGRAM_FAULTS
  ⟨0x6201, 63, 0x01, 64, .blob, .rw, .rw, .none, .none, .ro, 1296, .any⟩,  -- PROGRAM
  ⟨0x6201, 63, 0x81, 64, .u64, .ro, .ro, .ro, .ro, .ro, 0, .any⟩,  -- PROGRAM_RESULT
  ⟨0x6401, 63, 0x01, 1, .cmd, .x, .x, .none, .none, .x, 0, .any⟩,  -- PROG_UNLOAD
  ⟨0x6401, 63, 0x20, 1, .u8, .rw, .ro, .ro, .none, .rw, 0, (.range 0 64)⟩,  -- PROG_LIMIT
  ⟨0x6401, 63, 0x21, 1, .u64, .rw, .rw, .none, .none, .rw, 0, (.mult 12 62)⟩,  -- STREAM_BASE
  ⟨0x6401, 63, 0x22, 1, .u64, .ro, .ro, .ro, .none, .ro, 0, .any⟩ ]  -- PROG_LOADED

/-- Objects of 0x6000-0x6FFF (02 Table 2-2). -/
def objects6b : List ObjRow := [
  ⟨0x6401, 63, 0x23, 1, .u64, .ro, .ro, .ro, .none, .rw, 0, .counter⟩,  -- PROG_RUNS
  ⟨0x6401, 63, 0x24, 1, .u64, .ro, .ro, .ro, .none, .rw, 0, .counter⟩,  -- PROG_FAULTS
  ⟨0x6401, 63, 0x25, 1, .bits32, .ro, .ro, .ro, .none, .ro, 0, .any⟩,  -- LAST_FAULT
  ⟨0x6401, 63, 0x26, 1, .u64, .ro, .ro, .ro, .none, .rw, 0, .counter⟩,  -- ELEMENTS_RUN
  ⟨0x6401, 63, 0x81, 1, .u64, .ro, .ro, .ro, .ro, .ro, 0, .any⟩ ]  -- PROG_UNLOAD_RESULT

/-- Objects of 0x7000-0x7FFF (02 Table 2-2). -/
def objects7a : List ObjRow := [
  ⟨0x7000, 1, 0x01, 1, .bits32, .ro, .none, .ro, .ro, .ro, 0, .any⟩,  -- KEY_STATE
  ⟨0x7000, 1, 0x02, 1, .u32, .ro, .none, .rw, .ro, .rw, 0x2710, (.range 100 10000000)⟩,  -- LINK_GRACE
  ⟨0x7000, 1, 0x03, 1, .u64, .rw, .none, .ro, .none, .rw, 0, (.mult 30 64)⟩,  -- SPILL_DATA_BASE
  ⟨0x7000, 1, 0x04, 1, .u64, .rw, .none, .ro, .none, .rw, 0, (.mult 25 64)⟩,  -- SPILL_TAG_BASE
  ⟨0x7000, 1, 0x05, 1, .u64, .rw, .none, .ro, .none, .rw, 0, (.mult 12 64)⟩,  -- SPILL_TREE_BASE
  ⟨0x7000, 1, 0x06, 1, .u16, .rw, .none, .ro, .none, .rw, 0, (.range 0 4096)⟩,  -- SPILL_SIZE
  ⟨0x7000, 1, 0x07, 1, .enum8, .ro, .ro, .ro, .ro, .ro, 0, .any⟩,  -- SPILL_STATE
  ⟨0x7000, 1, 0x08, 1, .u32, .ro, .none, .ro, .ro, .ro, 0, .any⟩,  -- ANNEAL_BOUNDARY
  ⟨0x7000, 1, 0x09, 1, .u32, .rw, .none, .ro, .none, .rw, 8000, (.range 1000 200000)⟩,  -- ANNEAL_RATE
  ⟨0x7000, 1, 0x0A, 1, .u32, .ro, .ro, .ro, .ro, .ro, 0x8000, .any⟩,  -- COUNTER_CACHE
  ⟨0x7000, 1, 0x0B, 1, .u64, .ro, .none, .ro, .ro, .rw, 0, .counter⟩,  -- SEC_ALARMS
  ⟨0x7000, 1, 0x0C, 1, .bits32, .ro, .none, .ro, .ro, .ro, 0, .any⟩,  -- SEC_ALARM_LAST
  ⟨0x7000, 1, 0x0D, 1, .u64, .ro, .none, .ro, .none, .rw, 0, .counter⟩,  -- SPILL_LINE_READS
  ⟨0x7000, 1, 0x0E, 1, .u64, .ro, .none, .ro, .none, .rw, 0, .counter⟩,  -- SPILL_LINE_WRITES
  ⟨0x7000, 1, 0x0F, 1, .u64, .ro, .none, .ro, .none, .rw, 0, .counter⟩,  -- SPILL_TAG_FAILS
  ⟨0x7000, 1, 0x10, 1, .u64, .ro, .none, .ro, .none, .rw, 0, .counter⟩,  -- MINOR_OVERFLOWS
  ⟨0x7000, 1, 0x11, 1, .u64, .ro, .none, .ro, .none, .rw, 0, .counter⟩,  -- TREE_FETCHES
  ⟨0x7000, 1, 0x12, 1, .u64, .ro, .none, .ro, .none, .rw, 0, .counter⟩,  -- TREE_WRITEBACKS
  ⟨0x7000, 1, 0x13, 1, .u64, .ro, .none, .ro, .ro, .rw, 0, .counter⟩,  -- KEYPORT_DISCARDS
  ⟨0x7000, 1, 0x14, 1, .u64, .ro, .none, .ro, .ro, .rw, 0, .counter⟩,  -- IDE_DISCARDS
  ⟨0x7000, 1, 0x15, 1, .u64, .ro, .none, .ro, .ro, .rw, 0, .counter⟩,  -- LINK_OTHER_KEY_FRAMES
  ⟨0x7000, 1, 0x20, 1, .blob, .ro, .none, .ro, .ro, .ro, 2048, .any⟩,  -- CONDEMNED
  ⟨0x7000, 1, 0x40, 1, .cmd, .none, .none, .none, .x, .none, 0, .any⟩,  -- SPILL_KEY_INSTALL
  ⟨0x7000, 1, 0x41, 1, .cmd, .none, .none, .none, .x, .none, 0, .any⟩,  -- LINK_KEY_INSTALL
  ⟨0x7000, 1, 0x42, 1, .cmd, .none, .none, .x, .none, .x, 0, .any⟩,  -- LINK_KEY_SWITCH
  ⟨0x7000, 1, 0x43, 1, .cmd, .none, .none, .none, .x, .none, 0, .any⟩,  -- SPILL_KEY_DESTROY
  ⟨0x7000, 1, 0x44, 1, .cmd, .none, .none, .none, .x, .none, 0, .any⟩,  -- LINK_KEY_DESTROY
  ⟨0x7000, 1, 0x45, 1, .cmd, .x, .none, .none, .none, .x, 0, .any⟩,  -- SPILL_INIT
  ⟨0x7000, 1, 0xC0, 6, .u64, .ro, .none, .ro, .ro, .ro, 0, .any⟩,  -- Results of the above
  ⟨0x7101, 63, 0x01, 1, .u64, .rw, .ro, .ro, .ro, .rw, 0, .special⟩,  -- SPILL_RANGE
  ⟨0x7101, 63, 0x02, 1, .enum8, .ro, .ro, .ro, .ro, .ro, 0, .any⟩,  -- SPILL_PSTATE
  ⟨0x7101, 63, 0x03, 1, .u64, .ro, .ro, .ro, .none, .rw, 0, .counter⟩,  -- SPILL_READS
  ⟨0x7101, 63, 0x04, 1, .u64, .ro, .ro, .ro, .none, .rw, 0, .counter⟩,  -- SPILL_WRITES
  ⟨0x7101, 63, 0x05, 1, .u64, .ro, .ro, .ro, .ro, .rw, 0, .counter⟩,  -- SEAL_ALARMS
  ⟨0x7101, 63, 0x06, 1, .bits32, .ro, .ro, .ro, .ro, .ro, 0, .any⟩,  -- SEAL_LAST
  ⟨0x7101, 63, 0x07, 1, .u8, .ro, .ro, .none, .rw, .ro, 255, (.rangeOr 0 254 0xFF)⟩ ]  -- IDE_STREAM

/-- Objects of 0x8000-0x8FFF (02 Table 2-2). -/
def objects8a : List ObjRow := [
  ⟨0x8000, 1, 0x01, 1, .u32, .ro, .ro, .ro, .ro, .ro, 100, .any⟩,  -- WINDOW
  ⟨0x8000, 1, 0x02, 1, .u32, .rw, .ro, .ro, .none, .rw, 1000, (.range 20 100000)⟩,  -- QUANTUM
  ⟨0x8000, 1, 0x03, 1, .u32, .rw, .ro, .ro, .none, .rw, 0xf4240, (.range 1000 4000000000)⟩,  -- STEP_TIMEOUT
  ⟨0x8000, 1, 0x04, 1, .u32, .rw, .none, .ro, .none, .rw, 100, (.range 1 10000)⟩,  -- KILL_TIMEOUT
  ⟨0x8000, 1, 0x05, 1, .u8, .rw, .ro, .ro, .none, .rw, 4, (.range 1 127)⟩,  -- KILL_LIMIT
  ⟨0x8000, 1, 0x06, 1, .u64, .rw, .none, .ro, .none, .rw, 0x1e84800, (.range 160000 1099511627776)⟩,  -- DEFICIT_LIMIT
  ⟨0x8000, 1, 0x07, 1, .u16, .ro, .ro, .ro, .ro, .ro, 4096, .any⟩,  -- STEP_SLOTS
  ⟨0x8000, 1, 0x08, 1, .u16, .ro, .none, .ro, .none, .ro, 0, .any⟩,  -- STEPS_HELD
  ⟨0x8000, 1, 0x09, 1, .u32, .rw, .none, .rw, .none, .rw, 0, (.range 0 4294967295)⟩,  -- PWR_LIMIT
  ⟨0x8000, 1, 0x0A, 1, .u32, .ro, .none, .ro, .none, .ro, 0, .any⟩,  -- PKG_POWER_NOW
  ⟨0x8000, 1, 0x0B, 1, .u32, .ro, .none, .ro, .none, .ro, 0, .any⟩,  -- ENGINE_BUDGET
  ⟨0x8000, 1, 0x0C, 1, .i32, .ro, .none, .ro, .none, .ro, 0, .any⟩,  -- BUDGET_FREE
  ⟨0x8000, 1, 0x0D, 1, .u64, .ro, .none, .ro, .none, .rw, 0, .counter⟩,  -- DISPATCHES
  ⟨0x8000, 1, 0x0E, 1, .u64, .ro, .none, .ro, .none, .rw, 0, .counter⟩,  -- KILLS
  ⟨0x8000, 1, 0x0F, 1, .u64, .ro, .none, .ro, .none, .rw, 0, .counter⟩,  -- OVERRUN_CYCLES
  ⟨0x8000, 1, 0x10, 1, .u64, .ro, .none, .ro, .none, .rw, 0, .counter⟩,  -- BUDGET_WAITS
  ⟨0x8000, 1, 0x11, 1, .u64, .ro, .none, .ro, .none, .rw, 0, .counter⟩,  -- POLICY_LATE
  ⟨0x8000, 1, 0x12, 1, .u8, .ro, .none, .ro, .ro, .ro, 0, .any⟩,  -- ZONES
  ⟨0x8000, 1, 0x13, 1, .u64, .ro, .none, .ro, .none, .rw, 0, .counter⟩,  -- STEP_DISCARDS
  ⟨0x8000, 1, 0x14, 1, .u64, .ro, .none, .ro, .none, .rw, 0, .counter⟩,  -- RESULT_FAILS
  ⟨0x8000, 1, 0x20, 1, .blob, .rw, .none, .ro, .none, .rw, 128, .any⟩,  -- ZONE_MAP
  ⟨0x8000, 1, 0xA0, 1, .u64, .ro, .none, .ro, .none, .ro, 0, .any⟩,  -- ZONE_MAP_RESULT
  ⟨0x8001, 1, 0x01, 16, .u32, .rw, .ro, .ro, .none, .rw, 5000, (.range 0 1000000)⟩,  -- ECLASS_DEFAULT
  ⟨0x8020, 16, 0x01, 1, .fx, .ro, .none, .ro, .ro, .ro, 0, .any⟩,  -- TEMP
  ⟨0x8020, 16, 0x02, 1, .fx, .rw, .none, .ro, .none, .rw, 0x5f0000, (.signed 0 9830400)⟩,  -- T_LIMIT
  ⟨0x8020, 16, 0x03, 1, .fx, .rw, .none, .ro, .none, .rw, 0x690000, (.signed 0 9830400)⟩,  -- T_TRIP
  ⟨0x8020, 16, 0x04, 1, .u32, .rw, .none, .ro, .none, .rw, 0x4e20, (.range 0 10000000)⟩,  -- SLOPE
  ⟨0x8020, 16, 0x05, 1, .u32, .ro, .none, .ro, .none, .ro, 0, .any⟩,  -- ALLOWANCE
  ⟨0x8020, 16, 0x06, 1, .u32, .ro, .none, .ro, .none, .ro, 0, .any⟩,  -- ZONE_POWER
  ⟨0x8020, 16, 0x07, 1, .u64, .ro, .none, .ro, .none, .rw, 0, .counter⟩,  -- TRIPS
  ⟨0x8101, 63, 0x01, 1, .cmd, .x, .x, .none, .none, .x, 0, .any⟩,  -- QUEUE_FLUSH
  ⟨0x8101, 63, 0x02, 1, .i32, .ro, .ro, .ro, .none, .ro, 0, .any⟩,  -- DEFICIT
  ⟨0x8101, 63, 0x03, 1, .u64, .ro, .ro, .ro, .none, .rw, 0, .counter⟩,  -- SHARE_DEBT
  ⟨0x8101, 63, 0x04, 1, .u64, .ro, .ro, .ro, .none, .rw, 0, .counter⟩,  -- GUARANTEE_DEBT
  ⟨0x8101, 63, 0x05, 1, .u64, .ro, .ro, .ro, .none, .rw, 0, .counter⟩,  -- ENGINE_CYCLES
  ⟨0x8101, 63, 0x06, 1, .u64, .ro, .ro, .ro, .none, .rw, 0, .counter⟩,  -- ENERGY
  ⟨0x8101, 63, 0x07, 1, .u64, .ro, .ro, .ro, .none, .rw, 0, .counter⟩,  -- STEPS_DONE
  ⟨0x8101, 63, 0x08, 1, .u64, .ro, .ro, .ro, .none, .rw, 0, .counter⟩,  -- STEPS_KILLED
  ⟨0x8101, 63, 0x09, 1, .u64, .ro, .ro, .ro, .none, .rw, 0, .counter⟩,  -- KILLED_CYCLES
  ⟨0x8101, 63, 0x0A, 1, .u16, .rw, .ro, .ro, .none, .rw, 256, (.range 1 4096)⟩ ]  -- STEP_CEILING

/-- Objects of 0x8000-0x8FFF (02 Table 2-2). -/
def objects8b : List ObjRow := [
  ⟨0x8101, 63, 0x0B, 1, .u16, .ro, .ro, .ro, .none, .ro, 0, .any⟩,  -- STEPS_QUEUED
  ⟨0x8101, 63, 0x0C, 1, .u64, .ro, .ro, .ro, .none, .rw, 0, .counter⟩,  -- RANGE_CONFLICTS
  ⟨0x8101, 63, 0x0D, 1, .u32, .ro, .ro, .ro, .none, .ro, 0, .any⟩,  -- POWER_NOW
  ⟨0x8101, 63, 0x10, 1, .u64, .rw, .rw, .none, .none, .rw, 0, (.mult 12 52)⟩,  -- RING_BASE
  ⟨0x8101, 63, 0x18, 1, .u64, .rw, .rw, .none, .none, .rw, 0, (.mult 12 52)⟩,  -- RING_BASE
  ⟨0x8101, 63, 0x20, 1, .u64, .rw, .rw, .none, .none, .rw, 0, (.mult 12 52)⟩,  -- RING_BASE
  ⟨0x8101, 63, 0x28, 1, .u64, .rw, .rw, .none, .none, .rw, 0, (.mult 12 52)⟩,  -- RING_BASE
  ⟨0x8101, 63, 0x30, 1, .u64, .rw, .rw, .none, .none, .rw, 0, (.mult 12 52)⟩,  -- RING_BASE
  ⟨0x8101, 63, 0x38, 1, .u64, .rw, .rw, .none, .none, .rw, 0, (.mult 12 52)⟩,  -- RING_BASE
  ⟨0x8101, 63, 0x40, 1, .u64, .rw, .rw, .none, .none, .rw, 0, (.mult 12 52)⟩,  -- RING_BASE
  ⟨0x8101, 63, 0x48, 1, .u64, .rw, .rw, .none, .none, .rw, 0, (.mult 12 52)⟩,  -- RING_BASE
  ⟨0x8101, 63, 0x11, 1, .bits32, .rw, .rw, .none, .none, .rw, 4, .special⟩,  -- RING_CFG
  ⟨0x8101, 63, 0x19, 1, .bits32, .rw, .rw, .none, .none, .rw, 4, .special⟩,  -- RING_CFG
  ⟨0x8101, 63, 0x21, 1, .bits32, .rw, .rw, .none, .none, .rw, 4, .special⟩,  -- RING_CFG
  ⟨0x8101, 63, 0x29, 1, .bits32, .rw, .rw, .none, .none, .rw, 4, .special⟩,  -- RING_CFG
  ⟨0x8101, 63, 0x31, 1, .bits32, .rw, .rw, .none, .none, .rw, 4, .special⟩,  -- RING_CFG
  ⟨0x8101, 63, 0x39, 1, .bits32, .rw, .rw, .none, .none, .rw, 4, .special⟩,  -- RING_CFG
  ⟨0x8101, 63, 0x41, 1, .bits32, .rw, .rw, .none, .none, .rw, 4, .special⟩,  -- RING_CFG
  ⟨0x8101, 63, 0x49, 1, .bits32, .rw, .rw, .none, .none, .rw, 4, .special⟩,  -- RING_CFG
  ⟨0x8101, 63, 0x12, 1, .u16, .ro, .ro, .ro, .none, .ro, 0, .any⟩,  -- HEAD
  ⟨0x8101, 63, 0x1A, 1, .u16, .ro, .ro, .ro, .none, .ro, 0, .any⟩,  -- HEAD
  ⟨0x8101, 63, 0x22, 1, .u16, .ro, .ro, .ro, .none, .ro, 0, .any⟩,  -- HEAD
  ⟨0x8101, 63, 0x2A, 1, .u16, .ro, .ro, .ro, .none, .ro, 0, .any⟩,  -- HEAD
  ⟨0x8101, 63, 0x32, 1, .u16, .ro, .ro, .ro, .none, .ro, 0, .any⟩,  -- HEAD
  ⟨0x8101, 63, 0x3A, 1, .u16, .ro, .ro, .ro, .none, .ro, 0, .any⟩,  -- HEAD
  ⟨0x8101, 63, 0x42, 1, .u16, .ro, .ro, .ro, .none, .ro, 0, .any⟩,  -- HEAD
  ⟨0x8101, 63, 0x4A, 1, .u16, .ro, .ro, .ro, .none, .ro, 0, .any⟩,  -- HEAD
  ⟨0x8101, 63, 0x13, 1, .u16, .ro, .ro, .ro, .none, .ro, 0, .any⟩,  -- TAIL
  ⟨0x8101, 63, 0x1B, 1, .u16, .ro, .ro, .ro, .none, .ro, 0, .any⟩,  -- TAIL
  ⟨0x8101, 63, 0x23, 1, .u16, .ro, .ro, .ro, .none, .ro, 0, .any⟩,  -- TAIL
  ⟨0x8101, 63, 0x2B, 1, .u16, .ro, .ro, .ro, .none, .ro, 0, .any⟩,  -- TAIL
  ⟨0x8101, 63, 0x33, 1, .u16, .ro, .ro, .ro, .none, .ro, 0, .any⟩,  -- TAIL
  ⟨0x8101, 63, 0x3B, 1, .u16, .ro, .ro, .ro, .none, .ro, 0, .any⟩,  -- TAIL
  ⟨0x8101, 63, 0x43, 1, .u16, .ro, .ro, .ro, .none, .ro, 0, .any⟩,  -- TAIL
  ⟨0x8101, 63, 0x4B, 1, .u16, .ro, .ro, .ro, .none, .ro, 0, .any⟩,  -- TAIL
  ⟨0x8101, 63, 0x14, 1, .u8, .ro, .ro, .ro, .none, .ro, 0, .any⟩,  -- RING_STATUS
  ⟨0x8101, 63, 0x1C, 1, .u8, .ro, .ro, .ro, .none, .ro, 0, .any⟩,  -- RING_STATUS
  ⟨0x8101, 63, 0x24, 1, .u8, .ro, .ro, .ro, .none, .ro, 0, .any⟩,  -- RING_STATUS
  ⟨0x8101, 63, 0x2C, 1, .u8, .ro, .ro, .ro, .none, .ro, 0, .any⟩,  -- RING_STATUS
  ⟨0x8101, 63, 0x34, 1, .u8, .ro, .ro, .ro, .none, .ro, 0, .any⟩ ]  -- RING_STATUS

/-- Objects of 0x8000-0x8FFF (02 Table 2-2). -/
def objects8c : List ObjRow := [
  ⟨0x8101, 63, 0x3C, 1, .u8, .ro, .ro, .ro, .none, .ro, 0, .any⟩,  -- RING_STATUS
  ⟨0x8101, 63, 0x44, 1, .u8, .ro, .ro, .ro, .none, .ro, 0, .any⟩,  -- RING_STATUS
  ⟨0x8101, 63, 0x4C, 1, .u8, .ro, .ro, .ro, .none, .ro, 0, .any⟩,  -- RING_STATUS
  ⟨0x8101, 63, 0x50, 16, .u32, .ro, .ro, .ro, .none, .ro, 5000, .any⟩,  -- ESTIMATE
  ⟨0x8101, 63, 0x81, 1, .u64, .ro, .ro, .ro, .ro, .ro, 0, .any⟩ ]  -- QUEUE_FLUSH_RESULT

/-- Objects of 0x9000-0x9FFF (02 Table 2-2). -/
def objects9a : List ObjRow := [
  ⟨0x9000, 1, 0x01, 1, .enum8, .ro, .ro, .ro, .ro, .ro, 0, .any⟩,  -- BLOCK_STATE
  ⟨0x9000, 1, 0x02, 1, .enum8, .rw, .none, .rw, .none, .rw, 1, (.range 0 1)⟩,  -- FAULT_L_MODE
  ⟨0x9000, 1, 0x03, 1, .enum8, .ro, .none, .ro, .ro, .ro, 0, .any⟩,  -- FAULT_L_STATE
  ⟨0x9000, 1, 0x04, 1, .u32, .rw, .none, .rw, .none, .rw, 1000, (.range 100 100000)⟩,  -- UNIT_DRAIN_TIMEOUT
  ⟨0x9000, 1, 0x05, 1, .enum8, .rw, .none, .rw, .none, .rw, 0, (.range 0 1)⟩,  -- BLOCK_AUTO
  ⟨0x9000, 1, 0x06, 1, .u32, .ro, .none, .ro, .none, .ro, 0, .any⟩,  -- EVENT_SEQ
  ⟨0x9000, 1, 0x07, 1, .u64, .ro, .none, .ro, .none, .rw, 0, .counter⟩,  -- EVENTS_DROPPED
  ⟨0x9000, 1, 0x08, 1, .u64, .ro, .none, .ro, .none, .rw, 0, .counter⟩,  -- LOG_OVERWRITTEN
  ⟨0x9000, 1, 0x09, 1, .blob, .ro, .none, .ro, .ro, .ro, 32, .any⟩,  -- FIRST_FATAL
  ⟨0x9000, 1, 0x0A, 1, .blob, .ro, .none, .ro, .ro, .ro, 32, .any⟩,  -- LAST_FENCE
  ⟨0x9000, 1, 0x0B, 1, .u64, .ro, .none, .ro, .none, .rw, 0, .counter⟩,  -- RECOVERIES
  ⟨0x9000, 1, 0x20, 1, .blob, .ro, .none, .ro, .ro, .ro, 8192, .any⟩,  -- FAULT_LOG
  ⟨0x9000, 1, 0x21, 1, .blob, .ro, .none, .ro, .ro, .ro, 1280, .any⟩,  -- UNIT_STATES
  ⟨0x9000, 1, 0x40, 1, .cmd, .x, .none, .x, .none, .x, 0, .any⟩,  -- FAULT_L_RELEASE
  ⟨0x9000, 1, 0x41, 1, .cmd, .x, .none, .x, .none, .x, 0, .any⟩,  -- RECOVER_BLOCK
  ⟨0x9000, 1, 0x42, 1, .cmd, .x, .none, .x, .none, .x, 0, .any⟩,  -- UNIT_OUT
  ⟨0x9000, 1, 0x43, 1, .cmd, .x, .none, .x, .none, .x, 0, .any⟩,  -- UNIT_RETURN
  ⟨0x9000, 1, 0x44, 1, .cmd, .x, .none, .x, .none, .x, 0, .any⟩,  -- DOMAIN_FENCE
  ⟨0x9000, 1, 0x45, 1, .cmd, .x, .none, .none, .none, .x, 0, .any⟩,  -- FAULT_WAIT_HOST
  ⟨0x9000, 1, 0x46, 1, .cmd, .none, .none, .x, .none, .x, 0, .any⟩,  -- FAULT_WAIT_FM
  ⟨0x9000, 1, 0xC0, 7, .u64, .ro, .none, .ro, .ro, .ro, 0, .any⟩,  -- Results of the above
  ⟨0x9100, 1, 0x01, 63, .enum8, .ro, .none, .ro, .ro, .ro, 0, .any⟩,  -- DOMAIN_STATE
  ⟨0x9001, 1, 0x01, 1, .u32, .ro, .none, .ro, .ro, .ro, 64, .any⟩,  -- SCAN_PERIOD
  ⟨0x9001, 1, 0x02, 1, .u8, .rw, .none, .rw, .none, .rw, 2, (.range 1 16)⟩,  -- HANG_SCANS
  ⟨0x9001, 1, 0x03, 1, .u64, .ro, .none, .ro, .none, .rw, 0, .counter⟩,  -- SCANS
  ⟨0x9001, 1, 0x04, 1, .u64, .ro, .none, .ro, .none, .rw, 0, .counter⟩,  -- HANGS
  ⟨0x9001, 1, 0x05, 1, .blob, .ro, .none, .ro, .none, .ro, 64, .any⟩,  -- LAST_CYCLE
  ⟨0x9002, 1, 0x01, 1, .bits32, .rw, .none, .rw, .none, .rw, 1, (.mult 0 3)⟩,  -- SKIM_TRIGGER
  ⟨0x9002, 1, 0x02, 1, .enum8, .rw, .none, .rw, .none, .rw, 1, (.range 0 1)⟩,  -- SKIM_HOLD
  ⟨0x9002, 1, 0x03, 1, .enum8, .ro, .none, .ro, .ro, .ro, 0, .any⟩,  -- SKIM_STATE
  ⟨0x9002, 1, 0x04, 1, .u64, .ro, .none, .ro, .none, .rw, 0, .counter⟩,  -- SKIM_DUMPS
  ⟨0x9002, 1, 0x05, 1, .u64, .ro, .none, .ro, .none, .rw, 0, .counter⟩,  -- SKIM_NO_RESPONSE
  ⟨0x9002, 1, 0x20, 1, .blob, .ro, .none, .ro, .none, .ro, 0x100000, .any⟩,  -- SKIM_BUFFER
  ⟨0x9002, 1, 0x40, 1, .cmd, .x, .none, .x, .none, .x, 0, .any⟩,  -- SKIM_START
  ⟨0x9002, 1, 0x41, 1, .cmd, .x, .none, .x, .none, .x, 0, .any⟩,  -- SKIM_RELEASE
  ⟨0x9002, 1, 0xC0, 2, .u64, .ro, .none, .ro, .none, .ro, 0, .any⟩,  -- Results of the above
  ⟨0x9010, 16, 0x01, 1, .u16, .ro, .none, .ro, .ro, .ro, 0, .any⟩,  -- TARGET
  ⟨0x9010, 16, 0x02, 1, .u32, .rw, .none, .rw, .none, .rw, 0, (.range 1 1000000)⟩,  -- WINDOW
  ⟨0x9010, 16, 0x03, 1, .enum8, .rw, .none, .rw, .none, .rw, 1, .special⟩,  -- ENABLE
  ⟨0x9010, 16, 0x04, 1, .u64, .ro, .none, .ro, .none, .rw, 0, .counter⟩ ]  -- EXPIRIES

/-- Objects of 0x9000-0x9FFF (02 Table 2-2). -/
def objects9b : List ObjRow := [
  ⟨0x9200, 28, 0x01, 1, .enum8, .rw, .none, .rw, .none, .rw, 0, .special⟩,  -- SEVERITY
  ⟨0x9200, 28, 0x02, 1, .enum8, .rw, .none, .rw, .none, .rw, 0, .special⟩,  -- SCOPE
  ⟨0x9200, 28, 0x03, 1, .u16, .rw, .none, .rw, .none, .rw, 0, (.range 0 65535)⟩,  -- COUNT_N
  ⟨0x9200, 28, 0x04, 1, .u32, .rw, .none, .rw, .none, .rw, 0, (.range 1 10000000)⟩,  -- COUNT_WINDOW
  ⟨0x9200, 28, 0x05, 1, .enum8, .ro, .none, .ro, .ro, .ro, 0, .any⟩,  -- CURRENT
  ⟨0x9200, 28, 0x06, 1, .u64, .ro, .none, .ro, .none, .rw, 0, .counter⟩,  -- EVENTS
  ⟨0x9200, 28, 0x07, 1, .u64, .ro, .none, .ro, .none, .rw, 0, .counter⟩,  -- PROMOTIONS
  ⟨0x9200, 28, 0x08, 1, .u32, .ro, .none, .ro, .none, .ro, 0, .any⟩,  -- LAST_SEQ
  ⟨0x9200, 28, 0x09, 1, .enum8, .ro, .none, .ro, .ro, .ro, 0, .any⟩ ]  -- MINIMUM

/-- Objects of 0xA000-0xAFFF (02 Table 2-2). -/
def objectsAa : List ObjRow := [
  ⟨0xA000, 1, 0x01, 1, .u16, .ro, .none, .rw, .none, .rw, 0xffff, (.rangeOr 0 4095 0xFFFF)⟩,  -- PARTNER_CHIP
  ⟨0xA000, 1, 0x02, 1, .u8, .ro, .none, .rw, .none, .rw, 255, (.rangeOr 0 35 0xFF)⟩,  -- MIRROR_PORT
  ⟨0xA000, 1, 0x03, 1, .u32, .ro, .none, .rw, .none, .rw, 0xbb80, (.range 1000 97000)⟩,  -- MIRROR_RATE
  ⟨0xA000, 1, 0x04, 1, .u32, .ro, .none, .rw, .none, .rw, 10, (.range 2 1000)⟩,  -- MIRROR_RETX
  ⟨0xA000, 1, 0x05, 1, .u32, .ro, .none, .rw, .none, .rw, 500, (.range 50 100000)⟩,  -- MIRROR_TIMEOUT
  ⟨0xA000, 1, 0x06, 1, .enum8, .ro, .none, .ro, .ro, .ro, 0, .any⟩,  -- MIRROR_STATE
  ⟨0xA000, 1, 0x07, 1, .u32, .ro, .none, .ro, .none, .ro, 0, .any⟩,  -- LAG_NOW
  ⟨0xA000, 1, 0x08, 1, .u32, .ro, .none, .ro, .none, .ro, 0, .any⟩,  -- SEQ_SENT
  ⟨0xA000, 1, 0x09, 1, .u32, .ro, .none, .ro, .none, .ro, 0, .any⟩,  -- SEQ_ACKED
  ⟨0xA000, 1, 0x0A, 1, .u32, .ro, .none, .ro, .none, .ro, 0, .any⟩,  -- SEQ_APPLIED
  ⟨0xA000, 1, 0x0B, 1, .u64, .ro, .none, .ro, .none, .rw, 0, .counter⟩,  -- RECORDS_SENT
  ⟨0xA000, 1, 0x0C, 1, .u64, .ro, .none, .ro, .none, .rw, 0, .counter⟩,  -- RECORDS_RETX
  ⟨0xA000, 1, 0x0D, 1, .u64, .ro, .none, .ro, .none, .rw, 0, .counter⟩,  -- RECORDS_APPLIED
  ⟨0xA000, 1, 0x0E, 1, .u64, .ro, .none, .ro, .none, .rw, 0, .counter⟩,  -- RECORDS_DISCARDED
  ⟨0xA000, 1, 0x0F, 1, .u64, .ro, .none, .ro, .none, .rw, 0, .counter⟩,  -- LAG_EVENTS
  ⟨0xA000, 1, 0x10, 1, .blob, .ro, .none, .rw, .none, .rw, 64, .any⟩,  -- REDIRECT
  ⟨0xA000, 1, 0x11, 1, .u16, .ro, .none, .ro, .ro, .ro, 0xffff, .any⟩,  -- ALIAS_CHIP
  ⟨0xA000, 1, 0x40, 1, .cmd, .none, .none, .x, .none, .x, 0, .any⟩,  -- MIRROR_START
  ⟨0xA000, 1, 0x41, 1, .cmd, .none, .none, .x, .none, .x, 0, .any⟩,  -- MIRROR_STOP
  ⟨0xA000, 1, 0x42, 1, .cmd, .none, .none, .x, .none, .x, 0, .any⟩,  -- TAKEOVER
  ⟨0xA000, 1, 0x43, 1, .cmd, .none, .none, .x, .none, .x, 0, .any⟩,  -- ALIAS_END
  ⟨0xA000, 1, 0x90, 1, .u64, .ro, .none, .ro, .none, .ro, 0, .any⟩,  -- REDIRECT_RESULT
  ⟨0xA000, 1, 0xC0, 4, .u64, .none, .none, .ro, .none, .ro, 0, .any⟩,  -- Results of the commands above
  ⟨0xA101, 63, 0x01, 1, .enum8, .rw, .ro, .rw, .none, .rw, 0, (.range 0 1)⟩,  -- MIRROR_ENABLE
  ⟨0xA101, 63, 0x02, 1, .enum8, .ro, .ro, .ro, .none, .ro, 0, .any⟩,  -- MIRROR_PSTATE
  ⟨0xA201, 63, 0x01, 1, .u8, .ro, .none, .rw, .none, .rw, 0, (.range 0 63)⟩,  -- SHADOW_PID
  ⟨0xA201, 63, 0x02, 1, .u32, .ro, .none, .rw, .none, .rw, 0, .special⟩,  -- SHADOW_QP_BASE
  ⟨0xA201, 63, 0x03, 1, .u32, .ro, .none, .rw, .none, .rw, 0, .special⟩,  -- SHADOW_KEY_BASE
  ⟨0xA201, 63, 0x04, 1, .enum8, .ro, .none, .ro, .ro, .ro, 0, .any⟩,  -- SHADOW_STATE
  ⟨0xA201, 63, 0x05, 1, .blob, .ro, .none, .ro, .none, .ro, 64, .any⟩,  -- SHADOW_DESC
  ⟨0xA201, 63, 0x06, 1, .blob, .ro, .none, .ro, .none, .ro, 64, .any⟩,  -- SHADOW_ACCT
  ⟨0xA201, 63, 0x07, 1, .blob, .ro, .none, .ro, .none, .ro, 0x8000, .any⟩,  -- TAKEOVER_GROUPS
  ⟨0xA201, 63, 0x08, 1, .u32, .ro, .none, .ro, .none, .ro, 0, .any⟩ ]  -- SHADOW_QPS

/-- Objects of 0xB000-0xBFFF (02 Table 2-2). -/
def objectsBa : List ObjRow := [
  ⟨0xB000, 1, 0x01, 1, .fx, .rw, .none, .ro, .ro, .rw, 0x10000, (.signed 32768 131072)⟩,  -- PKG_PWR_GAIN
  ⟨0xB000, 1, 0x02, 1, .i32, .rw, .none, .ro, .ro, .rw, 0, (.signed (-50000) 50000)⟩,  -- PKG_PWR_OFFSET
  ⟨0xB001, 1, 0x01, 16, .fx, .rw, .none, .ro, .ro, .rw, 0, (.signed (-1048576) 1048576)⟩,  -- TEMP_OFFSET
  ⟨0xB002, 1, 0x01, 128, .fx, .rw, .none, .ro, .ro, .rw, 0x10000, (.signed 32768 131072)⟩ ]  -- EN_GAIN

/-- Objects of 0xC000-0xCFFF (02 Table 2-2). -/
def objectsCa : List ObjRow := [
  ⟨0xC000, 1, 0x01, 1, .enum8, .ro, .ro, .ro, .ro, .ro, 1, .any⟩,  -- STARTUP_STEP
  ⟨0xC000, 1, 0x02, 1, .bits32, .ro, .none, .ro, .ro, .ro, 0, .any⟩,  -- STARTUP_DONE
  ⟨0xC000, 1, 0x03, 1, .u32, .ro, .none, .ro, .ro, .ro, 0, .any⟩,  -- STARTUP_FAIL
  ⟨0xC000, 1, 0x04, 1, .blob, .ro, .none, .ro, .ro, .ro, 64, .any⟩,  -- STEP_TIMES
  ⟨0xC000, 1, 0x05, 1, .u32, .ro, .none, .ro, .ro, .ro, 0, .any⟩,  -- SCRUB_LEFT
  ⟨0xC000, 1, 0x06, 1, .enum8, .ro, .ro, .ro, .ro, .ro, 0, .any⟩,  -- POWER_STATE
  ⟨0xC000, 1, 0x07, 1, .u64, .ro, .none, .ro, .none, .rw, 0, .counter⟩,  -- HOLD_ENTRIES
  ⟨0xC000, 1, 0x08, 1, .u64, .ro, .none, .ro, .none, .rw, 0, .counter⟩,  -- HOLD_CYCLES
  ⟨0xC000, 1, 0x09, 1, .enum8, .ro, .none, .ro, .none, .ro, 0, .any⟩,  -- WAKE_CAUSE
  ⟨0xC000, 1, 0x40, 1, .cmd, .x, .none, .x, .none, .x, 0, .any⟩,  -- HOLD_ENTER
  ⟨0xC000, 1, 0x41, 1, .cmd, .none, .none, .none, .x, .none, 0, .any⟩,  -- KEYS_DONE
  ⟨0xC000, 1, 0xC0, 2, .u64, .ro, .none, .ro, .ro, .ro, 0, .any⟩ ]  -- Results of the above

/-- Objects of 0xF000-0xFFFF (02 Table 2-2). -/
def objectsFa : List ObjRow := [
  ⟨0xF000, 1, 0x01, 1, .enum8, .rw, .none, .none, .ro, .rw, 0, (.range 0 2)⟩,  -- INJECT_MODE
  ⟨0xF000, 1, 0x02, 1, .enum8, .ro, .none, .ro, .rw, .ro, 0, (.range 0 1)⟩,  -- INJECT_LOCK
  ⟨0xF000, 1, 0x03, 1, .u32, .rw, .none, .none, .none, .rw, 0, (.range 0 4294967295)⟩,  -- INJECT_TARGET
  ⟨0xF000, 1, 0x04, 1, .u8, .rw, .none, .none, .none, .rw, 1, .special⟩,  -- INJECT_PATTERN
  ⟨0xF000, 1, 0x05, 1, .u8, .rw, .none, .none, .none, .rw, 0, (.range 0 255)⟩,  -- INJECT_COUNT
  ⟨0xF000, 1, 0x06, 1, .u64, .ro, .none, .none, .ro, .rw, 0, .counter⟩,  -- INJECTED
  ⟨0xF000, 1, 0x40, 1, .cmd, .x, .none, .none, .none, .x, 0, .any⟩,  -- INJECT_EVENT
  ⟨0xF000, 1, 0xC0, 1, .u64, .ro, .none, .none, .ro, .ro, 0, .any⟩ ]  -- INJECT_EVENT_RESULT

/-- The object table: every row of the dictionary (02 R38-R40). -/
def objects : List ObjRow :=
  objects1a ++ objects1b ++ objects2a ++ objects2b ++ objects3a ++ objects4a ++ objects5a ++ objects5b ++ objects6a ++ objects6b ++ objects7a ++ objects8a ++ objects8b ++ objects8c ++ objects9a ++ objects9b ++ objectsAa ++ objectsBa ++ objectsCa ++ objectsFa

/-- Does the row cover this index, and this sub-index? -/
def ObjRow.hasIndex (r : ObjRow) (idx : Nat) : Bool := r.base ≤ idx && idx < r.base + r.span

def ObjRow.covers (r : ObjRow) (idx sub : Nat) : Bool :=
  r.hasIndex idx && r.sub ≤ sub && sub < r.sub + r.count

/-- The row of an object, if its sub-index is implemented. -/
def objRow (idx sub : Nat) : Option ObjRow := objects.find? (·.covers idx sub)

/-- Is any sub-index implemented at this index? -/
def indexKnown (idx : Nat) : Bool := objects.any (·.hasIndex idx)

/-- The highest sub-index implemented at this index, which sub-index 0 reads (R38). -/
def highestSub (idx : Nat) : Nat :=
  objects.foldl (fun m r => if r.hasIndex idx then max m (r.sub + r.count - 1) else m) 0

/-- The size in bytes that a scalar access must carry (Table 2-1). -/
def OType.size : OType → Nat
  | .u8 | .enum8 => 1
  | .u16 => 2
  | .u32 | .i32 | .bits32 | .fx => 4
  | .u64 | .cmd => 8
  | .blob => 0

/-- The fault sources' defaults (12 Table 12-2): SEVERITY, MINIMUM, COUNT_N, COUNT_WINDOW, SCOPE, "Either". -/
structure SourceRow where
  severity : Nat
  minimum : Nat
  countN : Nat
  window : Nat
  scope : Nat
  either : Bool
deriving DecidableEq, Repr

def sourceRows : List SourceRow := [
  ⟨4, 4, 0, 1000000, 0, false⟩,      -- 0 FCU_INTERNAL
  ⟨0, 0, 0, 1000000, 0, false⟩,      -- 1 BC72_CORRECTED
  ⟨0, 0, 4, 1000000, 0, false⟩,      -- 2 BC72_UNCORRECTABLE
  ⟨0, 0, 0, 1000000, 0, false⟩,      -- 3 COUNTER_SATURATED
  ⟨0, 0, 0, 1000000, 0, false⟩,      -- 4 SECDED_CORRECTED
  ⟨3, 3, 0, 1000000, 0, false⟩,      -- 5 SECDED_UNCORRECTABLE
  ⟨0, 0, 0, 1000000, 0, false⟩,      -- 6 PERSIST_IMAGE
  ⟨0, 0, 0, 1000000, 1, true⟩,       -- 7 GUARD_FAULT
  ⟨0, 0, 0, 1000000, 1, true⟩,       -- 8 XLATE_FAULT
  ⟨0, 0, 0, 1000000, 1, true⟩,       -- 9 PACING_OVERFLOW
  ⟨0, 0, 64, 1000000, 0, false⟩,     -- 10 TRANSPORT_PROTOCOL
  ⟨0, 0, 0, 1000000, 1, true⟩,       -- 11 SECURITY_ALARM
  ⟨1, 0, 0, 1000000, 0, false⟩,      -- 12 TELEMETRY
  ⟨1, 0, 0, 1000000, 0, false⟩,      -- 13 THERMAL_TRIP
  ⟨4, 4, 0, 1000000, 0, false⟩ ] ++ [ -- 14 PLL_CORE
  ⟨3, 3, 0, 1000000, 0, false⟩,      -- 15 PLL_DIE
  ⟨2, 2, 0, 1000000, 0, false⟩,      -- 16 UCIE_MODULE
  ⟨2, 2, 0, 1000000, 0, false⟩,      -- 17 KILL_TIMEOUT
  ⟨3, 3, 0, 1000000, 0, false⟩,      -- 18 MEMORY_INTERFACE
  ⟨0, 0, 0, 1000000, 1, true⟩,       -- 19 MEMORY_UE
  ⟨2, 2, 0, 1000000, 0, false⟩,      -- 20 LANE_GROUP
  ⟨3, 0, 0, 1000000, 0, true⟩,       -- 21 HANG_WAIT_GRAPH
  ⟨3, 0, 0, 1000000, 0, false⟩,      -- 22 HANG_DRONE
  ⟨0, 0, 0, 1000000, 1, true⟩,       -- 23 TAG_TIMEOUT
  ⟨0, 0, 8, 10000000, 0, false⟩,     -- 24 PORT_LINK
  ⟨1, 0, 0, 1000000, 0, false⟩,      -- 25 MIRROR
  ⟨3, 3, 0, 1000000, 0, false⟩,      -- 26 FIRMWARE
  ⟨1, 0, 0, 1000000, 0, false⟩ ]     -- 27 HOST_LINK

def sourceRow (s : Nat) : SourceRow := sourceRows.getD s ⟨0, 0, 0, 1000000, 0, false⟩

/-- TARGET and default WINDOW of each Drone (12 Table 12-9); D9-D15 watch nothing. -/
def droneRow (n : Nat) : Nat × Nat :=
  [(0x0010, 1000), (0x0011, 1000), (0x0012, 1000), (0x0013, 1000), (0x0003, 10000), (0x0007, 100000), (0x0009, 1000),
    (0x0022, 200), (0x0008, 1000)].getD n (0, 1)

/-- The default of a scalar object (R116 and every object table; 12 Tables 12-2 and 12-9 instance by instance). -/
def objDefault (idx sub : Nat) : Nat :=
  if 0x9200 ≤ idx && idx < 0x9200 + 28 then
    let r := sourceRow (idx - 0x9200)
    match sub with
    | 1 => r.severity
    | 2 => r.scope
    | 3 => r.countN
    | 4 => r.window
    | 5 => r.severity
    | 9 => r.minimum
    | _ => 0
  else if 0x9010 ≤ idx && idx < 0x9020 then
    let n := idx - 0x9010
    match sub with
    | 1 => (droneRow n).1
    | 2 => (droneRow n).2
    | 3 => if n < 9 then 1 else 0
    | _ => 0
  else match objRow idx sub with
    | some r => if r.ty = .blob || r.ty = .cmd then 0 else r.dflt
    | none => 0

/-- The key of an object in the sparse stores. -/
def objKey (idx sub : Nat) : Nat := idx * 256 + sub

end Sys2Proof.Machine
end

