-- ==== Sys2Proof/Machine/Ops.lean ====
section
/-! DEFINITION. The named operations every unit uses: objects and counters, fault events, partitions and contexts, reset
domains, package memory, host writes with their dirty-page records, interrupts, and free values. -/

namespace Sys2Proof.Machine

/-! ## Unit numbers (12 Table 12-4) -/

def uDXE : Nat := 0x0001
def uPTB : Nat := 0x0002
def uTXH : Nat := 0x0003
def uTPE : Nat := 0x0004
def uLadle : Nat := 0x0005
def uSSU : Nat := 0x0006
def uAnneal : Nat := 0x0007
def uChanter : Nat := 0x0008
def uMirror : Nat := 0x0009
def uReed (n : Nat) : Nat := 0x0010 + n
def uFCU : Nat := 0x0020
def uWGD : Nat := 0x0021
def uSkim : Nat := 0x0022
def uPP (n : Nat) : Nat := 0x0100 + n
def uES (n : Nat) : Nat := 0x0200 + n
def uMS (n : Nat) : Nat := 0x0300 + n
def uLane (ms g : Nat) : Nat := 0x0400 + 8 * ms + g

/-- The key of a partition domain among the reset domains. -/
def domKey (d : Nat) : Nat := 0x10000 + d

/-! ## Statuses (01 Table 1-6, R32) -/

def statusCode : Status → Nat
  | .ok => 0x00 | .aborted => 0x01 | .busError => 0x02 | .xlateFault => 0x03 | .guardFault => 0x04 | .withdrawn => 0x05
  | .sealFail => 0x06 | .remoteReject => 0x07 | .timeout => 0x08 | .misaligned => 0x09 | .poison => 0x0A
  | .fenced => 0x0B | .keyRevoked => 0x0C | .conflict => 0x0D

def statusOf (n : Nat) : Status :=
  match n with
  | 0 => .ok | 1 => .aborted | 2 => .busError | 3 => .xlateFault | 4 => .guardFault | 5 => .withdrawn | 6 => .sealFail
  | 7 => .remoteReject | 8 => .timeout | 9 => .misaligned | 10 => .poison | 11 => .fenced | 12 => .keyRevoked
  | _ => .conflict

/-- The rank of R32: the lowest is written. -/
def statusRank : Status → Nat
  | .fenced => 0 | .withdrawn => 1 | .sealFail => 2 | .poison => 3 | .guardFault => 4 | .xlateFault => 5
  | .keyRevoked => 6 | .misaligned => 7 | .conflict => 8 | .remoteReject => 9 | .busError => 10 | .timeout => 11
  | .aborted => 12 | .ok => 13

/-- The status written when two apply (R32). -/
def worse (a b : Status) : Status := if statusRank a ≤ statusRank b then a else b

/-! ## Response codes (02 Table 2-3) -/

inductive Code where
  | ok | noobj | nosub | rights | type | range | state | busy | conflict | resource | pending
deriving DecidableEq, Repr

def Code.num : Code → Nat
  | .ok => 0x00 | .noobj => 0x11 | .nosub => 0x12 | .rights => 0x21 | .type => 0x31 | .range => 0x32 | .state => 0x41
  | .busy => 0x42 | .conflict => 0x51 | .resource => 0x61 | .pending => 0x71

/-! ## Objects -/

/-- The value of a scalar object in the store. -/
def rd (b : Block) (idx sub : Nat) : Nat :=
  (look b.dict.objs (BitVec.ofNat 64 (objDefault idx sub)) (objKey idx sub)).toNat

def wr (b : Block) (idx sub v : Nat) : Block :=
  { b with dict := { b.dict with
      objs := store b.dict.objs (BitVec.ofNat 64 (objDefault idx sub)) (objKey idx sub) (BitVec.ofNat 64 v) } }

/-- The committed content of a BLOB object that is stored (unlisted: nothing but zeros). -/
def rdBlob (b : Block) (idx sub : Nat) : Bytes := look b.dict.blobs ⟨0, 0⟩ (objKey idx sub)

def wrBlob (b : Block) (idx sub : Nat) (c : Bytes) : Block :=
  { b with dict := { b.dict with blobs := store b.dict.blobs ⟨0, 0⟩ (objKey idx sub) c } }

/-- Adds to an ACC counter, which wraps at 64 bits (01 R33). -/
def addTo (b : Block) (idx sub n : Nat) : Block := wr b idx sub ((rd b idx sub + n) % 2 ^ 64)

def count (b : Block) (idx sub : Nat) : Block := addTo b idx sub 1

/-! ## Events for the FCU (12 R381) -/

def emit (b : Block) (o : Out) : Block := { b with out := b.out ++ [o] }

/-- CURRENT of a fault source (12 R379, R380). -/
def currentSeverity (b : Block) (fsrc : Nat) : Nat := rd b (0x9200 + fsrc) 5

/-- An event enters the 64-entry queue; when it is full, an event of severity DEGRADE or above is held and a lesser one
is counted and dropped (R381). -/
def raiseEvent (b : Block) (e : Event) : Block :=
  if b.fcu.queue.length < 64 then
    { b with fcu := { b.fcu with queue := b.fcu.queue ++ [e] } }
  else if 2 ≤ currentSeverity b e.fsrc then
    { b with fcu := { b.fcu with held := b.fcu.held ++ [e] } }
  else count (count b (0x9200 + e.fsrc) 6) 0x9000 7

def raise (b : Block) (fsrc unit pid addr detail : Nat) : Block := raiseEvent b ⟨fsrc, unit, pid, addr, detail, false⟩

/-- The next free value: its draw number is spent. -/
def draw (b : Block) : Nat × Block := (Sys2Proof.Config.freePick b.fresh, { b with fresh := b.fresh + 1 })

/-- Raises a source whose DETAIL the spec does not give: it is a free value (log 3). -/
def raiseFree (b : Block) (fsrc unit pid : Nat) : Block :=
  let (d, b) := draw b
  raise b fsrc unit pid 0 (d % 2 ^ 32)

/-- Counts in a SAT counter of `w` bits whose overflow bit is bit `bit` of the object `ov` (01 R33). -/
def countSat (b : Block) (idx sub w ovIdx ovSub bit unit pid : Nat) : Block :=
  let v := rd b idx sub
  if v < 2 ^ w - 1 then wr b idx sub (v + 1)
  else if bitAt (rd b ovIdx ovSub) bit then b
  else raiseFree (wr b ovIdx ovSub (setBit (rd b ovIdx ovSub) bit true)) 3 unit pid

/-! ## Check points (01 R24-R26; 12 R408): BC-72 and SEC-DED, where injection makes a check fail -/

def injectHere (b : Block) (unit site : Nat) : Bool :=
  rd b 0xF000 1 == 1 && rd b 0xF000 5 != 0 && rd b 0xF000 3 == 65536 * unit + site

/-- An injected check is spent and counted, and its event carries INJECTED (12 R408); `addr` is the physical address of
the request that met it (12 R382). -/
def injectEventAt (b : Block) (fsrc unit site pid addr word : Nat) : Block :=
  let b := count (wr b 0xF000 5 (rd b 0xF000 5 - 1)) 0xF000 6
  raiseEvent b ⟨fsrc, unit, pid, addr, 65536 * site + word, true⟩

/-- A flit meets a BC-72 check point: true if it is uncorrectable and so poisoned (01 R25). -/
def checkFlit (b : Block) (unit site pid addr : Nat) : Block × Bool :=
  if !injectHere b unit site then (b, false)
  else if rd b 0xF000 4 = 3 then
    let b := countSat b 0x1200 2 32 0x1200 6 0 unit pid
    (injectEventAt (wr b 0x1200 5 (65536 * unit + site)) 2 unit site pid addr 0, true)
  else if rd b 0xF000 4 = 1 then (injectEventAt (count b 0x1200 1) 1 unit site pid addr 0, false)
  else (b, false)

/-- The first `n` flits of a block of data meet a check point in their order: bit `i` of the answer is set if flit `i` is
uncorrectable. -/
def checkFlits (b : Block) (unit site pid addr : Nat) : Nat → Block × Nat
  | 0 => (b, 0)
  | n + 1 =>
    let (b, m) := checkFlits b unit site pid addr n
    let (b, p) := checkFlit b unit site pid addr
    (b, m + (ofBool p <<< n))

/-- A block of `n` flits passes the check points of its way in turn, each a unit and a check point of 12 Table 12-4 (R24);
which of them lie on a way is a DESIGN CHOICE (log 17). -/
def checkPath (b : Block) (pid addr n : Nat) (way : List (Nat × Nat)) : Block × Nat :=
  way.foldl (fun x s => let (b, m) := checkFlits x.1 s.1 s.2 pid addr n; (b, x.2 ||| m)) (b, 0)

/-- A control SRAM word is read: corrected, or uncorrectable, which raises the source that fences its unit (R26). -/
def checkWord (b : Block) (unit site pid addr word : Nat) : Block × Bool :=
  if !injectHere b unit site then (b, false)
  else if rd b 0xF000 4 = 2 then
    (injectEventAt (countSat b 0x1200 4 32 0x1200 6 1 unit pid) 5 unit site pid addr word, true)
  else if rd b 0xF000 4 = 1 then (injectEventAt (count b 0x1200 3) 4 unit site pid addr word, false)
  else (b, false)

/-! ## Partitions and contexts (03) -/

def freeCtx : CtxSlot := ⟨.free, 0, 0, false⟩

/-- A partition with nothing staged: the defaults CREATE sets (Tables 3-9, 3-15). -/
def freePart : Part :=
  { st := .free, engines := 0, granules := 0, share := 0, qpBase := 0, qpCount := 0, keyBase := 0, keyCount := 0,
    chanBase := 0, chanCount := 0, sched := 1, energy := 0, sealed := false, domain := 0, hostLink := false, vf := 0,
    cause := 0, ctxs := [], s1Roots := [], wd := ⟨0, 0, 0, false⟩, logPhase := true }

def part (b : Block) (pid : Nat) : Part := look b.ptb.parts freePart pid

def setPart (b : Block) (pid : Nat) (p : Part) : Block :=
  { b with ptb := { b.ptb with parts := store b.ptb.parts freePart pid p } }

def isLive (b : Block) (pid : Nat) : Bool := (part b pid).st == .live

/-- The partition names 1-63 (R5). -/
def pids : List Nat := (List.range 63).map (· + 1)

/-- Does the partition hold its resources: LIVE, WITHDRAWING (ranges, share) (Table 3-1)? -/
def Part.holdsRanges (p : Part) : Bool := (p.st == .live) || (p.st == .withdrawing)

/-- Does it hold its granules and its VF binding? -/
def Part.holdsGranules (p : Part) : Bool := (p.st == .live) || (p.st == .withdrawing) || (p.st == .scrubbing)

/-- The partition bound to a virtual function (R102, R106); 0: none. -/
def pidOfVf (b : Block) (vf : Nat) : Nat :=
  if vf = 0 then 0
  else (pids.find? fun p => (part b p).holdsGranules && (part b p).vf == vf).getD 0

def ctxSlot (b : Block) (pid cx : Nat) : CtxSlot := look (part b pid).ctxs freeCtx cx

def setCtx (b : Block) (pid cx : Nat) (c : CtxSlot) : Block :=
  let p := part b pid
  setPart b pid { p with ctxs := store p.ctxs freeCtx cx c }

/-- The context is OPEN, so that requests may name it (R91). -/
def ctxOpen (b : Block) (pid cx : Nat) : Bool := cx < 1024 && (ctxSlot b pid cx).st == .open

/-- The CTX of a request made now for a context (01 R10). -/
def ctxNow (b : Block) (pid cx : Nat) : Ctx := ⟨pid, cx, (ctxSlot b pid cx).gen⟩

/-- Does a returning CTX still match its slot (R92)? -/
def ctxLive (b : Block) (c : Ctx) : Bool := ctxOpen b c.pid c.cx && (ctxSlot b c.pid c.cx).gen == c.gen

/-! ## Reset domains (12 R387) -/

def freshDomain : Domain := ⟨.inService, false, false, false, false, 0, 0, false⟩

def domain (b : Block) (key : Nat) : Domain := look b.fcu.doms freshDomain key

def setDomain (b : Block) (key : Nat) (d : Domain) : Block :=
  { b with fcu := { b.fcu with doms := store b.fcu.doms freshDomain key d } }

def served (b : Block) (key : Nat) : Bool := (domain b key).st == .inService

/-- A station is held in reset until its die PLL has reported lock (01 R20): `i` numbers it among the straps. -/
def unlocked (b : Block) (i : Nat) : Bool := !b.clk.dieLock.toNat.testBit (b.straps.dieOf.getD i 0)

def heldInReset (b : Block) (key : Nat) : Bool :=
  (0x200 ≤ key && key < 0x280 && unlocked b (key - 0x200)) || (0x300 ≤ key && key < 0x320 && unlocked b (key - 0x300 + 128))

/-- The FAULT_DOMAIN of a partition (Table 3-15: the PID if staged as 0). -/
def faultDomain (b : Block) (pid : Nat) : Nat :=
  let p := part b pid
  if p.domain = 0 then pid else p.domain

/-- The partition's reset domain is IN_SERVICE; PID 0 has none. -/
def partServed (b : Block) (pid : Nat) : Bool := pid == 0 || served b (domKey (faultDomain b pid))

/-- The partition holds sealed granules (03, 10). -/
def isSealed (b : Block) (pid : Nat) : Bool := (part b pid).sealed && (part b pid).holdsGranules

/-! ## Stations and granules (01 Table 1-7, 03 R85) -/

def esPresent (b : Block) (n : Nat) : Bool := n < 128 && b.straps.esMask.toNat.testBit n

def msPresent (b : Block) (n : Nat) : Bool := n < 32 && b.straps.msMask.toNat.testBit n

/-- Does granule `g` exist (R85)? -/
def granuleExists (b : Block) (g : Nat) : Bool :=
  g < 2048 && msPresent b (g / 64) && g % 64 < b.straps.stackGranules

def freshOwner : OwnerEntry := ⟨0, false, .unscrubbed⟩

def owner (b : Block) (g : Nat) : OwnerEntry := look b.ptb.owners freshOwner g

def setOwner (b : Block) (g : Nat) (e : OwnerEntry) : Block :=
  { b with ptb := { b.ptb with owners := store b.ptb.owners freshOwner g e } }

/-! ## Package memory -/

/-- The one form package memory is held in: addresses strictly rising, no byte listed that reads zero unlisted (log 2). -/
def Memory.wf (m : List Host.Cell) : Bool := canonical 0 m

/-- The byte at a local address of package memory; one that nothing has written reads zero. -/
def readByte (b : Block) (a : Nat) : BitVec 8 := look b.mem 0 a

def writeByte (b : Block) (a : Nat) (v : BitVec 8) : Block := { b with mem := store b.mem 0 a v }

/-- `len` bytes from local address `a`, little-endian. -/
def readBytes (b : Block) (a : Nat) : Nat → Nat
  | 0 => 0
  | len + 1 => (readByte b a).toNat + 256 * readBytes b (a + 1) len

def writeBytes (b : Block) (a v : Nat) : Nat → Block
  | 0 => b
  | len + 1 => writeBytes (writeByte b a (BitVec.ofNat 8 v)) (a + 1) (v / 256) len

/-- The local address of a physical address of this chip: PA[43:0] (04 Table 4-2; 01 Table 1-2, MQ_PA). -/
def localAddr (pa : Nat) : Nat := pa % 2 ^ 44

/-- `len` bytes of package memory at a physical address. -/
def readMem (b : Block) (pa len : Nat) : Nat := readBytes b (localAddr pa) len

def writeMem (b : Block) (pa v len : Nat) : Block := writeBytes b (localAddr pa) v len

/-! ## Guard checks of a Memory Station (04 R147) -/

/-- The source classes of R146. -/
inductive SrcClass where
  | engine | core | crucible | scrub | debug | host
deriving DecidableEq, Repr

def SrcClass.num : SrcClass → Nat
  | .engine => 0 | .core => 1 | .crucible => 2 | .scrub => 3 | .debug => 4 | .host => 5

/-- The checks of Table 4-17 in their order, for a request at station `ms` and local address `pa`: the REASON of the
first that fails. -/
def msCheck (b : Block) (ms pa pid : Nat) (cls : SrcClass) (startupScrub : Bool) : Option Nat :=
  let g := bits pa 30 11
  let e := owner b g
  let unowned := cls == .scrub || cls == .debug || cls == .host
  if bits pa 41 3 ≠ 0 || bits pa 36 5 ≠ ms || !granuleExists b g then some 1
  else if e.scrub == .scrubbing && cls != .scrub then some 2
  else if e.scrub == .unscrubbed && !startupScrub then some 3
  else if e.sealed && (cls == .debug || cls == .host) then some 4
  else if pid ≠ e.owner && !unowned then some 5
  else none

/-- The host bus carries a partition's traffic: a sealed one's only while its VF is RUN (03 Table 3-11; 10 R341). -/
def hostAdmitted (b : Block) (pid : Nat) : Bool :=
  !(part b pid).sealed || look b.ptb.tdisp 0 (part b pid).vf == 2

/-- How a partition's host traffic is sent: on its link, and (`tee`) for a sealed one whose VF is RUN on its IDE stream
with T = 1 (03 R107; 10 R341). What no partition sends goes on link 0 (DESIGN CHOICE, log 18). -/
def viaOf (b : Block) (pid : Nat) (tee : Bool) : Via :=
  ⟨(part b pid).hostLink, if tee && (part b pid).sealed && hostAdmitted b pid then some (rd b (0x7100 + pid) 7) else none⟩

/-- What belongs to no partition: link 0, no IDE stream. -/
def plainVia : Via := ⟨false, none⟩

/-- Records a refusal in the partition's guard objects and raises the guard-fault source naming the refusing unit
(R148); a refusal at a Memory Station also counts at the station, with no address of a sealed partition (R339). -/
def guardRecord (b : Block) (unit pa : Nat) (c : Ctx) (reason : Nat) (cls : SrcClass) (ownerPid : Nat) : Block :=
  let pid := c.pid
  let info := (reason <<< 28) + (cls.num <<< 25) + (pid <<< 19) + (ownerPid <<< 13) + c.cx
  let b := if 0x0300 ≤ unit && unit < 0x0320 then
      let i := 0x3400 + (unit - 0x0300)
      wr (wr (count b i 2) i 3 (if isSealed b pid then 0 else pa)) i 4 info
    else b
  let b := if pid = 0 then b
    else
      let i := 0x3100 + pid
      wr (wr (count b i 8) i 9 pa) i 0x0A info
  raise b 7 unit pid pa (reason <<< 16)

/-- A request at the Memory Station its address names, with the context it is made for (R10): refused FENCED where the
station is not in service or its owner map cannot be read (12 R388, R389; 01 R26), GUARD_FAULT by the first failing
check, else let through. -/
def msAdmit (b : Block) (pa : Nat) (c : Ctx) (cls : SrcClass) : Block × Option Status :=
  let ms := bits pa 36 5
  if !served b (uMS ms) || heldInReset b (uMS ms) then (b, some .fenced)
  else match checkWord b (uMS ms) 0x14 c.pid pa (bits pa 30 6 / 4) with
    | (b, true) => (b, some .fenced)
    | (b, false) => match msCheck b ms pa c.pid cls false with
    | some r =>
      let own := if r = 1 then 0 else (owner b (bits pa 30 11)).owner
      (guardRecord b (uMS ms) pa c r cls own, some .guardFault)
    | none => (b, none)

/-! ## Interrupts (03 R104, 01 R19) -/

/-- A vector as PCIe leaves it after reset: masked, nothing pending (PRESUMED, log 8). -/
def freshVector : Vector := ⟨0, 0, 1, false⟩

def vectorKey (fn vec : Nat) : Nat := fn * 256 + vec

/-- Raises an MSI-X vector of a function: a message if it is neither masked nor kept from the host bus, else its pending
bit. -/
def msixVia (b : Block) (fn vec : Nat) (via : Via) (open' : Bool) : Block :=
  let v := look b.ptb.msix freshVector (vectorKey fn vec)
  if v.ctrl.toNat.testBit 0 || !open' then
    { b with ptb := { b.ptb with msix := store b.ptb.msix freshVector (vectorKey fn vec) { v with pend := true } } }
  else emit b (.msix fn vec via)

/-- Raises a vector of a function: of the physical function, or of a virtual function for the partition bound to it. -/
def msix (b : Block) (fn vec : Nat) : Block :=
  let pid := pidOfVf b fn
  msixVia b fn vec (viaOf b pid true) (hostAdmitted b pid)

/-- Raises a vector of the virtual function bound to a partition. -/
def msixPart (b : Block) (pid vec : Nat) : Block :=
  let vf := (part b pid).vf
  if vf = 0 then b else msixVia b vf vec (viaOf b pid true) (hostAdmitted b pid)

/-- The pending vectors of a virtual function that may now be sent are sent (03 Table 3-11). -/
def sendPending (b : Block) (fn : Nat) : Block :=
  let due := (b.ptb.msix.filter fun e => e.1 / 256 == fn && e.2.pend && !e.2.ctrl.toNat.testBit 0).map (·.1)
  due.foldl (fun b k =>
    let v := look b.ptb.msix freshVector k
    msix { b with ptb := { b.ptb with msix := store b.ptb.msix freshVector k { v with pend := false } } } fn (k % 256)) b

/-! ## Host writes and dirty-page records (03 R110-R114) -/

/-- The record of Table 3-12 for a page written: appended, or dropped and counted when the ring is full (R114). -/
def dirtyRecord (b : Block) (pid addr source : Nat) : Block :=
  let i := 0x2400 + pid
  if pid = 0 || rd b i 3 ≠ 1 then b
  else
    let n := rd b i 2
    let prod := rd b i 5
    if bitAt (rd b i 6) 1 then countSat b i 7 32 i 6 2 uDXE pid
    else if (prod + 1) % n = rd b i 4 then
      countSat (wr b i 6 (setBit (rd b i 6) 1 true)) i 7 32 i 6 2 uDXE pid
    else
      let p := part b pid
      let w := ((addr >>> 12) <<< 12) + ((ofBool p.logPhase) <<< 4) + source
      let b := emit b (.hostWrite (rd b i 1 + 8 * prod) ⟨8, w⟩ false (viaOf b pid false))
      let next := (prod + 1) % n
      let b := count (wr b i 5 next) i 8
      if next = 0 then setPart b pid { p with logPhase := !p.logPhase } else b

/-- The pages a write touches, each with its record. -/
def dirtyPages (b : Block) (pid addr source : Nat) : Nat → Block
  | 0 => b
  | n + 1 => dirtyPages (dirtyRecord b pid addr source) pid (4096 * (addr / 4096 + 1)) source n

/-- A write to host memory on a partition's behalf, followed by its dirty-page records (R110, R112). -/
def hostWrite (b : Block) (pid addr : Nat) (data : Bytes) (poison : Bool) (source : Nat) : Block :=
  let b := emit b (.hostWrite addr data poison (viaOf b pid false))
  if data.len = 0 then b
  else dirtyPages b pid addr source ((addr + data.len - 1) / 4096 - addr / 4096 + 1)

/-! ## The die-to-die attachment (01 R12) -/

/-- The modules attached to the die of a Memory Station, in rising order. -/
def dieModules (s : Straps) (ms : Nat) : List Nat :=
  let d := s.dieOf.getD (128 + ms) 0
  ((List.range 160).filter fun i => s.dieOf.getD i 0 == d).foldl (fun l i =>
    let m := s.modOf.getD i 0
    l.takeWhile (· < m) ++ m :: l.dropWhile (· ≤ m)) []

/-- The modules that carry the flits of `len` bytes at a physical address: the die's modules in turn, in byte-address
order (R12). -/
def stripe (s : Straps) (pa len : Nat) : List Nat :=
  let ms := dieModules s (bits pa 36 5)
  (List.range ((pa % 64 + len + 63) / 64)).map fun k => ms.getD ((pa / 64 + k) % ms.length) 0

/-! ## Time (01 R22) -/

/-- Local time cycles (10 ns each) in a number of microseconds. -/
def micros (n : Nat) : Nat := 100 * n

/-- Has `delay` cycles passed since `start`? -/
def elapsed (b : Block) (start delay : Nat) : Bool := start + delay ≤ b.clk.now

end Sys2Proof.Machine
end

