-- ==== Sys2Proof/Machine/Check.lean ====
section
/-! DEFINITION. The code BC-72 of 01 R23. -/

namespace Sys2Proof.Machine

/-! ## BC-72 (01 R23) -/

/-- Multiplication in GF(2^8) modulo 0x11D: `b`'s bit `i` downward. -/
def gfMul8 (a b : Nat) : Nat → Nat → Nat
  | 0, acc => acc
  | i + 1, acc =>
    let d := if acc < 128 then 2 * acc else (2 * acc) ^^^ 0x11D
    gfMul8 a b i (if b.testBit i then d ^^^ a else d)

/-- α^n. -/
def alphaPow : Nat → Nat
  | 0 => 1
  | n + 1 => gfMul8 (alphaPow n) 2 8 0

/-- Coefficients of (x − α⁰)…(x − α^(n−1)), that of the highest power first. -/
def genPoly : Nat → List Nat
  | 0 => [1]
  | n + 1 =>
    let p := genPoly n
    List.zipWith (· ^^^ ·) (p ++ [0]) (0 :: p.map fun c => gfMul8 c (alphaPow n) 8 0)

/-- One step of the division by g: the remainder's eight symbols, highest first, and the next data byte. -/
def bcStep (r : List Nat) (d : Nat) : List Nat :=
  let q := r.headD 0 ^^^ d
  List.zipWith (fun a c => a ^^^ gfMul8 c q 8 0) (r.tailD [] ++ [0]) ((genPoly 8).tailD [])

/-- CHECK of 64 data bytes, byte 63 the highest coefficient: the remainder of DATA·x⁸ by g, highest symbol first. -/
def bcCheck (data : Nat) : List Nat :=
  ((List.range 64).map fun i => byteOf data (63 - i)).foldl bcStep (List.replicate 8 0)

end Sys2Proof.Machine
end

