-- ==== Sys2Proof/Machine/Crypto.lean ====
section
/-! DEFINITION. The cryptography of 10: AES-256, GCM, CMAC and the key derivation of R311, on byte strings. -/

namespace Sys2Proof.Machine

/-! ## AES-256 (FIPS 197, which the standards of R311, R313 and R319 name) -/

/-- Row `r` of the S-box, 16 bytes, entry 0 least significant. -/
def sboxRow : Nat → Nat
  | 0 => 0x76ABD7FE2B670130C56F6BF27B777C63
  | 1 => 0xC072A49CAFA2D4ADF04759FA7DC982CA
  | 2 => 0x1531D871F1E5A534CCF73F362693FDB7
  | 3 => 0x75B227EBE28012079A059618C323C704
  | 4 => 0x842FE329B3D63B52A05A6E1B1A2C8309
  | 5 => 0xCF584C4A39BECB6A5BB1FC20ED00D153
  | 6 => 0xA89F3C507F02F94585334D43FBAAEFD0
  | 7 => 0xD2F3FF1021DAB6BCF5389D928F40A351
  | 8 => 0x73195D643D7EA7C41744975FEC130CCD
  | 9 => 0xDB0B5EDE14B8EE4688902A22DC4F8160
  | 10 => 0x79E4959162ACD3C25C2406490A3A32E0
  | 11 => 0x08AE7A65EAF4566CA94ED58D6D37C8E7
  | 12 => 0x8A8BBD4B1F74DDE8C6B4A61C2E2578BA
  | 13 => 0x9E1DC186B95735610EF6034866B53E70
  | 14 => 0xDF2855CEE9871E9B948ED9691198F8E1
  | _ => 0x16BB54B00F2D99416842E6BF0D89A18C

def sbox (x : Nat) : Nat := byteOf (sboxRow (x / 16)) (x % 16)

/-- Multiplication by x in GF(2^8). -/
def xtime (x : Nat) : Nat := if x < 128 then 2 * x else (2 * x) ^^^ 0x11B

/-- The bytes of a block of `n` bytes, most significant first. -/
def blockBytes (n v : Nat) : List Nat := (List.range n).map fun i => byteOf v (n - 1 - i)

/-- The number whose bytes, most significant first, are listed. -/
def blockOf (l : List Nat) : Nat := l.foldl (fun a x => a * 256 + x) 0

def subWord (w : Nat) : Nat := blockOf ((blockBytes 4 w).map sbox)

def rotWord (w : Nat) : Nat := (w * 256 + w / 2 ^ 24) % 2 ^ 32

/-- One more word of the key schedule, the words so far newest first; `i` is its number. -/
def nextWord (ws : List Nat) (i rcon : Nat) : Nat :=
  let p := ws.headD 0
  let t := if i % 8 = 0 then subWord (rotWord p) ^^^ (rcon <<< 24) else if i % 8 = 4 then subWord p else p
  ws.getD 7 0 ^^^ t

/-- The key schedule from word `i` on, newest first. -/
def keyWords : Nat → Nat → Nat → List Nat → List Nat
  | 0, _, _, ws => ws
  | n + 1, i, rcon, ws => keyWords n (i + 1) (if i % 8 = 0 then xtime rcon else rcon) (nextWord ws i rcon :: ws)

/-- The fifteen round keys of a 256-bit key, whose most significant byte is its first (DEDUCED from R318, log 5). -/
def roundKeys (key : Nat) : List Nat :=
  let ws := (keyWords 52 8 1 ((List.range 8).map fun i => bits key (32 * i) 32)).reverse
  (List.range 15).map fun r => (List.range 4).foldl (fun a j => a * 2 ^ 32 + ws.getD (4 * r + j) 0) 0

def shiftRows (s : List Nat) : List Nat := (List.range 16).map fun i => s.getD ((i + 4 * (i % 4)) % 16) 0

def mixColumns (s : List Nat) : List Nat :=
  (List.range 16).map fun i =>
    let a (j : Nat) : Nat := s.getD (4 * (i / 4) + (i + j) % 4) 0
    xtime (a 0) ^^^ xtime (a 1) ^^^ a 1 ^^^ a 2 ^^^ a 3

def aesRounds : List Nat → Nat → Nat
  | [], s => s
  | [k], s => blockOf (shiftRows ((blockBytes 16 s).map sbox)) ^^^ k
  | k :: ks, s => aesRounds ks (blockOf (mixColumns (shiftRows ((blockBytes 16 s).map sbox))) ^^^ k)

/-- AES-256 of a block; the block's most significant byte is its first. -/
def aes (key block : Nat) : Nat :=
  match roundKeys key with
  | [] => block
  | k :: ks => aesRounds ks (block ^^^ k)

/-! ## GCM (SP 800-38D) -/

/-- Multiplication in GF(2^128), bit 127 first. -/
def gfMul (x : Nat) : Nat → Nat → Nat → Nat
  | 0, _, z => z
  | i + 1, v, z =>
    gfMul x i (if v % 2 = 0 then v / 2 else (v / 2) ^^^ (0xE1 <<< 120)) (if x.testBit i then z ^^^ v else z)

def ghashStep (h y x : Nat) : Nat := gfMul (y ^^^ x) 128 h 0

/-- Block `j` of a byte string, padded with zero bytes, its first byte most significant. -/
def msbBlock (b : Bytes) (j : Nat) : Nat := swapBytes (slice (b.val % 2 ^ (8 * b.len)) (16 * j) 16) 16

def blocks (b : Bytes) : List Nat := (List.range ((b.len + 15) / 16)).map (msbBlock b)

/-- GHASH of additional data and text, with their length block. -/
def ghash (h : Nat) (a c : Bytes) : Nat :=
  ghashStep h ((blocks a ++ blocks c).foldl (ghashStep h) 0) ((8 * a.len) * 2 ^ 64 + 8 * c.len)

/-- Counter mode from counter block `iv || n`. -/
def ctrMode (key iv : Nat) (n : Nat) (p : Bytes) : Bytes :=
  let ks := (List.range ((p.len + 15) / 16)).map fun j =>
    swapBytes (aes key (iv * 2 ^ 32 + (n + j) % 2 ^ 32)) 16
  let stream := ks.reverse.foldl (fun a k => a * 2 ^ 128 + k) 0
  ⟨p.len, (p.val ^^^ stream) % 2 ^ (8 * p.len)⟩

/-- The 128-bit tag of a ciphertext. -/
def gcmTag (key iv : Nat) (aad c : Bytes) : Nat := ghash (aes key 0) aad c ^^^ aes key (iv * 2 ^ 32 + 1)

def gcmCrypt (key iv : Nat) (p : Bytes) : Bytes := ctrMode key iv 2 p

/-! ## CMAC (SP 800-38B) and the derived keys (R311) -/

def dbl (x : Nat) : Nat := if x < 2 ^ 127 then 2 * x else (2 * x) % 2 ^ 128 ^^^ 0x87

/-- CMAC with AES-256. -/
def cmac (key : Nat) (m : Bytes) : Nat :=
  let k1 := dbl (aes key 0)
  let n := max 1 ((m.len + 15) / 16)
  let whole := m.len % 16 = 0 && m.len ≠ 0
  let last := if whole then msbBlock m (n - 1) ^^^ k1
    else (msbBlock m (n - 1) + 2 ^ (8 * (15 - m.len % 16) + 7)) ^^^ dbl k1
  aes key (((List.range (n - 1)).map (msbBlock m)).foldl (fun y x => aes key (y ^^^ x)) 0 ^^^ last)

/-- The key derived under a label of `n` bytes, given as a number, first byte most significant (R311). -/
def derive (key label n : Nat) : Nat :=
  let prf (i : Nat) : Nat :=
    cmac key ⟨n + 4, swapBytes (((i * 2 ^ (8 * n) + label) * 256) * 65536 + 256) (n + 4)⟩
  prf 1 * 2 ^ 128 + prf 2

/-- "IKX-LINK", "IKX-SPILL-ENC", "IKX-SPILL-TAG", "IKX-SPILL-TREE". -/
def linkKey (key : Nat) : Nat := derive key 0x494B582D4C494E4B 8
def spillEnc (key : Nat) : Nat := derive key 0x494B582D5350494C4C2D454E43 13
def spillTag (key : Nat) : Nat := derive key 0x494B582D5350494C4C2D544147 13
def spillTree (key : Nat) : Nat := derive key 0x494B582D5350494C4C2D54524545 14

end Sys2Proof.Machine
end

