-- ==== Sys2Proof/Machine/Tags.lean ====
section
/-! DEFINITION. Transaction tags: the three pools, reserves and ceilings, waiting requests and epochs (01 R27-R30). -/

namespace Sys2Proof.Machine

def poolBase : Pool → Nat
  | .mem => 0x0000 | .fabric => 0x8000 | .host => 0xE000

def poolSize : Pool → Nat
  | .mem => 32768 | .fabric => 24576 | .host => 8192

/-- The index of a pool's ceiling objects (Table 1-7). -/
def poolCeilIndex : Pool → Nat
  | .mem => 0x1301 | .fabric => 0x1302 | .host => 0x1303

def TagUse.pid (u : TagUse) : Nat := u.ctx.pid

def TagWait.pid (w : TagWait) : Nat := w.ctx.pid

def inPool (p : Pool) (tag : Nat) : Bool := poolBase p ≤ tag && tag < poolBase p + poolSize p

/-- Tags of a pool in use. -/
def poolUsed (b : Block) (p : Pool) : Nat := (b.tags.used.filter fun u => inPool p u.tag).length

/-- Tags of a pool a partition holds. -/
def poolHeld (b : Block) (p : Pool) (pid : Nat) : Nat := (b.tags.used.filter fun u => inPool p u.tag && u.pid == pid).length

/-- What the LIVE partitions other than `pid` have not yet taken of their reserves of 64 (R28). -/
def poolReserved (b : Block) (p : Pool) (pid : Nat) : Nat :=
  (pids.filter fun q => q != pid && isLive b q).foldl (fun n q => n + (64 - poolHeld b p q)) 0

/-- May a request of this partition take a tag of the pool now (R27-R29)? What the others have not taken of their
reserves stays free for them, also while fewer tags are free than all reserves ask for: then a request within its own
reserve waits too (DESIGN CHOICE, log 19). -/
def tagAllowed (b : Block) (p : Pool) (pid : Nat) : Bool :=
  let free := poolSize p - poolUsed b p
  (pid == 0 || poolHeld b p pid < rd b (poolCeilIndex p) pid) && poolReserved b p pid < free

/-- The lowest free tag from `t` up, the list of tags in use rising. -/
def lowestFree : List TagUse → Nat → Nat
  | [], t => t
  | u :: us, t => if u.tag = t then lowestFree us (t + 1) else lowestFree us t

/-- The tags in use with one more, in rising order. -/
def insertTag : List TagUse → TagUse → List TagUse
  | [], u => [u]
  | v :: vs, u => if u.tag < v.tag then u :: v :: vs else v :: insertTag vs u

def tagEpoch (b : Block) (tag : Nat) : Nat := look b.tags.epochs 0 tag

/-- Fills the tag of a request into what the block presents for it. -/
def withTag (tag : Nat) : Out → Out
  | .memRead _ pa len => .memRead tag pa len
  | .hostRead _ addr len via => .hostRead tag addr len via
  | o => o

/-- The common part of two ranges (address and length). -/
def common (a m c n : Nat) : Option (Nat × Nat) :=
  let lo := max a c
  let hi := min (a + m) (c + n)
  if lo < hi then some (lo, hi - lo) else none

/-- A completion program of the group is running. -/
def Group.running (g : Group) : Bool := g.stage == .phase1 || g.stage == .between || g.stage == .phase2

/-- The parts of a written range that an extent's program loads or stores. -/
def Extent.hits (x : Extent) (pa len : Nat) : List (Nat × Nat) :=
  match common x.pa x.len pa len with
  | none => []
  | some (lo, n) =>
    let first := (lo - x.pa) / x.period
    (List.range ((lo - x.pa + n - 1) / x.period + 1 - first)).filterMap fun i =>
      common (x.pa + (first + i) * x.period + x.skip) x.take lo n

/-- Bytes that a running completion program loads or stores and another requester has just written are undefined
(09 R300): they take free values, and the group's later loads of them do. -/
def disturb (b : Block) (pa len : Nat) : Block :=
  let one (b : Block) (e : Nat × Group) : Block :=
    let parts := if e.2.running then e.2.extents.flatMap (·.hits pa len) else []
    if parts.isEmpty then b
    else
      let b := { b with cru := { b.cru with
          groups := insert b.cru.groups e.1 { e.2 with disturbed := e.2.disturbed ++ parts } } }
      parts.foldl (fun b p => let (d, b) := draw b; writeMem b p.1 d p.2) b
  b.cru.groups.foldl one b

/-- What a request changes when it is presented: a write at the memory request interface changes package memory. -/
def present (b : Block) (o : Out) : Block :=
  match o with
  | .memWrite pa data p => emit (disturb (writeMem b pa data.val data.len) pa data.len) (.memWrite (localAddr pa) data p)
  | .memRead tag pa len => emit b (.memRead tag (localAddr pa) len)
  | _ => emit b o

/-- Takes the pool's lowest free tag for a request and presents the request. -/
def grantTag (b : Block) (w : TagWait) : Block :=
  let t := lowestFree (b.tags.used.filter fun u => inPool w.pool u.tag) (poolBase w.pool)
  (w.msg.map (withTag t)).foldl present
    { b with tags := { b.tags with used := insertTag b.tags.used ⟨t, w.ctx, w.segs, w.holder⟩ } }

/-- The unit whose request holds a tag (12 Table 12-2, FSRC 23); a group's requests are the Translation Hub's (log 14). -/
def unitOfHolder (h : Holder) : Nat :=
  match h.kind with
  | .engineRead => uES h.a
  | .chanDesc | .chanRead | .chanWrite | .chanReadback | .chanStatus => uLadle
  | .frame | .placement | .setupRecord | .queryWrite | .wqeFetch | .wqePayload | .completion => uTPE
  | .spillLine | .treeNode | .anneal => uSSU
  | .stepDesc | .stepRanges => uChanter
  | .posted => uDXE
  | .walk | .inval | .groupRecord | .localSlot | .castOut | .groupRecordOut | .streamTable => uTXH

/-- A read of package memory came back with MR_ERR or MR_POISON (12 Table 12-2, FSRC 19). -/
def memoryUe (b : Block) (bad : Bool) (pa pid : Nat) : Block :=
  if bad then
    let (d, b) := draw b
    raise b 19 (uMS (bits pa 36 5)) pid pa (d % 2 ^ 32)
  else b

/-- The tag a request holds. -/
def tagOf (b : Block) (h : Holder) : Option TagUse := b.tags.used.find? (·.holder == h)

/-- Has the request been issued (and not merely queued for a tag)? -/
def issued (b : Block) (h : Holder) : Bool := (tagOf b h).isSome

/-- Frees a tag: its epoch advances, so that a late response no longer matches (R30). -/
def dropTag (b : Block) (tag : Nat) : Block :=
  { b with tags := { b.tags with
      used := b.tags.used.filter (·.tag != tag)
      epochs := store b.tags.epochs 0 tag ((tagEpoch b tag + 1) % 16) } }

/-- Takes the requests a predicate selects out of the tags and of the waiting list. -/
def dropHolders (b : Block) (p : Holder → Bool) : Block :=
  let b := (b.tags.used.filter fun u => p u.holder).foldl (fun b u => dropTag b u.tag) b
  { b with tags := { b.tags with waits := b.tags.waits.filter fun w => !p w.holder } }

/-- Ends a request: its tag is freed, or its wait for one given up. -/
def settle (b : Block) (h : Holder) : Block := dropHolders b (· == h)

def poolTurn (b : Block) : Pool → Nat
  | .mem => b.tags.turnMem | .fabric => b.tags.turnFabric | .host => b.tags.turnHost

def setTurn (b : Block) (p : Pool) (t : Nat) : Block :=
  match p with
  | .mem => { b with tags := { b.tags with turnMem := t } }
  | .fabric => { b with tags := { b.tags with turnFabric := t } }
  | .host => { b with tags := { b.tags with turnHost := t } }

/-- The partitions in the order of their turns after `t`, PID 0 among them (R28). -/
def turnOrder (t : Nat) : List Nat := (List.range 64).map fun i => (t + 1 + i) % 64

/-- The next waiting request the round-robin of a pool serves (R27). -/
def nextWaiter (b : Block) (p : Pool) : Option TagWait :=
  (turnOrder (poolTurn b p)).findSome? fun pid =>
    if tagAllowed b p pid then b.tags.waits.find? fun w => w.pool == p && w.pid == pid else none

/-- A request may take a tag now: its partition may, and no waiting request is to be served first (R27). -/
def tagFree (b : Block) (p : Pool) (pid : Nat) : Bool := tagAllowed b p pid && (nextWaiter b p).isNone

/-- A request joins those that wait for a tag, once. -/
def waitTag (b : Block) (w : TagWait) : Block :=
  if b.tags.waits.any (·.holder == w.holder) then b
  else { b with tags := { b.tags with waits := b.tags.waits ++ [w] } }

/-- Issues a request that awaits a response: with a tag at once, or waiting for one in its turn (R27). -/
def issue (b : Block) (w : TagWait) : Block :=
  if tagFree b w.pool w.pid then grantTag b w
  else { b with tags := { b.tags with waits := b.tags.waits ++ [w] } }

/-- Does a request hold a tag, or may it take one now? -/
def tagReady (b : Block) (w : TagWait) : Bool := issued b w.holder || tagFree b w.pool w.pid

/-- A request whose answer comes in the step that issues it: it takes a tag, unless it holds one, acts, and frees it. -/
def underTag (b : Block) (w : TagWait) (f : Block → Block) : Block :=
  settle (f (if issued b w.holder then b else grantTag b w)) w.holder

/-- A freed tag goes to the next waiting request of its pool, which is issued (R27). -/
def tagGrant (b : Block) (p : Pool) : Block :=
  match nextWaiter b p with
  | none => b
  | some w =>
    let b := { b with tags := { b.tags with waits := b.tags.waits.erase w } }
    setTurn (grantTag b w) p w.pid

end Sys2Proof.Machine
end

