-- ==== Sys2Proof/Machine/Cmd.lean ====
section
/-! DEFINITION. The dictionary's common parts: roles, responses on each path, command objects with their results and
notifications (02 R41-R56, R65, R71). -/

namespace Sys2Proof.Machine

/-! ## Roles (00 R2) -/

inductive Role where
  | host | tnt | fm | rot | fw | dbg
deriving DecidableEq, Repr

/-- The role of an access follows from its path alone (R2, Table 0-2). The debug path's enable by the root of trust is named
nowhere: an access that the path carries is performed (DESIGN CHOICE, log 41). -/
def roleOf : Path → Role
  | .host _ => .host
  | .tenant _ _ => .tnt
  | .mctp _ _ => .fm
  | .fabric _ _ => .fm
  | .key => .rot
  | .reed _ => .fw
  | .debug => .dbg

def ObjRow.right (r : ObjRow) : Role → Right
  | .host => r.host | .tnt => r.tnt | .fm => r.fm | .rot => r.rot | .fw => r.fw | .dbg => r.fw

/-- The path of an access is that of a tenant's window: the partition bound to its function; else PID 0. -/
def pathPid (b : Block) : Path → Nat
  | .tenant vf _ => pidOfVf b vf
  | _ => 0

/-! ## Responses (02 R65, R68) -/

/-- The response word of Table 2-8. -/
def respWord (cmdSeq : Nat) (c : Code) (seq : Nat) : Word :=
  BitVec.ofNat 64 ((cmdSeq <<< 48) + (c.num <<< 32) + seq % 65536)

def freshSlot : Slot := ⟨0, 0, 0, 0⟩

/-- Slot registers are kept at function * 64 + slot. -/
def slotKey (fn slot : Nat) : Nat := fn * 64 + slot

def slotOf (b : Block) (fn slot : Nat) : Slot := look b.dict.slots freshSlot (slotKey fn slot)

def setSlot (b : Block) (fn slot : Nat) (s : Slot) : Block :=
  { b with dict := { b.dict with slots := store b.dict.slots freshSlot (slotKey fn slot) s } }

/-- The access record of Table 2-12: KIND, VERSION, WORD, DATA and, where present, SEG. -/
def accessRecord (kind : Nat) (word data : Word) (seg : Option Nat) : Bytes :=
  let h := kind + (1 <<< 8) + (word.toNat <<< 64) + (data.toNat <<< 128)
  match seg with
  | some s => ⟨280, h + ((s % 2 ^ 2048) <<< 192)⟩
  | none => ⟨24, h⟩

/-- An MCTP dictionary message: type byte 0x7E, vendor 0x2E5B most significant byte first, the access record (R67). -/
def mctpBody (r : Bytes) : Bytes := bytesAppend ⟨3, 0x5B2E7E⟩ r

/-- Keeps the last 64 responses of a remote path, newest first (R72). -/
def keepResponse (b : Block) (k : Nat) (r : Kept) : Block :=
  { b with dict := { b.dict with kept := store b.dict.kept [] k ((r :: look b.dict.kept [] k).take 64) } }

/-- The key of a remote path among the kept responses. -/
def keptKey : Path → Option Nat
  | .mctp eid _ => some eid
  | .fabric chip _ => some (256 + chip)
  | _ => none

/-- A response record goes out on a remote path (R71). -/
def sendRecord (b : Block) (p : Path) (owner : Bool) (r : Bytes) : Block :=
  match p with
  | .mctp eid tag => emit b (.mctp eid tag owner (mctpBody r))
  | .fabric chip _ => { b with dict := { b.dict with fabricOut := b.dict.fabricOut ++ [(chip, r)] } }
  | _ => b

/-- Answers an access with a response word, RDATA and, for BLOB_READ, a segment. -/
def respond (b : Block) (acc : Access) (cmdSeq : Nat) (c : Code) (rdata : Nat) (seg : Option Nat) : Block :=
  let w := respWord cmdSeq c acc.seq
  let d : Word := BitVec.ofNat 64 rdata
  match acc.path with
  | .host slot =>
    let s := slotOf b 0 slot
    setSlot b 0 slot { s with resp := w, rdata := d, seg := seg.getD s.seg }
  | .tenant vf slot =>
    let s := slotOf b vf slot
    setSlot b vf slot { s with resp := w, rdata := d, seg := seg.getD s.seg }
  | .mctp eid tag =>
    keepResponse (sendRecord b (.mctp eid tag) false (accessRecord 2 w d seg)) eid ⟨acc.seq, w, d, seg⟩
  | .fabric chip port =>
    keepResponse (sendRecord b (.fabric chip port) false (accessRecord 2 w d seg)) (256 + chip) ⟨acc.seq, w, d, seg⟩
  | p => emit b (.resp p w d seg)

def answer (b : Block) (acc : Access) (c : Code) : Block := respond b acc 0 c 0 none

/-! ## Command objects (R50-R56) -/

/-- The result word of Table 2-4: STATE 1 PENDING, 2 DONE. -/
def resultWord (cmdSeq state code detail : Nat) : Nat :=
  (cmdSeq <<< 48) + (state <<< 40) + (code <<< 32) + detail % 2 ^ 24

/-- The STATE field of an object's result. -/
def resultState (b : Block) (idx sub : Nat) : Nat := bits (rd b idx (sub + 0x80)) 40 2

/-- The command pending on an object. -/
def pendingCmd (b : Block) (idx sub : Nat) : Option PendCmd := b.dict.cmds.find? (·.key == objKey idx sub)

/-- The notification of R55 on the path that issued the command. -/
def notifyDone (b : Block) (acc : Access) (cmdSeq : Nat) (c : Code) (result : Nat) : Block :=
  if !acc.notify then b
  else match acc.path with
    | .host _ => msix b 0 0
    | .tenant vf _ => msix b vf 0
    | .mctp eid _ =>
      let (t, b) := draw b
      sendRecord b (.mctp eid (t % 8)) true
        (accessRecord 3 (respWord cmdSeq c acc.seq) (BitVec.ofNat 64 result) none)
    | .fabric chip port =>
      sendRecord b (.fabric chip port) false
        (accessRecord 3 (respWord cmdSeq c acc.seq) (BitVec.ofNat 64 result) none)
    | _ => b

/-- A command finishes: its result reads DONE with the final code and DETAIL, its place in the queue is freed, and the
notification it asked for is raised. -/
def finishCmd (b : Block) (idx sub : Nat) (c : Code) (detail : Nat) : Block :=
  match pendingCmd b idx sub with
  | none => b
  | some p =>
    let r := resultWord p.cmdSeq 2 c.num detail
    let b := wr b idx (sub + 0x80) r
    let b := { b with dict := { b.dict with cmds := b.dict.cmds.filter (·.key != objKey idx sub) } }
    notifyDone b p.acc p.cmdSeq c r

/-- A command is accepted: it takes the next command sequence number and a place in the queue, its result reads
PENDING, and the access is answered PENDING (R50, R51). -/
def acceptCmd (b : Block) (acc : Access) (idx sub arg : Nat) : Block :=
  let n := (b.dict.cmdSeq + 1) % 65536
  let b := { b with dict := { b.dict with
      cmdSeq := n
      cmds := b.dict.cmds ++ [⟨objKey idx sub, n, acc, arg, b.clk.now⟩] } }
  respond (wr b idx (sub + 0x80) (resultWord n 1 Code.pending.num 0)) acc n .pending 0 none

/-- Which checks of R43 a command's write fails, after NOOBJ and NOSUB. -/
structure CmdFails where
  rights : Bool
  range : Bool
  state : Bool
  busy : Bool
  conflict : Bool
  resource : Bool
deriving DecidableEq, Repr

def noFails : CmdFails := ⟨false, false, false, false, false, false⟩

/-- The first failing check in the order of R43, with BUSY while the result is PENDING and RESOURCE while 256 commands
are pending (R52). -/
def firstFail (b : Block) (idx sub : Nat) (f : CmdFails) : Option Code :=
  if f.rights then some .rights
  else if f.range then some .range
  else if f.state then some .state
  else if f.busy || resultState b idx sub == 1 then some .busy
  else if f.conflict then some .conflict
  else if f.resource || 256 ≤ b.dict.cmds.length then some .resource
  else none

/-- The dictionary answers nothing but the readiness reads until start-up step 3 has loaded the defaults (R48). -/
def dictReady (b : Block) : Bool := bitAt (rd b 0xC000 2) 3

/-! ## Hold and the wake (R49; 14 R437, R440) -/

/-- A wake source of code `cause`: while ENTERING it ends the entry; in HOLD it is recorded and the wake starts. -/
def wakeBy (b : Block) (cause : Nat) : Block :=
  match rd b 0xC000 6 with
  | 1 => finishCmd (wr b 0xC000 6 0) 0xC000 0x40 .state 0x0A
  | 2 => wr (wr b 0xC000 6 3) 0xC000 9 cause
  | _ => b

/-- The block is in HOLD or WAKING. -/
def asleep (b : Block) : Bool := rd b 0xC000 6 == 2 || rd b 0xC000 6 == 3

/-- A wake source that is not a dictionary access is held until the wake is complete (14 R440). -/
def wakeEvent (b : Block) (cause : Nat) (i : Instr) (f : Block → Block) : Block :=
  if asleep b then { wakeBy b cause with held := b.held ++ [i] } else f (wakeBy b cause)

/-- Every control-bus access is counted (0x1402.05), and one in Hold starts the wake (R49). -/
def busAccess (b : Block) : Block := wakeBy (count b 0x1402 5) 3

/-- TNT writes and commands while the block is fenced are answered STATE (12 R393). -/
def fencedTnt (b : Block) (acc : Access) : Bool := roleOf acc.path == .tnt && rd b 0x9000 1 ≠ 0

/-- A write to a command object: refused with the first failing check, else accepted and run (R50). -/
def command (b : Block) (acc : Access) (idx sub arg : Nat) (fails : Block → CmdFails) (run : Block → Block) : Block :=
  let b := busAccess b
  if !dictReady b then answer b acc .busy
  else
    let f := fails b
    match firstFail b idx sub { f with state := f.state || fencedTnt b acc } with
    | some c => answer b acc c
    | none => run (acceptCmd b acc idx sub arg)

/-- A command that starts and finishes in the step that accepts it. -/
def commandNow (b : Block) (acc : Access) (idx sub arg : Nat) (fails : Block → CmdFails)
    (run : Block → Block × Code × Nat) : Block :=
  command b acc idx sub arg fails fun b =>
    let (b', c, d) := run b
    finishCmd b' idx sub c d

/-- Rights of a command open to HOST and FW only. -/
def notHostFw (acc : Access) : Bool :=
  match roleOf acc.path with
  | .host => false | .fw => false | _ => true

/-- Rights of a partition's command open to HOST, its own TNT and FW (R3). -/
def notHostTntFw (b : Block) (acc : Access) (pid : Nat) : Bool :=
  match roleOf acc.path with
  | .host => false | .fw => false
  | .tnt => pathPid b acc.path ≠ pid || pid = 0
  | _ => true

/-- Rights of a command open to HOST, FM and FW. -/
def notHostFmFw (acc : Access) : Bool :=
  match roleOf acc.path with
  | .host => false | .fm => false | .fw => false | _ => true

def notFmFw (acc : Access) : Bool :=
  match roleOf acc.path with
  | .fm => false | .fw => false | _ => true

def notRot (acc : Access) : Bool :=
  match roleOf acc.path with
  | .rot => false | _ => true

/-- A command of the Partition Table (index 0x21pp) reads the partition's descriptor there: a word that cannot be
corrected fences the table's unit (01 R26), and the command finishes with STATE (DESIGN CHOICE, log 21). -/
def descriptorRead (b : Block) (base pid sub : Nat) (run : Block → Block) : Block :=
  if base ≠ 0x2100 then run b
  else match checkWord b uPTB 0x10 pid 0 pid with
    | (b, true) => finishCmd b (base + pid) sub .state 0
    | (b, false) => run b

/-- A command of a partition's objects, at index `base` + PID: other indices hold no object (R40). -/
def partCommand (b : Block) (acc : Access) (base pid sub arg : Nat) (fails : Block → CmdFails) (run : Block → Block) :
    Block :=
  if 1 ≤ pid && pid < 64 then command b acc (base + pid) sub arg fails fun b => descriptorRead b base pid sub run
  else
    let b := busAccess b
    answer b acc (if dictReady b then .noobj else .busy)

/-- A partition's command that finishes in the step that accepts it. -/
def partCommandNow (b : Block) (acc : Access) (base pid sub arg : Nat) (fails : Block → CmdFails)
    (run : Block → Block × Code × Nat) : Block :=
  partCommand b acc base pid sub arg fails fun b =>
    let (b', c, d) := run b
    finishCmd b' (base + pid) sub c d

end Sys2Proof.Machine
end

