-- ==== Sys2Proof/Machine/Xlate.lean ====
section
/-! DEFINITION. Address translation: table entries, the walk, the buffers, tiles with their faults, and invalidation
(04 R117-R145). -/

namespace Sys2Proof.Machine

/-! ## Physical addresses (04 R118-R121) -/

def chipId (b : Block) : Nat := rd b 0x1000 3

/-- The regions of the local space (Table 4-2). -/
inductive Region where
  | package | reserved | spill | aperture
deriving DecidableEq, Repr

def regionOf (pa : Nat) : Region :=
  match bits pa 41 3 with
  | 0 => .package
  | 1 => .reserved
  | 2 => .spill
  | 3 => .spill
  | _ => .aperture

def isRemote (b : Block) (pa : Nat) : Bool := bits pa 44 12 ≠ chipId b

/-- The host bus address of a host-aperture address (R119). -/
def hostAddr (b : Block) (pa : Nat) : Nat := (rd b 0x3000 1 + bits pa 0 43) % 2 ^ 64

/-! ## Table entries (04 R122, R123) -/

def entryType (e : Nat) : Nat := bits e 0 2

def entryRights (e : Nat) : Rights := ⟨bitAt e 7, bitAt e 6, bitAt e 5⟩

/-- Malformed whatever the stage: TYPE 0b11, a leaf at L0, a pointer at L2, a 1 GiB leaf out of place, a reserved bit. -/
def malformedShape (e lvl top : Nat) : Bool :=
  entryType e == 3 || (entryType e == 2 && lvl == 0) || (entryType e == 1 && lvl == 2)
    || (entryType e == 2 && lvl == 1 && bits e 25 5 != 0)
    || !zeroBits e top (64 - top) || !zeroBits e 8 4 || !zeroBits e 2 3
    || (entryType e == 1 && !zeroBits e 5 3)

/-- A malformed stage-1 entry (R123, Table 4-5). -/
def malformed1 (e lvl : Nat) : Bool := malformedShape e lvl 48 || (entryType e == 2 && !zeroBits e 12 13)

/-- A malformed stage-2 entry (R123, Table 4-6). -/
def malformed2 (b : Block) (e lvl : Nat) : Bool :=
  malformedShape e lvl 56
    || (entryType e == 2 && (!zeroBits e 22 3 || (!isRemote b e && bits e 12 10 != 0)))
    || (entryType e == 1 && (isRemote b e || !bitAt e 43))

def index1 (lvl va : Nat) : Nat :=
  match lvl with
  | 0 => bits va 40 12
  | 1 => bits va 30 10
  | _ => bits va 25 5

def index2 (lvl ipa : Nat) : Nat :=
  match lvl with
  | 0 => bits ipa 40 8
  | 1 => bits ipa 30 10
  | _ => bits ipa 25 5

/-- The address an entry names: bits [hi:12] of a pointer, the page of a leaf. -/
def entryAddr (e : Nat) : Nat := if entryType e = 2 then bits e 25 31 <<< 25 else bits e 12 44 <<< 12

/-! ## Translation causes (04 Table 4-11) -/

def causeNoS1Root : Nat := 0x1
def causeNoS2Root : Nat := 0x2
def causeS1Invalid : Nat := 0x3
def causeS1Malformed : Nat := 0x4
def causeS1Rights : Nat := 0x5
def causeS2Invalid : Nat := 0x6
def causeS2Malformed : Nat := 0x7
def causeS2Rights : Nat := 0x8
def causePlacement : Nat := 0x9
def causeSplit : Nat := 0xA
def causeWalkError : Nat := 0xB
def causeRwin : Nat := 0xC
def causeRemote : Nat := 0xD

/-! ## Buffers (04 R130) -/

def pageOf (a : Nat) : Nat := a >>> 25

/-- Does the page of an entry contain address page `p` (in 32 MiB units)? -/
def pageHit (big : Bool) (page p : Nat) : Bool := if big then page / 32 == p / 32 else page == p

def TEntry.hits (e : TEntry) (c : Ctx) (va : Nat) : Bool :=
  !e.stage2 && e.ctx == c && pageHit e.big e.page (pageOf va)

/-- A stage-2 entry carries the PID and the GEN of the request that filled it, and serves only an exact match of both
(R130; 03 R103). -/
def TEntry.hits2 (e : TEntry) (c : Ctx) (ipa : Nat) : Bool :=
  e.stage2 && e.ctx.pid == c.pid && e.ctx.gen == c.gen && pageHit e.ipaBig e.ipaPage (pageOf ipa)

/-- The physical address of `va` through a combined entry. -/
def TEntry.target (e : TEntry) (va : Nat) : Nat := e.pa + (if e.big then bits va 0 30 else bits va 0 25)

/-! ## The walk (04 R126-R129) -/

/-- Where a walk stands: it needs a table read, it has stopped with a fault, or it has found the leaf. -/
inductive WalkRes where
  | need (pa : Nat)
  | fault (cause level : Nat)
  | leaf (e : TEntry) (used : List TEntry)
deriving DecidableEq, Repr

/-- The outcome of stage 2 for one IPA. -/
inductive Stage2 where
  | need (pa : Nat)
  | fault (cause level : Nat)
  | leaf (e : TEntry)
deriving DecidableEq, Repr

/-- Stage 2 from level `lvl` on, the table at `t`. -/
def stage2From (b : Block) (reads : SMap Nat) (c : Ctx) (ipa : Nat) : Nat → Nat → Nat → Stage2
  | _, _, 0 => .fault causeS2Malformed 2
  | lvl, t, fuel + 1 =>
    let a := t + 8 * index2 lvl ipa
    match find? reads a with
    | none => .need a
    | some e =>
      if entryType e = 0 then .fault causeS2Invalid lvl
      else if malformed2 b e lvl then .fault causeS2Malformed lvl
      else if entryType e = 2 then
        let big := lvl == 1
        let page := if big then (pageOf ipa / 32) * 32 else pageOf ipa
        .leaf { stage2 := true, ctx := ⟨c.pid, 0, c.gen⟩, page := page, big := big, pa := entryAddr e, r1 := ⟨true, true, true⟩,
                r2 := entryRights e, rwin := bits e 12 10, ipaPage := page, ipaBig := big }
      else stage2From b reads c ipa (lvl + 1) (entryAddr e) fuel

/-- Stage 2 of an IPA: a buffered stage-2 leaf, or the tables read so far (R127). -/
def stage2 (b : Block) (reads : SMap Nat) (c : Ctx) (ipa : Nat) : Stage2 :=
  match b.hub.shared.find? (·.hits2 c ipa) with
  | some e => .leaf e
  | none =>
    let root := rd b (0x3100 + c.pid) 4
    if !bitAt root 63 then .fault causeNoS2Root 0
    else stage2From b reads c ipa 0 (bits root 0 44 <<< 12) 3

/-- The physical address of an IPA through a stage-2 leaf. -/
def leafPa (e : TEntry) (ipa : Nat) : Nat := e.pa + (if e.ipaBig then bits ipa 0 30 else bits ipa 0 25)

/-- The combined entry of two leaves: the smaller page, the rights of both, the IPA page (R130). -/
def combine (c : Ctx) (va ipa : Nat) (s1Big : Bool) (r1 : Rights) (s : TEntry) : TEntry :=
  let big := s1Big && s.ipaBig
  { stage2 := false, ctx := c, page := if big then (pageOf va / 32) * 32 else pageOf va, big := big,
    pa := leafPa s (if big then (ipa >>> 30) <<< 30 else (ipa >>> 25) <<< 25), r1 := r1, r2 := s.r2, rwin := s.rwin,
    ipaPage := s.ipaPage, ipaBig := s.ipaBig }

/-- Stage 1 from level `lvl` on, its table at IPA `t`; each table read goes through stage 2 (R126, R128). -/
def stage1From (b : Block) (reads : SMap Nat) (c : Ctx) (va : Nat) : Nat → Nat → List TEntry → Nat → WalkRes
  | _, _, _, 0 => .fault causeS1Malformed 2
  | lvl, t, used, fuel + 1 =>
    let ipa := t + 8 * index1 lvl va
    match stage2 b reads c ipa with
    | .need a => .need a
    | .fault k l => .fault k l
    | .leaf s =>
      let a := leafPa s ipa
      if !s.r2.rd then .fault causeS2Rights 0
      else if isRemote b a then .fault causeRemote 0
      else if regionOf a ≠ .package && regionOf a ≠ .aperture then .fault causePlacement lvl
      else match find? reads a with
        | none => .need a
        | some e =>
          if entryType e = 0 then .fault causeS1Invalid lvl
          else if malformed1 e lvl then .fault causeS1Malformed lvl
          else if entryType e = 2 then
            let off := if lvl = 1 then bits va 0 30 else bits va 0 25
            let ipa := bits e 25 23 <<< 25 + off
            match stage2 b reads c ipa with
            | .need a => .need a
            | .fault k l => .fault k l
            | .leaf f => .leaf (combine c va ipa (lvl == 1) (entryRights e) f) (s :: f :: used)
          else stage1From b reads c va (lvl + 1) (bits e 12 36 <<< 12) (s :: used) fuel

/-- The walk of the pseudocode of 04, given the table entries read so far: the next read it needs, its fault or its
leaf. -/
def walkRun (b : Block) (reads : SMap Nat) (c : Ctx) (va : Nat) : WalkRes :=
  match find? (part b c.pid).s1Roots c.cx with
  | none => .fault causeNoS1Root 0
  | some r =>
    if !bitAt (rd b (0x3100 + c.pid) 4) 63 then .fault causeNoS2Root 0
    else stage1From b reads c va 0 (r <<< 12) [] 3

/-! ## Filling the buffers -/

/-- A fill of a buffer of `cap` entries; which entry it replaces is a free value (R130). -/
def fill (b : Block) (l : List TEntry) (cap : Nat) (e : TEntry) : List TEntry × Block :=
  if l.contains e then (l, b)
  else if l.length < cap then (l ++ [e], b)
  else
    let (n, b) := draw b
    (l.set (n % l.length) e, b)

def fillShared (b : Block) (e : TEntry) : Block :=
  let (l, b) := fill b b.hub.shared 32768 e
  { b with hub := { b.hub with shared := l } }

def fillES (b : Block) (es : Nat) (e : TEntry) : Block :=
  let (l, b) := fill b (look b.hub.esTlb [] es) 128 e
  { b with hub := { b.hub with esTlb := store b.hub.esTlb [] es l } }

/-! ## Walks in progress -/

def setWalk (b : Block) (w : Walk) : Block :=
  { b with hub := { b.hub with walks := b.hub.walks.map fun v => if v.num = w.num then w else v } }

def dropWalk (b : Block) (num : Nat) : Block :=
  { b with hub := { b.hub with walks := b.hub.walks.filter (·.num != num) } }

def walkHolder (num : Nat) : Holder := ⟨.walk, num, 0⟩

/-- Counts a step of the progress counter a Drone or Skim watches (12 Table 12-9). -/
def progressedBy (b : Block) (unit n : Nat) : Block :=
  { b with fcu := { b.fcu with progress := store b.fcu.progress 0 unit ((look b.fcu.progress 0 unit + n) % 2 ^ 64) } }

def progressed (b : Block) (unit : Nat) : Block := progressedBy b unit 1

/-- A walk ends: its outcome is kept for those who wait for it. -/
def endWalkFault (b : Block) (w : Walk) (st : Status) (cause level : Nat) : Block :=
  let b := progressed (dropWalk (settle b (walkHolder w.num)) w.num) uTXH
  { b with hub := { b.hub with walkFaults := b.hub.walkFaults ++
      (w.askers.map fun a => ⟨a.holder, w.ctx, pageOf w.va, st, cause, level⟩) } }

/-- A walk finds its leaf: the combined entry fills the shared level and the buffers of the Engine Stations that wait
for it, and the stage-2 leaves it used fill the shared level (04, the worked walk). -/
def endWalkLeaf (b : Block) (w : Walk) (e : TEntry) (used : List TEntry) : Block :=
  let b := progressed (dropWalk (settle b (walkHolder w.num)) w.num) uTXH
  let b := used.foldl fillShared (fillShared b e)
  w.askers.foldl (fun b a => if a.source = 0 then fillES b a.unit e else b) b

/-- The walk goes on with what it has read: it issues its next table read, or ends (R126). The Boolean says that it
has ended. -/
def walkAdvance (b : Block) (w : Walk) : Block × Bool :=
  match walkRun b w.reads w.ctx w.va with
  | .fault k l => (endWalkFault b w .xlateFault k l, true)
  | .leaf e used => (endWalkLeaf b w e used, true)
  | .need a =>
    if regionOf a = .package then
      match msAdmit b a w.ctx .core with
      | (b, some st) => (endWalkFault b w st causeWalkError 0, true)
      | (b, none) =>
        (issue (setWalk b { w with need := a, since := b.clk.now })
          ⟨.mem, w.ctx, [], walkHolder w.num, [.dieFlits (bits a 36 5) (stripe b.straps a 8), .memRead 0 a 8]⟩, false)
    else if !hostAdmitted b w.ctx.pid then (endWalkFault b w .xlateFault causeWalkError 0, true)
    else
      (issue (setWalk b { w with need := a, since := b.clk.now })
        ⟨.host, w.ctx, [], walkHolder w.num, [.hostRead 0 (hostAddr b a) 8 (viaOf b w.ctx.pid true)]⟩, false)

/-- May the partition take a walker now (R132)? -/
def walkerFree (b : Block) (pid : Nat) : Bool :=
  b.hub.walks.length < 64 && (b.hub.walks.filter (·.ctx.pid == pid)).length < rd b 0x3000 5

/-- The lowest walker not in use. -/
def freeWalker (b : Block) : Nat :=
  ((List.range 64).find? fun n => !(b.hub.walks.any (·.num == n))).getD 64

/-- A walk starts in a free walker. -/
def startWalk (b : Block) (c : Ctx) (va : Nat) (a : Asker) : Block × Bool :=
  let w : Walk := ⟨freeWalker b, c, va, [], 0, b.clk.now, [a]⟩
  walkAdvance (count { b with hub := { b.hub with walks := b.hub.walks ++ [w] } } 0x3000 7) w

/-- A miss joins the walk of its page, or starts one, or waits for a walker (R132). -/
def miss (b : Block) (c : Ctx) (va : Nat) (a : Asker) : Block :=
  match b.hub.walks.find? fun w => w.ctx == c && pageOf w.va == pageOf va with
  | some w => if w.askers.contains a then b else setWalk b { w with askers := w.askers ++ [a] }
  | none =>
    if walkerFree b c.pid then (startWalk b c va a).1
    else if b.hub.missWait.contains (c, va, a) then b
    else { b with hub := { b.hub with missWait := b.hub.missWait ++ [(c, va, a)] } }

/-! ## Tiles (04 R134-R136) -/

/-- No tile yet. -/
def noSeg : Seg := ⟨0, 0, 0, 0, false, ⟨0, 0, 0⟩, 0, false, 0⟩

/-- The outcome of translating a tile. -/
inductive XRes where
  | wait
  /-- A refusal; cause 0: a buffer that could not be read, which is no translation fault. -/
  | fault (st : Status) (va cause level : Nat)
  | ok (segs : List Seg)
deriving DecidableEq, Repr

/-- The right an operation needs and its leaf lacks (R124, Table 4-7), as the cause. -/
def rightsCause (op : Access4) (r1 r2 : Rights) : Option Nat :=
  let ok (r : Rights) : Bool :=
    match op with
    | .read => r.rd
    | .write => r.wr
    | .reduce => r.wr
    | .atomic => r.rd && r.wr && r.amo
  if !ok r1 then some causeS1Rights else if !ok r2 then some causeS2Rights else none

/-- What a lookup of a page finds. -/
inductive Looked where
  | unreadable | miss
  | hit (e : TEntry)
deriving DecidableEq, Repr

/-- Looks a page up for an asker: its station's buffer (source 0), then the shared level, whose word may be found
uncorrectable (01 R26). -/
def lookup (b : Block) (a : Asker) (c : Ctx) (va : Nat) : Block × Looked :=
  let es := if a.source = 0 then (look b.hub.esTlb [] a.unit).find? (·.hits c va) else none
  match es with
  | some e => (b, .hit e)
  | none =>
    let b := if a.source = 0 then count b (0x3300 + a.unit) 1 else b
    match checkWord b uTXH 0x13 c.pid 0 (pageOf va % 65536) with
    | (b, true) => (b, .unreadable)
    | (b, false) => match b.hub.shared.find? (·.hits c va) with
      | some e => (if a.source = 0 then fillES b a.unit e else b, .hit e)
      | none => (count b 0x3000 8, .miss)

/-- The outcome of a stopped walk that was kept for this asker and page. -/
def takeFault (b : Block) (a : Asker) (c : Ctx) (va : Nat) : Block × Option WalkFault :=
  let m (f : WalkFault) : Bool := f.holder == a.holder && f.ctx == c && f.page == pageOf va
  match b.hub.walkFaults.find? m with
  | some f => ({ b with hub := { b.hub with walkFaults := b.hub.walkFaults.filter fun g => !m g } }, some f)
  | none => (b, none)

/-- The pages of a tile, from `va` up, each translated before any beat moves (R134). -/
def pages (b : Block) (a : Asker) (c : Ctx) (op : Access4) : Nat → Nat → List Seg → Nat → Block × XRes
  | _, 0, segs, _ => (b, .ok segs.reverse)
  | _, _, segs, 0 => (b, .ok segs.reverse)
  | va, len, segs, fuel + 1 =>
    let va := va % 2 ^ 52
    match takeFault b a c va with
    | (b, some f) => (b, .fault f.st va f.cause f.level)
    | (b, none) =>
      match lookup b a c va with
      | (b, .unreadable) => (b, .fault .fenced va 0 0)
      | (b, .hit e) =>
        match rightsCause op e.r1 e.r2 with
        | some k => (b, .fault .xlateFault va k 0)
        | none =>
          let room := 2 ^ 25 * (pageOf va + 1) - va
          let n := min room len
          pages b a c op (va + n) (len - n) 
            (⟨e.target va, n, e.rwin, e.ipaPage, e.ipaBig, c, e.page, e.big, b.hub.nextTile⟩ :: segs) fuel
      | (b, .miss) =>
        let b := miss b c va a
        match takeFault b a c va with
        | (b, some f) => (b, .fault f.st va f.cause f.level)
        | (b, none) => (b, .wait)

/-- The address of the first page of a tile that lies in another chip or region than the first (R135). -/
def splitAt (va : Nat) (first : Seg) : Nat → List Seg → Option Nat
  | _, [] => none
  | off, s :: ss =>
    if bits s.pa 44 12 ≠ bits first.pa 44 12 || regionOf s.pa ≠ regionOf first.pa then some (va + off)
    else splitAt va first (off + s.len) ss

/-- FAULT_INFO (Table 4-10). -/
def faultInfo (a : Asker) (c : Ctx) (op : Access4) (cause level : Nat) : Nat :=
  let o := match op with
    | .read => 0 | .write => 1 | .atomic => 2 | .reduce => 3
  (cause <<< 28) + (level <<< 26) + (o <<< 24) + (a.source <<< 21) + ((a.unit % 2048) <<< 10) + c.cx

/-- A refused translation counts and overwrites FAULT_VA and FAULT_INFO, and raises its source (R136). -/
def faultRecord (b : Block) (a : Asker) (c : Ctx) (op : Access4) (va cause level : Nat) : Block :=
  let i := 0x3100 + c.pid
  let b := wr (wr (count b i 5) i 6 va) i 7 (faultInfo a c op cause level)
  let (d, b) := draw b
  raise b 8 (if a.source = 0 then uES a.unit else uTXH) c.pid 0 (d % 2 ^ 32)

/-- The class the guard checks give an asker (R146): a runner stream's is CRUCIBLE (09 R298). -/
def askClass (a : Asker) : SrcClass := if a.source = 0 then .engine else if a.source = 3 then .crucible else .core

/-- A refusal at the point that translated a request, recorded in the partition's guard objects (R148). -/
def pointRefusal (b : Block) (a : Asker) (c : Ctx) (pa reason : Nat) : Block :=
  guardRecord b (if a.source = 0 then uES a.unit else uTXH) pa c reason (askClass a) 0

/-- A remote leaf is refused (R121), and for a sealed partition also where R120 would send it, which the guard objects
record too (10 R338; R148). The GUARD_FAULT reasons have none for it: REASON 0 (DESIGN CHOICE, log 22). -/
def remoteRefusal (b : Block) (a : Asker) (c : Ctx) (op : Access4) (va pa : Nat) : Block :=
  let b := faultRecord b a c op va causeRemote 0
  if isSealed b c.pid then guardRecord b uTXH pa c 0 (askClass a) 0 else b

/-- A translated tile takes its number, which names it until it is answered (R142). -/
def newTile (b : Block) (segs : List Seg) : Block × XRes :=
  ({ b with hub := { b.hub with nextTile := b.hub.nextTile + 1 } }, .ok segs)

/-- Translates a tile for an asker. A remote leaf is allowed where `remote` is set (R120, R121) and the partition is not
sealed (10 R338); a write to the host aperture by a sealed partition is refused at the point that translated it (R119),
for a runner stream as NO_TARGET (09 R298), as is the reserved region (R118). The fault objects are written here. -/
def xlate (b : Block) (a : Asker) (c : Ctx) (va len : Nat) (op : Access4) (remote : Bool) : Block × XRes :=
  match pages b a c op va len [] (len / 2 ^ 25 + 2) with
  | (b, .wait) => (b, .wait)
  | (b, .fault st v 0 l) => (b, .fault st v 0 l)
  | (b, .fault st v k l) =>
    (if k = causeRemote then remoteRefusal b a c op v 0 else faultRecord b a c op v k l, .fault st v k l)
  | (b, .ok []) => (b, .ok [])
  | (b, .ok (s :: ss)) =>
    match splitAt va s s.len ss with
    | some v => (faultRecord b a c op v causeSplit 0, .fault .xlateFault v causeSplit 0)
    | none =>
      if isRemote b s.pa then
        if remote && !isSealed b c.pid then newTile b (s :: ss)
        else (remoteRefusal b a c op va s.pa, .fault .xlateFault va causeRemote 0)
      else if regionOf s.pa = .reserved then (pointRefusal b a c s.pa 1, .fault .guardFault va 0 0)
      else if regionOf s.pa = .aperture && isSealed b c.pid && op ≠ .read then
        (pointRefusal b a c s.pa (if a.source = 3 then 1 else 7), .fault .guardFault va 0 0)
      else newTile b (s :: ss)

/-! ## Invalidation (04 R139-R145) -/

/-- What an invalidation covers. -/
structure Cover where
  scope : Scope
  pid : Nat
  cx : Nat
  /-- First page and number of pages, in 32 MiB units. -/
  first : Nat
  pages : Nat
deriving DecidableEq, Repr

/-- Do pages `p` (of 1 GiB if `big`) and the range overlap? -/
def overlaps (c : Cover) (big : Bool) (p : Nat) : Bool :=
  let lo := if big then (p / 32) * 32 else p
  let hi := if big then lo + 32 else lo + 1
  lo < c.first + c.pages && c.first < hi

def Cover.entry (c : Cover) (e : TEntry) : Bool :=
  match c.scope with
  | .sync => false
  | .s1Range => !e.stage2 && e.ctx.pid == c.pid && e.ctx.cx == c.cx && overlaps c e.big e.page
  | .s1Context => !e.stage2 && e.ctx.pid == c.pid && e.ctx.cx == c.cx
  | .s2Range => e.ctx.pid == c.pid && overlaps c e.ipaBig e.ipaPage
  | .partition => e.ctx.pid == c.pid
  | .all => true

/-- Was a piece of a tile translated with an entry that the invalidation covers? -/
def Cover.seg (c : Cover) (s : Seg) : Bool :=
  match c.scope with
  | .sync => false
  | .s1Range => s.ctx.pid == c.pid && s.ctx.cx == c.cx && overlaps c s.big s.page
  | .s1Context => s.ctx.pid == c.pid && s.ctx.cx == c.cx
  | .s2Range => s.ctx.pid == c.pid && overlaps c s.ipaBig s.ipaPage
  | .partition => s.ctx.pid == c.pid
  | .all => true

/-- Does a running walk overlap what the invalidation covers? Its leaf may come to be one of 1 GiB, and its IPAs are not
known before it ends, so that every walk of the partition overlaps an S2_RANGE. -/
def Cover.walk (c : Cover) (w : Walk) : Bool :=
  match c.scope with
  | .sync => false
  | .s1Range => w.ctx.pid == c.pid && w.ctx.cx == c.cx && overlaps c true (pageOf w.va)
  | .s1Context => w.ctx.pid == c.pid && w.ctx.cx == c.cx
  | .s2Range => w.ctx.pid == c.pid
  | .partition => w.ctx.pid == c.pid
  | .all => true

/-- A running walk starts again from its first read, reading the tables as they now stand (R142). -/
def restartWalk (b : Block) (w : Walk) : Block := (walkAdvance (settle b (walkHolder w.num)) { w with reads := [] }).1

/-- The pieces of a reduction group's accesses and bound streams. -/
def Group.pieces (g : Group) : List Seg := g.io ++ g.localIo ++ g.streams.flatMap (·.segs)

/-- The pieces of every tile translated and not yet answered to its requester, application tiles apart. -/
def piecesOut (b : Block) : List Seg :=
  b.tags.used.flatMap (·.segs) ++ b.tags.waits.flatMap (·.segs) ++ (b.cha.stations.flatMap fun e => e.2.reqs.flatMap (·.segs))
    ++ (b.ladle.chans.flatMap fun e => e.2.io ++ e.2.flights.flatMap (·.segs)) ++ (b.tpe.qps.flatMap (·.2.io))
    ++ b.tpe.works.flatMap (·.segs) ++ (b.cru.groups.flatMap (·.2.pieces)) ++ b.cha.rings.flatMap (·.2)

/-- Is a tile still to be answered? -/
def tileOut (b : Block) (t : Nat) : Bool := (piecesOut b).any (·.tile == t) || b.cru.apps.any (·.tile.tile == t)

/-- The tiles to be answered that were translated with a covered entry. -/
def tilesOf (b : Block) (c : Cover) : List Nat :=
  ((piecesOut b).filter c.seg).map (·.tile) ++ ((b.cru.apps.map (·.tile)).filter c.seg).map (·.tile)

/-- Removes every covered entry and starts overlapping walks again; answers the tiles to wait for (R142). -/
def invalidate (b : Block) (c : Cover) : Block × List Nat :=
  let keep (l : List TEntry) : List TEntry := l.filter fun e => !c.entry e
  let b := { b with hub := { b.hub with
      shared := keep b.hub.shared
      esTlb := (b.hub.esTlb.map fun e => (e.1, keep e.2)).filter fun e => !e.2.isEmpty } }
  let tiles := tilesOf b c
  ((b.hub.walks.filter c.walk).foldl restartWalk b, tiles)

/-- Commands whose tiles have been answered finish (R137, R138, R145). -/
def pumpInv (b : Block) : Block :=
  let done := b.hub.invCmds.filter fun c => !c.waitOn.any (tileOut b)
  let b := { b with hub := { b.hub with invCmds := b.hub.invCmds.filter fun c => c.waitOn.any (tileOut b) } }
  done.foldl (fun b c => finishCmd b (c.key / 256) (c.key % 256) .ok 0) b

/-- A tile's tag is freed, and the invalidations that waited for the tile may finish. -/
def settleTile (b : Block) (h : Holder) : Block := pumpInv (settle b h)

/-- Invalidates for a command, which finishes when the tiles it covers have been answered. -/
def invalidateFor (b : Block) (idx sub : Nat) (undo : Option (Nat × Nat × Option Nat)) (c : Cover) : Block :=
  let (b, tiles) := invalidate b c
  pumpInv { b with hub := { b.hub with invCmds := b.hub.invCmds ++ [⟨objKey idx sub, tiles, undo⟩] } }

end Sys2Proof.Machine
end

