-- ==== Sys2Proof/Machine/Fabric.lean ====
section
/-! DEFINITION. The fabric transport's packets, routes, port queues, credit and sending (06 R177-R192, R210-R214;
07 R237-R244), and the emission of mirror records (13 R416-R419). -/

namespace Sys2Proof.Machine

/-! ## Mirror records (13 R411, R415-R419) -/

def mirrorState (b : Block) : Nat := rd b 0xA000 6

/-- PARTNER_CHIP and MIRROR_PORT name a partner and a port (R411). -/
def paired (b : Block) : Bool := rd b 0xA000 1 < 4096 && rd b 0xA000 1 ≠ chipId b && rd b 0xA000 2 < 36

/-- Changes of the partition are copied now (R411, Table 13-1); a Mirror Unit that is fenced copies nothing (12 R388). -/
def mirrors (b : Block) (pid : Nat) : Bool :=
  served b uMirror && rd b (0xA100 + pid) 1 == 1 && paired b && 1 ≤ mirrorState b && mirrorState b ≤ 3

def recBytes (r : MRec) : Nat := 16 + r.body.len

/-- Bytes of the unacknowledged records. -/
def replayBytes (m : Mirror) : Nat := ((m.queue ++ m.replay).map recBytes).foldl (· + ·) 0

/-- Emits a record with the next MSEQ; a queued QP record is replaced in its place, whose change and part in a full copy
stand, and with the replay buffer full the object is marked (R416, R417, R419, R420). -/
def emitRec (b : Block) (kind pid index : Nat) (sync : Bool) (body : Bytes) : Block :=
  let m := b.mirror
  if kind = 4 && m.queue.any (fun r => r.kind == 4 && r.index == index && !r.sent) then
    let put (r : MRec) : MRec := if r.kind == 4 && r.index == index && !r.sent then { r with body := body } else r
    { b with mirror := { m with queue := m.queue.map put, recordAt := b.clk.now } }
  else if replayBytes m + 16 + body.len > 4194304 then
    let k := kind + (if sync then 256 else 0)
    if m.marks.any fun x => x.kind == k && x.pid == pid && x.index == index then b
    else { b with mirror := { m with marks := m.marks ++ [⟨k, pid, index, b.clk.now⟩] } }
  else
    let n := (m.mseq + 1) % 2 ^ 32
    let idle := m.queue.isEmpty && m.replay.isEmpty
    { b with mirror := { m with
        mseq := n
        queue := m.queue ++ [⟨kind, pid, index, n, sync, body, b.clk.now, false⟩]
        syncEnd := if sync then some n else m.syncEnd
        ackAt := if idle then b.clk.now else m.ackAt
        recordAt := b.clk.now } }

/-- A change of a mirrored partition's object. -/
def mirrorNote (b : Block) (kind pid index : Nat) (body : Bytes) : Block :=
  if mirrors b pid then emitRec b kind pid index false body else b

/-- The record as its bytes (Table 13-2). -/
def recNum (r : MRec) : Bytes :=
  ⟨16 + r.body.len, (r.kind <<< 120) + (r.body.len <<< 104) + (r.pid <<< 98) + (r.index <<< 64) + (r.mseq <<< 32)
    + (ofBool r.sync <<< 31) + (r.body.val <<< 128)⟩

/-! ## Queue pairs and keys -/

def freshQp : Qp :=
  { st := .reset, err := 0, pid := 0, cx := 0, ownGen := 0, sqBase := 0, sqLog := 0, cqBase := 0, cqLog := 0, retx := 0,
    retry := 0, tcMask := 0, entropy := 0, vec := 0, rChip := 0, rQp := 0, rGen := 0, sendPsn := 0, nextMsn := 0,
    sqHead := 0, sqTail := 0, sqNext := 0, fetch := .rest, cur := 0, io := [], msgs := [], asks := [], copies := [], flights := [],
    rxBase := 0, accepted := 0, placed := 0, rxMsn := 0, rxDone := 0, trackers := [], refusing := none, replay := [],
    unreported := 0, unreportedAt := 0, cqProd := 0, cqCons := 0, phase := true, armed := false, due := [], drainAt := 0,
    quiet := false, tearing := none, resetting := false, txMsgs := 0, rxMsgs := 0, txBytes := 0, rxBytes := 0,
    retxPkts := 0, taps := [], isAlias := false, primary := 0, primaryPid := 0, mirrored := ⟨0, 0⟩ }

def qp (b : Block) (i : Nat) : Qp := look b.tpe.qps freshQp i

def setQp (b : Block) (i : Nat) (q : Qp) : Block := { b with tpe := { b.tpe with qps := store b.tpe.qps freshQp i q } }

def onQp (b : Block) (i : Nat) (f : Qp → Qp) : Block := setQp b i (f (qp b i))

/-- The partition whose range holds queue pair `i`; 0: none (07). -/
def qpPid (b : Block) (i : Nat) : Nat :=
  (pids.find? fun p => (part b p).holdsRanges && (part b p).qpBase ≤ i && i < (part b p).qpBase + (part b p).qpCount).getD 0

def freshKey : Key := ⟨.free, 0, 0, 0, 0, 0, 0, false, 0, 0, 0⟩

def key (b : Block) (i : Nat) : Key := look b.tpe.keys freshKey i

def putKey (b : Block) (i : Nat) (k : Key) : Block :=
  { b with tpe := { b.tpe with keys := store b.tpe.keys freshKey i k } }

/-- READY or TAKEN_OVER: connected and running (Table 7-1). -/
def Qp.runs (q : Qp) : Bool := q.st == .ready || q.st == .takenOver

def qpCode : QpState → Nat
  | .reset => 0 | .init => 1 | .ready => 2 | .error => 3 | .draining => 4 | .takenOver => 5

/-! ## Packet types and headers (06 Tables 6-2 to 6-11) -/

def tWRITE : Nat := 1
def tREDUCE : Nat := 2
def tREADREQ : Nat := 3
def tREADRESP : Nat := 4
def tATOMIC : Nat := 5
def tATOMICRESP : Nat := 6
def tACK : Nat := 8
def tNAK : Nat := 9
def tCREDIT : Nat := 0xA
def tDICT : Nat := 0xB
def tMIRROR : Nat := 0xC
def tSEALNAK : Nat := 0xD

/-- Extension bytes of a type (Table 6-3); none: reserved. -/
def extLen : Nat → Option Nat
  | 1 => some 24 | 2 => some 32 | 3 => some 24 | 4 => some 24 | 5 => some 32 | 6 => some 16 | 8 => some 8 | 9 => some 8
  | 10 => some 16 | 11 => some 0 | 12 => some 0 | 13 => some 16 | _ => none

/-- Does the type take credit (Table 6-3)? -/
def creditType (t : Nat) : Bool := t == 1 || t == 2 || t == 3 || t == 5 || t == 12

/-- Requests: WRITE, REDUCE, READ_REQ, ATOMIC (R197). -/
def requestType (t : Nat) : Bool := t == 1 || t == 2 || t == 3 || t == 5

/-- The base transport header (Table 6-2). -/
structure Bth where
  typ : Nat
  tc : Nat
  ackreq : Bool
  rcq : Bool
  retx : Bool
  fence : Bool
  src : Nat
  dst : Nat
  srcQp : Nat
  dstQp : Nat
  psn : Nat
  entropy : Nat
  gen : Nat
deriving DecidableEq, Repr

def Bth.num (h : Bth) : Nat :=
  (h.typ <<< 124) + (1 <<< 120) + (h.tc <<< 118) + (ofBool h.ackreq <<< 117) + (ofBool h.rcq <<< 116)
    + (ofBool h.retx <<< 115) + (ofBool h.fence <<< 114) + (h.src <<< 100) + (h.dst <<< 88) + (h.srcQp <<< 72)
    + (h.dstQp <<< 56) + (h.psn <<< 32) + (h.entropy <<< 16) + (h.gen <<< 8)

def bthOf (n : Nat) : Bth :=
  ⟨bits n 124 4, bits n 118 2, bitAt n 117, bitAt n 116, bitAt n 115, bitAt n 114, bits n 100 12, bits n 88 12,
    bits n 72 16, bits n 56 16, bits n 32 24, bits n 16 16, bits n 8 8⟩

/-- The plain text of a packet: BTH and extension most significant byte first, then the payload (06, R7). -/
def plain (h : Bth) (ext n : Nat) (payload : Bytes) : Bytes :=
  ⟨16 + n + payload.len, swapBytes h.num 16 + (swapBytes ext n <<< 128) + (payload.val <<< (8 * (16 + n)))⟩

/-- A data extension header (Table 6-4). -/
def dxh (handle offset msn bytes off len npkt : Nat) : Nat :=
  (handle <<< 160) + (offset <<< 116) + (msn <<< 96) + (bytes <<< 64) + (off <<< 32) + (len <<< 19) + npkt

/-! ## Ports and routes (06 R187-R191, R212; 13 R427) -/

def freshPort : Port := ⟨false, false, [], 0, false, [], 0, [], 65536, 0⟩

def port (b : Block) (p : Nat) : Port := look b.tpe.ports freshPort p

def setPort (b : Block) (p : Nat) (x : Port) : Block := { b with tpe := { b.tpe with ports := store b.tpe.ports freshPort p x } }

def portState (b : Block) (p : Nat) : Nat := rd b (0x5100 + p) 1

/-- UP or DEGRADED: the port sends and receives (Table 6-18). -/
def portLive (b : Block) (p : Nat) : Bool := p < 36 && (portState b p == 1 || portState b p == 2)

/-- The chip whose route, MAC and credit serve packets for `chip` (13 R427). -/
def viaChip (b : Block) (chip : Nat) : Nat :=
  let t := (rdBlob b 0xA000 0x10).val
  match (List.range 16).find? fun i => bitAt (slice t (4 * i) 4) 31 && bits (slice t (4 * i) 4) 12 12 == chip with
  | some i => bits (slice t (4 * i) 4) 0 12
  | none => chip

/-- Path slot `j` of a route entry (Table 6-12). -/
def pathSlot (b : Block) (chip j : Nat) : Nat := slice (rdBlob b 0x5000 0x10).val (32 * chip + 2 * j) 2

/-- The usable slots of a destination, ascending (R188). -/
def usable (b : Block) (chip : Nat) : List Nat :=
  let named (st : Nat) : List Nat := (List.range 16).filter fun j =>
    let s := pathSlot b chip j
    bitAt s 15 && portState b (bits s 6 6) == st
  match named 1 with
  | [] => named 2
  | l => l

/-- The path of a transmission: port pipe and remote port of the slot of rank ⌊h·n/2^16⌋ (R188). -/
def selectPath (b : Block) (chip psn entropy dstQp : Nat) : Option (Nat × Nat) :=
  let l := usable b chip
  let h := (psn % 65536 * 0x9E37 + entropy + dstQp) % 65536
  match l[h * l.length / 65536]? with
  | some j => some (bits (pathSlot b chip j) 6 6, bits (pathSlot b chip j) 0 6)
  | none => none

/-! ## Credit held (07 R238, R239) -/

def freshTx : TxCredit := ⟨false, [0, 0, 0, 0], [0, 0, 0, 0], 0⟩

def txCredit (b : Block) (chip : Nat) : TxCredit := look b.tpe.txCredit freshTx chip

def setTxCredit (b : Block) (chip : Nat) (x : TxCredit) : Block :=
  { b with tpe := { b.tpe with txCredit := store b.tpe.txCredit freshTx chip x } }

/-- The lease is live: synchronised and within CREDIT_LEASE of the latest CREDIT. -/
def leaseLive (b : Block) (x : TxCredit) : Bool := x.synced && !elapsed b x.leaseAt (micros (rd b 0x5010 6))

/-- May a packet be sent to a chip in a class now (R238)? -/
def hasCredit (b : Block) (chip tc : Nat) : Bool :=
  let x := txCredit b (viaChip b chip)
  let d := (2 ^ 32 + x.limit.getD tc 0 - x.used.getD tc 0 % 2 ^ 32) % 2 ^ 32
  leaseLive b x && 1 ≤ d && d < 2 ^ 31

def spendCredit (b : Block) (chip tc : Nat) : Block :=
  let c := viaChip b chip
  let x := txCredit b c
  setTxCredit b c { x with used := x.used.set tc ((x.used.getD tc 0 + 1) % 2 ^ 32) }

/-! ## Queueing -/

/-- Starts the timer of every PSN a held packet carries (R191, R238). -/
def startTimers (b : Block) (t : Tx) : Block :=
  if t.tracked then onQp b t.qp fun q => { q with flights := q.flights.map fun f =>
    if f.psn = t.psn && !f.running then { f with running := true, since := b.clk.now } else f }
  else b

/-- A packet that finds no credit waits, and is counted once (R238). -/
def noteWait (b : Block) (t : Tx) : Block × Tx :=
  match t.tc with
  | some c =>
    if !t.waited && !hasCredit b t.chip c then
      let b := count b 0x5010 0x0A
      let b := if t.pid = 0 then b else count b (0x5200 + t.pid) 0x46
      (startTimers b t, { t with waited := true })
    else (b, t)
  | none => (b, t)

/-- The port pipes send no JFT frame but DICT: while the block is fenced or recovers, during start-up, and in FACTORY
mode (12 R398; 14 R433). -/
def onlyDict (b : Block) : Bool := rd b 0x9000 1 != 0 || rd b 0xC000 1 != 8 || rd b 0xF000 1 == 2

/-- The type in the packet's BTH (06 Table 6-2). -/
def Tx.typ (t : Tx) : Nat := bits (swapBytes t.body.val 16) 124 4

/-- A request is held without a path: its retransmission timer runs (R191). -/
def hold (b : Block) (t : Tx) : Block := startTimers { b with tpe := { b.tpe with noPath := b.tpe.noPath ++ [t] } } t

/-- A packet goes to path selection: queued at a port pipe, or held without a path or a link key (R188, R191, R313).
While only DICT frames go out, requests are held so too, and other packets are not kept (12 R398). -/
def enqueue (b : Block) (t : Tx) : Block :=
  if onlyDict b && t.typ != tDICT then if t.tracked then hold b t else b
  else match selectPath b (viaChip b t.chip) t.psn t.entropy t.dstQp with
  | some (p, r) =>
    let (b, t) := noteWait b { t with port := p, rport := r }
    let b := if b.ring.linkCur.isNone then startTimers b t else b
    setPort b p { port b p with queue := (port b p).queue ++ [t] }
  | none => hold b t

/-- Packets held without a path are tried again (a port came up or the routes changed; log 10). -/
def retryHeld (b : Block) : Block :=
  let l := b.tpe.noPath.filter fun t => !t.tracked
  let b := { b with tpe := { b.tpe with noPath := b.tpe.noPath.filter (·.tracked) } }
  l.foldl enqueue b

/-- Takes the queued and held packets a predicate selects away. -/
def dropTx (b : Block) (p : Tx → Bool) : Block :=
  { b with tpe := { b.tpe with
      ports := b.tpe.ports.map fun e => (e.1, { e.2 with queue := e.2.queue.filter fun t => !p t })
      noPath := b.tpe.noPath.filter fun t => !p t } }

/-- The next entropy of packets without a queue pair (R189). -/
def nextEntropy (b : Block) : Nat × Block :=
  (b.tpe.entropy, { b with tpe := { b.tpe with entropy := (b.tpe.entropy + 1) % 65536 } })

def blankTx : Tx := ⟨0, 0, 0, 0, 0, 0, none, none, 0, 0, ⟨0, 0⟩, 0, 0, false, none, false, false, 0⟩

/-- The source chip and queue pair a queue pair sends under: its own, or those it was taken over for, while it drains too
(13 R426; DEDUCED, log 42). -/
def srcOf (b : Block) (i : Nat) : Nat × Nat :=
  let q := qp b i
  if q.isAlias then (rd b 0xA000 0x11, q.primary) else (chipId b, i)

/-- The packet of a queue pair with header fields `h` (source, destination and entropy filled in here, R189). -/
def qpTx (b : Block) (i : Nat) (h : Bth) (attempt ext n : Nat) (payload : Bytes) : Tx :=
  let q := qp b i
  let (sc, sq) := srcOf b i
  let ent := (q.entropy + attempt * 0x6000) % 65536
  let h := { h with src := sc, srcQp := sq, dst := q.rChip, dstQp := q.rQp, gen := q.rGen, entropy := ent }
  { blankTx with prec := if h.typ == tACK || h.typ == tNAK then 0 else 2
                 pid := q.pid, qp := i, chip := q.rChip, psn := h.psn, attempt := attempt
                 tc := if creditType h.typ then some h.tc else none
                 pcp := if creditType h.typ then some h.tc else none
                 entropy := ent, dstQp := q.rQp, body := plain h ext n payload }

def bth0 (typ psn : Nat) : Bth := ⟨typ, 0, false, false, false, false, 0, 0, 0, 0, psn, 0, 0⟩

/-- A packet without a queue pair (CREDIT, DICT) to a chip. -/
def chipTx (b : Block) (typ chip ext n : Nat) (payload : Bytes) : Block :=
  let (e, b) := nextEntropy b
  let h := { bth0 typ 0 with src := chipId b, dst := chip, entropy := e }
  enqueue b { blankTx with chip := chip, entropy := e, body := plain h ext n payload }

/-! ## ACK and NAK (06 R200, R208) -/

/-- An ACK with RX_BASE and the PLACED map; what was placed so far is reported. -/
def sendAck (b : Block) (i : Nat) : Block :=
  let q := qp b i
  let b := setQp b i { q with unreported := 0 }
  enqueue b (qpTx b i (bth0 tACK q.rxBase) 0 q.placed 8 ⟨0, 0⟩)

/-- A NAK of a PSN; counted at the port pipe it leaves by (0x51nn.0D), when it is sent, and in KEY_REVOKED_NAKS. -/
def sendNak (b : Block) (i psn : Nat) (st : Status) : Block :=
  enqueue (if st = .keyRevoked then count b 0x5020 7 else b) (qpTx b i (bth0 tNAK psn) 0 (statusCode st <<< 56) 8 ⟨0, 0⟩)

/-! ## Credit granted (07 R237, R240-R242) -/

def freshRx : RxCredit := ⟨.quiet, [0, 0, 0, 0], [0, 0, 0, 0], [0, 0, 0, 0], 0, false, 0, 0, [false, false, false, false], 0⟩

/-- The classes in the order they are served. -/
def classes : List Nat := [3, 2, 1, 0]

def floorOf (b : Block) (c : Nat) : Nat := bits (rd b 0x5010 3) (8 * c) 8

def sumFloors (b : Block) : Nat := (classes.map (floorOf b)).foldl (· + ·) 0

def isPeer (b : Block) (chip : Nat) : Bool := bitAt (rdBlob b 0x5010 0x10).val chip

/-- G − U of a class; an overrun takes it below 0. -/
def held (x : RxCredit) (c : Nat) : Int := toSigned 32 (2 ^ 32 + x.g.getD c 0 - x.u.getD c 0)

/-- The sum of R237; every chip in QUIET counts its floors as granted. -/
def poolSum (b : Block) : Int :=
  let one (e : Nat × RxCredit) : Int :=
    (classes.map (held e.2)).foldl (· + ·) 0
      + (if e.2.st == .quiet then (sumFloors b : Int) else 0)
  (b.tpe.rxCredit.map one).foldl (· + ·) ((b.tpe.occupied + b.tpe.reserved : Nat) : Int)

/-- Slots neither occupied, reserved nor granted (0x5010.02). -/
def poolFree (b : Block) : Nat := (6144 - poolSum b).toNat

def setRx (b : Block) (chip : Nat) (x : RxCredit) : Block :=
  { b with tpe := { b.tpe with rxCredit := insert b.tpe.rxCredit chip x } }

/-- A CREDIT packet with the cumulative limits, counted (Table 6-10). -/
def sendCredit (b : Block) (chip : Nat) : Block :=
  match find? b.tpe.rxCredit chip with
  | none => b
  | some x =>
    let e := (x.g.getD 3 0 <<< 96) + (x.g.getD 2 0 <<< 64) + (x.g.getD 1 0 <<< 32) + x.g.getD 0 0
    chipTx (setRx (count b 0x5010 9) chip { x with sent := true, sentAt := b.clk.now }) tCREDIT chip e 16 ⟨0, 0⟩

/-- The class of a source that is next in line for a unit: below its target, its floor not 0 (R241). -/
def hungry (b : Block) (x : RxCredit) : Option Nat :=
  if x.st != .active then none
  else classes.find? fun c => floorOf b c != 0 && decide (held x c < ((x.t.getD c 0 : Nat) : Int))

/-- Sources in the round-robin order after the one served last. -/
def creditOrder (b : Block) : List Nat :=
  let l := b.tpe.rxCredit.map (·.1)
  l.filter (b.tpe.creditTurn < ·) ++ l.filter (· ≤ b.tpe.creditTurn)

/-- Grants units one at a time while the pool allows and some class wants one; answers the sources whose limits rose. -/
def grantUnits (b : Block) (rose : List Nat) : Nat → Block × List Nat
  | 0 => (b, rose)
  | fuel + 1 =>
    if poolSum b ≥ 6144 then (b, rose)
    else
      let next := (creditOrder b).findSome? fun s =>
        match find? b.tpe.rxCredit s with
        | some x => if isPeer b s then (hungry b x).map fun c => (s, c, x) else none
        | none => none
      match next with
      | none => (b, rose)
      | some (s, c, x) =>
        let b := setRx b s { x with g := x.g.set c ((x.g.getD c 0 + 1) % 2 ^ 32) }
        grantUnits { b with tpe := { b.tpe with creditTurn := s } } (if rose.contains s then rose else rose ++ [s]) fuel

/-- Grants what R237 and R241 allow, and sends the limits that rose (Table 7-12: within 1 us); in Hold no limit rises
(14 R439), nor while the block is fenced (12 R393). -/
def grantCredit (b : Block) : Block :=
  if asleep b || rd b 0x9000 1 ≠ 0 then b
  else
    let (b, rose) := grantUnits b [] 6144
    rose.foldl sendCredit b

/-- A receive-pool slot is freed, and may be granted again. -/
def freeSlot (b : Block) : Block := grantCredit { b with tpe := { b.tpe with occupied := b.tpe.occupied - 1 } }

def freeReserved (b : Block) (n : Nat) : Block :=
  if n = 0 then b else grantCredit { b with tpe := { b.tpe with reserved := b.tpe.reserved - n } }

/-- After a credit-class arrival from a source in a class: the target may double, BASE becomes ACTIVE (R241). -/
def creditSeen (b : Block) (x : RxCredit) (c : Nat) : RxCredit :=
  let x := { x with u := x.u.set c ((x.u.getD c 0 + 1) % 2 ^ 32), arrivedAt := b.clk.now, seen := x.seen.set c true
                    st := if x.st == .base then .active else x.st }
  let t : Nat := x.t.getD c 0
  if x.st == .active && decide (4 * held x c ≤ (t : Int)) then { x with t := x.t.set c (min (2 * t) (rd b 0x5010 4)) } else x

/-- A credit-class packet from a chip takes a slot: counted in U; beyond its grant, or from a chip without credit state,
it is an overrun, taken if a slot is free (R242). The Boolean says that it was taken. -/
def creditArrival (b : Block) (p chip c : Nat) : Block × Bool :=
  let overrun (b : Block) : Block × Bool :=
    let free := b.tpe.occupied + b.tpe.reserved < 6144
    let b := raiseFree (countSat b 0x5010 0x0B 32 0x5010 0x0D 0 (uPP p) 0) 10 (uPP p) 0
    if free then ({ b with tpe := { b.tpe with occupied := b.tpe.occupied + 1 } }, true) else (b, false)
  match find? b.tpe.rxCredit chip with
  | none => overrun b
  | some x =>
    let beyond : Bool := held x c ≤ 0
    let b := setRx b chip (creditSeen b x c)
    if beyond then
      let (b, t) := overrun b
      (grantCredit b, t)
    else (grantCredit { b with tpe := { b.tpe with occupied := b.tpe.occupied + 1 } }, true)

/-! ## Arbitration and sending (06 R177-R179, R313; 07 R244) -/

/-- Bytes of a frame (Table 6-1). -/
def frameBytes (b : Block) (t : Tx) : Nat :=
  14 + (if bitAt (rd b 0x5000 4) 31 then 4 else 0) + 12 + t.body.len + 16 + 4

def eligible (b : Block) (t : Tx) : Bool :=
  match t.tc with
  | some c => hasCredit b t.chip c
  | none => true

/-- The first eligible frame of a partition at a port: of the queue pair next in turn (R244). -/
def partFrame (b : Block) (x : Port) (pid : Nat) : Option Tx :=
  let l := x.queue.filter fun t => t.prec == 2 && t.pid == pid && eligible b t
  let turn := look x.qpTurn 0 pid
  let qs := l.map (·.qp)
  let pick := match (qs.filter (turn < ·)) with
    | [] => qs.foldl min (qs.headD 0)
    | h :: r => r.foldl min h
  l.find? (·.qp == pick)

def share (b : Block) (pid : Nat) : Nat := (part b pid).share

/-- Deficit round-robin from partition order `ps` on: the first whose deficit covers its frame; else a round of
quanta (s x 64 bytes) for those with a share, and again. -/
def drr (b : Block) (x : Port) (ps : List Nat) : Nat → Port × Option Tx
  | 0 => (x, none)
  | fuel + 1 =>
    let fits (p : Nat) : Bool := match partFrame b x p with
      | some t => frameBytes b t ≤ look x.deficit 0 p
      | none => false
    match ps.find? fits with
    | some p =>
      match partFrame b x p with
      | some t => ({ x with deficit := store x.deficit 0 p (look x.deficit 0 p - frameBytes b t), turn := p }, some t)
      | none => (x, none)
    | none =>
      drr b { x with deficit := ps.foldl (fun d p => store d 0 p (look d 0 p + 64 * share b p)) x.deficit } ps fuel

/-- The partitions from the one in turn on. -/
def fromTurn (t : Nat) : List Nat := (List.range 64).map fun i => (t + i) % 64

/-- The data frame that wins: deficit round-robin among the partitions with a share; with none of them ready, the
others in turn. A partition without an eligible frame loses its deficit. -/
def dataFrame (b : Block) (x : Port) : Port × Option Tx :=
  let ready := (fromTurn x.turn).filter fun p => (partFrame b x p).isSome
  let x := { x with deficit := x.deficit.filter fun e => ready.contains e.1 }
  let shared := ready.filter fun p => share b p > 0
  if shared.isEmpty then
    match (ready.filter (· ≠ x.turn) ++ ready).head? with
    | some p => ({ x with turn := p }, partFrame b x p)
    | none => (x, none)
  else drr b x shared 80

/-- The tokens of the mirror's bucket now (R413): bytes in 10 ns cycles at MIRROR_RATE MB/s. -/
def tokensNow (b : Block) (x : Port) : Nat :=
  min 65536 (x.tokens + (b.clk.now - x.tokensAt) * rd b 0xA000 3 / 100)

/-- The records of the next MIRROR packet: at most 4,096 bytes, packed whole (13). -/
def takeRecords : List MRec → Nat → List MRec
  | [], _ => []
  | r :: rs, room => if recBytes r ≤ room then r :: takeRecords rs (room - recBytes r) else []

/-- The remote port the mirror sends to: the lowest VALID slot of the partner's route entry on MIRROR_PORT (R411). -/
def mirrorSlot (b : Block) : Option Nat :=
  let chip := rd b 0xA000 1
  (List.range 16).find? fun j => bitAt (pathSlot b chip j) 15 && bits (pathSlot b chip j) 6 6 == rd b 0xA000 2

def packRecords (rs : List MRec) : Bytes := rs.foldl (fun a r => bytesAppend a (recNum r)) ⟨0, 0⟩

/-- The MIRROR frame a port has to send: on MIRROR_PORT, while the Mirror Unit is in service (R411; 12 R388); with the
number of its records. -/
def mirrorNext (b : Block) (p : Nat) : Option (Tx × Nat) :=
  if !served b uMirror || !paired b || p ≠ rd b 0xA000 2 || b.mirror.queue.isEmpty then none
  else
    let chip := rd b 0xA000 1
    let rs := takeRecords b.mirror.queue 4096
    let body := packRecords rs
    let pay : Bytes := ⟨max 64 body.len, body.val⟩
    let h := { bth0 tMIRROR 0 with tc := 3, src := chipId b, dst := chip, entropy := b.tpe.entropy }
    match mirrorSlot b with
    | none => none
    | some j =>
      let t := { blankTx with prec := 1, chip := chip, tc := some 3, pcp := some 3, entropy := b.tpe.entropy
                              body := plain h 0 0 pay, port := p, rport := bits (pathSlot b chip j) 0 6 }
      if rs.isEmpty then none else some (t, rs.length)

/-- The MIRROR frame a port may send now: with TC 3 credit and tokens for it (R413). -/
def mirrorFrame (b : Block) (p : Nat) : Option (Tx × Nat) :=
  (mirrorNext b p).filter fun x => eligible b x.1 && frameBytes b x.1 ≤ tokensNow b (port b p)

/-- A MIRROR packet that finds no credit waits, and is counted once for as long as it does (07 R238). -/
def mirrorWaits (b : Block) (p : Nat) : Block :=
  match mirrorNext b p with
  | none => b
  | some (t, _) =>
    if eligible b t then { b with mirror := { b.mirror with noCredit := false } }
    else if b.mirror.noCredit then b
    else { count b 0x5010 0x0A with mirror := { b.mirror with noCredit := true } }

/-- The mirror's records leave: they wait for their acknowledgement, ACK records excepted (R417, R419). -/
def mirrorSent (b : Block) (n : Nat) : Block :=
  let m := b.mirror
  let rs := m.queue.take n
  let own := (rs.filter fun r => r.kind != 0x0F).map fun r => { r with sent := true }
  let b := { b with mirror := { m with queue := m.queue.drop n, replay := m.replay ++ own, sentAt := b.clk.now } }
  let b := addTo b 0xA000 0x0B own.length
  match own.getLast? with
  | some r => if (2 ^ 32 + r.mseq - rd b 0xA000 8) % 2 ^ 32 < 2 ^ 31 then wr b 0xA000 8 r.mseq else b
  | none => b

/-- The PCP of a frame (R178). -/
def pcpOf (b : Block) (t : Tx) : Nat :=
  match t.pcp with
  | some c => bits (rd b 0x5000 4) (4 * c) 3
  | none => bits (rd b 0x5000 4) 28 3

/-- Queued packets whose credit has gone since they were queued wait for it from now on (R238). -/
def noteCredit (b : Block) : Block :=
  let poor (t : Tx) : Bool := !t.waited && !eligible b t
  let l := (b.tpe.ports.flatMap fun e => e.2.queue).filter poor
  let b := { b with tpe := { b.tpe with ports := b.tpe.ports.map fun e =>
      (e.1, { e.2 with queue := e.2.queue.map fun t => if poor t then { t with waited := true } else t }) } }
  l.foldl (fun b t => (noteWait b t).1) b

/-- The frame of a packet, sealed under the current link key with the port's next counter (R177, R178, R313). -/
def sealFrame (b : Block) (p : Nat) (t : Tx) (ctr : Nat) : Frame :=
  let v := rd b 0x5000 4
  let pre := (rd b 0x5000 3 >>> 18) <<< 18
  let iv := (chipId b <<< 84) + (p <<< 78) + ctr
  let k := linkKey (b.ring.linkCur.getD 0)
  let aad : Bytes := ⟨12, swapBytes iv 12⟩
  let c := gcmCrypt k iv t.body
  let dest := if t.typ = tSEALNAK then t.chip else viaChip b t.chip
  { dst := BitVec.ofNat 48 (pre + (dest <<< 6) + t.rport)
    src := BitVec.ofNat 48 (pre + (chipId b <<< 6) + p)
    vlan := if bitAt v 31 then some (BitVec.ofNat 16 ((pcpOf b t <<< 13) + bits v 16 12)) else none
    etherType := BitVec.ofNat 16 (rd b 0x5000 2)
    iv := BitVec.ofNat 96 iv
    body := c
    tag := BitVec.ofNat 128 (gcmTag k iv aad c) }

/-- A READ_REQ's last response has been sent, or another work on a key has finished: OUTSTANDING falls (R234). -/
def keyDone (b : Block) (k : Nat) : Block :=
  let x := key b k
  putKey b k { x with out := x.out - 1 }

/-- Takes packets away; a READ_REQ whose last response goes with them no longer counts on its key. -/
def dropFrames (b : Block) (p : Tx → Bool) : Block :=
  let all := (b.tpe.ports.flatMap fun e => e.2.queue) ++ b.tpe.noPath
  let name (t : Tx) : Option (Nat × Nat × Nat) := t.lastOf.map fun k => (k, t.qp, t.req)
  let kept := (all.filter fun t => !p t).filterMap name
  let gone := (((all.filter p).filterMap name).filter fun n => !kept.contains n).eraseDups
  gone.foldl (fun b n => keyDone b n.1) (dropTx b p)

/-- Only DICT frames go out from now on: requests already queued are held, other packets are not kept (12 R398). -/
def quietPorts (b : Block) : Block :=
  let b := dropFrames b fun t => !t.tracked && t.typ != tDICT
  let held := (b.tpe.ports.flatMap fun e => e.2.queue).filter (·.tracked)
  let b := { b with tpe := { b.tpe with
      ports := b.tpe.ports.map fun e => (e.1, { e.2 with queue := e.2.queue.filter fun t => !t.tracked }) } }
  held.foldl hold b

/-- A READ_REQ's response has left: the last of them ends the request on its key (07 R234). -/
def readSent (b : Block) (t : Tx) : Block :=
  let more (u : Tx) : Bool := u.lastOf == t.lastOf && u.qp == t.qp && u.req == t.req
  match t.lastOf with
  | some k => if b.tpe.noPath.any more || b.tpe.ports.any (fun e => e.2.queue.any more) then b else keyDone b k
  | none => b

/-- What follows from a transmission: credit spent, counters, timers restarted, the stamp of R210 kept. -/
def afterSend (b : Block) (p : Nat) (t : Tx) (ctr : Nat) : Block :=
  let i := 0x5100 + p
  let b := addTo (count b i 2) i 4 (frameBytes b t)
  let b := match t.tc with
    | some c => spendCredit b t.chip c
    | none => b
  let b := if t.retx then count b i 6 else b
  let b := if bits (swapBytes t.body.val 16) 124 4 = tNAK && t.body.len = 24 then count b i 0x0D else b
  let b := readSent b t
  if !t.tracked then b
  else onQp b t.qp fun q =>
    let h := bthOf (swapBytes (slice t.body.val 0 16) 16)
    let npkt := if h.typ = tREADREQ then bits (swapBytes (slice t.body.val 16 24) 24) 0 6 + 1 else 1
    let pay := match extLen h.typ with
      | some n => t.body.len - 16 - n
      | none => 0
    { q with
      flights := q.flights.map fun f =>
        if (2 ^ 24 + f.psn - t.psn) % 2 ^ 24 < npkt then
          { f with running := true, since := b.clk.now, stamp := some (p, ctr) } else f
      txBytes := if t.attempt = 0 then (q.txBytes + pay) % 2 ^ 64 else q.txBytes
      retxPkts := if t.attempt = 0 then q.retxPkts else (q.retxPkts + 1) % 2 ^ 64 }

/-- The records answered to chips, each a DICT packet, take a port as the bridge frames them (R186). -/
def dictOut (b : Block) : Block :=
  let l := b.dict.fabricOut
  let b := { b with dict := { b.dict with fabricOut := [], places := b.dict.places - (l.filter fun e => byteOf e.2.val 0 == 2).length } }
  l.foldl (fun b e => chipTx b tDICT e.1 0 0 e.2) b

/-! ## Links (06 R190, R212) -/

/-- The port's state becomes `v`; a transition to DOWN counts (0x51nn.0E). -/
def setPortState (b : Block) (p v : Nat) : Block :=
  let b := if v = 0 && portState b p ≠ 0 then count b (0x5100 + p) 0x0E else b
  wr b (0x5100 + p) 1 v

/-- The port's state after its link inputs changed: OUT stays OUT, and a port that is not realigned DOWN (Table 6-18). -/
def portLink (b : Block) (p : Nat) (up deg : Bool) : Block :=
  let b := setPort b p { port b p with linkUp := up, degraded := deg }
  if portState b p = 3 then b
  else setPortState b p (if !up || (port b p).realigning then 0 else if deg then 2 else 1)

/-- Queued frames of a port go back to path selection, counted in REQUEUED (R190); a SEAL_NAK, which takes no path
selection, is lost (R210). -/
def requeue (b : Block) (p : Nat) : Block :=
  let l := (port b p).queue.filter fun t => t.typ != tSEALNAK
  let b := setPort b p { port b p with queue := [] }
  l.foldl (fun b t => enqueue (count b (0x5100 + p) 0x0C) t) b

def linkDown (b : Block) (p : Nat) : Block :=
  if p ≥ 36 || !(port b p).linkUp then b
  else
    raiseFree (requeue (portLink b p false false) p) 24 (uPP p) 0

def linkUp (b : Block) (p : Nat) (deg : Bool) : Block :=
  if p ≥ 36 then b else retryHeld (portLink b p true deg)

end Sys2Proof.Machine
end

