-- ==== Sys2Proof/Machine/Pace.lean ====
section
/-! DEFINITION. The Ladle's pacing lines (05 R163-R166). -/

namespace Sys2Proof.Machine

/-! ## Pacing lines (05 R163-R166) -/

/-- The entry of a line in PACE_MAP (Table 5-5). -/
def paceEntry (b : Block) (l : Nat) : Nat := slice (rdBlob b 0x4000 0x20).val (8 * l) 8

def paceOwner (e : Nat) : Nat := bits e 58 6
def paceSource (e : Nat) : Nat := bits e 56 2

def paceLevel (b : Block) (l : Nat) : Nat × Bool := look b.ladle.pace (0, false) l

def setPace (b : Block) (l : Nat) (v : Nat × Bool) : Block :=
  { b with ladle := { b.ladle with pace := store b.ladle.pace (0, false) l v } }

/-- A request on a line raises its level; at 32,767 it is dropped, counted and reported (R164). -/
def paceRequest (b : Block) (l : Nat) : Block :=
  let (n, o) := paceLevel b l
  if n < 32767 then setPace b l (n + 1, o)
  else
    raiseFree (count (setPace b l (n, true)) 0x4000 7) 9 uLadle (paceOwner (paceEntry b l))

/-- The TRANSPORT lines of a queue pair's event raise one request each (R166). -/
def paceTransport (b : Block) (qp : Nat) (send : Bool) : Block :=
  ((List.range 256).filter fun l =>
    let e := paceEntry b l
    paceOwner e != 0 && paceSource e == 2 && bitAt e 16 == send && bits e 0 16 == qp).foldl paceRequest b

end Sys2Proof.Machine
end

