-- ==== Sys2Proof/Machine/Qp.lean ====
section
/-! DEFINITION. Queue pairs: records, messages, completions, error entry, sending, acknowledgement, retransmission and
placement (06 R192-R209; 07 R215-R230). -/

namespace Sys2Proof.Machine

/-! ## Records (07 Tables 7-3, 7-13; 13 Table 13-4) -/

/-- PSN difference a − c modulo 2^24. -/
def psnDiff (a c : Nat) : Nat := (2 ^ 24 + a - c % 2 ^ 24) % 2 ^ 24

def psnAdd (a n : Nat) : Nat := (a + n) % 2 ^ 24

/-- The oldest PSN not acknowledged (UNACK_PSN): flights are kept in PSN order. -/
def unackPsn (q : Qp) : Nat := ((q.flights.head?).map (·.psn)).getD q.sendPsn

/-- The queue-pair objects in the layout of Table 7-3, SEND_PSN and RECV_PSN zero. -/
def setupNum (q : Qp) : Nat :=
  (q.rChip <<< 308) + (q.rQp <<< 292) + (q.rGen <<< 284) + (q.retx <<< 240) + (q.retry <<< 236) + (q.tcMask <<< 232)
    + (q.cqBase <<< 128) + (q.sqBase <<< 64) + (q.cx <<< 48) + (q.sqLog <<< 44) + (q.vec <<< 32) + (q.cqLog <<< 16)
    + q.entropy

/-- The query record of Table 7-13; `c` gives the five counters, highest first. -/
def queryNum (q : Qp) (c : List Nat) : Nat :=
  (c.getD 0 0 <<< 448) + (c.getD 1 0 <<< 384) + (c.getD 2 0 <<< 320) + (c.getD 3 0 <<< 256) + (c.getD 4 0 <<< 192)
    + (q.rxBase <<< 168) + (q.sendPsn <<< 104) + (unackPsn q <<< 80) + (q.nextMsn <<< 64) + (qpCode q.st <<< 56)
    + (q.err <<< 48) + (q.cx <<< 32) + (q.sqHead <<< 16) + q.cqProd

def qpCounters (q : Qp) : List Nat := [q.retxPkts, q.rxBytes, q.txBytes, q.rxMsgs, q.txMsgs]

/-- The receive state of a QP record (Table 13-4). -/
def receiveNum (q : Qp) : Nat :=
  q.placed + (q.ownGen <<< 64) + ((q.trackers.map fun e =>
    ((1 <<< 127) + (e.2.msn <<< 96) + (e.2.bytes <<< 64) + (e.2.count <<< 32)) <<< (128 * e.1 + 128)).foldl (· + ·) 0)

/-- Sent (a PSN of it handed out) and not fully acknowledged. -/
def SendMsg.isOpen (m : SendMsg) : Bool := m.n != 0 && m.sent != 0 && m.st.isNone

/-- The body of a QP record (13 Table 13-3). -/
def qpRecord (q : Qp) : Bytes :=
  let ws := (q.msgs.filter SendMsg.isOpen).map (·.wqe)
  let w := ws.reverse.foldl (fun a x => a * 2 ^ 512 + x) 0
  ⟨288 + 64 * ws.length, setupNum q + (queryNum q (qpCounters q) <<< 512) + (receiveNum q <<< 1024) + (w <<< 2304)⟩

/-- A message completion or a state change of a queue pair is copied to the partner (13 R416). -/
def noteQp (b : Block) (i : Nat) : Block :=
  let q := qp b i
  if mirrors b q.pid then mirrorNote (setQp b i { q with mirrored := qpRecord q }) 4 q.pid i (qpRecord q) else b

/-! ## Shadows (13 R422, R423, R428) -/

def freshShadow : Shadow := ⟨⟨64, 0⟩, ⟨64, 0⟩, [], [], [], [], ⟨0, 0⟩, false⟩

def shadow (b : Block) (pp : Nat) : Shadow := look b.mirror.shadows freshShadow pp

def setShadow (b : Block) (pp : Nat) (s : Shadow) : Block :=
  { b with mirror := { b.mirror with shadows := store b.mirror.shadows freshShadow pp s } }

/-- Base and count of QP_RANGE and KEY_RANGE in a PART body: the objects of Table 3-15 at their types' sizes. -/
def Shadow.qpBase (s : Shadow) : Nat := slice s.part.val 23 4
def Shadow.qpCount (s : Shadow) : Nat := slice s.part.val 27 4
def Shadow.keyBase (s : Shadow) : Nat := slice s.part.val 31 4
def Shadow.keyCount (s : Shadow) : Nat := slice s.part.val 35 4

def shadowPid (b : Block) (pp : Nat) : Nat := rd b (0xA200 + pp) 1
def shadowQpBase (b : Block) (pp : Nat) : Nat := rd b (0xA200 + pp) 2
def shadowKeyBase (b : Block) (pp : Nat) : Nat := rd b (0xA200 + pp) 3
def shadowState (b : Block) (pp : Nat) : Nat := rd b (0xA200 + pp) 4

/-- The shadow is mapped, and its slots are reserved. -/
def shadowHolds (b : Block) (pp : Nat) : Bool := shadowPid b pp != 0 && !(shadow b pp).released

/-- A reserved slot: QP_INIT and KEY_REG on it are answered STATE (R422). -/
def qpReserved (b : Block) (i : Nat) : Bool :=
  pids.any fun pp => shadowHolds b pp && shadowQpBase b pp ≤ i && i < shadowQpBase b pp + (shadow b pp).qpCount

def keyReserved (b : Block) (j : Nat) : Bool :=
  pids.any fun pp => shadowHolds b pp && shadowKeyBase b pp ≤ j && j < shadowKeyBase b pp + (shadow b pp).keyCount

/-- ALIAS_END finishes once no queue pair taken over is left: ALIAS_CHIP is cleared, the shadows are EMPTY and their
slots released (R428). -/
def aliasDone (b : Block) : Block :=
  if (pendingCmd b 0xA000 0x43).isNone || (b.tpe.qps.any fun e => e.2.isAlias && e.2.st != .reset) then b
  else
    let one (b : Block) (pp : Nat) : Block :=
      if shadowState b pp = 3 || shadowState b pp = 4 then
        setShadow (wr b (0xA200 + pp) 4 0) pp { shadow b pp with released := true }
      else b
    finishCmd (wr (pids.foldl one b) 0xA000 0x11 0xFFFF) 0xA000 0x43 .ok 0

/-! ## Replies to other units -/

/-- Keeps a reply until its requester takes it; a posted request takes none. -/
def putReply (b : Block) (r : Reply) : Block :=
  if r.holder.kind = .posted then b else { b with replies := b.replies.filter (·.holder != r.holder) ++ [r] }

def replyOf (b : Block) (h : Holder) : Option Reply := b.replies.find? (·.holder == h)

def dropReply (b : Block) (h : Holder) : Block := { b with replies := b.replies.filter (·.holder != h) }

/-! ## Work-queue entries (07 Table 7-6) -/

def wOpcode (w : Nat) : Nat := bits w 60 4
def wTc (w : Nat) : Nat := bits w 58 2
def wSignal (w : Nat) : Bool := bitAt w 57
def wRcq (w : Nat) : Bool := bitAt w 56
def wFence (w : Nat) : Bool := bitAt w 55
def wUser (w : Nat) : Nat := bits w 0 32
def wLocalVa (w : Nat) : Nat := bits w 64 52
def wLocalCx (w : Nat) : Nat := bits w 116 10
def wBytes (w : Nat) : Nat := bits w 192 32
def wKey (w : Nat) : Nat := bits w 224 32
def wOffset (w : Nat) : Nat := bits w 256 44
def wAtomic (w : Nat) : Bool := 4 ≤ wOpcode w && wOpcode w ≤ 6

/-- PSNs a message takes: its packets at 4 KiB, one for an atomic, none for a NOP (R192, R205). -/
def wPackets (w : Nat) : Nat :=
  if wOpcode w = 7 then 0 else if wAtomic w then 1 else (wBytes w + 4095) / 4096

/-! ## Completion entries (07 R228-R230) -/

def cqSize (q : Qp) : Nat := 2 ^ q.cqLog

def cqFull (q : Qp) : Bool := (q.cqProd + 1) % cqSize q == q.cqCons

/-- A send completion (Table 7-7). -/
def sendEntry (idx wqe : Nat) (st : Status) (rstat result : Nat) : Nat :=
  let bytes := if st != .ok then 0 else if wAtomic wqe then 8 else if wOpcode wqe = 7 then 0 else wBytes wqe
  ((if wAtomic wqe then result else 0) <<< 192) + (bytes <<< 160) + (wUser wqe <<< 128) + (wOpcode wqe <<< 52)
    + (statusCode st <<< 40) + (rstat <<< 32) + (idx <<< 16)

def recvEntry (t : Tracker) : Nat :=
  (t.bytes <<< 160) + (t.baseOff <<< 84) + (t.keyIndex <<< 64) + (1 <<< 62) + (t.opcode <<< 52) + (t.msn <<< 16)

def addDue (b : Block) (i : Nat) (c : Cqe) : Block := onQp b i fun q => { q with due := q.due ++ [c] }

/-! ## Transaction tags (01 R27-R30) -/

/-- The request whose first PSN is given. -/
def frameHolder (i psn : Nat) : Holder := ⟨.frame, i, psn⟩

/-- Requests of a queue pair that hold a tag. -/
def framesOf (b : Block) (i : Nat) : Nat := (b.tags.used.filter fun u => u.holder.kind == .frame && u.holder.a == i).length

/-- A request that awaits its answer takes a fabric tag, or waits for one; the Boolean says that it has it. -/
def takeFrame (b : Block) (i psn : Nat) : Block × Bool :=
  let q := qp b i
  let h := frameHolder i psn
  let b := if issued b h || b.tags.waits.any (·.holder == h) then b else issue b ⟨.fabric, ctxNow b q.pid q.cx, [], h, []⟩
  (b, issued b h)

/-- Requests of a queue pair with nothing left to acknowledge, and nothing to send, free their tags. -/
def freeFrames (b : Block) (i : Nat) : Block :=
  let q := qp b i
  let wants := q.msgs.any fun m => m.st.isNone && m.sent != m.n
  dropHolders b fun h => h.kind == .frame && h.a == i && !(q.flights.any (·.req == h.b)) && !(wants && h.b == q.sendPsn)

/-! ## Finishing messages (07 R216, R229) -/

/-- Receive staging a message's PSNs still reserve: one slot for each unacknowledged READ or atomic PSN (06 R207). -/
def reservedBy (q : Qp) (m : SendMsg) : Nat :=
  if wOpcode m.wqe = 3 || wAtomic m.wqe then (q.flights.filter fun f => psnDiff f.psn m.base < m.n).length else 0

/-- WQEs whose turn has come leave the send queue, each with the completion it is due and its pacing event
(R229; 05 R166). -/
def retire (b : Block) (i : Nat) : Nat → Block
  | 0 => b
  | fuel + 1 =>
    let q := qp b i
    match q.msgs.find? fun m => (match m.origin with
        | .request _ _ => false
        | _ => true) with
    | none => b
    | some m =>
      match m.st, m.origin with
      | some st, .wqe idx =>
        let b := setQp b i { q with msgs := q.msgs.erase m, sqHead := (idx + 1) % 2 ^ q.sqLog }
        let b := if st = .ok then paceTransport b i true else b
        let b := if wSignal m.wqe || st != .ok then addDue b i ⟨sendEntry idx m.wqe st m.rstat m.result, none, false⟩
          else b
        retire b i fuel
      | some st, .copied idx =>
        let b := setQp b i { q with msgs := q.msgs.erase m }
        let b := if st = .ok then paceTransport b i true else b
        retire (if wSignal m.wqe || st != .ok then addDue b i ⟨sendEntry idx m.wqe st m.rstat m.result, none, false⟩
          else b) i fuel
      | _, _ => b

/-- A message completes: its PSNs are no longer retransmitted, its reservations end, and its WQE leaves in turn. A
message that a request started answers the request. -/
def finishMsg (b : Block) (i : Nat) (m : SendMsg) (st : Status) (rstat result : Nat) : Block :=
  let q := qp b i
  let res := reservedBy q m
  let mine (f : Flight) : Bool := m.n != 0 && psnDiff f.psn m.base < m.n
  let m' := { m with st := some st, rstat := rstat, result := result }
  let q' := { q with flights := q.flights.filter fun f => !mine f, txMsgs := (q.txMsgs + 1) % 2 ^ 64 }
  let b := dropTx b fun t => t.tracked && t.qp == i && m.n != 0 && psnDiff t.psn m.base < m.n
  let b := match m.origin with
    | .wqe _ | .copied _ => setQp b i { q' with msgs := q'.msgs.map fun x => if x = m then m' else x }
    | .request h _ =>
      let d : Bytes := if wAtomic m.wqe then ⟨8, result⟩ else if wOpcode m.wqe = 3 then ⟨wBytes m.wqe, m.data⟩ else ⟨0, 0⟩
      putReply (setQp b i { q' with msgs := q'.msgs.erase m }) ⟨h, st, if st = .ok then d else ⟨0, 0⟩, false⟩
  noteQp (retire (freeReserved (freeFrames b i) res) i ((qp b i).msgs.length + 1)) i

/-- A queue pair enters ERROR (R216): ERR_STATUS latched, one receive completion due that raises the vector. -/
def enterError (b : Block) (i : Nat) (st : Status) (msn : Nat) : Block :=
  let q := qp b i
  let b := setQp b i { q with st := .error, err := statusCode st }
  let b := addDue b i ⟨(1 <<< 62) + (statusCode st <<< 40) + (msn <<< 16), none, true⟩
  noteQp (count (count b 0x5020 6) (0x5200 + q.pid) 0x45) i

/-- A failure takes a queue pair that is set up and not draining to ERROR (Table 7-1). -/
def qpError (b : Block) (i : Nat) (st : Status) (msn : Nat) : Block :=
  let q := qp b i
  if q.st == .init || q.st == .ready || q.st == .takenOver then enterError b i st msn else b

/-! ## Sending (06 R192-R194, R202, R205, R207) -/

/-- A message still has open PSNs before it: the number of the oldest one not fully acknowledged. -/
def oldestOpen (q : Qp) : Option Nat := (q.msgs.find? fun m => m.n != 0 && m.st.isNone).map (·.msn)

/-- May the queue pair start a message now (R194, R227, FENCE of R193)? -/
def mayStartMsg (b : Block) (q : Qp) (w : Nat) : Bool :=
  q.runs && !q.resetting && q.tearing.isNone && served b uTPE && partServed b q.pid
    && q.msgs.all (fun m => m.st.isSome || m.sent == m.n)
    && (match oldestOpen q with
      | none => true
      | some m => (65536 + q.nextMsn - m) % 65536 < 8)
    && (!wFence w || (oldestOpen q).isNone)
    && (!wAtomic w || (q.msgs.filter fun m => wAtomic m.wqe && m.st.isNone).length < 16)

/-- The packet for `psn` of a message (R192, R202, R205, Tables 6-4 to 6-6); `npkt` is that of a READ_REQ. -/
def msgTx (b : Block) (i : Nat) (m : SendMsg) (psn attempt npkt : Nat) : Tx :=
  let q := qp b i
  let w := m.wqe
  let off := 4096 * psnDiff psn m.base
  let oldest := unackPsn q
  let last := psnAdd psn npkt == psnAdd m.base m.n
  let h : Bth :=
    { bth0 (match wOpcode w with
        | 1 => tWRITE | 2 => tREDUCE | 3 => tREADREQ | _ => tATOMIC) psn with
      tc := wTc w
      ackreq := attempt != 0 || last || 48 < psnDiff (psnAdd psn npkt) oldest
      rcq := wRcq w
      retx := attempt != 0
      fence := wFence w }
  let t :=
    if wAtomic w then
      qpTx b i h attempt ((wKey w <<< 224) + (wOffset w <<< 180) + ((wOpcode w - 4) <<< 172) + (m.msn <<< 144)
        + (bits w 384 64 <<< 64) + (if wOpcode w = 5 then bits w 448 64 else 0)) 32 ⟨0, 0⟩
    else
      let len := min 4096 (wBytes w - off)
      if wOpcode w = 3 then
        qpTx b i h attempt (dxh (wKey w) (wOffset w + off) m.msn (wBytes w) off 0 (npkt - 1)) 24 ⟨0, 0⟩
      else
        let x := dxh (wKey w) (wOffset w + off) m.msn (wBytes w) off len 0
        let pay : Bytes := ⟨len, slice m.data off len⟩
        if wOpcode w = 1 then qpTx b i h attempt x 24 pay
        else
          qpTx b i h attempt ((x <<< 64) + (bits w 380 4 <<< 60) + (bits w 376 4 <<< 56) + (bits w 360 16 <<< 40)
            + (bits w 348 12 <<< 28)) 32 pay
  { t with tracked := true, retx := attempt != 0 }

/-- Hands out PSNs of the messages started, in order, within the 64-PSN window; a READ or an atomic only with its
staging reserved, and each request with its transaction tag (R202, R207; 01 R27). -/
def sendPump (b : Block) (i : Nat) : Nat → Block
  | 0 => b
  | fuel + 1 =>
    let q := qp b i
    let ok := (q.runs || (q.st == .draining && !q.quiet)) && !q.resetting
    match q.msgs.find? fun m => m.st.isNone && m.sent != m.n with
    | none => b
    | some m =>
      let room := 64 - psnDiff q.sendPsn (unackPsn q)
      if !ok || room = 0 then b
      else
        let reads := wOpcode m.wqe == 3
        let want := if reads then min (m.n - m.sent) room else 1
        let free := (6144 - poolSum b).toNat
        let npkt := if reads then min want free else want
        let needs := if reads then npkt else if wAtomic m.wqe then 1 else 0
        if npkt = 0 || (wAtomic m.wqe && free = 0) then b
        else
          let psn := q.sendPsn
          let (b, tagged) := takeFrame b i psn
          if !tagged then b
          else
          let t := msgTx b i m psn 0 npkt
          let fs := (List.range npkt).map fun j => (⟨psnAdd psn j, 0, 0, false, none, psn⟩ : Flight)
          let q := { q with sendPsn := psnAdd psn npkt, flights := q.flights ++ fs
                            msgs := q.msgs.map fun x => if x = m then { m with sent := m.sent + npkt } else x }
          let b := setQp b i q
          let b := { b with tpe := { b.tpe with reserved := b.tpe.reserved + needs } }
          sendPump (enqueue b t) i fuel

/-- A message starts: it takes the next MSN and its run of PSNs. -/
def startMsg (b : Block) (i : Nat) (m : SendMsg) : Block :=
  let q := qp b i
  let m := { m with msn := q.nextMsn, base := q.sendPsn, n := wPackets m.wqe, sent := 0 }
  sendPump (setQp b i { q with msgs := q.msgs ++ [m], nextMsn := (q.nextMsn + 1) % 65536 }) i 64

/-- Requests of other units start their messages as room opens, before the next WQE does (log 11). -/
def startAsks (b : Block) (i : Nat) : Nat → Block
  | 0 => b
  | fuel + 1 =>
    let q := qp b i
    match q.asks with
    | [] => b
    | m :: rest => if mayStartMsg b q m.wqe then startAsks (startMsg (setQp b i { q with asks := rest }) i m) i fuel else b

/-- What may go on after an acknowledgement or a state change. -/
def advance (b : Block) (i : Nat) : Block :=
  let b := sendPump b i 64
  startAsks b i (qp b i).asks.length

/-- The message a PSN belongs to. -/
def msgOfPsn (q : Qp) (psn : Nat) : Option SendMsg :=
  q.msgs.find? fun m => m.st.isNone && m.n != 0 && psnDiff psn m.base < m.sent

/-- A request that waited for its tag has it: a packet of a message taken over is sent again, another message goes on. -/
def frameGo (b : Block) (i psn : Nat) : Block :=
  let q := qp b i
  let b := match q.flights.find? (·.psn == psn), msgOfPsn q psn with
    | some f, some m => enqueue b (msgTx b i m psn f.attempt (q.flights.filter (·.req == psn)).length)
    | _, _ => advance b i
  freeFrames b i

/-- The number of consecutive unacknowledged PSNs from `psn` on within a message (R206). -/
def readRun (q : Qp) (m : SendMsg) (psn : Nat) : Nat → Nat
  | 0 => 0
  | fuel + 1 =>
    if psnDiff psn m.base < m.sent && q.flights.any (·.psn == psn) then 1 + readRun q m (psnAdd psn 1) fuel else 0

/-- Has the timer of a PSN run out: RETX_TIMEOUT × 2^min(k, 3) since its last transmission (R203, R204)? -/
def timerOut (b : Block) (q : Qp) (f : Flight) : Bool :=
  f.running && elapsed b f.since (micros (q.retx * 2 ^ min f.attempt 3))

/-- Does the queue pair retransmit (Table 7-1, R217, R218)? -/
def retransmits (q : Qp) : Bool :=
  !q.resetting && (q.runs || q.st == .error || (q.st == .draining && !q.quiet))

/-- 06 R203: the k-th retransmission of a PSN, or a new READ_REQ for its run. -/
def retransmit (b : Block) (i psn : Nat) : Block :=
  let q := qp b i
  match q.flights.find? (·.psn == psn), msgOfPsn q psn with
  | some f, some m =>
    if !retransmits q || !timerOut b q f || q.retry ≤ f.attempt then b
    else
      let wasHeld := b.tpe.noPath.any fun t => t.tracked && t.qp == i && t.psn == psn
      let n := if wOpcode m.wqe = 3 then readRun q m psn 64 else 1
      let b := dropTx b fun t => t.tracked && t.qp == i && t.psn == psn
      let b := if wasHeld then count b 0x5000 8 else b
      let again (g : Flight) : Flight :=
        if psnDiff g.psn psn < n then { g with attempt := f.attempt + 1, since := b.clk.now, running := false } else g
      let b := setQp b i { qp b i with flights := (qp b i).flights.map again }
      enqueue b (msgTx b i m psn (f.attempt + 1) n)
  | _, _ => b

/-- 06 R204: the wait after the last retransmission has passed: TIMEOUT. -/
def retryOut (b : Block) (i psn : Nat) : Block :=
  let q := qp b i
  match q.flights.find? (·.psn == psn), msgOfPsn q psn with
  | some f, some m =>
    if !retransmits q || !timerOut b q f || f.attempt < q.retry then b
    else
      let b := raiseFree (finishMsg b i m .timeout 0 0) 23 uTPE q.pid
      advance (qpError b i .timeout m.msn) i
  | _, _ => b

/-! ## Acknowledgement at the sender (06 R201, R206, R207, R209, R210) -/

/-- WRITE and REDUCE messages all of whose PSNs are acknowledged complete; in ERROR only those before the failed one. -/
def completeAcked (b : Block) (i : Nat) : Nat → Block
  | 0 => b
  | fuel + 1 =>
    let q := qp b i
    let upTo := if q.st == .error then q.msgs.takeWhile (fun m => m.st.isNone || m.st == some .ok) else q.msgs
    match upTo.find? fun m => m.st.isNone && m.n != 0 && m.sent == m.n && (wOpcode m.wqe == 1 || wOpcode m.wqe == 2)
        && !q.flights.any (fun f => psnDiff f.psn m.base < m.n) with
    | some m => completeAcked (finishMsg b i m .ok 0 0) i fuel
    | none => b

/-- Does an ACK of (PSN, BITMAP) show `psn` placed (R201)? -/
def ackCovers (base map psn : Nat) : Bool :=
  let d := psnDiff psn base
  2 ^ 23 ≤ d || (d < 64 && map.testBit d)

def isWriteMsg (m : SendMsg) : Bool := wOpcode m.wqe == 1 || wOpcode m.wqe == 2

def takeAck (b : Block) (i base map : Nat) : Block :=
  let q := qp b i
  let done (f : Flight) : Bool := ackCovers base map f.psn && (match msgOfPsn q f.psn with
    | some m => isWriteMsg m
    | none => true)
  let gone := q.flights.filter done
  let b := setQp b i { q with flights := q.flights.filter fun f => !done f }
  let b := dropTx b fun t => t.tracked && t.qp == i && gone.any (·.psn == t.psn)
  advance (completeAcked (freeFrames b i) i q.msgs.length) i

/-- 06 R209: a NAK completes the message that holds the refused PSN, and the queue pair enters ERROR. -/
def takeNak (b : Block) (p i psn : Nat) (st : Nat) : Block :=
  let q := qp b i
  if !q.flights.any (·.psn == psn) then count b (0x5100 + p) 7
  else match msgOfPsn q psn with
    | none => count b (0x5100 + p) 7
    | some m =>
      let s := statusOf st
      let keep := s == .withdrawn || s == .keyRevoked || s == .fenced || s == .poison
      let out := if keep then s else .remoteReject
      let b := finishMsg b i m out (if keep then 0 else st) 0
      completeAcked (qpError b i out m.msn) i q.msgs.length

/-- 06 R210: a SEAL_NAK naming the latest stamp of an unacknowledged packet fails its message. -/
def takeSealNak (b : Block) (iv : Nat) : Block :=
  let pp := bits iv 78 6
  let ctr := bits iv 0 78
  let hit := if bits iv 84 12 ≠ chipId b then none
    else b.tpe.qps.findSome? fun e =>
      (e.2.flights.find? (·.stamp == some (pp, ctr))).bind fun f => (msgOfPsn e.2 f.psn).map fun m => (e.1, m)
  match hit with
  | some (i, m) => qpError (finishMsg b i m .sealFail 0 0) i .sealFail m.msn
  | none => count b 0x5000 9

/-! ## Requests of other units through a remote leaf (04 R120) -/

/-- The remote window entry of a partition (04 Table 4-3). -/
def rwinEntry (b : Block) (pid w : Nat) : Nat := slice (rdBlob b (0x3100 + pid) 0x10).val (8 * w) 8

/-- The queue pair and key of a remote leaf's window entry, or none where R120 refuses it. -/
def rwinUse (b : Block) (pid rwin pa : Nat) : Option (Nat × Nat) :=
  let e := rwinEntry b pid rwin
  let rel := bits e 32 16
  let i := (part b pid).qpBase + rel
  if bitAt e 63 && rel < (part b pid).qpCount && (qp b i).runs && !(qp b i).resetting
      && (qp b i).rChip == bits pa 44 12 then some (i, bits e 0 32)
  else none

/-- Starts a message for a request, which brings its CTX along (01 R10): `op` as a WQE opcode, the offset PA[43:0], TC the
lowest that TC_MASK permits (log 11). Poisoned data are refused for the fabric with POISON (01 R25). -/
def remoteSend (b : Block) (i key : Nat) (h : Holder) (c : Ctx) (op pa len data poison operand compare : Nat) : Block :=
  if poison ≠ 0 then putReply b ⟨h, .poison, ⟨0, 0⟩, false⟩ else
  let q := qp b i
  let tc := ((List.range 4).find? fun c => q.tcMask.testBit c).getD 0
  let w := (op <<< 60) + (tc <<< 58) + (len <<< 192) + (key <<< 224) + (bits pa 0 44 <<< 256) + (operand <<< 384)
    + (compare <<< 448)
  let m : SendMsg := ⟨0, .request h c, w, 0, 0, 0, data, 0, none, 0, 0⟩
  advance (setQp b i { q with asks := q.asks ++ [m] }) i

/-! ## The receive side (06 R194-R200, R208) -/

/-- The holder of what a packet's work asks for: several READ_REQs of one PSN may be under way (R205). -/
def workHolder (w : Work) : Holder := ⟨.placement, w.qp, w.psn + 2 ^ 24 * w.copy⟩

/-- A packet of the window is placed: PLACED set, RX_BASE advanced past every leading placed PSN. -/
def shiftWindow : Nat → Qp → Qp
  | 0, q => q
  | fuel + 1, q =>
    if q.placed.testBit 0 then
      shiftWindow fuel { q with rxBase := psnAdd q.rxBase 1, placed := q.placed / 2, accepted := q.accepted / 2 }
    else q

def setPlaced (q : Qp) (psn : Nat) : Qp :=
  let d := psnDiff psn q.rxBase
  if d < 64 then shiftWindow 64 { q with placed := q.placed ||| 2 ^ d, accepted := q.accepted ||| 2 ^ d } else q

def setAccepted (q : Qp) (psn : Nat) (v : Bool) : Qp :=
  let d := psnDiff psn q.rxBase
  if d < 64 then { q with accepted := setBit q.accepted d v } else q

/-- The open-message window moves past every leading complete message (R194). -/
def shiftMsn : Nat → Qp → Qp
  | 0, q => q
  | fuel + 1, q =>
    if q.rxDone.testBit 0 then shiftMsn fuel { q with rxMsn := (q.rxMsn + 1) % 65536, rxDone := q.rxDone / 2 } else q

/-- A message is complete at the receive side and its tracker free. -/
def closeMsg (q : Qp) (msn : Nat) : Qp :=
  let d := (65536 + msn - q.rxMsn) % 65536
  let q := { q with trackers := erase q.trackers (msn % 8) }
  if d < 8 then shiftMsn 8 { q with rxDone := q.rxDone ||| 2 ^ d } else q

/-- A complete message: its pacing event, its receive completion if asked for, and its tracker freed once that has been
written (R195, R230). -/
def messageDone (b : Block) (i slot : Nat) : Block :=
  let q := qp b i
  match find? q.trackers slot with
  | none => b
  | some t =>
    let b := setQp b i { q with rxMsgs := (q.rxMsgs + 1) % 2 ^ 64 }
    let b := paceTransport b i false
    let b :=
      if t.rcq && q.st != .draining then
        addDue (onQp b i fun q => { q with trackers := insert q.trackers slot { t with waits := true } }) i
          ⟨recvEntry t, some slot, false⟩
      else onQp b i fun q => closeMsg q t.msn
    noteQp b i

/-- Reports a placement under R200: with ACKREQ, or after ACK_COALESCE placements, an ACK at once. -/
def reportPlaced (b : Block) (i : Nat) (ackreq : Bool) : Block :=
  let q := qp b i
  let q := { q with unreported := q.unreported + 1
                    unreportedAt := if q.unreported = 0 then b.clk.now else q.unreportedAt }
  let b := setQp b i q
  if q.resetting || q.st == .reset then b
  else if ackreq || rd b 0x5000 6 ≤ q.unreported then sendAck b i
  else b

/-- The bytes of a packet of a message have been placed: its tracker counts, the window moves, an ACK may follow, and
a complete message is finished (R195, R198, R200). -/
def countPlaced (b : Block) (i psn msn len : Nat) (ackreq : Bool) : Block :=
  let q := setPlaced (qp b i) psn
  let q := { q with rxBytes := (q.rxBytes + len) % 2 ^ 64 }
  let slot := msn % 8
  match find? q.trackers slot with
  | some t =>
    if t.msn = msn then
      let t := { t with count := t.count + len }
      let b := setQp b i { q with trackers := insert q.trackers slot t }
      let b := if t.count = t.bytes then messageDone b i slot else b
      reportPlaced b i ackreq
    else reportPlaced (setQp b i q) i ackreq
  | none => reportPlaced (setQp b i q) i ackreq

/-- R208: the request is refused: NAK, the receive side refuses from now on, and the queue pair enters ERROR. -/
def refuse (b : Block) (i psn msn : Nat) (st : Status) : Block :=
  let q := qp b i
  let b := setQp b i { setAccepted q psn false with refusing := some (q.refusing.getD st) }
  qpError (sendNak b i psn st) i st msn

/-! ## Frames leave (06 R188; 07 R244) -/

/-- A packet that a check point refuses for the fabric (01 R25): the message it carries completes with POISON, as by a NAK,
and a READ_RESP's request is refused with POISON. A frame that no message waits for is only not sent (DESIGN CHOICE,
log 30). -/
def refuseTx (b : Block) (t : Tx) : Block :=
  if t.tracked then
    match msgOfPsn (qp b t.qp) t.psn with
    | some m => advance (qpError (finishMsg b t.qp m .poison 0 0) t.qp .poison m.msn) t.qp
    | none => b
  else if t.typ = tREADRESP then
    refuse (readSent b t) t.qp t.psn (bits (swapBytes (slice t.body.val 16 24) 24) 96 16) .poison
  else b

/-- A packet leaves a port, past the check point of the port pipe's frame staging (01 R24). -/
def transmit (b : Block) (p : Nat) (t : Tx) : Block :=
  match checkFlits b (uPP p) 2 t.pid 0 ((t.body.len + 63) / 64) with
  | (b, 0) =>
    let x := port b p
    let f := sealFrame b p t x.ctr
    let b := setPort b p { x with ctr := (x.ctr + 1) % 2 ^ 78 }
    afterSend (progressed (emit b (.frame p f)) (uPP p)) p t x.ctr
  | (b, _) => refuseTx b t

/-- The frame a port sends next: control frames first, then the mirror's, then data. -/
def sendNext (b : Block) (p : Nat) : Block :=
  let x := port b p
  match x.queue.find? fun t => t.prec == 0 && (!onlyDict b || t.typ == tDICT) with
  | some t => transmit (setPort b p { x with queue := x.queue.erase t }) p t
  | none =>
    if onlyDict b then b
    else match mirrorFrame b p with
    | some (t, n) =>
      let y := { x with tokens := tokensNow b x - frameBytes b t, tokensAt := b.clk.now }
      let b := setPort b p y
      transmit (mirrorSent { b with tpe := { b.tpe with entropy := (b.tpe.entropy + 1) % 65536 } } n) p t
    | none =>
      match dataFrame b x with
      | (y, some t) =>
        let y := { y with queue := y.queue.erase t, qpTurn := store y.qpTurn 0 t.pid t.qp }
        transmit (setPort b p y) p t
      | (y, none) => setPort b p y

/-- PACKET_TRANSMIT (R188, R244): nothing goes out without a link key or while the port or its domain is not in service. A
fenced block sends DICT frames alone (12 R393, R398). Packets that find no credit are noted (R238). -/
def packetTransmit (b : Block) (p : Nat) : Block :=
  let b := dictOut b
  let here := served b (uPP p) || (domain b (uPP p)).st == .blockFenced
  if !portLive b p || b.ring.linkCur.isNone || !here || (port b p).realigning then b
  else mirrorWaits (noteCredit (sendNext b p)) p

/-! ## Leaving (07 R217, R218) -/

/-- The queue pair enters RESET; completions still due keep their place in its completion queue. -/
def toReset (b : Block) (i : Nat) : Block :=
  let q := qp b i
  let res := (q.msgs.map (reservedBy q)).foldl (· + ·) 0
  let b := dropTx b fun t => t.tracked && t.qp == i
  let keep := { freshQp with due := q.due.map fun c => { c with slot := none }
                             cqBase := q.cqBase, cqLog := q.cqLog, cqProd := q.cqProd, cqCons := q.cqCons
                             phase := q.phase, armed := q.armed, cx := q.cx, pid := q.pid, vec := q.vec
                             ownGen := q.ownGen }
  let b := freeFrames (setQp b i (if q.due.isEmpty then { freshQp with pid := q.pid } else keep)) i
  aliasDone (noteQp (freeReserved b res) i)

/-- Requests of other units that wait for a queue pair end with a status. -/
def failAsks (b : Block) (i : Nat) (st : Status) : Block :=
  let q := qp b i
  q.asks.foldl (fun b m => match m.origin with
    | .request h _ => putReply b ⟨h, st, ⟨0, 0⟩, false⟩
    | _ => b) (setQp b i { q with asks := [] })

/-- Every message a predicate selects completes with a status, in order. -/
def failMsgs (b : Block) (i : Nat) (p : SendMsg → Bool) (st : Status) : Block :=
  ((qp b i).msgs.filter fun m => m.st.isNone && p m).foldl (fun b m => finishMsg b i m st 0 0) b

/-- A WQE of the queue that is left unsent completes with a status at a teardown (R217, R218). -/
def tearWqe (b : Block) (i wqe : Nat) (st : Status) : Block :=
  let q := qp b i
  let m : SendMsg := ⟨0, .wqe q.sqNext, wqe, 0, 0, 0, 0, 0, some st, 0, 0⟩
  let b := setQp b i { q with msgs := q.msgs ++ [m], sqNext := (q.sqNext + 1) % 2 ^ q.sqLog, fetch := .rest, io := [] }
  retire b i ((qp b i).msgs.length + 1)

end Sys2Proof.Machine
end

