-- ==== Sys2Proof/Machine/Ssu.lean ====
section
/-! DEFINITION. The Spill Seal Unit: alarms, the counter tree and its cache, spill reads and writes, minor-counter
overflow, condemned subtrees, initialising, unit reset and the Anneal engine (10 R317-R336). -/

namespace Sys2Proof.Machine

/-! ## Layout of the spill region (10 R317) -/

def spillState (b : Block) : Nat := rd b 0x7000 7

/-- Nodes of a level: SPILL_SIZE × 131,072 leaves, then an eighth, rounded up, at each level above. -/
def nodesAt (b : Block) : Nat → Nat
  | 0 => 131072 * rd b 0x7000 6
  | l + 1 => (nodesAt b l + 7) / 8

/-- Nodes of the levels below `l`. -/
def nodesBelow (b : Block) : Nat → Nat
  | 0 => 0
  | l + 1 => nodesBelow b l + nodesAt b l

def nodeAddr (b : Block) (l n : Nat) : Nat := rd b 0x7000 5 + 64 * (nodesBelow b l + n)

def nodeKeyNum (l n : Nat) : Nat := 2 ^ 30 * l + n

def lineAddr (b : Block) (line : Nat) : Nat := rd b 0x7000 3 + 256 * line

def tagAddr (b : Block) (line : Nat) : Nat := rd b 0x7000 4 + 8 * line

/-- The spill unit (32 MiB) of a line. -/
def unitOf (line : Nat) : Nat := line / 131072

/-! ## Partitions and their units (R332) -/

def spillRange (b : Block) (pid : Nat) : Nat × Nat := (bits (rd b (0x7100 + pid) 1) 0 32, bits (rd b (0x7100 + pid) 1) 32 32)

def spillPstate (b : Block) (pid : Nat) : Nat := rd b (0x7100 + pid) 2

def ownsUnit (b : Block) (pid u : Nat) : Bool :=
  spillPstate b pid != 0 && (spillRange b pid).1 ≤ u && u < (spillRange b pid).1 + (spillRange b pid).2

def unitOwner (b : Block) (u : Nat) : Nat := (pids.find? fun p => ownsUnit b p u).getD 0

/-- Partitions whose units a subtree of 8^l leaves under node `n` touches; a unit is a node of level 4. -/
def touched (b : Block) (l n : Nat) : List Nat :=
  let lo := if l ≤ 4 then n / 8 ^ (4 - l) else n * 8 ^ (l - 4)
  let hi := if l ≤ 4 then lo + 1 else (n + 1) * 8 ^ (l - 4)
  pids.filter fun p => spillPstate b p != 0 && (spillRange b p).2 != 0 && (spillRange b p).1 < hi
    && lo < (spillRange b p).1 + (spillRange b p).2

/-! ## Alarms (R327, Table 10-8) -/

/-- Raises an alarm: counted block-wide and for each partition named, with the two last-alarm words, and the
security-alarm source once. With several partitions named the block-wide word carries PID 0 (log 12). -/
def secAlarm (b : Block) (cause : Nat) (ps : List Nat) (pp level unit : Nat) : Block :=
  let ps := ps.filter (· != 0)
  let word (pid : Nat) : Nat := (cause <<< 28) + (pid <<< 22) + (pp <<< 16) + (level <<< 12)
  let pid := match ps with
    | [p] => p
    | _ => 0
  let b := wr (count b 0x7000 0x0B) 0x7000 0x0C (word pid)
  let b := ps.foldl (fun b p => wr (count b (0x7100 + p) 5) (0x7100 + p) 6 (word p)) b
  raiseFree b 11 unit pid

/-! ## Cryptography of a line (R318-R320) -/

/-- The line block of Table 10-3. -/
def lineBlock (dom line major minor blk : Nat) : Nat :=
  (dom <<< 120) + (line <<< 86) + (major <<< 30) + (minor <<< 18) + blk

def cryptLine (key line major minor data : Nat) : Nat :=
  let k := spillEnc key
  let ks := (List.range 16).map fun i => swapBytes (aes k (lineBlock 1 line major minor i)) 16
  (data ^^^ ks.reverse.foldl (fun a x => a * 2 ^ 128 + x) 0) % 2 ^ 2048

def lineTag (key line major minor cipher : Nat) : Nat :=
  let k := spillTag key
  (ghash (aes k 0) ⟨16, swapBytes (lineBlock 0 line major minor 0) 16⟩ ⟨256, cipher⟩
    ^^^ aes k (lineBlock 2 line major minor 0)) >>> 64

def poisonTag (key line major minor : Nat) : Nat := aes (spillTag key) (lineBlock 3 line major minor 0) >>> 64

/-- The MAC of a node whose parent holds counter `ctr` for it (R320). -/
def nodeMac (key l n ctr val : Nat) : Nat :=
  cmac (spillTree key) ⟨72, swapBytes ((l <<< 120) + (n <<< 88) + (ctr <<< 32)) 16 + ((val >>> 64) <<< 128)⟩ >>> 64

def leafMajor (v : Nat) : Nat := bits v 456 56
def leafMinor (v i : Nat) : Nat := bits v (64 + 12 * i) 12
def nodeCtr (v j : Nat) : Nat := bits v (64 + 56 * j) 56

/-! ## The tree (R321, R334) -/

def cached (b : Block) (l n : Nat) : Option TreeNode := find? b.ssu.cache (nodeKeyNum l n)

def setNode (b : Block) (l n : Nat) (x : TreeNode) : Block :=
  { b with ssu := { b.ssu with cache := insert b.ssu.cache (nodeKeyNum l n) x } }

/-- The counter the parent holds for a node: a root counter at level 9. -/
def parentCtr (b : Block) (l n : Nat) : Option Nat :=
  if l ≥ 9 then b.ssu.root[n]? else (cached b (l + 1) (n / 8)).map fun p => nodeCtr p.val (n % 8)

/-- The counter the parent holds advances by one, and the parent becomes dirty. -/
def bumpParent (b : Block) (l n : Nat) : Block :=
  if l ≥ 9 then
    { b with ssu := { b.ssu with root := b.ssu.root.set n ((b.ssu.root.getD n 0 + 1) % 2 ^ 56) } }
  else match cached b (l + 1) (n / 8) with
    | some p =>
      let j := n % 8
      setNode b (l + 1) (n / 8) { p with val := setBits p.val (64 + 56 * j) 56 (nodeCtr p.val j + 1), dirty := true }
    | none => b

def boundary (b : Block) : Nat := if spillState b = 3 then rd b 0x7000 8 else 0

/-- The key a node is verified and written under now (R334): the next key where the Anneal has passed it. -/
def nodeSpillKey (b : Block) (l n : Nat) : Nat :=
  if spillState b = 3 && (n + 1) * 8 ^ l ≤ boundary b then b.ring.spillNext.getD 0 else b.ring.spillCur.getD 0

/-- Is a node condemned, or under one that is (R328)? -/
def isCondemned (b : Block) (l n : Nat) : Bool :=
  b.ssu.condemned.any fun c => c.1 == 10 || (l ≤ c.1 && n / 8 ^ (c.1 - l) == c.2)

/-- The levels of a leaf's path that are not cached, highest first. -/
def missing (b : Block) (leaf : Nat) : List (Nat × Nat) :=
  (((List.range 10).reverse).map fun l => (l, leaf / 8 ^ l)).filter fun e => (cached b e.1 e.2).isNone

/-- The requests of no partition. -/
def noCtx : Ctx := ⟨0, 0, 0⟩

/-- Nodes are read (they belong to no partition), each once. -/
def fetchNodes (b : Block) (l : List (Nat × Nat)) : Block :=
  l.foldl (fun b e =>
    let k := nodeKeyNum e.1 e.2
    if b.ssu.fetching.contains k then b
    else
      let b := count { b with ssu := { b.ssu with fetching := b.ssu.fetching ++ [k] } } 0x7000 0x11
      issue b ⟨.host, noCtx, [], ⟨.treeNode, e.1, e.2⟩, [.hostRead 0 (nodeAddr b e.1 e.2) 64 plainVia]⟩) b

/-- The nodes of a path that are not cached are read. -/
def fetchPath (b : Block) (leaf : Nat) : Block := fetchNodes b (missing b leaf)

/-! ## Condemning (R328, R329) -/

/-- Partitions move to FENCED (R330). -/
def fenceSpill (b : Block) (ps : List Nat) : Block :=
  ps.foldl (fun b p => if spillPstate b p = 1 then wr b (0x7100 + p) 2 2 else b) b

/-- CONDEMNED as software reads it (0x7000.20). -/
def condemnedBlob (b : Block) : Bytes :=
  ⟨2048, (b.ssu.condemned.reverse.map fun c => (1 <<< 63) + (c.1 <<< 56) + c.2).foldl (fun a e => a * 2 ^ 64 + e) 0⟩

/-- A node is condemned, with the alarm of its cause; with the list full CONDEMN_FULL is raised instead (R328, R329). -/
def condemn (b : Block) (cause l n : Nat) : Block :=
  if 256 ≤ b.ssu.condemned.length then
    let ps := pids.filter fun p => (spillRange b p).2 != 0 && spillPstate b p != 0
    fenceSpill (secAlarm b 8 ps 0 0 uSSU) ps
  else
    let ps := if l = 10 then pids.filter fun p => (spillRange b p).2 != 0 && spillPstate b p != 0 else touched b l n
    let b := { b with ssu := { b.ssu with condemned := b.ssu.condemned ++ [(l, n)] } }
    fenceSpill (secAlarm b cause ps 0 l uSSU) ps

/-! ## Checks of the counter cache and of the root (R321, R327, R328) -/

/-- Is a cached node (by its key) `n` of level `l` or below it? -/
def under (l n k : Nat) : Bool := k / 2 ^ 30 ≤ l && k % 2 ^ 30 / 8 ^ (l - k / 2 ^ 30) == n

/-- A cached node is used: its BC-72 codeword is checked (R321). A node found uncorrectable is condemned, and the cache
keeps nothing of its subtree. -/
def nodeUse (b : Block) (l n pid : Nat) : Block × Bool :=
  match checkFlit b uSSU 0x15 pid 0 with
  | (b, true) =>
    let b := condemn b 5 l n
    ({ b with ssu := { b.ssu with cache := b.ssu.cache.filter fun e => !under l n e.1 } }, true)
  | (b, false) => (b, false)

/-- A root counter is used. Its word's check meets the SSU's check point 0x0015 with the SEC-DED pattern 2 (DESIGN CHOICE,
log 23): an uncorrectable word condemns the whole tree (R328). -/
def rootUse (b : Block) : Block × Bool :=
  if injectHere b uSSU 0x15 && rd b 0xF000 4 == 2 then
    let b := count (wr b 0xF000 5 (rd b 0xF000 5 - 1)) 0xF000 6
    let b := condemn (countSat b 0x1200 4 32 0x1200 6 1 uSSU 0) 6 10 0
    ({ b with ssu := { b.ssu with cache := [] } }, true)
  else (b, false)

/-- The counter a node's parent holds for it is used. -/
def parentUse (b : Block) (l n : Nat) : Block × Bool := if l ≥ 9 then rootUse b else nodeUse b (l + 1) (n / 8) 0

/-! ## Line accesses (R322-R324) -/

def SpillOp.pid (o : SpillOp) : Nat := o.ctx.pid

/-- The tag under which a line's data and tag are read, and that of an overflow's reads. -/
def lineHolder (l : LineOp) : Holder :=
  if l.beyond then ⟨.spillLine, l.line / 32, 2 ^ 34⟩ else ⟨.spillLine, l.op, l.line⟩

def opOf (b : Block) (n : Nat) : Option SpillOp := b.ssu.ops.find? (·.num == n)

def setOp (b : Block) (o : SpillOp) : Block :=
  { b with ssu := { b.ssu with ops := b.ssu.ops.map fun p => if p.num = o.num then o else p } }

/-- Bytes of an access within a line: offset in the line, length, offset in the access. -/
def linePiece (o : SpillOp) (line : Nat) : Nat × Nat × Nat :=
  let lo := max o.off (256 * line)
  let hi := min (o.off + o.len) (256 * line + 256)
  (lo - 256 * line, hi - lo, lo - o.off)

def wholeLine (o : SpillOp) (line : Nat) : Bool := (linePiece o line).2.1 == 256

/-- A line of an access has ended: its status joins the tile's (R32), and with its last line the access answers. A read
tile with a failed line returns no data. -/
def endLine (b : Block) (l : LineOp) (st : Status) (data : Nat) : Block :=
  let b := settle { b with ssu := { b.ssu with lines := b.ssu.lines.erase l } } (lineHolder l)
  match opOf b l.op with
  | none => b
  | some o =>
    let (lo, n, at') := linePiece o l.line
    let o := { o with left := o.left - 1, st := worse o.st st
                      got := o.got ||| ((slice data lo n) <<< (8 * at')) }
    if o.left = 0 then
      let b := { b with ssu := { b.ssu with ops := b.ssu.ops.filter (·.num != o.num) } }
      let (b, m) := if o.write || o.st != .ok then (b, 0) else checkPath b o.pid 0 ((o.len + 63) / 64) [(uSSU, 2)]
      let st := if m = 0 then o.st else .poison
      putReply b ⟨o.holder, st, if o.write || st != .ok then ⟨0, 0⟩ else ⟨o.len, o.got⟩, false⟩
    else setOp b o

/-- The data and then the tag of a line are written to host memory on the owner's link (R110: logged, SOURCE 3). -/
def writeLine (b : Block) (pid key line major minor data : Nat) (poison : Bool) : Block :=
  let c := cryptLine key line major minor data
  let b := hostWrite b pid (lineAddr b line) ⟨256, c⟩ poison 3
  hostWrite b pid (tagAddr b line) ⟨8, lineTag key line major minor c⟩ false 3

/-- The poison tag of a line is written over its tag. -/
def writePoison (b : Block) (pid key line major minor : Nat) : Block :=
  hostWrite b pid (tagAddr b line) ⟨8, poisonTag key line major minor⟩ false 3

/-- The key of a line: the next key where the Anneal has passed its leaf (R334). -/
def lineKey (b : Block) (line : Nat) : Nat := nodeSpillKey b 0 (line / 32)

/-- Does a poisoned beat of the access lie in the line? -/
def linePoison (o : SpillOp) (line : Nat) : Bool :=
  let (_, n, at') := linePiece o line
  bits o.poison (at' / 64) ((at' + n + 63) / 64 - at' / 64) != 0

/-- A line is written: its minor counter advances and its leaf becomes dirty (R321, R324). -/
def putLine (b : Block) (pid line : Nat) (leaf : TreeNode) (data : Nat) (poison : Bool) : Block :=
  let i := line % 32
  let minor := leafMinor leaf.val i + 1
  let b := setNode b 0 (line / 32) { leaf with val := setBits leaf.val (64 + 12 * i) 12 minor, dirty := true }
  writeLine b pid (lineKey b line) line (leafMajor leaf.val) minor data poison

/-- The old contents of a line with the access's bytes in their place. -/
def mergeLine (o : SpillOp) (line old : Nat) : Nat :=
  let (lo, n, at') := linePiece o line
  patch old lo n (slice o.data at' n)

/-- What verifying a line against its counters shows (R323): good data, poison, or a failed tag. -/
inductive LineRes where
  | good (data : Nat)
  | poisoned
  | bad
deriving DecidableEq, Repr

def verifyLine (key line major minor : Nat) (ans : Answer) (tag : Word) : LineRes :=
  if tag.toNat = poisonTag key line major minor then .poisoned
  else if ans.st = .ok && tag.toNat = lineTag key line major minor (slice ans.data.val 0 256) then
    .good (cryptLine key line major minor (slice ans.data.val 0 256))
  else .bad

def markLine (b : Block) (l l' : LineOp) : Block :=
  { b with ssu := { b.ssu with lines := b.ssu.lines.map fun m => if m = l then l' else m } }

/-- What reading a line and its tag presents; they are sent with T = 0 (R341). -/
def lineReads (b : Block) (pid line : Nat) : List Out :=
  [.hostRead 0 (lineAddr b line) 256 (viaOf b pid false), .hostRead 0 (tagAddr b line) 8 (viaOf b pid false)]

/-- The lines of a leaf that have been written. -/
def writtenLines (x : TreeNode) : List Nat := (List.range 32).filter fun i => leafMinor x.val i != 0

/-- The reads of every written line of a leaf (R325; Table 10-10). -/
def leafReads (b : Block) (leaf : Nat) (x : TreeNode) : List Out :=
  (writtenLines x).flatMap fun i => lineReads b (unitOwner b (unitOf (32 * leaf + i))) (32 * leaf + i)

/-- A line and its tag are asked for. -/
def askLine (b : Block) (l : LineOp) (o : SpillOp) : Block :=
  issue (markLine b l { l with asked := true }) ⟨.host, o.ctx, [], lineHolder l, lineReads b o.pid l.line⟩

/-- Has an access to a line of the leaf been issued and not finished (R325, Table 10-10 step 1)? -/
def leafBusy (b : Block) (leaf : Nat) : Bool := b.ssu.lines.any fun m => m.asked && !m.beyond && m.line / 32 == leaf

/-- The leaf is locked, by a minor-counter overflow or by the Anneal engine: accesses not yet issued wait (R322). -/
def leafLocked (b : Block) (leaf : Nat) : Bool :=
  (b.ssu.lines.any fun m => m.beyond && m.line / 32 == leaf) || (b.ssu.annealLock && boundary b == leaf)

/-- The verified line serves the access, or the refusal of R323, R324. -/
def lineServe (b : Block) (l : LineOp) (o : SpillOp) (x : TreeNode) (a : LineAnswer) : Block :=
  let i := l.line % 32
  let k := lineKey b l.line
  let own := unitOwner b (unitOf l.line)
  match verifyLine k l.line (leafMajor x.val) (leafMinor x.val i) ⟨a.st, a.data, a.poison⟩ a.tag with
  | .good d =>
    if o.write then endLine (putLine b o.pid l.line x (mergeLine o l.line d) (linePoison o l.line)) l .ok 0
    else endLine b l .ok d
  | .poisoned => endLine b l .poison 0
  | .bad =>
    let b := count b 0x7000 0x0F
    if o.write then
      let b := writePoison b o.pid k l.line (leafMajor x.val) (leafMinor x.val i)
      endLine (secAlarm b 3 [own] 0 0 uSSU) l .sealFail 0
    else endLine (secAlarm b 2 [own] 0 0 uSSU) l .sealFail 0

/-- A line whose path is verified: served from its counters, put off for an overflow, written, asked for, or served with
the data and tag that have come (R319, R323-R325). -/
def lineDo (b : Block) (l : LineOp) (o : SpillOp) (x : TreeNode) : Block :=
  let minor := leafMinor x.val (l.line % 32)
  if !o.write && minor = 0 then endLine b l .ok 0
  else if o.write && 4095 ≤ minor then
    settle (markLine b l { l with asked := false, beyond := true, ans := none }) (lineHolder l)
  else if o.write && (wholeLine o l.line || minor = 0) then
    endLine (putLine b o.pid l.line x (mergeLine o l.line 0) (linePoison o l.line)) l .ok 0
  else match l.ans with
    | none => askLine b l o
    | some a => lineServe b l o x a

/-- A line access that a condemned node or a fence has reached is answered as Table 10-6 then answers it (R323, R328). -/
def lineLost (b : Block) (l : LineOp) (o : SpillOp) : Block :=
  endLine b l (if spillPstate b o.pid = 2 then .fenced else .poison) 0

/-- One attempt to move a line access on: it waits behind an earlier access to its line, for the nodes of its path (which
are read together with the line, R323), for its data and tag, for the lock of its leaf, or for a minor-counter
overflow; else it is performed. -/
def lineStep (b : Block) (l : LineOp) : Block :=
  match opOf b l.op with
  | none => b
  | some o =>
    let leaf := l.line / 32
    if spillPstate b o.pid = 2 || isCondemned b 0 leaf then lineLost b l o
    else if (b.ssu.lines.find? (·.line == l.line)) != some l then b
    else match cached b 0 leaf with
      | none =>
        let b := fetchPath b leaf
        if l.asked || (o.write && wholeLine o l.line) then b else askLine b l o
      | some x =>
        if l.beyond then
          if l.asked || leafBusy b leaf then b
          else issue (markLine b l { l with asked := true }) ⟨.host, o.ctx, [], lineHolder l, leafReads b leaf x⟩
        else if (l.asked && l.ans.isNone) || (!l.asked && leafLocked b leaf) then b
        else match nodeUse b 0 leaf o.pid with
          | (b, true) => lineLost b l o
          | (b, false) => lineDo b l o x

/-- Moves every waiting line on as far as it goes, in the order the accesses reached the SSU. -/
def pumpLines (b : Block) : Nat → Block
  | 0 => b
  | fuel + 1 =>
    let b' := b.ssu.lines.foldl (fun b l => if b.ssu.lines.contains l then lineStep b l else b) b
    if b'.ssu.lines = b.ssu.lines then b' else pumpLines b' fuel

/-- A dirty node is written back: its parent's counter advances, its MAC is made with the advanced value (R321). -/
def writeBack (b : Block) (l n : Nat) (x : TreeNode) : Block :=
  let b := bumpParent b l n
  let ctr := (parentCtr b l n).getD 0
  let v := setBits x.val 0 64 (nodeMac (nodeSpillKey b l n) l n ctr x.val)
  let b := count (emit b (.hostWrite (nodeAddr b l n) ⟨64, v⟩ false plainVia)) 0x7000 0x12
  let b := setNode b l n ⟨v, false⟩
  { b with ssu := { b.ssu with wroteAt := insert b.ssu.wroteAt (nodeKeyNum l n) b.clk.now } }

/-- Was the node written back within the last 1 us (R321)? -/
def wroteSoon (b : Block) (l n : Nat) : Bool :=
  match find? b.ssu.wroteAt (nodeKeyNum l n) with
  | some t => !elapsed b t (micros 1)
  | none => false

/-! ## Unit reset (R333) -/

/-- One verified leaf of a unit is reset: MAJOR advanced, every minor counter 0, written with its MAC. -/
def resetLeaf (b : Block) (leaf : Nat) (x : TreeNode) : Block :=
  let y : TreeNode := ⟨((leafMajor x.val + 1) % 2 ^ 56) <<< 456, true⟩
  if wroteSoon b 0 leaf then setNode b 0 leaf y else writeBack (setNode b 0 leaf y) 0 leaf y

/-- Is a spill unit under a condemned node, or one above part of it? -/
def unitCondemned (b : Block) (u : Nat) : Bool :=
  isCondemned b 4 u || b.ssu.condemned.any fun c => c.1 < 4 && c.2 / 8 ^ (4 - c.1) == u

/-- The unit reset of a partition goes on from leaf `k` of its range: condemned units are passed over, each leaf is
fetched and verified, then reset. -/
def resetOn (b : Block) (pid k : Nat) : Nat → Block
  | 0 => { b with ssu := { b.ssu with resets := insert b.ssu.resets pid k } }
  | fuel + 1 =>
    let (base, n) := spillRange b pid
    let leaf := 4096 * base + k
    if 4096 * n ≤ k then { b with ssu := { b.ssu with resets := insert b.ssu.resets pid k } }
    else if unitCondemned b (leaf / 4096) then resetOn b pid (4096 * (k / 4096 + 1)) fuel
    else match cached b 0 leaf with
      | some x => match parentUse b 0 leaf with
        | (b, true) => resetOn b pid k fuel
        | (b, false) => resetOn (resetLeaf b leaf x) pid (k + 1) fuel
      | none =>
        let b := fetchPath b leaf
        { b with ssu := { b.ssu with resets := insert b.ssu.resets pid k } }

/-- The unit resets under way go on as far as they can. -/
def pumpResets (b : Block) : Block :=
  b.ssu.resets.foldl (fun b e => resetOn b e.1 e.2 (8192 * (spillRange b e.1).2 + 1)) b

def pumpSpill (b : Block) : Block := pumpResets (pumpLines b (3 * b.ssu.lines.length + 3))

/-- The checks of Table 10-6, in order. -/
def spillCheck (b : Block) (pid off len : Nat) : Option Status :=
  let first := unitOf (off / 256)
  let last := unitOf ((off + len - 1) / 256)
  if !served b uSSU then some .fenced
  else if spillPstate b pid = 2 then some .fenced
  else if spillPstate b pid ≠ 1 || spillState b < 2 || !ownsUnit b pid first || !ownsUnit b pid last then some .guardFault
  else if look b.ptb.tdisp 0 (part b pid).vf ≠ 2 then some .busError
  else none

/-- The physical address of an offset in the spill window (04 Table 4-2). -/
def spillPa (b : Block) (off : Nat) : Nat := (rd b 0x1000 3 <<< 44) + (1 <<< 42) + off % 2 ^ 42

/-- A spill access reaches the SSU with its CTX (R322; 01 R10): refused by the first failing check, else handled line by
line. Data to be written pass the SSU's input staging (01 R24). -/
def spillAccess (b : Block) (h : Holder) (c : Ctx) (off len : Nat) (write : Bool) (data poison : Nat) : Block :=
  let pid := c.pid
  if len = 0 then putReply b ⟨h, .ok, ⟨0, 0⟩, false⟩ else
  match spillCheck b pid off len with
  | some .guardFault => putReply (guardRecord b uSSU (spillPa b off) c 1 .core 0) ⟨h, .guardFault, ⟨0, 0⟩, false⟩
  | some st => putReply b ⟨h, st, ⟨0, 0⟩, false⟩
  | none =>
    let n := (off + len - 1) / 256 - off / 256 + 1
    let (b, m) := if write then checkPath b pid (spillPa b off) ((len + 63) / 64) [(uSSU, 1)] else (b, 0)
    let o : SpillOp := ⟨b.ssu.nextOp, h, c, write, off, len, data, poison ||| m, n, .ok, 0⟩
    let ls := (List.range n).map fun k => (⟨o.num, off / 256 + k, false, false, none⟩ : LineOp)
    let b := { b with ssu := { b.ssu with ops := b.ssu.ops ++ [o], lines := b.ssu.lines ++ ls, nextOp := o.num + 1 } }
    let b := addTo (addTo b 0x7000 (if write then 0x0E else 0x0D) n) (0x7100 + pid) (if write then 4 else 3) n
    pumpSpill b

/-! ## Answers from host memory (R323-R325, R328) -/

/-- 10 R323, R324: a line and its tag arrive; with its path verified, the access is served or refused. -/
def spillLineReturn (b : Block) (line : Nat) (ans : Answer) (tag : Word) : Block :=
  match b.ssu.lines.find? fun l => l.line == line && l.asked && !l.beyond && l.ans.isNone with
  | none => b
  | some l =>
    if !issued b (lineHolder l) then b
    else pumpSpill (markLine (settle b (lineHolder l)) l { l with ans := some ⟨line, ans.st, ans.data, tag, ans.poison⟩ })

/-- 10 R321, R328: a fetched node is verified against its parent's counter and enters the cache, or is condemned. -/
def nodeReturn (b : Block) (l n : Nat) (ans : Answer) : Block :=
  let h : Holder := ⟨.treeNode, l, n⟩
  match parentCtr b l n with
  | none => b
  | some ctr =>
    if !issued b h || 32768 ≤ b.ssu.cache.length then b
    else
      let b := settle b h
      let b := { b with ssu := { b.ssu with fetching := b.ssu.fetching.filter (· != nodeKeyNum l n) } }
      let v := slice ans.data.val 0 64
      match parentUse b l n with
      | (b, true) => pumpSpill b
      | (b, false) =>
        if ans.st = .ok && bits v 0 64 = nodeMac (nodeSpillKey b l n) l n ctr v then pumpSpill (setNode b l n ⟨v, false⟩)
        else pumpSpill (condemn b 4 l n)

/-- Is a child of the node cached? Its parent then stays (R321). -/
def hasCachedChild (b : Block) (l n : Nat) : Bool :=
  l != 0 && (List.range 8).any fun j => (cached b (l - 1) (8 * n + j)).isSome

/-- 10 R321: a node leaves the cache, written back first if dirty. A node with a cached child stays, and none is
written back twice within 1 us. A codeword found uncorrectable is condemned instead. -/
def evictNode (b : Block) (l n : Nat) : Block :=
  match cached b l n with
  | none => b
  | some x =>
    let busy := b.ssu.lines.any fun m => l == 0 && m.line / 32 == n
    if hasCachedChild b l n || busy || (x.dirty && wroteSoon b l n) then b
    else match nodeUse b l n 0 with
      | (b, true) => pumpSpill b
      | (b, false) => match if x.dirty then parentUse b l n else (b, false) with
        | (b, true) => pumpSpill b
        | (b, false) =>
          let b := if x.dirty then writeBack b l n x else b
          { b with ssu := { b.ssu with cache := erase b.ssu.cache (nodeKeyNum l n) } }

/-- The answer for a line among those a step brings. -/
def answerFor (ls : List LineAnswer) (line : Nat) : Option LineAnswer := ls.find? (·.line == line)

/-- 10 R325: the lines of a locked leaf have arrived: MAJOR advances, every written line is sealed again with minor
counter 1, and the write that overflowed is done. -/
def minorOverflow (b : Block) (leaf : Nat) (ans : List LineAnswer) : Block :=
  match b.ssu.lines.find? fun l => l.beyond && l.asked && l.line / 32 == leaf, cached b 0 leaf with
  | some l, some x =>
    match opOf b l.op with
    | none => b
    | some o =>
      let used := writtenLines x
      if !issued b (lineHolder l) || !used.all (fun i => (answerFor ans (32 * leaf + i)).isSome) then b
      else match nodeUse b 0 leaf o.pid with
      | (b, true) => pumpSpill (lineLost b l o)
      | (b, false) =>
        let major := leafMajor x.val
        let k := lineKey b (32 * leaf)
        let res (i : Nat) : LineRes := match answerFor ans (32 * leaf + i) with
          | some a => verifyLine k (32 * leaf + i) major (leafMinor x.val i) ⟨a.st, a.data, a.poison⟩ a.tag
          | none => .bad
        let own := res (l.line % 32)
        let whole := wholeLine o l.line
        if !whole && own == .bad then
          let b := writePoison (count b 0x7000 0x0F) o.pid k l.line major (leafMinor x.val (l.line % 32))
          pumpSpill (endLine (secAlarm b 3 [unitOwner b (unitOf l.line)] 0 0 uSSU) l .sealFail 0)
        else if !whole && own == .poisoned then pumpSpill (endLine b l .poison 0)
        else
          let v := used.foldl (fun v i => setBits v (64 + 12 * i) 12 1) (setBits x.val 456 56 (major + 1))
          let b := count (setNode b 0 leaf { x with val := v, dirty := true }) 0x7000 0x10
          let b := used.foldl (fun b i =>
            let n := 32 * leaf + i
            let pid := unitOwner b (unitOf n)
            if n = l.line then
              let old := match own with
                | .good d => d
                | _ => 0
              writeLine b o.pid k n (major + 1) 1 (mergeLine o n old) (linePoison o n)
            else match res i with
              | .good d => writeLine b pid k n (major + 1) 1 d false
              | .poisoned => writePoison b pid k n (major + 1) 1
              | .bad => writePoison (secAlarm (count b 0x7000 0x0F) 3 [pid] 0 0 uSSU) pid k n (major + 1) 1) b
          pumpSpill (endLine b l .ok 0)
  | _, _ => b

/-! ## Initialising (R331) -/

def overlap (a n c m : Nat) : Bool := a < c + m && c < a + n

def treeBytes (b : Block) : Nat := 64 * nodesBelow b 10

/-- A base misaligned, size 0, or areas that overlap: RANGE. -/
def spillInitRange (b : Block) : Bool :=
  let d := rd b 0x7000 3
  let t := rd b 0x7000 4
  let r := rd b 0x7000 5
  let n := rd b 0x7000 6
  n == 0 || d % 2 ^ 30 != 0 || t % 2 ^ 25 != 0 || r % 4096 != 0 || overlap d (2 ^ 30 * n) t (2 ^ 25 * n)
    || overlap d (2 ^ 30 * n) r (treeBytes b) || overlap t (2 ^ 25 * n) r (treeBytes b)

/-- Every node of a level is written with zero counters and a valid MAC. -/
def initLevel (b : Block) (l : Nat) : Block :=
  let k := b.ring.spillCur.getD 0
  (List.range (nodesAt b l)).foldl (fun b n => emit b (.hostWrite (nodeAddr b l n) ⟨64, nodeMac k l n 0 0⟩ false plainVia)) b

def spillInitDone (b : Block) : Block :=
  if spillState b ≠ 1 then b
  else
    let b := (List.range 10).foldl initLevel b
    let b := { b with ssu := { b.ssu with root := List.replicate 8 0, cache := [], condemned := [], retired := [], wroteAt := [] }
                      ring := { b.ring with fresh := false } }
    finishCmd (wr b 0x7000 7 2) 0x7000 0x45 .ok 0

/-! ## The end of a unit reset (R333) -/

/-- The unit reset of a partition starts. -/
def resetUnits (b : Block) (pid : Nat) : Block :=
  pumpResets { wr b (0x7100 + pid) 2 3 with ssu := { b.ssu with resets := insert b.ssu.resets pid 0 } }

/-- 10 R333: the partition's units have been reset or retired. -/
def unitResetDone (b : Block) (pid : Nat) : Block :=
  let (base, n) := spillRange b pid
  if spillPstate b pid ≠ 3 || look b.ssu.resets 0 pid < 4096 * n then b
  else
    let bad := ((List.range n).map (base + ·)).filter (unitCondemned b)
    let b := { b with ssu := { b.ssu with
        retired := b.ssu.retired ++ bad.filter fun u => !b.ssu.retired.contains u
        resets := erase b.ssu.resets pid } }
    wr (wr b (0x7100 + pid) 2 0) (0x7100 + pid) 1 0

/-! ## The Anneal engine (R334-R336) -/

/-- The Anneal is complete: the next key becomes current (R336). -/
def annealComplete (b : Block) : Block :=
  let b := { b with ring := { b.ring with spillCur := b.ring.spillNext, spillNext := none, stageSpill := [] } }
  finishCmd (wr b 0x7000 7 2) 0x7000 0x40 .ok (min b.ssu.annealPoisoned 0xFFFFFF)

/-- The nodes of a leaf's path whose last leaf it is, at levels 1 to 9, and which are not condemned: they are dirty in the
cache before the boundary passes (R335). -/
def lastNodes (b : Block) (f : Nat) : List (Nat × Nat) :=
  let last := f + 1 == nodesAt b 0
  (((List.range 9).map fun i => (i + 1, f / 8 ^ (i + 1))).filter fun e =>
    (last || (f + 1) % 8 ^ e.1 == 0) && !isCondemned b e.1 e.2)

/-- The boundary moves past leaf `f` and the leaf is unlocked. -/
def annealPass (b : Block) (f : Nat) : Block :=
  let b := (lastNodes b f).foldl (fun b e => match cached b e.1 e.2 with
    | some x => setNode b e.1 e.2 { x with dirty := true }
    | none => b) b
  let b := { b with ssu := { b.ssu with annealAt := b.clk.now, annealLock := false } }
  let b := progressed (wr b 0x7000 8 (f + 1)) uAnneal
  pumpSpill (if f + 1 == nodesAt b 0 then annealComplete b else b)

/-- The verified lines of leaf `f` are sealed again under the next key with unchanged counters (Table 10-10, step 3). -/
def annealLines (b : Block) (f : Nat) (x : TreeNode) (ans : List LineAnswer) : Block :=
  let cur := b.ring.spillCur.getD 0
  let next := b.ring.spillNext.getD 0
  (writtenLines x).foldl (fun b i =>
    let n := 32 * f + i
    let mj := leafMajor x.val
    let mn := leafMinor x.val i
    let pid := unitOwner b (unitOf n)
    match answerFor ans n with
    | some a => match verifyLine cur n mj mn ⟨a.st, a.data, a.poison⟩ a.tag with
      | .good d => writeLine b pid next n mj mn d false
      | .poisoned => writePoison b pid next n mj mn
      | .bad =>
        let b := secAlarm (count b 0x7000 0x0F) 7 [pid] 0 0 uSSU
        writePoison { b with ssu := { b.ssu with annealPoisoned := b.ssu.annealPoisoned + 1 } } pid next n mj mn
    | none => b) b

def annealHolder (f : Nat) : Holder := ⟨.anneal, f, 0⟩

/-- 10 R335, Table 10-10: the leaf at the boundary. Its path is taken into the cache, it is locked once every access
issued to its lines has finished and its lines are read; when they have come, at no more than ANNEAL_RATE, it is
converted. A condemned leaf is passed over. -/
def annealLeaf (b : Block) (ans : List LineAnswer) : Block :=
  let f := rd b 0x7000 8
  if spillState b ≠ 3 || !served b uSSU then b
  else if isCondemned b 0 f then
    let want := (missing b f).filter fun e => !isCondemned b e.1 e.2 && (lastNodes b f).any (·.1 ≤ e.1)
    if want.isEmpty then annealPass b f else fetchNodes b want
  else match cached b 0 f with
    | none => fetchPath b f
    | some x =>
      let n := (writtenLines x).length
      let rate := rd b 0x7000 9
      if n ≠ 0 && !b.ssu.annealLock then
        if leafBusy b f || leafLocked b f then b
        else
          issue { b with ssu := { b.ssu with annealLock := true } } ⟨.host, noCtx, [], annealHolder f, leafReads b f x⟩
      else if leafBusy b f || (b.ssu.lines.any fun l => l.beyond && l.line / 32 == f)
          || !elapsed b b.ssu.annealAt ((25600 * n + rate - 1) / rate)
          || (n ≠ 0 && (!issued b (annealHolder f) || !(writtenLines x).all fun i => (answerFor ans (32 * f + i)).isSome)) then b
      else match nodeUse b 0 f 0 with
        | (b, true) => pumpSpill (settle { b with ssu := { b.ssu with annealLock := false } } (annealHolder f))
        | (b, false) =>
          annealPass (setNode (annealLines (settle b (annealHolder f)) f x ans) 0 f { x with dirty := true }) f

end Sys2Proof.Machine
end

