-- ==== Sys2Proof/Machine/Access.lean ====
section
/-! DEFINITION. Accesses of the block's units to a context's memory: a tile is translated, checked and sent where its
region lies: package memory, host aperture, spill window or another chip (04 R117-R121, R134-R136; 10 R338, R341). -/

namespace Sys2Proof.Machine

/-- What became of an access: it waits for a walk, it was refused, or it is under way in the pieces listed. -/
inductive Started where
  | wait
  | failed (st : Status) (va : Nat)
  | issued (segs : List Seg)
deriving DecidableEq, Repr

/-- Where a tile lies: all its pieces are in one chip and region (R135). -/
inductive Place where
  | package | host | spill | remote
deriving DecidableEq, Repr

def placeOf (b : Block) (pa : Nat) : Place :=
  if isRemote b pa then .remote
  else match regionOf pa with
    | .package => .package
    | .aperture => .host
    | _ => .spill

def segsPlace (b : Block) (segs : List Seg) : Place := placeOf b ((segs.head?.map (·.pa)).getD 0)

/-- The holder of piece `k` of an access that the SSU or the transport answers piece by piece. -/
def pieceHolder (h : Holder) (k : Nat) : Holder := { h with b := h.b + 2 ^ 40 * k }

/-- A translated tile is admitted: every Memory Station it names lets it through. -/
def admitSegs (b : Block) (c : Ctx) (cls : SrcClass) : List Seg → Block × Option Status
  | [] => (b, none)
  | s :: ss =>
    match msAdmit b s.pa c cls with
    | (b, some st) => (b, some st)
    | (b, none) => admitSegs b c cls ss

/-- The first address of a tile whose remote piece R120 does not allow (R134). -/
def remoteBad (b : Block) (c : Ctx) : Nat → List Seg → Option Nat
  | _, [] => none
  | va, s :: ss =>
    if placeOf b s.pa == .remote && (rwinUse b c.pid s.rwin s.pa).isNone then some va
    else remoteBad b c ((va + s.len) % 2 ^ 52) ss

/-- Poison of the beats from byte `off` of a block on. -/
def poisonFrom (poison off : Nat) : Nat := poison >>> (off / 64)

/-- The pieces of a tile that another unit answers go to it: spill pieces to the SSU, remote pieces as messages on the
queue pair of their window entry, each with the CTX of the request (01 R10). `data` and the poison of its beats are cut
along the pieces. -/
def sendPieces (b : Block) (h : Holder) (c : Ctx) (write : Bool) : Nat → Nat → Nat → List Seg → Block
  | k, data, poison, s :: ss =>
    let d := slice data 0 s.len
    let b := dropReply b (pieceHolder h k)
    let b := match placeOf b s.pa with
      | .spill => spillAccess b (pieceHolder h k) c (bits s.pa 0 42) s.len write d (bits poison 0 ((s.len + 63) / 64))
      | .remote => match rwinUse b c.pid s.rwin s.pa with
        | some (i, key) =>
          remoteSend b i key (pieceHolder h k) c (if write then 1 else 3) s.pa s.len d (bits poison 0 ((s.len + 63) / 64)) 0 0
        | none => b
      | _ => b
    sendPieces b h c write (k + 1) (data >>> (8 * s.len)) (poisonFrom poison s.len) ss
  | _, _, _, [] => b

/-- The refusals that stand before any translation: the partition's domain or the Translation Hub is not in service
(12 R388). -/
def fencedAccess (b : Block) (c : Ctx) : Bool := !partServed b c.pid || !served b uTXH

/-- Translates a tile and applies the refusals common to reads and writes; what is left is admitted in its place. -/
def prepare (b : Block) (a : Asker) (c : Ctx) (va len : Nat) (op : Access4) (remote : Bool) : Block × Started :=
  if fencedAccess b c then (b, .failed .fenced va)
  else match xlate b a c va len op remote with
    | (b, .wait) => (b, .wait)
    | (b, .fault st v _ _) => (b, .failed st v)
    | (b, .ok segs) =>
      match segsPlace b segs with
      | .package =>
        match admitSegs b c (askClass a) segs with
        | (b, some st) => (b, .failed st va)
        | (b, none) => (b, .issued segs)
      | .host => if hostAdmitted b c.pid then (b, .issued segs) else (b, .failed .busError va)
      | .spill => (b, .issued segs)
      | .remote =>
        match remoteBad b c va segs with
        | none => (b, .issued segs)
        | some v => (faultRecord b a c op v causeRwin 0, .failed .xlateFault v)

/-- Translates the 4 KiB tiles of a longer run one by one (06 R206; 07 R225): all pass, or the first that does not
decides. -/
def prepareRun (b : Block) (a : Asker) (c : Ctx) (op : Access4) : Nat → Nat → List Seg → Nat → Block × Started
  | _, 0, segs, _ => (b, .issued segs)
  | _, _, segs, 0 => (b, .issued segs)
  | va, len, segs, fuel + 1 =>
    match prepare b a c va (min len 4096) op false with
    | (b, .issued l) => prepareRun b a c op ((va + min len 4096) % 2 ^ 52) (len - min len 4096) (segs ++ l) fuel
    | r => r

/-- The modules that carry a package piece's flits between the core and its die (01 R12); an Engine Station's own
requests do not cross the core. -/
def flitsOf (b : Block) (a : Asker) (s : Seg) : List Out :=
  if a.source = 0 then [] else [.dieFlits (bits s.pa 36 5) (stripe b.straps s.pa s.len)]

/-- What reading the pieces in package and host memory presents at the boundary. -/
def readOuts (b : Block) (a : Asker) (pid : Nat) (segs : List Seg) : List Out :=
  segs.flatMap fun s => match placeOf b s.pa with
    | .package => flitsOf b a s ++ [.memRead 0 s.pa s.len]
    | .host => [.hostRead 0 (hostAddr b s.pa) s.len (viaOf b pid true)]
    | _ => []

/-- The pool of an access: host where any piece is host memory. -/
def poolOf (b : Block) (segs : List Seg) : Pool := if segs.any (placeOf b ·.pa == .host) then .host else .mem

/-- Does the answer of an access come under a tag (some piece in package or host memory)? -/
def tagged (b : Block) (segs : List Seg) : Bool :=
  segs.any fun s => placeOf b s.pa == .package || placeOf b s.pa == .host

/-- A prepared access takes its tag, if it needs one. -/
def take (b : Block) (a : Asker) (c : Ctx) (segs : List Seg) (outs : List Out) : Block :=
  if tagged b segs then issue b ⟨poolOf b segs, c, segs, a.holder, outs⟩ else b

/-- A prepared read goes out. -/
def goRead (b : Block) (a : Asker) (c : Ctx) (segs : List Seg) : Block :=
  sendPieces (take b a c segs (readOuts b a c.pid segs)) a.holder c false 0 0 0 segs

/-- Starts a read of a tile. -/
def startRead (b : Block) (a : Asker) (c : Ctx) (va len : Nat) (remote : Bool) : Block × Started :=
  match prepare b a c va len .read remote with
  | (b, .issued segs) => (goRead b a c segs, .issued segs)
  | r => r

/-- Starts a read of a run of tiles. -/
def startReadRun (b : Block) (a : Asker) (c : Ctx) (va len : Nat) : Block × Started :=
  match prepareRun b a c .read va len [] (len / 4096 + 1) with
  | (b, .issued segs) => (goRead b a c segs, .issued segs)
  | r => r

/-- Host writes of a tile's pieces, each logged with the writer's SOURCE (03 R110); a piece with a poisoned beat is sent
poisoned (01 R25). -/
def hostPieces (b : Block) (pid source : Nat) : Nat → Nat → List Seg → Block
  | data, poison, s :: ss =>
    let b := if placeOf b s.pa == .host then
        hostWrite b pid (hostAddr b s.pa) ⟨s.len, slice data 0 s.len⟩ (bits poison 0 ((s.len + 63) / 64) != 0) source
      else b
    hostPieces b pid source (data >>> (8 * s.len)) (poisonFrom poison s.len) ss
  | _, _, [] => b

/-- Memory writes of a tile's pieces, as the memory request interface sees them: MW_POISON for each poisoned beat
(01 R18). -/
def memPieces (b : Block) (a : Asker) : Nat → Nat → List Seg → List Out
  | data, poison, s :: ss =>
    let rest := memPieces b a (data >>> (8 * s.len)) (poisonFrom poison s.len) ss
    if placeOf b s.pa == .package then
      flitsOf b a s ++ .memWrite s.pa ⟨s.len, slice data 0 s.len⟩ (bits poison 0 ((s.len + 63) / 64)) :: rest
    else rest
  | _, _, [] => []

/-- The check points between the unit that sends a block of data and where it goes (01 R24): the sender's output staging,
then the Memory Station's input staging, the host bridge's output staging or the Transport Engine's crossbar port. -/
def wayOut (b : Block) (a : Asker) (segs : List Seg) : List (Nat × Nat) :=
  let own := match a.source with
    | 0 => [(uES a.unit, 1)] | 1 => [(uLadle, 2)] | 2 => [(uTPE, 2)] | 4 => [(uTPE, 2)] | _ => []
  match segs.head?, segsPlace b segs with
  | some s, .package => own ++ [(uMS (bits s.pa 36 5), 1)]
  | some _, .host => own ++ [(uDXE, 2)]
  | some _, .remote => own ++ [(uTPE, 3)]
  | _, _ => own

/-- The check points that read data pass on their way in: the station's output staging or the host bridge's input, then
the reader's own staging. -/
def wayIn (b : Block) (h : Holder) (segs : List Seg) : List (Nat × Nat) :=
  let u := unitOfHolder h
  let own := if u = uES h.a then [(u, 2)] else if u = uLadle || u = uTPE || u = uTXH then [(u, 1)] else []
  match segs.head?, segsPlace b segs with
  | some s, .package => (uMS (bits s.pa 36 5), 2) :: own
  | some _, .host => (uDXE, 1) :: own
  | _, _ => own

/-- A block of data meets the check points of a way; the poison of its beats. -/
def checkData (b : Block) (c : Ctx) (segs : List Seg) (len : Nat) (way : List (Nat × Nat)) : Block × Nat :=
  checkPath b c.pid ((segs.head?.map (·.pa)).getD 0) ((len + 63) / 64) way

/-- A prepared write goes out: its data meet the check points of their way. -/
def goWrite (b : Block) (a : Asker) (c : Ctx) (data : Bytes) (poison source : Nat) (segs : List Seg) : Block :=
  let (b, m) := checkData b c segs data.len (wayOut b a segs)
  let poison := poison ||| m
  let b := hostPieces b c.pid source data.val poison segs
  let b := take b a c segs (memPieces b a data.val poison segs)
  sendPieces b a.holder c true 0 data.val poison segs

/-- Starts a write of a tile. -/
def startWrite (b : Block) (a : Asker) (c : Ctx) (va : Nat) (data : Bytes) (poison source : Nat) (remote : Bool) :
    Block × Started :=
  match prepare b a c va data.len .write remote with
  | (b, .issued segs) => (goWrite b a c data poison source segs, .issued segs)
  | r => r

/-- Writes a prepared run of pieces whose answer this step already knows. -/
def putPieces (b : Block) (a : Asker) (c : Ctx) (data : Bytes) (poison source : Nat) (segs : List Seg) : Block :=
  let (b, m) := checkData b c segs data.len (wayOut b a segs)
  let poison := poison ||| m
  let b := hostPieces b c.pid source data.val poison segs
  let b := (memPieces b a data.val poison segs).foldl present b
  sendPieces b ⟨.posted, 0, 0⟩ c true 0 data.val poison segs

/-- What a write of pieces waits for under R27: a memory tag, where any of them is package memory (a host write is
posted: it awaits no response). -/
def putWait (b : Block) (a : Asker) (c : Ctx) (segs : List Seg) : Option TagWait :=
  if segs.any (placeOf b ·.pa == .package) then some ⟨.mem, c, [], a.holder, []⟩ else none

/-- A write of a run of 4 KiB tiles: all are translated and admitted before any byte is written. It holds a tag while it
is done, and waits where it finds none (01 R27). -/
def writeNow (b : Block) (a : Asker) (c : Ctx) (va : Nat) (data : Bytes) (poison source : Nat) : Block × Started :=
  match prepareRun b a c .write va data.len [] (data.len / 4096 + 1) with
  | (b, .issued segs) =>
    match putWait b a c segs with
    | none => (putPieces b a c data poison source segs, .issued segs)
    | some w =>
      if tagReady b w then (underTag b w fun b => putPieces b a c data poison source segs, .issued segs)
      else (waitTag b w, .wait)
  | r => r

/-- The status and the data of an access's pieces, the answer `ans` standing for host memory and its status for what
came under the tag; none while a reply is missing. Package data are what memory holds now. -/
def gather (b : Block) (h : Holder) (ans : Answer) : Nat → Nat → List Seg → Option (Status × Nat)
  | _, _, [] => some (.ok, 0)
  | k, off, s :: ss =>
    match gather b h ans (k + 1) (off + s.len) ss with
    | none => none
    | some (st, d) =>
      let own := if ans.poison then .poison else ans.st
      let join (st' : Status) (x : Nat) : Option (Status × Nat) :=
        some (worse st' st, x % 2 ^ (8 * s.len) + (d <<< (8 * s.len)))
      match placeOf b s.pa with
      | .package => join own (readMem b s.pa s.len)
      | .host => join own (slice ans.data.val off s.len)
      | _ => match replyOf b (pieceHolder h k) with
        | some r => join r.st r.data.val
        | none => none

def dropPieces (b : Block) (h : Holder) (segs : List Seg) : Block :=
  (List.range segs.length).foldl (fun b k => dropReply b (pieceHolder h k)) b

/-- An access's answer is there: its tag is freed, and it gives its status and data. Poison or an error on any beat
completes a read with POISON (01 R18), and so does a flit that a check point finds uncorrectable (R25). None: nothing of the kind is under way, or not all of it is answered. -/
def arrive (b : Block) (h : Holder) (segs : List Seg) (ans : Answer) (len : Nat) : Option (Block × Status × Nat) :=
  if segs.isEmpty || (tagged b segs && !issued b h) then none
  else match gather b h ans 0 0 segs with
    | some (st, d) =>
      let hit := if len = 0 then none else segs.find? fun s => placeOf b s.pa == .package
      let b := match hit, tagOf b h with
        | some s, some u => memoryUe b (ans.poison || ans.st != .ok) s.pa u.pid
        | _, _ => b
      let (b, m) := if len = 0 then (b, 0) else checkData b ((segs.head?.map (·.ctx)).getD noCtx) segs len (wayIn b h segs)
      some (dropPieces (settleTile b h) h segs, if m = 0 then st else worse .poison st, d % 2 ^ (8 * len))
    | none => none

/-- An access given up: its tag is freed and what the SSU or the transport has answered is dropped. -/
def abandon (b : Block) (h : Holder) (segs : List Seg) : Block := dropPieces (settleTile b h) h segs

/-! ## Atomics (01 R16; 06 R207) -/

/-- The new value of an 8-byte target: 0 FETCH_ADD, 1 CMP_SWAP, 2 SWAP. -/
def atomicValue (aop old operand compare : Nat) : Nat :=
  match aop with
  | 0 => (old + operand) % 2 ^ 64
  | 1 => if old = compare then operand else old
  | _ => operand

/-- One indivisible read-modify-write in package memory: the original value. -/
def atomicAt (b : Block) (pa aop operand compare : Nat) : Block × Nat :=
  let old := readMem b pa 8
  let new := atomicValue aop old operand compare
  if aop = 1 && old ≠ compare then (b, old)
  else (present b (.memWrite pa ⟨8, new⟩ 0), old)

end Sys2Proof.Machine
end

