-- ==== Sys2Proof/Machine/Float.lean ====
section
/-! DEFINITION. Floating-point formats and arithmetic: exact values, rounding, binary32 operations, the wire formats and
the output cast's conversions (08 R254-R260, R272-R274). -/

namespace Sys2Proof.Machine

/-! ## Exact values -/

/-- A floating-point value: NaN, an infinity, or ± m × 2^e (a zero keeps its sign). -/
inductive FVal where
  | nan
  | inf (neg : Bool)
  | fin (neg : Bool) (m : Nat) (e : Int)
deriving DecidableEq, Repr

/-- A format: exponent and fraction widths, bias, and whether the top exponent holds Inf and NaN. -/
structure Fmt where
  ew : Nat
  mw : Nat
  bias : Nat
  ieee : Bool
deriving DecidableEq, Repr

def f32 : Fmt := ⟨8, 23, 127, true⟩
def f16 : Fmt := ⟨5, 10, 15, true⟩
def bf16 : Fmt := ⟨8, 7, 127, true⟩
def e4m3 : Fmt := ⟨4, 3, 7, false⟩
def e5m2 : Fmt := ⟨5, 2, 15, true⟩
def e2m3 : Fmt := ⟨2, 3, 1, false⟩
def e3m2 : Fmt := ⟨3, 2, 3, false⟩
def e2m1 : Fmt := ⟨2, 1, 1, false⟩

def Fmt.width (f : Fmt) : Nat := 1 + f.ew + f.mw

/-- E4M3 alone has a NaN without an infinity: code 0x7F. -/
def Fmt.isE4m3 (f : Fmt) : Bool := f.ew == 4

/-- The code of the largest finite magnitude. -/
def Fmt.maxCode (f : Fmt) : Nat :=
  if f.ieee then (2 ^ f.ew - 1) * 2 ^ f.mw - 1 else if f.isE4m3 then 0x7E else 2 ^ (f.ew + f.mw) - 1

def Fmt.infCode (f : Fmt) : Nat := (2 ^ f.ew - 1) * 2 ^ f.mw

/-- The NaN the casts write (R272); 0x7FC0_0000 in binary32 (R258). -/
def Fmt.nanCode (f : Fmt) : Nat := if f.ieee then f.infCode + 2 ^ (f.mw - 1) else 0x7F

/-- The value of a code. -/
def decodeF (f : Fmt) (c : Nat) : FVal :=
  let neg := c.testBit (f.ew + f.mw)
  let mag := c % 2 ^ (f.ew + f.mw)
  let e := mag >>> f.mw
  let fr := mag % 2 ^ f.mw
  if f.ieee && f.infCode < mag then .nan
  else if f.ieee && mag = f.infCode then .inf neg
  else if f.isE4m3 && mag = 0x7F then .nan
  else if e = 0 then .fin neg fr (1 - (f.bias : Int) - f.mw)
  else .fin neg (fr + 2 ^ f.mw) ((e : Int) - f.bias - f.mw)

/-! ## Rounding -/

/-- How a value is rounded: to nearest even, or stochastically with 16 random bits (R274). -/
inductive Round where
  | even
  | random (r : Nat)
deriving DecidableEq, Repr

/-- m / 2^s rounded to an integer. -/
def roundShift (rm : Round) (m s : Nat) : Nat :=
  let keep := m >>> s
  let rem := m % 2 ^ s
  match rm with
  | .even =>
    if 2 ^ s < 2 * rem || (2 * rem = 2 ^ s && s ≠ 0 && keep % 2 = 1) then keep + 1 else keep
  | .random r => if 2 ^ 16 ≤ (rem <<< 16) >>> s + r then keep + 1 else keep

/-- The magnitude code of m × 2^e rounded into a format, beyond `maxCode` where it overflows. -/
def magCode (f : Fmt) (rm : Round) (m : Nat) (e : Int) : Nat :=
  if m = 0 then 0
  else
    let top : Int := e + Nat.log2 m
    let emin : Int := 1 - (f.bias : Int)
    let q : Int := max top emin - f.mw
    let keep := if q ≤ e then m <<< (e - q).toNat else roundShift rm m (q - e).toNat
    if q = emin - f.mw then keep else (q + f.mw + f.bias).toNat * 2 ^ f.mw + (keep - 2 ^ f.mw)

def signed (f : Fmt) (neg : Bool) (mag : Nat) : Nat := mag + (ofBool neg <<< (f.ew + f.mw))

/-! ## binary32 arithmetic (R258) -/

def nan32 : Nat := 0x7FC00000

/-- A binary32 result rounded to nearest even; overflow gives Inf. -/
def round32 : FVal → Nat
  | .nan => nan32
  | .inf n => signed f32 n f32.infCode
  | .fin n m e =>
    let c := magCode f32 .even m e
    signed f32 n (min c f32.infCode)

def val32 (c : Nat) : FVal := decodeF f32 c

def negV : FVal → FVal
  | .nan => .nan
  | .inf n => .inf !n
  | .fin n m e => .fin (!n) m e

/-- The exact sum of two values; an exact zero sum of unlike signs is +0. -/
def addV (a b : FVal) : FVal :=
  match a, b with
  | .nan, _ => .nan
  | _, .nan => .nan
  | .inf n, .inf k => if n = k then .inf n else .nan
  | .inf n, _ => .inf n
  | _, .inf n => .inf n
  | .fin n m e, .fin k l d =>
    let lo := min e d
    let x : Int := (if n then -1 else 1) * ((m <<< (e - lo).toNat : Nat) : Int)
    let y : Int := (if k then -1 else 1) * ((l <<< (d - lo).toNat : Nat) : Int)
    let s := x + y
    if s = 0 then .fin (n && k) 0 lo else .fin (s < 0) s.natAbs lo

def mulV (a b : FVal) : FVal :=
  match a, b with
  | .nan, _ => .nan
  | _, .nan => .nan
  | .inf n, .inf k => .inf (n != k)
  | .inf n, .fin k l _ => if l = 0 then .nan else .inf (n != k)
  | .fin n m _, .inf k => if m = 0 then .nan else .inf (n != k)
  | .fin n m e, .fin k l d => .fin (n != k) (m * l) (e + d)

def fAdd (a b : Nat) : Nat := round32 (addV (val32 a) (val32 b))
def fSub (a b : Nat) : Nat := round32 (addV (val32 a) (negV (val32 b)))
def fMul (a b : Nat) : Nat := round32 (mulV (val32 a) (val32 b))
/-- a × b + c with one rounding. -/
def fFma (a b c : Nat) : Nat := round32 (addV (mulV (val32 a) (val32 b)) (val32 c))

def isNan32 (c : Nat) : Bool := f32.infCode < c % 2 ^ 31

/-- The order of binary32 numbers with −0 below +0: a signed key. -/
def key32 (c : Nat) : Int := if c.testBit 31 then -1 - ((c % 2 ^ 31 : Nat) : Int) else ((c % 2 ^ 31 : Nat) : Int)

def fMax (a b : Nat) : Nat := if isNan32 a || isNan32 b then nan32 else if key32 a < key32 b then b else a
def fMin (a b : Nat) : Nat := if isNan32 a || isNan32 b then nan32 else if key32 b < key32 a then b else a

/-! ## Conversions (R257, R272) -/

/-- A value converted into a format under a rounding: the code and whether it saturated. A finite value never becomes
Inf; Inf stays Inf only in FP16, BF16 and E5M2; a NaN takes the format's code (0 where it has none). -/
def castV (f : Fmt) (rm : Round) : FVal → Nat × Bool
  | .nan => (if f.ieee || f.isE4m3 then f.nanCode else 0, false)
  | .inf n => if f.ieee && f.mw != 23 then (signed f n f.infCode, false) else (signed f n f.maxCode, true)
  | .fin n m e =>
    let c := magCode f rm m e
    if f.maxCode < c then (signed f n f.maxCode, true) else (signed f n c, false)

/-- An element of a non-MX floating-point format as binary32 (exact). -/
def widen (f : Fmt) (c : Nat) : Nat := round32 (decodeF f c)

/-- An MX element times 2^(scale − 127) as binary32 (R257). -/
def widenMx (f : Fmt) (scale c : Nat) : Nat :=
  if scale = 0xFF then nan32
  else match decodeF f c with
    | .fin n m e => round32 (.fin n m (e + scale - 127))
    | .inf n => round32 (.inf n)
    | .nan => nan32

/-- The 16 random bits of element `i` (R274). -/
def randomBits (seed i : Nat) : Nat :=
  let w := 2 ^ 32
  let x := seed ^^^ (i * 0x9E3779B9 % w)
  let x := (x ^^^ (x >>> 16)) * 0x85EBCA6B % w
  let x := (x ^^^ (x >>> 13)) * 0xC2B2AE35 % w
  let x := x ^^^ (x >>> 16)
  x >>> 16

/-! ## Wire formats (R254, Table 8-3) -/

/-- The element format of a floating-point wire format. -/
def wireFmt : Nat → Fmt
  | 0 => f32 | 1 => f16 | 2 => bf16 | 3 => e4m3 | 4 => e5m2 | 5 => e4m3 | 6 => e5m2 | 7 => e2m3 | 8 => e3m2 | _ => e2m1

def isMx (w : Nat) : Bool := 5 ≤ w && w ≤ 9
def isFloatFmt (w : Nat) : Bool := w ≤ 9
def isIntFmt (w : Nat) : Bool := 0xA ≤ w && w ≤ 0xC

/-- Bytes of an element on the wire. -/
def wireWidth : Nat → Nat
  | 0 => 4 | 1 => 2 | 2 => 2 | 0xB => 4 | 0xC => 8 | _ => 1

/-- Elements per full packet. -/
def perPacket (w : Nat) : Nat := if isMx w then 3968 else 4096 / wireWidth w

/-- Integer element sign-extended to `aw` bytes (R257). -/
def widenInt (w aw c : Nat) : Nat := ofSigned (8 * aw) (toSigned (8 * wireWidth w) c)

/-- Element `k` of a packet's payload converted to the accumulate format: binary32 bits, or a two's complement integer
of `aw` bytes. -/
def wireElement (w aw payload k : Nat) : Nat :=
  if isMx w then
    widenMx (wireFmt w) (byteOf payload (k / 32)) (byteOf payload (128 + k) % 2 ^ (wireFmt w).width)
  else
    let n := wireWidth w
    let c := slice payload (k * n) n
    if isIntFmt w then widenInt w aw c else widen (wireFmt w) c

/-! ## Accumulation (R258-R260) -/

/-- One FP32 accumulate: 0 SUM, 1 MAX, 2 MIN, 3 SCALED_SUM. -/
def acc32 (op scale a x : Nat) : Nat :=
  match op with
  | 0 => fAdd a x
  | 1 => fMax a x
  | 2 => fMin a x
  | _ => fFma scale x a

/-- The compensated accumulate of R259 on (s, c), s in the low 32 bits. -/
def accPair (op scale a x : Nat) : Nat :=
  let x := if op = 3 then fMul scale x else x
  let s := bits a 0 32
  let c := bits a 32 32
  let t := fAdd s x
  let z := fSub t s
  let e := fAdd (fSub s (fSub t z)) (fSub x z)
  t + (fAdd c e <<< 32)

/-- Integer SUM wraps; MAX and MIN are signed. -/
def accInt (op aw a x : Nat) : Nat :=
  match op with
  | 1 => if toSigned (8 * aw) a < toSigned (8 * aw) x then x else a
  | 2 => if toSigned (8 * aw) x < toSigned (8 * aw) a then x else a
  | _ => (a + x) % 2 ^ (8 * aw)

/-- Accumulate by ACC_FMT: 0 FP32, 1 FP32_PAIR, 2 INT32, 3 INT64. -/
def accumulate (acc op scale a x : Nat) : Nat :=
  match acc with
  | 0 => acc32 op scale a x
  | 1 => accPair op scale a x
  | 2 => accInt op 4 a x
  | _ => accInt op 8 a x

/-- The value that the output cast converts: (s, c) is first formed as s + c (R272). -/
def accValue (acc a : Nat) : Nat := if acc = 1 then fAdd (bits a 0 32) (bits a 32 32) else a

/-! ## The output cast (R272, R273) -/

/-- An output element of a non-MX format: its code, whether it is NaN and whether it saturated. -/
def castElement (out acc a : Nat) (rm : Round) : Nat × Bool × Bool :=
  let v := accValue acc a
  if isIntFmt out then
    let aw := if acc = 2 then 4 else 8
    let w := 8 * wireWidth out
    let x := toSigned (8 * aw) v
    let hi : Int := 2 ^ (w - 1) - 1
    let y := if hi < x then hi else if x < -hi - 1 then -hi - 1 else x
    (ofSigned w y, false, y != x)
  else
    let f := wireFmt out
    let rm := if out = 0 then .even else rm
    let (c, s) := castV f rm (val32 v)
    (c, isNan32 v, s)

/-- The exponent of the largest finite power of two of an MX element format (R273). -/
def mxEmax : Nat → Int
  | 5 => 8 | 6 => 15 | 7 => 2 | 8 => 4 | _ => 2

/-- ⌊log₂ |x|⌋ of a finite non-zero binary32. -/
def ilog32 (c : Nat) : Int :=
  match val32 c with
  | .fin _ m e => e + Nat.log2 m
  | _ => 0

def isInf32 (c : Nat) : Bool := c % 2 ^ 31 == f32.infCode

/-- The scale of a block of binary32 values, and its kind: 0xFF with zero elements for a NaN or an Inf, 0x7F with zero
elements for all zeros (R273). -/
def mxScale (out : Nat) (xs : List Nat) : Nat × Bool :=
  if xs.any fun x => isNan32 x || isInf32 x then (0xFF, false)
  else if xs.all fun x => x % 2 ^ 31 == 0 then (0x7F, false)
  else
    let top := (xs.filter fun x => x % 2 ^ 31 != 0).foldl (fun m x => max m (ilog32 x)) (-200)
    let k := max (-127) (min 127 (top - mxEmax out))
    ((k + 127).toNat, true)

/-- An MX element: x × 2^-k converted under R272. -/
def mxElement (out scale x : Nat) (rm : Round) : Nat × Bool :=
  match val32 x with
  | .fin n m e => castV (wireFmt out) rm (.fin n m (e - scale + 127))
  | v => castV (wireFmt out) rm v

end Sys2Proof.Machine
end

