-- ==== Sys2Proof/Machine/Operands.lean ====
section
/-! DEFINITION. The operand forms of the runner programs' instructions: words, registers, constants and a lane's state
(09 R280-R283, Tables 9-2 and 9-4). -/

namespace Sys2Proof.Machine

/-! ## Instruction words (Table 9-4) -/

/-- The word of an operation with its fields. -/
def runnerWord (opc : Nat) (o : RunnerOp) : Nat :=
  (opc <<< 26) + (o.pg <<< 24) + (ofBool o.pn <<< 23) + (o.vd <<< 18) + (o.sa <<< 13) + (o.sb <<< 6) + (o.sc <<< 1)

def wordOpc (w : Nat) : Nat := bits w 26 6

/-- The fields of a word. -/
def wordOp (w : Nat) : RunnerOp := ⟨bits w 24 2, bitAt w 23, bits w 18 5, bits w 13 5, bits w 6 7, bits w 1 5⟩

/-! ## Program images (Table 9-2) -/

def progCount (img : Nat) : Nat := slice img 8 2
def progWb (img : Nat) : Bool := bitAt (slice img 6 1) 0
def progScalar (img : Nat) : Nat := slice img 5 1
def progKind (img : Nat) : Nat := slice img 4 1

/-- Constant k`m`. -/
def progConst (img m : Nat) : Nat := slice img (16 + 4 * m) 4

/-- Instruction word `n`. -/
def progWord (img n : Nat) : Nat := slice img (272 + 4 * n) 4

/-- The number of a program's BAR, if it has one. -/
def progBar (img : Nat) : Option Nat := (List.range (progCount img)).find? fun n => wordOpc (progWord img n) == 0x3C

/-! ## Lanes (R280, R283) -/

/-- Register v`n`. -/
def Lane.reg (l : Lane) (n : Nat) : Nat := l.regs.getD n 0

def Lane.setReg (l : Lane) (n v : Nat) : Lane := { l with regs := l.regs.set n v }

/-- A lane at the start of an element: registers zero but for those preset, predicates false but for p0. -/
def blankLane (active : Bool) (presets : List (Nat × Nat)) : Lane :=
  presets.foldl (fun l p => l.setReg p.1 p.2) ⟨List.replicate 32 0, 1, active⟩

/-- Operand *a*. -/
def opA (l : Lane) (o : RunnerOp) : Nat := l.reg o.sa

/-- Operand *b*: a register, or a constant where SB[6] is set (SB, Table 9-4). -/
def opB (img : Nat) (l : Lane) (o : RunnerOp) : Nat :=
  if bitAt o.sb 6 then progConst img (bits o.sb 0 6) else l.reg (bits o.sb 0 5)

/-- Operand *c*. -/
def opC (l : Lane) (o : RunnerOp) : Nat := l.reg o.sc

end Sys2Proof.Machine
end

