-- ==== Sys2Proof/Machine/Flags.lean ====
section
/-! DEFINITION. The predicates of the runner programs: guards, the conditions of FCMP and ICMP, and the operations of PLOG
(09 R283, Table 9-5). -/

namespace Sys2Proof.Machine

/-- Predicate p`n`; p0 always reads true. -/
def Lane.pred (l : Lane) (n : Nat) : Bool := n == 0 || bitAt l.preds n

/-- Writes a predicate; p0 stays true. -/
def Lane.setPred (l : Lane) (n : Nat) (v : Bool) : Lane := if n = 0 then l else { l with preds := setBit l.preds n v }

/-- Does the instruction run in this lane: an active element whose guard holds (R283, R290)? -/
def Lane.guarded (l : Lane) (o : RunnerOp) : Bool := l.active && (l.pred o.pg != o.pn)

/-- The order of two binary32 numbers as real values: −0 equals +0. -/
def order32 (a : Nat) : Int := if a % 2 ^ 31 = 0 then 0 else key32 a

/-- The conditions of FCMP: NE and UN are true when unordered, the others false. -/
def condF (cond a b : Nat) : Bool :=
  let un := isNan32 a || isNan32 b
  let x := order32 a
  let y := order32 b
  match cond with
  | 0 => !un && x == y
  | 1 => un || x != y
  | 2 => !un && decide (x < y)
  | 3 => !un && decide (x ≤ y)
  | 4 => !un && decide (y < x)
  | 5 => !un && decide (y ≤ x)
  | 6 => un
  | _ => !un

/-- The conditions of ICMP: 0 to 5 signed, 6 and 7 unsigned. -/
def condI (cond a b : Nat) : Bool :=
  let x := toSigned 32 a
  let y := toSigned 32 b
  match cond with
  | 0 => x == y
  | 1 => x != y
  | 2 => decide (x < y)
  | 3 => decide (x ≤ y)
  | 4 => decide (y < x)
  | 5 => decide (y ≤ x)
  | 6 => decide (a < b)
  | _ => decide (b ≤ a)

/-- The operations of PLOG: 0 AND, 1 OR, 2 XOR, 3 ANDN, 4 NOT pa. -/
def predOp (op : Nat) (p q : Bool) : Bool :=
  match op with
  | 0 => p && q
  | 1 => p || q
  | 2 => p != q
  | 3 => p && !q
  | _ => !p

end Sys2Proof.Machine
end

