-- ==== Sys2Proof/Machine/Group.lean ====
section
/-! DEFINITION. Reduction groups: records and their legality, the accumulator image and the ledger, programs and their
versions, and the ends of a group (08 R248-R256, R261, R271, R277; 09 R304). -/

namespace Sys2Proof.Machine

/-! ## The group record (Table 8-1) -/

def gOutVa (r : Nat) : Nat := bits r 448 52
def gLocalVa (r : Nat) : Nat := bits r 384 52
def gStatusVa (r : Nat) : Nat := bits r 320 52
def gSeed (r : Nat) : Nat := bits r 288 32
def gScale (r : Nat) : Nat := bits r 256 32
def gElements (r : Nat) : Nat := bits r 224 32
def gContribBytes (r : Nat) : Nat := bits r 192 32
def gKey (r : Nat) : Nat := bits r 156 18
def gCount (r : Nat) : Nat := bits r 144 12 + 1
def gGcx (r : Nat) : Nat := bits r 128 10
def gCmpProg (r : Nat) : Nat := bits r 120 8
def gArrProg (r : Nat) : Nat := bits r 112 8
def gVec (r : Nat) : Nat := bits r 98 6
def gIrq (r : Nat) : Bool := bitAt r 97
def gLocal (r : Nat) : Bool := bitAt r 96
def gKeep (r : Nat) : Bool := bitAt r 95
def gRandom (r : Nat) : Bool := bitAt r 94
def gOut (r : Nat) : Nat := bits r 90 4
def gAcc (r : Nat) : Nat := bits r 88 2
def gWire (r : Nat) : Nat := bits r 84 4
def gOp (r : Nat) : Nat := bits r 80 4
def gUser (r : Nat) : Nat := bits r 0 32

/-! ## Slots, image and ledger (R256, R261) -/

/-- Elements per slot, slots, accumulate width, ledger row, data part and blocks per page of a group. -/
def gE (r : Nat) : Nat := perPacket (gWire r)
def slots (wire n : Nat) : Nat := (n + perPacket wire - 1) / perPacket wire
def gS (r : Nat) : Nat := slots (gWire r) (gElements r)
def accWidth (acc : Nat) : Nat := if acc = 1 || acc = 3 then 8 else 4
def gA (r : Nat) : Nat := accWidth (gAcc r)
def gL (r : Nat) : Nat := 256 * ((gCount r + 2047) / 2048)
def gD (r : Nat) : Nat := gE r * gA r
def gBlock (r : Nat) : Nat := gL r + gD r
def gP (r : Nat) : Nat := 2 ^ 25 / gBlock r
def gPages (r : Nat) : Nat := (gS r + gP r - 1) / gP r

/-- Elements of slot `j`. -/
def slotElems (r j : Nat) : Nat := min (gE r) (gElements r - j * gE r)

/-- Wire bytes of a packet of `n` elements (R255, R256). -/
def packetBytes (wire n : Nat) : Nat :=
  if n = perPacket wire then 4096
  else if isMx wire then 128 + 64 * (((n + 31) / 32 + 1) / 2)
  else (n * wireWidth wire + 63) / 64 * 64

/-- Wire size of slot `j`. -/
def slotBytes (r j : Nat) : Nat := packetBytes (gWire r) (slotElems r j)

/-- The wire size of `n` elements. -/
def wireBytes (wire n : Nat) : Nat :=
  if n = 0 then 0
  else 4096 * (slots wire n - 1) + packetBytes wire (n - (slots wire n - 1) * perPacket wire)

/-- Offset of slot `j`'s block in the image. -/
def blockOff (r j : Nat) : Nat := 2 ^ 25 * (j / gP r) + (j % gP r) * gBlock r

def imageSize (r : Nat) : Nat := 2 ^ 25 * (gPages r - 1) + (gS r - (gPages r - 1) * gP r) * gBlock r

/-! ## Groups -/

def freshGroup : Group :=
  { st := .idle, prev := .idle, record := none, checked := false, io := [], applied := 0, messages := 0, hits := 0, cached := [],
    pages := [], armedAt := 0, arr := none, cmp := none, localSlot := 0, localIo := [], stage := .rest, streams := [],
    extents := [], disturbed := [], results := [], scalar := 0, lastVa := none, saturated := 0, nans := 0, recordDue := none, ending := none }

def groupKey (pid g : Nat) : Nat := 65536 * pid + g

def group (b : Block) (pid g : Nat) : Group := look b.cru.groups freshGroup (groupKey pid g)

def setGroup (b : Block) (pid g : Nat) (x : Group) : Block :=
  { b with cru := { b.cru with groups := store b.cru.groups freshGroup (groupKey pid g) x } }

def onGroup (b : Block) (pid g : Nat) (f : Group → Group) : Block := setGroup b pid g (f (group b pid g))

def gCode : GState → Nat
  | .idle => 0 | .arming => 1 | .armed => 2 | .completing => 3 | .done => 4 | .aborted => 5

/-- ARMING, ARMED or COMPLETING. -/
def Group.live (g : Group) : Bool := g.st == .arming || g.st == .armed || g.st == .completing

def Group.r (g : Group) : Nat := g.record.getD 0

/-- ARMING, and the record of the new round not yet checked. -/
def Group.unread (g : Group) : Bool := g.st == .arming && !g.checked

def groupLimit (b : Block) (pid : Nat) : Nat := rd b (0x6100 + pid) 0x40

/-- The body of a GROUP record (13 Table 13-3). -/
def groupBody (g : Nat) (x : Group) : Bytes :=
  ⟨16, g + (gCode x.st <<< 16) + ((if x.unread then 0 else gUser x.r) <<< 32)⟩

/-- The state of a group changes, and the partner learns of it (13 Table 13-3, kind 0x06). -/
def groupState (b : Block) (pid g : Nat) (st : GState) : Block :=
  let x := { group b pid g with st := st }
  mirrorNote (setGroup b pid g x) 6 pid g (groupBody g x)

/-- The context of a group's addresses. -/
def groupCtx (b : Block) (pid r : Nat) : Ctx := ctxNow b pid (gGcx r)

def groupAsker (k : ReqKind) (pid g x : Nat) : Asker := ⟨⟨k, groupKey pid g, x⟩, 5, g⟩

/-- The groups that exist (are listed), as partition and number. -/
def allGroups (b : Block) : List (Nat × Nat × Group) := b.cru.groups.map fun e => (e.1 / 65536, e.1 % 65536, e.2)

/-! ## Programs (09 R304, R305) -/

def progKey (pid p : Nat) : Nat := pid * 256 + p

def program (b : Block) (pid p : Nat) : Option Version := find? b.cru.progs (progKey pid p)

/-- The version that a group in ARMING, ARMED or COMPLETING uses of program `p`, by serial. -/
def usedBy (pid p : Nat) (e : Nat × Nat × Group) : List Nat :=
  if e.1 = pid && e.2.2.live && !e.2.2.unread then
    (if gArrProg e.2.2.r = p then e.2.2.arr.toList.map (·.serial) else [])
      ++ (if gCmpProg e.2.2.r = p then e.2.2.cmp.toList.map (·.serial) else [])
  else []

/-- The version places held: the current version and those in use. -/
def versionsHeld (b : Block) (pid p : Nat) : List Nat :=
  (((program b pid p).toList.map (·.serial)) ++ (allGroups b).flatMap (usedBy pid p)).eraseDups

/-! ## Legality of a record (Tables 8-2, 8-5) -/

/-- Byte offsets at which the reserved fields with a bit set begin. -/
def reservedOffsets (r : Nat) : List Nat :=
  ([(32, 48), (104, 8), (138, 6), (174, 18), (372, 12), (436, 12), (500, 12)].filter fun (lo, w) => bits r lo w != 0).map
    (·.1 / 8)

/-- Byte offsets of fields that are out of range, break Table 8-2 or are misaligned. -/
def fieldOffsets (r : Nat) : List Nat :=
  let w := gWire r
  let a := gAcc r
  let out := gOut r
  let wBad := 0xC < w || 3 < gOp r
  let float := w ≤ 9
  let aBad := if float then 1 < a else if w = 0xC then a ≠ 3 else a < 2
  let opBad := if float then a = 1 && (gOp r = 1 || gOp r = 2) else gOp r = 3
  let oBad := out ≠ 0xF && (if float then 9 < out else out < 0xA || 0xC < out)
  let n := gElements r
  (if wBad then [10] else if aBad then [11] else if opBad then [10] else [])
    ++ (if oBad then [11] else [])
    ++ (if gVec r = 0 then [12] else [])
    ++ (if !wBad && gContribBytes r ≠ wireBytes w n then [24] else [])
    ++ (if n = 0 || ((isMx w || (out ≠ 0xF && isMx out)) && n % 32 ≠ 0) then [28] else [])
    ++ (if gStatusVa r % 64 ≠ 0 then [40] else [])
    ++ (if gLocal r && gLocalVa r % 4096 ≠ 0 then [48] else [])
    ++ (if out ≠ 0xF && gOutVa r % 64 ≠ 0 then [56] else [])

/-- The first offending byte of a record. -/
def recordFault (r : Nat) : Option Nat :=
  match reservedOffsets r ++ fieldOffsets r with
  | [] => none
  | h :: t => some (t.foldl min h)

/-- The key check of Table 8-5. -/
def keyFits (b : Block) (pid r : Nat) : Bool :=
  let p := part b pid
  let k := key b (p.keyBase + gKey r)
  gKey r < p.keyCount && k.st == .valid && k.pid == pid && bitAt k.rights 1 && k.cx == gGcx r && k.base % 2 ^ 25 == 0
    && imageSize r ≤ k.len

/-- A named program is loaded and of the right kind. -/
def progFits (b : Block) (pid p kind : Nat) : Bool :=
  p == 0 || (match program b pid p with
    | some v => progKind v.image.val == kind
    | none => false)

/-- Base address of a group's image: that of its key. -/
def imageBase (b : Block) (pid r : Nat) : Nat := (key b ((part b pid).keyBase + gKey r)).base

/-! ## The completion record (R270, R271) -/

/-- Table 8-10. -/
def completionRecord (b : Block) (x : Group) (st : Status) : Nat :=
  let r := x.r
  (x.scalar <<< 448) + ((x.applied % 2 ^ 64) <<< 384) + ((x.nans % 2 ^ 32) <<< 352) + ((x.saturated % 2 ^ 32) <<< 320)
    + ((x.hits % 2 ^ 32) <<< 288) + (gUser r <<< 256) + (((b.clk.now - x.armedAt) % 2 ^ 64) <<< 192)
    + ((x.messages % 2 ^ 32) <<< 160) + (statusCode st <<< 56) + 1

/-- Writes a record that is due; a translation that waits keeps it due. None: it was refused. -/
def writeRecord (b : Block) (pid g rec : Nat) : Block × Option Status :=
  let r := (group b pid g).r
  match writeNow b (groupAsker .groupRecordOut pid g 0) (groupCtx b pid r) (gStatusVa r) ⟨64, rec⟩ 0 2 with
  | (b, .wait) => (onGroup b pid g fun x => { x with recordDue := some rec }, some .ok)
  | (b, .failed st _) => (onGroup b pid g fun x => { x with recordDue := none }, some st)
  | (b, .issued _) => (onGroup b pid g fun x => { x with recordDue := none }, none)

/-! ## Ends of a group (R276, R277, Table 8-12) -/

/-- Does a holder belong to the group's own requests? -/
def groupHolder (pid g : Nat) (h : Holder) : Bool :=
  h.a == groupKey pid g && (h.kind == .groupRecord || h.kind == .localSlot || h.kind == .castOut
    || h.kind == .groupRecordOut || h.kind == .streamTable)

/-- The programs of a group stop at every station. -/
def dropJobs (b : Block) (pid g : Nat) : Block :=
  { b with cru := { b.cru with jobs := (b.cru.jobs.map fun e =>
      (e.1, e.2.filter fun j => !(j.pid == pid && j.group == g))).filter fun e => !e.2.isEmpty } }

/-- Writes the record of a group that failed. -/
def failRecord (b : Block) (pid g : Nat) (st : Status) : Block :=
  let x := group b pid g
  if x.record.isNone then b else (writeRecord b pid g (completionRecord b { x with scalar := 0, nans := 0, saturated := 0 } st)).1

/-- A group becomes ABORTED: counted, its requests and programs dropped; a GROUP_ARM still under way finishes STATE. -/
def stopGroup (b : Block) (pid g : Nat) : Block :=
  let x := group b pid g
  let b := count (count b 0x6000 9) (0x6100 + pid) 0x43
  let b := dropJobs (dropHolders b (groupHolder pid g)) pid g
  let b := setGroup b pid g { x with
    record := if x.unread then none else x.record, checked := true
    io := [], localIo := [], stage := .rest, streams := [], extents := [] }
  let b := groupState b pid g .aborted
  match pendingCmd b (0x6100 + pid) 1 with
  | some c => if c.arg = g && x.st == .arming then finishCmd b (0x6100 + pid) 1 .state 0 else b
  | none => b

/-- Of two causes that end a group, the one R32 chooses (R277). -/
def joinEnd (a b : Status × Bool) : Status × Bool := if statusRank b.1 < statusRank a.1 then b else a

/-- A group ends outside R269: the record is written where `out` says so, and the vector is raised (R277; Table 8-1, IRQ:
always on failure). A cause that meets a group under GROUP_ABORT joins in its status. -/
def endGroup (b : Block) (pid g : Nat) (st : Status) (out : Bool) : Block :=
  let x := group b pid g
  if x.live then
    let b := stopGroup b pid g
    let b := if out then failRecord b pid g st else b
    let x := group b pid g
    if x.record.isSome then msixPart b pid (gVec x.r) else b
  else match x.ending with
    | some e => setGroup b pid g { x with ending := some (joinEnd e (st, out)) }
    | none => b

/-- Every group a predicate selects ends. -/
def endGroups (b : Block) (p : Nat → Nat → Group → Bool) (st : Status) (out : Bool) : Block :=
  ((allGroups b).filter fun e => (e.2.2.live || e.2.2.ending.isSome) && p e.1 e.2.1 e.2.2).foldl
    (fun b e => endGroup b e.1 e.2.1 st out) b

/-- The Memory Station that holds a page of an image, if it lies in local package memory. -/
def pageStation : Option Nat → Option Nat
  | some pa => some (bits pa 36 5)
  | none => none

/-- Does station `ms` hold a page of the group's image? -/
def Group.onStation (x : Group) (ms : Nat) : Bool := x.pages.any fun p => pageStation p == some ms

end Sys2Proof.Machine
end

