-- ==== Sys2Proof/Machine/Special.lean ====
section
/-! DEFINITION. The special functions of the runner programs: the results Table 9-6 fixes, the bounds it gives, and the
result rounded to nearest even (09 R286, R293). -/

namespace Sys2Proof.Machine

/-! ## Exact comparisons -/

/-- |x| ≤ |y| for finite values (false where one is not finite). -/
def leMag (x y : FVal) : Bool :=
  match x, y with
  | .fin _ m e, .fin _ l d =>
    let lo := min e d
    decide (m <<< (e - lo).toNat ≤ l <<< (d - lo).toNat)
  | _, _ => false

def subV (a b : FVal) : FVal := addV a (negV b)

def pow2V (e : Int) : FVal := .fin false 1 e

def isNeg : FVal → Bool
  | .fin n m _ => n && m != 0
  | .inf n => n
  | .nan => false

def isZeroV : FVal → Bool
  | .fin _ m _ => m == 0
  | _ => false

/-- x ≤ y for finite values. -/
def leV (x y : FVal) : Bool := isNeg (subV x y) || isZeroV (subV x y)

/-- The ulp of a value whose ⌊log₂⌋ is `k`, as an exponent. -/
def ulpExp (k : Int) : Int := max k (-126) - 23

/-- The largest r with r² ≤ n, bit by bit from bit `k - 1` down. -/
def isqrtFrom (n : Nat) : Nat → Nat → Nat
  | 0, r => r
  | k + 1, r => isqrtFrom n k (if (r + 2 ^ k) * (r + 2 ^ k) ≤ n then r + 2 ^ k else r)

def isqrt (n : Nat) : Nat := isqrtFrom n (Nat.log2 n / 2 + 1) 0

def isPow2 (m : Nat) : Bool := m == 2 ^ Nat.log2 m

/-- m × 2^e with an even exponent. -/
def evenExp (m : Nat) (e : Int) : Nat × Int := if e % 2 = 0 then (m, e) else (2 * m, e - 1)

/-! ## Reciprocal -/

/-- ⌊log₂ (1 / (m × 2^e))⌋. -/
def rcpLog (m : Nat) (e : Int) : Int := -e - Nat.log2 m - (if isPow2 m then 0 else 1)

/-- 1 / x rounded to nearest even. -/
def rcpRound (n : Bool) (m : Nat) (e : Int) : Nat :=
  let q := 2 ^ (Nat.log2 m + 60) / m
  let s := if isPow2 m then 0 else 1
  round32 (.fin n (2 * q + s) (-e - Nat.log2 m - 61))

/-- Is the number `v` within 1 ulp of 1 / x? -/
def rcpOk (x : FVal) (v : Nat) : Bool :=
  match x with
  | .fin _ m e =>
    leMag (subV (mulV (val32 v) x) (.fin false 1 0)) (.fin false m (e + ulpExp (rcpLog m e)))
  | _ => false

/-- The result RCP must give, where it is fixed. -/
def rcpFixed : FVal → Option Nat
  | .nan => some nan32
  | .inf n => some (signed f32 n 0)
  | .fin n m e =>
    if m = 0 then some (signed f32 n f32.infCode)
    else if isPow2 m || 128 ≤ rcpLog m e then some (rcpRound n m e) else none

def rcpNear : FVal → Nat
  | .fin n m e => rcpRound n m e
  | _ => nan32

/-! ## Square root and its reciprocal -/

def sqrtRound (m : Nat) (e : Int) : Nat :=
  let (m, e) := evenExp m e
  let k := 2 ^ 120 * m
  let r := isqrt k
  round32 (.fin false (2 * r + (if r * r = k then 0 else 1)) (e / 2 - 61))

/-- SQRT: correctly rounded. -/
def sqrtFixed : FVal → Nat
  | .nan => nan32
  | .inf n => if n then nan32 else signed f32 false f32.infCode
  | .fin n m e => if m = 0 then signed f32 n 0 else if n then nan32 else sqrtRound m e

/-- ⌊log₂ √(m × 2^e)⌋. -/
def sqrtLog (m : Nat) (e : Int) : Int := (e + Nat.log2 m) / 2

/-- Is `v` within 1 ulp of √x? -/
def sqrtOk (x : FVal) (v : Nat) : Bool :=
  match x, val32 v with
  | .fin _ m e, .fin false _ _ =>
    let u := pow2V (ulpExp (sqrtLog m e))
    let lo := subV (val32 v) u
    let hi := addV (val32 v) u
    (isNeg lo || leV (mulV lo lo) x) && leV x (mulV hi hi)
  | _, _ => false

/-- ⌊log₂ (1 / √(m × 2^e))⌋. -/
def rsqrtLog (m : Nat) (e : Int) : Int :=
  let t := e + Nat.log2 m
  (if isPow2 m then -t else -t - 1) / 2

def rsqrtRound (m : Nat) (e : Int) : Nat :=
  let (m, e) := evenExp m e
  let k := 2 ^ (2 * (Nat.log2 m + 60)) / m
  let r := isqrt k
  let s := if r * r * m = 2 ^ (2 * (Nat.log2 m + 60)) then 0 else 1
  round32 (.fin false (2 * r + s) (-(e / 2) - Nat.log2 m - 61))

/-- Is `v` within 1 ulp of 1 / √x? -/
def rsqrtOk (x : FVal) (v : Nat) : Bool :=
  match x, val32 v with
  | .fin _ m e, .fin false _ _ =>
    let u := pow2V (ulpExp (rsqrtLog m e))
    let one : FVal := .fin false 1 0
    let lo := subV (val32 v) u
    let hi := addV (val32 v) u
    (isNeg lo || leV (mulV (mulV lo lo) x) one) && leV one (mulV (mulV hi hi) x)
  | _, _ => false

def rsqrtFixed : FVal → Option Nat
  | .nan => some nan32
  | .inf n => some (if n then nan32 else 0)
  | .fin n m e =>
    if m = 0 then some (signed f32 n f32.infCode)
    else if n then some nan32
    else
      let (m', e') := evenExp m e
      if isPow2 m' && Nat.log2 m' % 2 = 0 then some (rsqrtRound m' e') else none

def rsqrtNear : FVal → Nat
  | .fin _ m e => rsqrtRound m e
  | _ => nan32

/-! ## 2^a and log₂ a, to 100 bits -/

/-- ⌊m × 2^e⌋. -/
def floorV (n : Bool) (m : Nat) (e : Int) : Int :=
  let x : Int := if n then -(m : Int) else m
  if 0 ≤ e then x * 2 ^ e.toNat else x / 2 ^ (-e).toNat

/-- The factor of the fraction bits, from the highest down: `c` is 2^(2^-i) × 2^120. -/
def expFrac (f : Nat) : Nat → Nat → Nat → Nat
  | 0, _, acc => acc
  | k + 1, c, acc => expFrac f k (isqrt (c * 2 ^ 120)) (if f.testBit k then acc * c / 2 ^ 120 else acc)

/-- 2^(f / 2^100) × 2^120 for f below 2^100. -/
def expFix (f : Nat) : Nat := expFrac f 100 (isqrt (2 * 2 ^ 240)) (2 ^ 120)

/-- 2^a to about 100 bits, as a value; `a` finite and in [-150, 128). -/
def exp2V (n : Bool) (m : Nat) (e : Int) : FVal :=
  let w := floorV n m e
  let f := (floorV n m (e + 100) - w * 2 ^ 100).toNat
  .fin false (expFix f) (w - 120)

/-- The bits of log₂ of x / 2^120 in [1, 2), by repeated squaring. -/
def logBits : Nat → Nat → Nat → Nat
  | 0, _, acc => acc
  | k + 1, x, acc =>
    let y := x * x / 2 ^ 120
    if 2 ^ 121 ≤ y then logBits k (y / 2) (2 * acc + 1) else logBits k y (2 * acc)

/-- log₂ (m × 2^e) to about 80 bits. -/
def log2V (m : Nat) (e : Int) : FVal :=
  let t := Nat.log2 m
  let b := logBits 80 (2 ^ 120 * m / 2 ^ t) 0
  let i : Int := (e + t) * 2 ^ 80 + b
  .fin (decide (i < 0)) i.natAbs (-80)

/-- Is `v` within 2^`d` of a value? -/
def nearV (x : FVal) (d : Int) (v : Nat) : Bool := leMag (subV (val32 v) x) (pow2V d)

def logOf : FVal → Int
  | .fin _ m e => if m = 0 then -149 else e + Nat.log2 m
  | _ => 0

def exp2Fixed : FVal → Option Nat
  | .nan => some nan32
  | .inf n => some (if n then 0 else signed f32 false f32.infCode)
  | .fin n m e =>
    let w := floorV n m e
    if 128 ≤ w then some (signed f32 false f32.infCode)
    else if w < -150 then some 0
    else if -149 ≤ w && floorV n m (e + 149) == w * 2 ^ 149 then some (round32 (.fin false 1 w))
    else none

/-- Is `v` within 2 ulp of 2^a (2^-149 below the normal range)? -/
def exp2Ok (x : FVal) (v : Nat) : Bool :=
  match x with
  | .fin n m e =>
    let y := exp2V n m e
    nearV y (if logOf y < -126 then -149 else ulpExp (logOf y) + 1) v && !isNeg (val32 v)
  | _ => false

def exp2Near : FVal → Nat
  | .fin n m e => round32 (exp2V n m e)
  | _ => nan32

def log2Fixed : FVal → Option Nat
  | .nan => some nan32
  | .inf n => some (if n then nan32 else signed f32 false f32.infCode)
  | .fin n m e =>
    if m = 0 then some (signed f32 true f32.infCode)
    else if n then some nan32
    else if isPow2 m then
      let t := e + Nat.log2 m
      some (round32 (.fin (decide (t < 0)) t.natAbs 0))
    else none

/-- Is `v` within 2^-22 of log₂ a for a in [0.5, 2], within 2 ulp elsewhere? -/
def log2Ok (x : FVal) (v : Nat) : Bool :=
  match x with
  | .fin _ m e =>
    let y := log2V m e
    let t := e + Nat.log2 m
    nearV y (if t = -1 || t = 0 then -22 else ulpExp (logOf y) + 1) v
  | _ => false

def log2Near : FVal → Nat
  | .fin _ m e => round32 (log2V m e)
  | _ => nan32

/-! ## binary64 (R292, R293) -/

def f64 : Fmt := ⟨11, 52, 1023, true⟩

def round64 : FVal → Nat
  | .nan => f64.nanCode
  | .inf n => signed f64 n f64.infCode
  | .fin n m e => signed f64 n (min (magCode f64 .even m e) f64.infCode)

def val64 (c : Nat) : FVal := decodeF f64 c

def add64 (a b : Nat) : Nat := round64 (addV (val64 a) (val64 b))

/-- The larger of a scalar and a magnitude; NaN if either is. -/
def maxAbs64 (a b : Nat) : Nat :=
  match val64 a, val64 b with
  | .nan, _ => f64.nanCode
  | _, .nan => f64.nanCode
  | _, _ => if a < b then b else a

end Sys2Proof.Machine
end

