-- ==== Sys2Proof/Machine/Bundle.lean ====
section
/-! DEFINITION. The runner programs' machine: the operations on a bundle's lanes, streams, the scalar accumulator, and a
completion program's progress at a Memory Station (09 R280-R301). -/

namespace Sys2Proof.Machine

/-! ## Operations on one lane (Table 9-5) -/

def w32 : Nat := 2 ^ 32

def fNeg (a : Nat) : Nat := if isNan32 a then nan32 else a ^^^ 2 ^ 31
def fAbs (a : Nat) : Nat := if isNan32 a then nan32 else a % 2 ^ 31
def fClip (a b : Nat) : Nat := fMin (fMax a (fNeg (fAbs b))) (fAbs b)
def iMin (a b : Nat) : Nat := if toSigned 32 b < toSigned 32 a then b else a
def iMax (a b : Nat) : Nat := if toSigned 32 a < toSigned 32 b then b else a
def iSra (a n : Nat) : Nat := ofSigned 32 (toSigned 32 a / (2 ^ n : Nat))

/-- EXPB: ⌊log₂ |a|⌋ with its codes for zero, Inf and NaN. -/
def expB (a : Nat) : Nat :=
  if a % 2 ^ 31 = 0 then 0x80000000
  else if isNan32 a || isInf32 a then 0x7FFFFFFF
  else ofSigned 32 (ilog32 a)

/-- SCALB: a × 2^b rounded once; beyond ±400 the result is Inf or zero already. -/
def scalB (a b : Nat) : Nat :=
  match val32 a with
  | .fin n m e => round32 (.fin n m (e + max (-400) (min 400 (toSigned 32 b))))
  | v => round32 v

/-- F2I: to nearest even, or toward zero, saturating, NaN to 0. -/
def toInt32 (trunc : Bool) (a : Nat) : Nat :=
  match val32 a with
  | .nan => 0
  | .inf n => if n then 0x80000000 else 0x7FFFFFFF
  | .fin n m e =>
    let mag : Nat :=
      if 0 ≤ e then m <<< e.toNat
      else if trunc then m >>> (-e).toNat else roundShift .even m (-e).toNat
    let i : Int := if n then -(mag : Int) else mag
    ofSigned 32 (max (-(2 ^ 31)) (min (2 ^ 31 - 1) i))

/-- I2F: to nearest even. -/
def ofInt32 (a : Nat) : Nat :=
  let i := toSigned 32 a
  round32 (.fin (decide (i < 0)) i.natAbs 0)

/-- CVT 3 to 6: rounded to a value of the format, kept in binary32. -/
def throughFmt (f : Fmt) (a : Nat) : Nat := widen f (castV f .even (val32 a)).1

def cvt (code a : Nat) : Nat :=
  match code with
  | 0 => toInt32 false a
  | 1 => toInt32 true a
  | 2 => ofInt32 a
  | 3 => throughFmt bf16 a
  | 4 => throughFmt f16 a
  | 5 => throughFmt e4m3 a
  | _ => throughFmt e5m2 a

/-- The operations with one result of *a*, *b* and *c*, by opcode. -/
def aluOp (opc a b c : Nat) (sc : Nat) : Option Nat :=
  match opc with
  | 0x01 => some (fAdd a b)
  | 0x02 => some (fSub a b)
  | 0x03 => some (fMul a b)
  | 0x04 => some (fFma a b c)
  | 0x05 => some (fFma (a ^^^ 2 ^ 31) b c)
  | 0x06 => some (fMin a b)
  | 0x07 => some (fMax a b)
  | 0x08 => some (fAbs a)
  | 0x09 => some (fNeg a)
  | 0x0A => some (fClip a b)
  | 0x0B => some b
  | 0x10 => some ((a + b) % w32)
  | 0x11 => some ((a + w32 - b % w32) % w32)
  | 0x12 => some (a * b % w32)
  | 0x13 => some (iMin a b)
  | 0x14 => some (iMax a b)
  | 0x15 => some (a &&& b)
  | 0x16 => some (a ||| b)
  | 0x17 => some (a ^^^ b)
  | 0x18 => some ((a <<< (b % 32)) % w32)
  | 0x19 => some (a >>> (b % 32))
  | 0x1A => some (iSra a (b % 32))
  | 0x2A => some (sqrtFixed (val32 a))
  | 0x30 => some (cvt sc a)
  | 0x32 => some (expB a)
  | 0x33 => some (scalB a b)
  | _ => none

/-- A result that the spec leaves open within a bound: a free value that meets it, else the nearest (R286; log 3). -/
def openResult (b : Block) (fixed : Option Nat) (ok : Nat → Bool) (near : Nat) : Block × Nat :=
  match fixed with
  | some v => (b, v)
  | none =>
    let (d, b) := draw b
    let v := d % 2 ^ 32
    (b, if ok v then v else near)

/-- RCP, RSQRT, EXP2 and LOG2 (R286). -/
def specialOp (b : Block) (opc a : Nat) : Block × Nat :=
  let x := val32 a
  match opc with
  | 0x28 => openResult b (rcpFixed x) (rcpOk x) (rcpNear x)
  | 0x29 => openResult b (rsqrtFixed x) (rsqrtOk x) (rsqrtNear x)
  | 0x2B => openResult b (exp2Fixed x) (exp2Ok x) (exp2Near x)
  | _ => openResult b (log2Fixed x) (log2Ok x) (log2Near x)

/-- One lane runs an instruction that reads and writes registers and predicates alone; a lane whose guard does not hold
keeps everything (R283). -/
def laneStep (b : Block) (img opc : Nat) (o : RunnerOp) (l : Lane) : Block × Lane :=
  if !l.guarded o then (b, l)
  else
    let x := opA l o
    let y := opB img l o
    match aluOp opc x y (opC l o) o.sc with
    | some v => (b, l.setReg o.vd v)
    | none =>
      match opc with
      | 0x20 => (b, l.setPred (o.vd % 4) (condF o.sc x y))
      | 0x21 => (b, l.setPred (o.vd % 4) (condI o.sc x y))
      | 0x22 => (b, l.setReg o.vd (if l.pred (o.sc % 4) then x else y))
      | 0x23 => (b, l.setPred (o.vd % 4) (predOp (o.sb % 8) (l.pred (o.sa % 4)) (l.pred (o.sc % 4))))
      | 0x28 | 0x29 | 0x2B | 0x2C =>
        let (b, v) := specialOp b opc x
        (b, l.setReg o.vd v)
      | _ => (b, l)

/-- BAMAX over the guarded lanes of a bundle: +0 if there are none, NaN if any is NaN. -/
def bundleMax (lanes : List Lane) (o : RunnerOp) : Nat :=
  ((lanes.filter (·.guarded o)).map fun l => fAbs (opA l o)).foldl fMax 0

/-- A bundle runs one instruction of the register kind, lane by lane in element order. -/
def bundleStep (b : Block) (img opc : Nat) (o : RunnerOp) (lanes : List Lane) : Block × List Lane :=
  if opc = 0x31 then
    let m := bundleMax lanes o
    (b, lanes.map fun l => if l.guarded o then l.setReg o.vd m else l)
  else lanes.foldl (fun (b, ls) l => let (b, l) := laneStep b img opc o l; (b, ls ++ [l])) (b, [])

/-- Cost of an opcode in lane cycles (Table 9-5). -/
def runnerCost (opc : Nat) : Nat :=
  if opc = 0x28 || opc = 0x29 || opc = 0x2A || opc = 0x2B || opc = 0x2C then 4
  else if opc = 0x31 then 2 else if opc = 0x3C then 0 else 1

/-- Is the opcode one of Table 9-5? -/
def runnerOpcode (opc : Nat) : Bool :=
  opc ≤ 0x0B || (0x10 ≤ opc && opc ≤ 0x1A) || (0x20 ≤ opc && opc ≤ 0x23) || (0x28 ≤ opc && opc ≤ 0x2C)
    || (0x30 ≤ opc && opc ≤ 0x33) || (0x38 ≤ opc && opc ≤ 0x3C)

/-! ## Streams (R295, R296, R299) -/

def sFmt (e : Nat) : Nat := bits e 120 4
def sLayout (e : Nat) : Nat := bits e 118 2
def sRandom (e : Nat) : Bool := bitAt e 117
def sBase (e : Nat) : Nat := bits e 0 52
def sWidth (e : Nat) : Nat := [4, 2, 2, 1, 1, 4, 1].getD (sFmt e) 4

/-- Offset of element `i` from BASE_VA. -/
def streamOff (r e i : Nat) : Nat :=
  match sLayout e with
  | 0 => i * sWidth e
  | 1 => 2 ^ 25 * ((i / gE r) / gP r) + (((i / gE r) % gP r) * gE r + i % gE r) * sWidth e
  | _ => 0

/-- Length of a stream's extent. -/
def streamExtent (r e : Nat) : Nat :=
  if sLayout e = 2 then 64 else (streamOff r e (gElements r - 1) + sWidth e + 63) / 64 * 64

/-- The physical address at an offset of an extent. -/
def segAt : List Seg → Nat → Option Nat
  | [], _ => none
  | s :: ss, off => if off < s.len then some (s.pa + off) else segAt ss (off - s.len)

/-- What a completion program reads, and writes with WB, of its image: the data parts of the slot blocks, page by page. -/
def imageExtents (x : Group) (wb : Bool) : List Extent :=
  let r := x.r
  (List.range x.pages.length).filterMap fun p => (x.pages.getD p none).map fun pa =>
    let n := min (gP r) (gS r - p * gP r)
    let last := slotElems r (p * gP r + n - 1) * gA r
    ⟨8, wb, pa, (n - 1) * gBlock r + gL r + last, gBlock r, gL r, gD r⟩

/-- The bytes of its elements within an extent, as offsets: one run, or one for each page of an IMAGE stream (R296). -/
def streamRuns (r e : Nat) : List (Nat × Nat) :=
  let n := gElements r
  match sLayout e with
  | 0 => [(0, n * sWidth e)]
  | 1 =>
    let m := gP r * gE r
    (List.range ((n + m - 1) / m)).map fun p => (2 ^ 25 * p, min m (n - p * m) * sWidth e)
  | _ => [(0, sWidth e)]

/-- The physical ranges of a run of offsets of an extent. -/
def runRanges : List Seg → Nat → Nat → List (Nat × Nat)
  | [], _, _ => []
  | s :: ss, lo, len =>
    (match common 0 s.len lo len with
      | some (o, n) => [(s.pa + o, n)]
      | none => []) ++ (if s.len < lo + len then runRanges ss (lo - s.len) (lo + len - max lo s.len) else [])

/-- What a completion program loads or stores through a bound stream. -/
def streamExtents (r : Nat) (stored : Bool) (u : Bound) : List Extent :=
  ((streamRuns r u.entry).flatMap fun e => runRanges u.segs e.1 e.2).map fun e =>
    ⟨u.num, stored, e.1, e.2, e.2, 0, e.2⟩

/-- Are the bytes undefined: written by others while the program runs, or used by another stream too, or by the
accumulator, where one of the two is stored (R300)? `s` is the stream, 8 the accumulator. -/
def undefinedAt (x : Group) (s pa len : Nat) : Bool :=
  let mine := x.extents.any fun e => e.who == s && e.stored
  x.disturbed.any (fun e => (common e.1 e.2 pa len).isSome)
    || x.extents.any fun e => e.who != s && (e.stored || mine) && !(e.hits pa len).isEmpty

/-- A stored element converted by a load. -/
def loadValue (e c : Nat) : Nat :=
  match sFmt e with
  | 0 => c
  | 1 => widen bf16 c
  | 2 => widen f16 c
  | 3 => widen e4m3 c
  | 4 => widen e5m2 c
  | 5 => c
  | _ => ofSigned 32 (toSigned 8 c)

/-- A value converted by a store to element `i` of stream `s`. -/
def storeValue (r e s i a : Nat) : Nat :=
  let rm := if sRandom e then Round.random (randomBits ((gSeed r + s + 1) % w32) i) else .even
  match sFmt e with
  | 0 => (castV f32 .even (val32 a)).1
  | 1 => (castV bf16 rm (val32 a)).1
  | 2 => (castV f16 rm (val32 a)).1
  | 3 => (castV e4m3 rm (val32 a)).1
  | 4 => (castV e5m2 rm (val32 a)).1
  | 5 => a
  | _ => ofSigned 8 (max (-128) (min 127 (toSigned 32 a)))

/-! ## The scalar accumulator (R292, R293) -/

/-- The lane of a station's 128 that element `i` uses. -/
def scalarLane (i : Nat) : Nat := 16 * (i / 32 % 8) + i % 16

/-- One combination: 0 ADD, 1 ADDSQ, 2 MAXABS, 3 COUNT. -/
def scalarCombine (mode p a : Nat) : Nat :=
  match mode with
  | 0 => add64 p (round64 (val32 a))
  | 1 => add64 p (round64 (mulV (val32 a) (val32 a)))
  | 2 => maxAbs64 p (round64 (val32 a) % 2 ^ 63)
  | _ => (p + 1) % 2 ^ 64

/-- Combines partials or station results by SCALAR_KIND. -/
def scalarJoin (kind p q : Nat) : Nat :=
  match kind with
  | 1 => add64 p q
  | 2 => maxAbs64 p q
  | 3 => (p + q) % 2 ^ 64
  | _ => 0

/-- The scalar as a value. -/
def scalarVal (kind s : Nat) : FVal := if kind = 3 then .fin false s 0 else val64 s

/-- LDS: f(scalar), within 1 ulp (R293). -/
def ldsValue (b : Block) (kind s f : Nat) : Block × Nat :=
  let x := scalarVal kind s
  match f with
  | 0 => (b, round32 x)
  | 1 => openResult b (rcpFixed x) (rcpOk x) (rcpNear x)
  | 2 => openResult b (rsqrtFixed x) (rsqrtOk x) (rsqrtNear x)
  | _ =>
    let fixed := match x with
      | .fin n m _ => if m = 0 || n then some (sqrtFixed x) else none
      | _ => some (sqrtFixed x)
    openResult b fixed (sqrtOk x) (sqrtFixed x)

/-! ## A completion program at a station (R290) -/

/-- Why a program fails (Table 9-8): its status, KIND and stream. -/
structure ProgFail where
  st : Status
  kind : Nat
  stream : Nat
deriving DecidableEq, Repr

def jobImg (x : Group) : Nat := (x.cmp.map (·.image.val)).getD 0

/-- The element number of a lane of the job's bundle. -/
def jobElem (r : Nat) (j : Job) (lane : Nat) : Nat := j.slot * gE r + 32 * j.bundle + lane

/-- Physical address of accumulator element `k` of slot `slot`. -/
def accAddr (x : Group) (slot k : Nat) : Nat :=
  let r := x.r
  (x.pages.getD (slot / gP r) none).getD 0 + (slot % gP r) * gBlock r + gL r + k * gA r

/-- Slots of the group that a station holds, from slot `from` on: the first. -/
def nextSlot (x : Group) (ms : Nat) : Nat → Nat → Option Nat
  | _, 0 => none
  | slot, fuel + 1 =>
    if pageStation (x.pages.getD (slot / gP x.r) none) == some ms then some slot else nextSlot x ms (slot + 1) fuel

/-- The registers an element starts with (Table 9-1). -/
def completionPresets (r i v : Nat) : List (Nat × Nat) :=
  match gAcc r with
  | 1 => [(0, fAdd (bits v 0 32) (bits v 32 32)), (30, i % w32)]
  | 3 => [(0, bits v 0 32), (1, bits v 32 32), (30, i % w32)]
  | _ => [(0, v % w32), (30, i % w32)]

/-- Loads the lanes of the job's bundle: each active element's accumulator is read under the station's checks; the
first refusal fails the program (R298, R301). -/
def loadLanes (b : Block) (x : Group) (j : Job) : Block × Except ProgFail Job :=
  let r := x.r
  let one (acc : Block × Except ProgFail (List Lane)) (l : Nat) : Block × Except ProgFail (List Lane) :=
    match acc with
    | (b, .error e) => (b, .error e)
    | (b, .ok ls) =>
      let k := 32 * j.bundle + l
      let i := jobElem r j l
      if slotElems r j.slot ≤ k then (b, .ok (ls ++ [blankLane false []]))
      else
        let pa := accAddr x j.slot k
        match msAdmit b pa (groupCtx b j.pid r) .crucible with
        | (b, some st) => (b, .error ⟨st, 4, 0⟩)
        | (b, none) =>
          if undefinedAt x 8 pa (gA r) then
            let (d, b) := draw b
            (b, .ok (ls ++ [blankLane true (completionPresets r i (d % 2 ^ (8 * gA r)))]))
          else (b, .ok (ls ++ [blankLane true (completionPresets r i (readMem b pa (gA r)))]))
  match (List.range 32).foldl one (b, .ok []) with
  | (b, .error e) => (b, .error e)
  | (b, .ok ls) => (b, .ok { j with lanes := ls })

/-- One access of a completion program: refused by the station it names, or let through (R298). -/
def streamAdmit (b : Block) (j : Job) (r s pa : Nat) : Block × Option ProgFail :=
  match msAdmit b pa (groupCtx b j.pid r) .crucible with
  | (b, some st) => (b, some ⟨st, 4, s⟩)
  | (b, none) => (b, none)

/-- LD of one lane (R296, R299). -/
def loadLane (b : Block) (x : Group) (j : Job) (s : Nat) (u : Bound) (i : Nat) : Block × Except ProgFail Nat :=
  let r := x.r
  match (if sLayout u.entry = 2 then find? j.bcast s else none), segAt u.segs (streamOff r u.entry i) with
  | some v, _ => (b, .ok v)
  | none, none => (b, .ok 0)
  | none, some pa =>
    match streamAdmit b j r s pa with
    | (b, some e) => (b, .error e)
    | (b, none) =>
      if undefinedAt x s pa (sWidth u.entry) then
        let (d, b) := draw b
        (b, .ok (loadValue u.entry (d % 2 ^ (8 * sWidth u.entry))))
      else (b, .ok (loadValue u.entry (readMem b pa (sWidth u.entry))))

/-- ST of one lane (R299). -/
def storeLane (b : Block) (x : Group) (j : Job) (s : Nat) (u : Bound) (i a : Nat) : Block × Option ProgFail :=
  let r := x.r
  let off := streamOff r u.entry i
  match segAt u.segs off with
  | none => (b, none)
  | some pa =>
    match streamAdmit b j r s pa with
    | (b, some e) => (b, some e)
    | (b, none) =>
      let n := sWidth u.entry
      let (v, b) :=
        if undefinedAt x s pa n then
          let (d, b) := draw b
          (d % 2 ^ (8 * n), b)
        else (storeValue r u.entry s i a % 2 ^ (8 * n), b)
      let b := emit (writeMem b pa v n) (.memWrite (localAddr pa) ⟨n, v⟩ 0)
      (onGroup b j.pid j.group fun g => { g with lastVa := some ((sBase u.entry + off) / 64 * 64) }, none)

/-- A bundle runs one instruction of the program (R284). `poison`: a load returns poisoned data. -/
def jobRun (b : Block) (x : Group) (j : Job) (opc : Nat) (o : RunnerOp) (poison : Bool) : Block × Except ProgFail Job :=
  let r := x.r
  let img := jobImg x
  let lanes := (List.range j.lanes.length).zip j.lanes
  match opc with
  | 0x38 =>
    let s := o.sa % 8
    match x.streams.find? (·.num == s) with
    | none => (b, .ok j)
    | some u =>
      if poison then (b, .error ⟨.poison, 4, s⟩)
      else
        let one (acc : Block × Except ProgFail (List Lane)) (e : Nat × Lane) : Block × Except ProgFail (List Lane) :=
          match acc with
          | (b, .error f) => (b, .error f)
          | (b, .ok ls) =>
            if !e.2.active then (b, .ok (ls ++ [e.2]))
            else match loadLane b x j s u (jobElem r j e.1) with
              | (b, .error f) => (b, .error f)
              | (b, .ok v) => (b, .ok (ls ++ [e.2.setReg o.vd v]))
        match lanes.foldl one (b, .ok []) with
        | (b, .error f) => (b, .error f)
        | (b, .ok ls) => (b, .ok { j with lanes := ls })
  | 0x39 =>
    let s := o.vd % 8
    match x.streams.find? (·.num == s) with
    | none => (b, .ok j)
    | some u =>
      let one (acc : Block × Option ProgFail) (e : Nat × Lane) : Block × Option ProgFail :=
        match acc with
        | (b, some f) => (b, some f)
        | (b, none) => if e.2.active then storeLane b x j s u (jobElem r j e.1) (opA e.2 o) else (b, none)
      match lanes.foldl one (b, none) with
      | (b, some f) => (b, .error f)
      | (b, none) => (b, .ok j)
  | 0x3A =>
    let one (ps : List Nat) (e : Nat × Lane) : List Nat :=
      if e.2.guarded o then
        let l := scalarLane (jobElem r j e.1)
        ps.set l (scalarCombine o.sc (ps.getD l 0) (opA e.2 o))
      else ps
    (b, .ok { j with partials := lanes.foldl one j.partials })
  | 0x3B =>
    let (b, v) := ldsValue b (progScalar img) x.scalar o.sc
    (b, .ok { j with lanes := j.lanes.map fun l => if l.active then l.setReg o.vd v else l })
  | _ =>
    let (b, ls) := bundleStep b img opc o j.lanes
    (b, .ok { j with lanes := ls })

/-! ## Bundles in turn -/

/-- The first instruction after the phase's last, BAR among them (R290). -/
def phaseEnd (img phase : Nat) : Nat :=
  if phase = 0 then ((progBar img).map (· + 1)).getD (progCount img) else progCount img

/-- Does this phase end the program? -/
def lastPhase (img phase : Nat) : Bool := phase == 1 || (progBar img).isNone

/-- WB: v0 goes back to the accumulator of every active element (Table 9-1). -/
def writeBackLanes (b : Block) (x : Group) (j : Job) : Block × Option ProgFail :=
  let r := x.r
  let one (acc : Block × Option ProgFail) (e : Nat × Lane) : Block × Option ProgFail :=
    match acc with
    | (b, some f) => (b, some f)
    | (b, none) =>
      if !e.2.active then (b, none)
      else
        let k := 32 * j.bundle + e.1
        let pa := accAddr x j.slot k
        match streamAdmit b j r 0 pa with
        | (b, some f) => (b, some f)
        | (b, none) =>
          let v := if gAcc r = 3 then e.2.reg 0 + (e.2.reg 1 <<< 32) else e.2.reg 0
          let (v, b) := if undefinedAt x 8 pa (gA r) then
              let (d, b) := draw b
              (d % 2 ^ (8 * gA r), b)
            else (v, b)
          let va := (imageBase b j.pid r + blockOff r j.slot + gL r + k * gA r) / 64 * 64
          let b := emit (writeMem b pa v (gA r)) (.memWrite (localAddr pa) ⟨gA r, v⟩ 0)
          (onGroup b j.pid j.group fun g => { g with lastVa := some va }, none)
  ((List.range j.lanes.length).zip j.lanes).foldl one (b, none)

/-- The job's next bundle: in its slot, or in the next slot of the station; none: the phase is over here. -/
def nextBundle (x : Group) (ms : Nat) (j : Job) : Job :=
  let r := x.r
  let pc := if j.phase = 1 then (progBar (jobImg x)).getD 0 + 1 else 0
  if 32 * (j.bundle + 1) < slotElems r j.slot then { j with bundle := j.bundle + 1, pc := pc }
  else match nextSlot x ms (j.slot + 1) (gS r - (j.slot + 1)) with
    | some s => { j with slot := s, bundle := 0, pc := pc }
    | none => { j with fin := true }

def activeCount (j : Job) : Nat := (j.lanes.filter (·.active)).length

/-- The bundle has run its last instruction of the phase: its results are taken, and the next bundle's lanes load. -/
def bundleEnd (b : Block) (x : Group) (ms : Nat) (j : Job) : Block × Except ProgFail Job :=
  let img := jobImg x
  let last := lastPhase img j.phase
  let b := if last then addTo b (0x6400 + j.pid) 0x26 (activeCount j) else b
  match (if last && progWb img then writeBackLanes b x j else (b, none)) with
  | (b, some f) => (b, .error f)
  | (b, none) =>
    let j := nextBundle x ms j
    if j.fin then (b, .ok j) else loadLanes b x j

/-- The job runs its next instruction; at the phase's end its bundle ends. -/
def jobStep (b : Block) (x : Group) (ms : Nat) (j : Job) (poison : Bool) : Block × Except ProgFail Job :=
  let img := jobImg x
  let w := progWord img j.pc
  let b := addTo b 0x6010 7 (runnerCost (wordOpc w) * activeCount j)
  match jobRun b x j (wordOpc w) (wordOp w) poison with
  | (b, .error f) => (b, .error f)
  | (b, .ok j) =>
    let j := { j with pc := j.pc + 1 }
    if phaseEnd img j.phase ≤ j.pc then bundleEnd b x ms j else (b, .ok j)

/-- How many instructions a phase can hold. -/
def jobFuel (x : Group) : Nat := (gElements x.r / 32 + gS x.r + 1) * 257

/-! ## Arrival programs (R288, R289) -/

/-- The registers an arriving element starts with (Table 9-1). -/
def arrivalPresets (r contrib i v : Nat) : List (Nat × Nat) :=
  [(0, v % w32)] ++ (if gWire r = 0xC then [(1, v >>> 32)] else []) ++ [(29, contrib), (30, i % w32)]

def arrivalOut (r : Nat) (l : Lane) : Nat := if gAcc r = 3 then l.reg 0 + (l.reg 1 <<< 32) else l.reg 0

/-- A bundle of arriving elements runs the whole program. -/
def arrivalBundle (b : Block) (img : Nat) (lanes : List Lane) : Block × List Lane :=
  (List.range (progCount img)).foldl (fun (b, ls) n =>
    let w := progWord img n
    bundleStep b img (wordOpc w) (wordOp w) ls) (b, lanes)

/-- The arrival program over the elements from `k` on, a bundle at a time: the transformed values. -/
def arrivalRun (b : Block) (r img contrib slot : Nat) (k : Nat) (vs : List Nat) : Nat → Block × List Nat
  | 0 => (b, [])
  | fuel + 1 =>
    if vs.isEmpty then (b, [])
    else
      let xs := vs.take 32
      let lanes := (List.range 32).map fun l =>
        if l < xs.length then blankLane true (arrivalPresets r contrib (slot * gE r + k + l) (xs.getD l 0))
        else blankLane false []
      let (b, ls) := arrivalBundle b img lanes
      let out := (ls.take xs.length).map (arrivalOut r)
      let (b, rest) := arrivalRun b r img contrib slot (k + 32) (vs.drop 32) fuel
      (b, out ++ rest)

/-- Lane cycles of one element of a program. -/
def progCost (img : Nat) : Nat :=
  ((List.range (progCount img)).map fun n => runnerCost (wordOpc (progWord img n))).foldl (· + ·) 0

end Sys2Proof.Machine
end

