-- ==== Sys2Proof/Machine/Crucible.lean ====
section
/-! DEFINITION. Crucibles: line locks, applications, arming, the local contributor, the completion sequence with its
programs and its cast, and their commands (08 R251-R276; 09 R290-R301). -/

namespace Sys2Proof.Machine

/-! ## Line locks (R267) -/

/-- The line of an address: 256 bytes. -/
def lineOf (pa : Nat) : Nat := pa / 256

def stationOf (pa : Nat) : Nat := bits pa 36 5

/-- Does a lock entry cover one of `n` lines from an address? -/
def lockHeld (b : Block) (pa n : Nat) : Bool :=
  b.cru.locks.any fun e => e.1 == stationOf pa && (common e.2.1 e.2.2 (lineOf pa) n).isSome

def LockWait.meets (w : LockWait) (pa n : Nat) : Bool :=
  w.ms == stationOf pa && (common (lineOf w.pa) w.lines (lineOf pa) n).isSome

def locksAt (b : Block) (ms : Nat) : Nat := (b.cru.locks.filter (·.1 == ms)).length

/-- The requests waiting at a station whose lines are free: they come first when an entry is. -/
def lockReady (b : Block) (ms : Nat) : List LockWait := b.cru.waits.filter fun w => w.ms == ms && !lockHeld b w.pa w.lines

/-- May `n` lines be locked now: none is held or waited for, and the table has an entry beside those that earlier requests
are to take? -/
def lockFree (b : Block) (pa n : Nat) : Bool :=
  !lockHeld b pa n && locksAt b (stationOf pa) + (lockReady b (stationOf pa)).length < 1024 && !b.cru.waits.any (·.meets pa n)

def lock (b : Block) (pa n : Nat) : Block :=
  { b with cru := { b.cru with locks := b.cru.locks ++ [(stationOf pa, lineOf pa, n)] } }

def unlock (b : Block) (pa n : Nat) : Block :=
  { b with cru := { b.cru with locks := b.cru.locks.erase (stationOf pa, lineOf pa, n) } }

/-- A request waits for its lines, in arrival order at its station. -/
def lockWait (b : Block) (pa n : Nat) (who : LockWho) : Block :=
  let b := count b (0x6300 + stationOf pa) 2
  { b with cru := { b.cru with waits := b.cru.waits ++ [⟨stationOf pa, pa, n, who, b.clk.now⟩] } }

/-- The waiting request that takes a lock next at a station: the oldest whose lines are free and that no older one of
overlapping lines waits before. -/
def lockNextIn (b : Block) (ms : Nat) (before : List LockWait) : List LockWait → Option LockWait
  | [] => none
  | w :: ws =>
    if w.ms == ms && !lockHeld b w.pa w.lines && !before.any (·.meets w.pa w.lines) then some w
    else lockNextIn b ms (before ++ [w]) ws

def lockNext (b : Block) (ms : Nat) : Option LockWait :=
  if 1024 ≤ locksAt b ms then none else lockNextIn b ms [] b.cru.waits

/-- A waiting request leaves the queue; the FCLK cycles it waited are counted (1.6 GHz: 16 in 10 ns). -/
def lockTake (b : Block) (w : LockWait) : Block :=
  let b := addTo b (0x6300 + w.ms) 3 (16 * (b.clk.now - w.since))
  { b with cru := { b.cru with waits := b.cru.waits.erase w } }

/-- A request that is given up waits for no lock. -/
def lockForget (b : Block) (who : LockWho) : Block :=
  { b with cru := { b.cru with waits := b.cru.waits.filter (·.who != who) } }

/-! ## Applications (R262-R265) -/

def app (b : Block) (num : Nat) : Option App := b.cru.apps.find? (·.num == num)

def setApp (b : Block) (a : App) : Block :=
  { b with cru := { b.cru with apps := b.cru.apps.map fun x => if x.num = a.num then a else x } }

/-- Lines that an application's lock covers. -/
def appLines (b : Block) (a : App) : Nat := gL (group b a.pid a.group).r / 256

/-- An application is gone, with the lock it holds or waits for. -/
def dropApp (b : Block) (a : App) : Block :=
  let b := if a.st = .locked then unlock b a.pa (appLines b a) else b
  let b := lockForget b (.app a.num)
  { b with cru := { b.cru with apps := b.cru.apps.filter (·.num != a.num) } }

/-- Who translates for an application: an arriving packet, or the local contributor. -/
def appAsker (a : App) : Asker :=
  if a.isLocal then ⟨⟨.localSlot, groupKey a.pid a.group, 2 ^ 32 + a.slot⟩, 5, a.group⟩
  else ⟨⟨.placement, a.qp, a.psn⟩, 2, a.port⟩

/-- What the transport owes a packet whose application has ended: its slot, its key's count, the placement, and the
message it may complete in the group (R195, R269). -/
def placeReduce (b : Block) (a : App) : Block :=
  if a.isLocal then b
  else
    let n := (qp b a.qp).rxMsgs
    let b := countPlaced (keyDone (freeSlot b) a.key) a.qp a.psn a.msn a.payload.len a.ackreq
    if (qp b a.qp).rxMsgs ≠ n then
      onGroup b a.pid a.group fun x => { x with messages := x.messages + 1 }
    else b

/-- Sets the cached bit of (slot, contributor). -/
def cacheBit (b : Block) (a : App) : Block :=
  onGroup b a.pid a.group fun x => { x with cached := insert x.cached a.slot (look x.cached 0 a.slot ||| 2 ^ a.contrib) }

/-- R264: nothing is written; the packet counts as placed and as a ledger hit. -/
def ledgerHit (b : Block) (a : App) : Block :=
  let b := count (count b 0x6000 6) (0x6100 + a.pid) 0x44
  let b := onGroup b a.pid a.group fun x => { x with hits := x.hits + 1 }
  placeReduce b a

/-- An application refused at check 14 or 15 or under R265: the packet is refused, and the group ends with its status
(Table 8-12). -/
def appRefuse (b : Block) (a : App) (st : Status) : Block :=
  let b := dropApp b a
  let b := if a.isLocal then b else refuse (keyDone (freeSlot b) a.key) a.qp a.psn a.msn st
  endGroup b a.pid a.group st true

/-- An application at its station takes its anchor's lock, which covers its whole ledger row, or waits for it. -/
def appQueue (b : Block) (a : App) : Block :=
  let n := appLines b a
  if lockFree b a.pa n then lock (setApp b { a with st := .locked }) a.pa n
  else lockWait (setApp b { a with st := .queued }) a.pa n (.app a.num)

/-- A station's Crucible has a lane group in service. -/
def lanesLeft (b : Block) (ms : Nat) : Bool := (List.range 8).any fun g => served b (uMS ms) && served b (uLane ms g)

/-- Translates the slot block as one tile in GCX with right WR, and brings the application to its station (R262). -/
def appGo (b : Block) (a : App) : Block :=
  let r := (group b a.pid a.group).r
  let c := groupCtx b a.pid r
  let va := (imageBase b a.pid r + blockOff r a.slot) % 2 ^ 52
  if fencedAccess b c then appRefuse b a .fenced
  else match xlate b (appAsker a) c va (gBlock r) .reduce false with
    | (b, .wait) => b
    | (b, .fault st _ _ _) => appRefuse b a st
    | (b, .ok segs) =>
      let pa := (segs.head?.map (·.pa)).getD 0
      if placeOf b pa != .package then
        appRefuse (guardRecord b (uMS (stationOf pa)) pa c 1 .crucible 0) a .guardFault
      else match msAdmit b pa c .crucible with
        | (b, some st) => appRefuse b a st
        | (b, none) =>
          if a.poison then appRefuse b a .poison
          else if !lanesLeft b (stationOf pa) then appRefuse b a .fenced
          else
            let b := onGroup b a.pid a.group fun x => { x with pages := x.pages.set (a.slot / gP r) (some (pa - (a.slot % gP r) * gBlock r)) }
            appQueue b { a with pa := pa, tile := segs.head?.getD a.tile }

/-- A contribution that has passed check 13 goes to its application. -/
def startApp (b : Block) (a : App) : Block :=
  let a := { a with num := b.cru.nextApp, st := .xlate }
  appGo { b with cru := { b.cru with nextApp := b.cru.nextApp + 1, apps := b.cru.apps ++ [a] } } a

/-- The converted elements of a slot's payload (R257). -/
def incoming (r slot payload : Nat) : List Nat :=
  (List.range (slotElems r slot)).map fun k => wireElement (gWire r) (gA r) payload k

/-- Values side by side, `w` bytes each. -/
def joinValues (w : Nat) (vs : List Nat) : Nat := vs.reverse.foldl (fun a v => (a <<< (8 * w)) + v % 2 ^ (8 * w)) 0

/-- Step 4 of Table 8-8: the new accumulator values. -/
def applyValues (r old : Nat) (first : Bool) (xs : List Nat) : Nat :=
  if first then joinValues (gA r) xs
  else joinValues (gA r) (((List.range xs.length).zip xs).map fun (k, x) =>
    accumulate (gAcc r) (gOp r) (gScale r) (slice old (k * gA r) (gA r)) x)

/-- Table 8-8 from step 2 on, under the anchor's lock. -/
def applyAt (b : Block) (a : App) (poison : Bool) : Block :=
  let x := group b a.pid a.group
  let r := x.r
  let b := memoryUe (count (unlock b a.pa (appLines b a)) (0x6300 + stationOf a.pa) 1) poison a.pa a.pid
  if !served b (uMS (stationOf a.pa)) then appRefuse b a .fenced
  else if poison then appRefuse b a .poison
  else
    let row := readMem b a.pa (gL r)
    if row.testBit a.contrib then ledgerHit (cacheBit (dropApp b a) a) a
    else
      let n := slotElems r a.slot
      let xs := incoming r a.slot a.payload.val
      let (b, xs) := match x.arr with
        | none => (b, xs)
        | some v =>
          let b := addTo (addTo b 0x6010 6 (progCost v.image.val * n)) (0x6400 + a.pid) 0x26 n
          arrivalRun b r v.image.val a.contrib a.slot 0 xs (n / 32 + 1)
      let new := applyValues r (readMem b (a.pa + gL r) (n * gA r)) (!gKeep r && row == 0) xs
      let b := present b (.memWrite (a.pa + gL r) ⟨n * gA r, new⟩ 0)
      let b := present b (.memWrite a.pa ⟨gL r, row ||| 2 ^ a.contrib⟩ 0)
      setApp b { a with st := .applied }

/-- The application a row names, in the state it needs. -/
def appNamed (b : Block) (pid g slot contrib : Nat) (st : AppSt) : Option App :=
  b.cru.apps.find? fun a => a.pid == pid && a.group == g && a.slot == slot && a.contrib == contrib && a.st == st

def application (b : Block) (ms pid g slot contrib : Nat) (poison : Bool) : Block :=
  match b.cru.apps.find? fun a => a.pid == pid && a.group == g && a.slot == slot && a.contrib == contrib
      && a.st == .locked && stationOf a.pa == ms with
  | some a => applyAt b a poison
  | none => b

/-! ## Programs and the completion sequence (R269-R273; 09 R295-R301) -/

def streamBase (b : Block) (pid : Nat) : Nat := rd b (0x6400 + pid) 0x21

/-- A completion program fails (R301, Table 9-9). -/
def progFail (b : Block) (pid g : Nat) (f : ProgFail) : Block :=
  let b := count (count b 0x6010 8) (0x6400 + pid) 0x24
  let b := wr b (0x6400 + pid) 0x25 ((statusCode f.st <<< 24) + (f.kind <<< 21) + (f.stream <<< 18) + g % 4096)
  endGroup b pid g f.st true

/-- Does the program load (store) stream `s`? -/
def usesStream (img : Nat) (store : Bool) (s : Nat) : Bool :=
  (List.range (progCount img)).any fun n =>
    let w := progWord img n
    if store then wordOpc w == 0x39 && (wordOp w).vd % 8 == s else wordOpc w == 0x38 && (wordOp w).sa % 8 == s

def usedStreams (img : Nat) : List Nat := (List.range 8).filter fun s => usesStream img false s || usesStream img true s

/-- The stream table is read, as one 128-byte read (R295), for the group (Table 4-10: SOURCE 5). -/
def tableRead (b : Block) (pid g : Nat) : Block :=
  let base := streamBase b pid
  match startRead b (groupAsker .streamTable pid g 0) (ctxNow b pid (bits base 52 10))
      ((bits base 0 52 + 128 * g) % 2 ^ 52) 128 false with
  | (b, .wait) => b
  | (b, .failed st _) => progFail b pid g ⟨st, 1, 0⟩
  | (b, .issued segs) => onGroup b pid g fun x => { x with io := segs }

/-- The last beat written is read back (Table 8-9 step 3). -/
def readBack (b : Block) (pid g va : Nat) : Block :=
  let r := (group b pid g).r
  match startRead b (groupAsker .castOut pid g 1) (groupCtx b pid r) va 64 false with
  | (b, .wait) => b
  | (b, .failed st _) => endGroup b pid g st false
  | (b, .issued segs) => onGroup b pid g fun x => { x with io := segs }

/-- Steps 4 and 5 of Table 8-9 once the record has been written. -/
def groupDone (b : Block) (pid g : Nat) : Block :=
  let x := group b pid g
  let b := if gIrq x.r then msixPart b pid (gVec x.r) else b
  let b := count b (0x6100 + pid) 0x42
  groupState (onGroup b pid g fun x => { x with stage := .rest, streams := [], extents := [] }) pid g .done

/-- Writes the completion record and ends the group DONE; a refused write ends it ABORTED without a record. -/
def finishGroup (b : Block) (pid g : Nat) : Block :=
  let x := group b pid g
  match writeRecord b pid g (completionRecord b x .ok) with
  | (b, none) => groupDone b pid g
  | (b, some st) => if (group b pid g).recordDue.isSome then b else endGroup b pid g st false

/-- Step 3: the read-back, if anything was written. -/
def afterWrites (b : Block) (pid g : Nat) : Block :=
  match (group b pid g).lastVa with
  | some va => readBack (onGroup b pid g fun x => { x with stage := .readback }) pid g va
  | none => finishGroup b pid g

/-- Step 2: the cast waits for its row; without an output the read-back follows. -/
def castStage (b : Block) (pid g : Nat) : Block :=
  let b := onGroup b pid g fun x => { x with stage := .cast, streams := [], extents := [] }
  if gOut (group b pid g).r = 0xF then afterWrites b pid g else b

/-- Applied bytes reach the total: the group enters COMPLETING and step 1 begins (R269, R270). -/
def completeGroup (b : Block) (pid g : Nat) : Block :=
  let b := groupState b pid g .completing
  let x := group b pid g
  match x.cmp with
  | none => castStage b pid g
  | some v =>
    if (usedStreams v.image.val).isEmpty then onGroup b pid g fun x => { x with stage := .bind, streams := [] }
    else tableRead (onGroup b pid g fun x => { x with stage := .table }) pid g

/-- R265 step 6 and R269: the applied bytes rise, and the group completes when they reach the total. -/
def addApplied (b : Block) (a : App) : Block :=
  let len := a.payload.len
  let b := addTo (count b 0x6000 5) (0x6100 + a.pid) 0x45 len
  let x := group b a.pid a.group
  let b := setGroup b a.pid a.group { x with applied := x.applied + len }
  if x.st == .armed && x.applied + len == gCount x.r * gContribBytes x.r then completeGroup b a.pid a.group else b

def applicationReport (b : Block) (pid g slot contrib : Nat) : Block :=
  match appNamed b pid g slot contrib .applied with
  | some a => addApplied (placeReduce (cacheBit (dropApp b a) a) a) a
  | none => b

/-! ### The local contributor (R268) -/

/-- Reads the next local slot. -/
def localRead (b : Block) (pid g : Nat) : Block :=
  let x := group b pid g
  let r := x.r
  if x.st != .armed || !gLocal r || gS r ≤ x.localSlot || !x.localIo.isEmpty then b
  else
    match startRead b (groupAsker .localSlot pid g x.localSlot) (groupCtx b pid r)
        ((gLocalVa r + 4096 * x.localSlot) % 2 ^ 52) (slotBytes r x.localSlot) false with
    | (b, .wait) => b
    | (b, .failed st _) => endGroup b pid g st true
    | (b, .issued segs) => onGroup b pid g fun x => { x with localIo := segs }

def localSlotDone (b : Block) (pid g slot : Nat) (ans : Answer) : Block :=
  let x := group b pid g
  let r := x.r
  if x.st != .armed || slot ≠ x.localSlot then b
  else match arrive b ⟨.localSlot, groupKey pid g, slot⟩ x.localIo ans (slotBytes r slot) with
    | none => b
    | some (b, st, d) =>
      let b := onGroup b pid g fun x => { x with localIo := [], localSlot := slot + 1 }
      if st != .ok then endGroup b pid g st true
      else
        let b := startApp b ⟨0, pid, g, slot, gCount r - 1, ⟨slotBytes r slot, d⟩, false, true, 0, 0, 0, 0, false, 0, 0, noSeg, .xlate⟩
        localRead b pid g

/-! ### Arming (R252, R253) -/

/-- Reads the group record. -/
def recordRead (b : Block) (pid g : Nat) : Block :=
  let base := rd b (0x6100 + pid) 0x41
  match startRead b (groupAsker .groupRecord pid g 0) (ctxNow b pid (bits base 52 10))
      ((bits base 0 52 + 64 * g) % 2 ^ 52) 64 false with
  | (b, .wait) => b
  | (b, .failed st _) =>
    let b := groupState b pid g (group b pid g).prev
    finishCmd b (0x6100 + pid) 1 .resource (statusCode st <<< 16)
  | (b, .issued segs) => onGroup b pid g fun x => { x with io := segs }

/-- Table 8-5 for the record's words. -/
def recordCheck (b : Block) (pid r : Nat) : Option (Code × Nat) :=
  if !ctxOpen b pid (gGcx r) || !ctxOpen b pid (bits (rd b (0x6100 + pid) 0x41) 52 10) then some (.state, 0)
  else match recordFault r with
    | some off => some (.range, off)
    | none =>
      if !keyFits b pid r then some (.range, 0x13)
      else if !progFits b pid (gArrProg r) 1 then some (.range, 0x0E)
      else if !progFits b pid (gCmpProg r) 2 then some (.range, 0x0F)
      else none

def named (b : Block) (pid p : Nat) : Option Version := if p = 0 then none else program b pid p

def groupRecordDone (b : Block) (pid g : Nat) (ans : Answer) : Block :=
  let x := group b pid g
  let aborting := match pendingCmd b (0x6100 + pid) 2 with
    | some c => c.arg == g
    | none => false
  if !x.unread || x.io.isEmpty || aborting then b
  else match arrive b ⟨.groupRecord, groupKey pid g, 0⟩ x.io ans 64 with
    | none => b
    | some (b, st, r) =>
      let fail (b : Block) (c : Code) (d : Nat) : Block :=
        let b := groupState (onGroup b pid g fun x => { x with io := [] }) pid g x.prev
        finishCmd b (0x6100 + pid) 1 c d
      if st != .ok then fail b .resource (statusCode st <<< 16)
      else match recordCheck b pid r with
        | some (c, d) => fail b c d
        | none =>
          setGroup b pid g { freshGroup with
            st := .arming, prev := x.prev, record := some r, checked := true
            arr := named b pid (gArrProg r), cmp := named b pid (gCmpProg r)
            pages := List.replicate (gPages r) none }

/-- Clears the ledger rows of `n` slot blocks from an address up. -/
def clearRows (b : Block) (r pa : Nat) : Nat → Block
  | 0 => b
  | n + 1 => clearRows (present b (.memWrite pa ⟨gL r, 0⟩ 0)) r (pa + gBlock r) n

/-- Clears the rows of image pages `p` and on; a page whose translation fails or that lies outside package memory keeps
its rows (the applications to it are refused all the same). False: a translation waits. -/
def clearPages (b : Block) (pid g : Nat) (p : Nat) : Nat → Block × Bool
  | 0 => (b, true)
  | fuel + 1 =>
    let r := (group b pid g).r
    match xlate b (groupAsker .groupRecord pid g 0) (groupCtx b pid r)
        ((imageBase b pid r + 2 ^ 25 * p) % 2 ^ 52) (min (gP r) (gS r - p * gP r) * gBlock r) .write false with
    | (b, .wait) => (b, false)
    | (b, .fault _ _ _ _) => clearPages b pid g (p + 1) fuel
    | (b, .ok segs) =>
      let pa := (segs.head?.map (·.pa)).getD 0
      if placeOf b pa != .package then clearPages b pid g (p + 1) fuel
      else match msAdmit b pa (groupCtx b pid r) .crucible with
        | (b, some _) => clearPages b pid g (p + 1) fuel
        | (b, none) =>
          let b := onGroup b pid g fun x => { x with pages := x.pages.set p (some pa) }
          clearPages (clearRows b r pa (min (gP r) (gS r - p * gP r))) pid g (p + 1) fuel

/-- R253: the rows are cleared and the group is ARMED, or ends FENCED where a station that holds its image is fenced or has
no lane group (Table 8-12). -/
def groupArmed (b : Block) (pid g : Nat) : Block :=
  let x := group b pid g
  if x.st != .arming || x.unread then b
  else match clearPages b pid g 0 (gPages x.r) with
    | (b, false) => b
    | (b, true) =>
      if (group b pid g).pages.any fun p => match pageStation p with
        | some ms => !served b (uMS ms) || !lanesLeft b ms
        | none => false
      then endGroup b pid g .fenced true
      else
      let b := onGroup b pid g fun x => { x with armedAt := b.clk.now, applied := 0, messages := 0, hits := 0 }
      let b := finishCmd (groupState b pid g .armed) (0x6100 + pid) 1 .ok 0
      localRead b pid g

/-! ### GROUP_ABORT (R276) -/

/-- The applications past check 13 have finished: the command is done and the record is written. -/
def abortDone (b : Block) (pid g : Nat) : Block :=
  match pendingCmd b (0x6100 + pid) 2 with
  | none => b
  | some c =>
    if c.arg ≠ g || b.cru.apps.any (fun a => a.pid == pid && a.group == g) then b
    else
      let b := finishCmd b (0x6100 + pid) 2 .ok 0
      let (st, out) := (group b pid g).ending.getD (.aborted, true)
      let b := onGroup b pid g fun x => { x with ending := none }
      let b := if out then failRecord b pid g st else b
      let x := group b pid g
      if x.record.isSome then msixPart b pid (gVec x.r) else b

/-! ### Stream binding and the phases (09 R295-R298, R290-R294) -/

/-- What a stream entry fails (Table 9-8, KIND 2). -/
def entryFails (img s e : Nat) : Option ProgFail :=
  if !bitAt e 127 || 6 < sFmt e || sLayout e = 3 || (sLayout e = 2 && usesStream img true s) then some ⟨.guardFault, 2, s⟩
  else if sBase e % 64 ≠ 0 then some ⟨.misaligned, 2, s⟩
  else none

def streamTableDone (b : Block) (pid g : Nat) (ans : Answer) : Block :=
  let x := group b pid g
  if x.stage != .table then b
  else match arrive b ⟨.streamTable, groupKey pid g, 0⟩ x.io ans 128 with
    | none => b
    | some (b, st, t) =>
      let img := jobImg x
      let us := (usedStreams img).map fun s => (⟨s, slice t (16 * s) 16, []⟩ : Bound)
      if st != .ok then progFail b pid g ⟨st, 1, 0⟩
      else match us.findSome? fun u => entryFails img u.num u.entry with
        | some f => progFail b pid g f
        | none => onGroup b pid g fun x => { x with io := [], stage := .bind, streams := us }

/-- One extent with one right: its pieces, or why not; none: the translation waits. -/
def bindOne (b : Block) (pid g : Nat) (u : Bound) (op : Access4) : Block × Option (Except ProgFail (List Seg)) :=
  let r := (group b pid g).r
  match xlate b ⟨⟨.streamTable, groupKey pid g, 1⟩, 3, u.num⟩ (groupCtx b pid r) (sBase u.entry)
      (streamExtent r u.entry) op false with
  | (b, .wait) => (b, none)
  | (b, .fault st _ _ _) => (b, some (.error ⟨st, 3, u.num⟩))
  | (b, .ok segs) =>
    match segs.find? fun s => placeOf b s.pa != .package with
    | some s => (guardRecord b uTXH s.pa (groupCtx b pid r) 1 .crucible 0, some (.error ⟨.guardFault, 3, u.num⟩))
    | none => (b, some (.ok segs))

/-- Binds the streams one by one (R297). -/
def bindAll (b : Block) (pid g img : Nat) (done : List Bound) : List Bound → Block × Option (Except ProgFail (List Bound))
  | [] => (b, some (.ok done))
  | u :: us =>
    let first := if usesStream img false u.num then Access4.read else .write
    match bindOne b pid g u first with
    | (b, none) => (b, none)
    | (b, some (.error f)) => (b, some (.error f))
    | (b, some (.ok segs)) =>
      if first == .read && usesStream img true u.num then
        match bindOne b pid g u .write with
        | (b, none) => (b, none)
        | (b, some (.error f)) => (b, some (.error f))
        | (b, some (.ok _)) => bindAll b pid g img (done ++ [{ u with segs := segs }]) us
      else bindAll b pid g img (done ++ [{ u with segs := segs }]) us

/-- Translates the image's pages anew, for reading; some status: one is refused; none: a translation waits. -/
def imagePages (b : Block) (pid g : Nat) (p : Nat) : Nat → Block × Option Status
  | 0 => (b, some .ok)
  | fuel + 1 =>
    let r := (group b pid g).r
    match xlate b (groupAsker .castOut pid g 0) (groupCtx b pid r) ((imageBase b pid r + 2 ^ 25 * p) % 2 ^ 52)
        (min (gP r) (gS r - p * gP r) * gBlock r) .read false with
    | (b, .wait) => (b, none)
    | (b, .fault st _ _ _) => (b, some st)
    | (b, .ok segs) =>
      let pa := (segs.head?.map (·.pa)).getD 0
      if placeOf b pa != .package then
        (guardRecord b (uMS (stationOf pa)) pa (groupCtx b pid r) 1 .crucible 0, some .guardFault)
      else imagePages (onGroup b pid g fun x => { x with pages := x.pages.set p (some pa) }) pid g (p + 1) fuel

/-- The words of the broadcast streams, read once per station when the phase begins (R296). -/
def bcastWords (b : Block) (x : Group) (j : Job) : List Bound → Block × Except ProgFail Job
  | [] => (b, .ok j)
  | u :: us =>
    if sLayout u.entry ≠ 2 then bcastWords b x j us
    else match loadLane b x { j with bcast := [] } u.num u 0 with
      | (b, .error f) => (b, .error f)
      | (b, .ok v) => bcastWords b x { j with bcast := insert j.bcast u.num v } us

/-- A phase starts at one station. -/
def startJob (b : Block) (pid g phase ms : Nat) : Block × Option ProgFail :=
  let x := group b pid g
  match nextSlot x ms 0 (gS x.r) with
  | none => (b, none)
  | some s =>
    let pc := if phase = 1 then (progBar (jobImg x)).getD 0 + 1 else 0
    let j : Job := ⟨pid, g, phase, s, 0, pc, [], List.replicate 128 0, [], false⟩
    match bcastWords b x j x.streams with
    | (b, .error f) => (b, some f)
    | (b, .ok j) =>
      match loadLanes b x j with
      | (b, .error f) => (b, some f)
      | (b, .ok j) =>
        ({ b with cru := { b.cru with jobs := store b.cru.jobs [] ms (look b.cru.jobs [] ms ++ [j]) } }, none)

/-- A phase starts at every station that holds part of the image (R290, R294). -/
def startPhase (b : Block) (pid g phase : Nat) : List Nat → Block
  | [] => b
  | ms :: rest =>
    match startJob b pid g phase ms with
    | (b, some f) => progFail b pid g f
    | (b, none) => startPhase b pid g phase rest

/-- The stations that hold part of a group's image, ascending. -/
def imageStations (x : Group) : List Nat := (List.range 32).filter x.onStation

def streamBindDone (b : Block) (pid g : Nat) : Block :=
  let x := group b pid g
  if x.stage != .bind || x.st != .completing then b
  else match bindAll b pid g (jobImg x) [] x.streams with
    | (b, none) => b
    | (b, some (.error f)) => progFail b pid g f
    | (b, some (.ok us)) =>
      match imagePages b pid g 0 (gPages x.r) with
      | (b, none) => b
      | (b, some .ok) =>
        let b := onGroup b pid g fun x =>
          let x := { x with stage := .phase1, streams := us, disturbed := [], results := [], scalar := 0 }
          let img := jobImg x
          { x with extents := imageExtents x (progWb img) ++ us.flatMap fun u => streamExtents x.r (usesStream img true u.num) u }
        startPhase b pid g 0 (imageStations (group b pid g))
      | (b, some st) => progFail b pid g ⟨st, 4, 0⟩

/-- A job of the station's list is replaced, or taken out. -/
def setJobs (b : Block) (ms : Nat) (l : List Job) : Block :=
  { b with cru := { b.cru with jobs := store b.cru.jobs [] ms l } }

def jobOf (b : Block) (pid g ms : Nat) : Option Job :=
  (look b.cru.jobs [] ms).find? fun j => j.pid == pid && j.group == g

def isRunning (b : Block) (pid g : Nat) : Bool :=
  b.cru.jobs.any fun e => e.2.any fun j => j.pid == pid && j.group == g

/-- The program has run: counted, and the cast follows. -/
def programDone (b : Block) (pid g : Nat) : Block := castStage (count b (0x6400 + pid) 0x23) pid g

/-- The scalar when a phase has ended: the stations' results in ascending station number (R292). -/
def phaseScalar (x : Group) : Nat :=
  let kind := progScalar (jobImg x)
  (x.results.map (·.2)).foldl (scalarJoin kind) 0

/-- A station's phase is over: its partials are summed in ascending lane, and after the last station the program ends or
waits for its second phase. -/
def jobDone (b : Block) (pid g ms : Nat) (j : Job) : Block :=
  let x := group b pid g
  let kind := progScalar (jobImg x)
  let b := setJobs b ms ((look b.cru.jobs [] ms).filter fun k => !(k.pid == pid && k.group == g))
  let b := if j.phase = 0 then
      onGroup b pid g fun x => { x with results := insert x.results ms (j.partials.foldl (scalarJoin kind) 0) }
    else b
  if isRunning b pid g then b
  else if j.phase = 1 then programDone b pid g
  else if (progBar (jobImg x)).isSome then onGroup b pid g fun x => { x with stage := .between }
  else programDone (onGroup b pid g fun x => { x with scalar := phaseScalar x }) pid g

/-- The program whose turn it is at a station. -/
def turnJob (b : Block) (ms : Nat) : Option Job := (look b.cru.jobs [] ms).find? (!·.fin)

/-- The bundle next in turn at a station runs its next instruction; a bundle that ends gives its turn to the next
program's (R287). -/
def stationStep (b : Block) (ms : Nat) (poison : Bool) : Block :=
  match turnJob b ms with
  | none => b
  | some j =>
    match jobStep b (group b j.pid j.group) ms j poison with
    | (b, .error f) => progFail (if f.st = .poison then raiseFree b 19 (uMS ms) j.pid else b) j.pid j.group f
    | (b, .ok k) =>
      let rest := (look b.cru.jobs [] ms).filter fun i => !(i.pid == j.pid && i.group == j.group)
      if k.slot = j.slot && k.bundle = j.bundle && !k.fin then setJobs b ms (k :: rest) else setJobs b ms (rest ++ [k])

/-- One instruction of the runner programs, if it is the next of the program whose turn it is. -/
def runnerRow (b : Block) (ms opc : Nat) (o : RunnerOp) (poison : Bool) : Block :=
  match turnJob b ms with
  | none => b
  | some j => if progWord (jobImg (group b j.pid j.group)) j.pc = runnerWord opc o then stationStep b ms poison else b

/-- The station's programs run in turn until one of them is through its phase. -/
def stationRun (b : Block) (pid g ms : Nat) : Nat → Block
  | 0 => b
  | fuel + 1 =>
    match jobOf b pid g ms with
    | none => b
    | some j => if j.fin then b else stationRun (stationStep b ms false) pid g ms fuel

/-- How many instructions the programs of a station can still run. -/
def stationFuel (b : Block) (ms : Nat) : Nat :=
  ((look b.cru.jobs [] ms).map fun j => jobFuel (group b j.pid j.group)).foldl (· + ·) 0

/-- PHASE_DONE: the station has run the phase over all its elements, the other programs there taking their turns. -/
def phaseDone (b : Block) (pid g ms : Nat) (poison : Bool) : Block :=
  if (jobOf b pid g ms).isNone then b
  else if poison then progFail (raiseFree b 19 (uMS ms) pid) pid g ⟨.poison, 4, 0⟩
  else
    let b := stationRun b pid g ms (stationFuel b ms)
    match jobOf b pid g ms with
    | some j => jobDone b pid g ms j
    | none => b

def secondPhase (b : Block) (pid g : Nat) : Block :=
  let x := group b pid g
  if x.stage != .between then b
  else
    let b := setGroup b pid g { x with stage := .phase2, scalar := phaseScalar x }
    startPhase b pid g 1 (imageStations x)

/-! ### The output cast (R272-R274) -/

def castRound (r i : Nat) : Round := if gRandom r then .random (randomBits (gSeed r) i) else .even

/-- A packet's worth of output elements of a non-MX format: its bytes, elements saturated and NaN; bytes beyond the
elements are not stated and take a free value. -/
def castPlain (b : Block) (r first : Nat) (vs : List Nat) : Block × Bytes × Nat × Nat :=
  let out := gOut r
  let w := wireWidth out
  let es := ((List.range vs.length).zip vs).map fun (k, v) => castElement out (gAcc r) v (castRound r (first + k))
  let len := packetBytes out vs.length
  let body := joinValues w (es.map (·.1))
  let (pad, b) := if len = vs.length * w then (0, b) else draw b
  (b, ⟨len, (body + (pad <<< (8 * w * vs.length))) % 2 ^ (8 * len)⟩, (es.filter (·.2.2)).length, (es.filter (·.2.1)).length)

/-- The blocks of an MX packet: scale, elements and how many saturated or are NaN. -/
def castBlocks (r first : Nat) (vs : List Nat) : Nat → List (Nat × List Nat × Nat × Nat)
  | 0 => []
  | fuel + 1 =>
    if vs.isEmpty then []
    else
      let out := gOut r
      let xs := (vs.take 32).map (accValue (gAcc r))
      let (scale, some') := mxScale out xs
      let es := if some' then ((List.range xs.length).zip xs).map fun (k, v) => mxElement out scale v (castRound r (first + k))
        else xs.map fun _ => (0, false)
      (scale, es.map (·.1), (es.filter (·.2)).length, if scale = 0xFF then xs.length else 0)
        :: castBlocks r (first + 32) (vs.drop 32) fuel

/-- An MX packet (R255, R273). -/
def castMx (r first : Nat) (vs : List Nat) : Bytes × Nat × Nat :=
  let bs := castBlocks r first vs 124
  let scales := joinValues 1 (bs.map (·.1))
  let elems := joinValues 1 (bs.flatMap (·.2.1))
  (⟨packetBytes (gOut r) vs.length, scales + (elems <<< 1024)⟩, (bs.map (·.2.2.1)).foldl (· + ·) 0,
    (bs.map (·.2.2.2)).foldl (· + ·) 0)

/-- The whole output, packet by packet. -/
def castAll (b : Block) (r first : Nat) (vs : List Nat) (acc : Bytes × Nat × Nat) : Nat → Block × Bytes × Nat × Nat
  | 0 => (b, acc)
  | fuel + 1 =>
    if vs.isEmpty then (b, acc)
    else
      let e := perPacket (gOut r)
      let (b, p, s, n) := if isMx (gOut r) then (b, castMx r first (vs.take e)) else castPlain b r first (vs.take e)
      castAll b r (first + e) (vs.drop e) (bytesAppend acc.1 p, acc.2.1 + s, acc.2.2 + n) fuel

/-- The accumulator values, slot by slot, as the stations let them be read; each station counts what it casts. -/
def castRead (b : Block) (x : Group) (pid : Nat) (slot : Nat) (vs : List Nat) : Nat → Block × Option Status × List Nat
  | 0 => (b, none, vs)
  | fuel + 1 =>
    let r := x.r
    let n := slotElems r slot
    let pa := accAddr x slot 0
    match msAdmit b pa (groupCtx b pid r) .crucible with
    | (b, some st) => (b, some st, vs)
    | (b, none) =>
      let b := addTo b (0x6300 + stationOf pa) 6 n
      castRead b x pid (slot + 1) (vs ++ (List.range n).map fun k => readMem b (accAddr x slot k) (gA r)) fuel

/-- OUTPUT_CAST_DONE: the output is written and the read-back issued; `ans` is how the writes were answered. -/
def outputCast (b : Block) (pid g : Nat) (ans : Answer) : Block :=
  let x := group b pid g
  if x.st != .completing || x.stage != .cast then b
  else if ans.poison || ans.st != .ok then endGroup b pid g (if ans.poison then .poison else ans.st) false
  else match imagePages b pid g 0 (gPages x.r) with
    | (b, none) => b
    | (b, some .ok) =>
      let x := group b pid g
      let r := x.r
      match castRead b x pid 0 [] (gS r) with
      | (b, some st, _) => endGroup b pid g st false
      | (b, none, vs) =>
        let (b, out, sat, nan) := castAll b r 0 vs (⟨0, 0⟩, 0, 0) (slots (gOut r) (gElements r))
        match writeNow b (groupAsker .castOut pid g 0) (groupCtx b pid r) (gOutVa r) out 0 2 with
        | (b, .wait) => b
        | (b, .failed st _) => endGroup b pid g st false
        | (b, .issued _) =>
          let b := onGroup b pid g fun x =>
            { x with saturated := sat, nans := nan, lastVa := some ((gOutVa r + out.len - 64) % 2 ^ 52) }
          afterWrites b pid g
    | (b, some st) => endGroup b pid g st false

def readbackDone (b : Block) (pid g : Nat) (ans : Answer) : Block :=
  let x := group b pid g
  if x.st != .completing || x.stage != .readback then b
  else match arrive b ⟨.castOut, groupKey pid g, 1⟩ x.io ans 64 with
    | none => b
    | some (b, st, _) =>
      let b := onGroup b pid g fun x => { x with io := [] }
      if st != .ok then endGroup b pid g st false else finishGroup b pid g

/-! ### What waits for a walk -/

/-- A group's request whose translation waited tries again. -/
def groupRetry (b : Block) (h : Holder) : Block :=
  let pid := h.a / 65536
  let g := h.a % 65536
  let x := group b pid g
  match h.kind with
  | .groupRecord => if x.unread && x.io.isEmpty then recordRead b pid g else b
  | .localSlot =>
    if 2 ^ 32 ≤ h.b then
      match b.cru.apps.find? fun a => a.isLocal && a.pid == pid && a.group == g && 2 ^ 32 + a.slot == h.b && a.st == .xlate with
      | some a => appGo b a
      | none => b
    else localRead b pid g
  | .streamTable => if x.stage == .table && x.io.isEmpty then tableRead b pid g else b
  | .castOut =>
    if x.stage == .readback && x.io.isEmpty && h.b == 1 then
      match x.lastVa with
      | some va => readBack b pid g va
      | none => b
    else b
  | .groupRecordOut =>
    match x.recordDue with
    | none => b
    | some rec =>
      match writeRecord b pid g rec with
      | (b, none) => if x.st == .completing then groupDone b pid g else b
      | (b, some st) =>
        if (group b pid g).recordDue.isSome then b
        else if x.st == .completing then endGroup b pid g st false else b
  | _ => b

/-- The applications a predicate selects are gone, with the locks they hold or wait for. -/
def dropApps (b : Block) (p : App → Bool) : Block := (b.cru.apps.filter p).foldl dropApp b

/-- Handing a partition's groups back (Table 3-5): GROUP_LIMIT returns to 0 and its groups with it. -/
def dropGroups (b : Block) (pid : Nat) : Block :=
  let b := dropApps b (·.pid == pid)
  let b := { b with cru := { b.cru with groups := b.cru.groups.filter fun e => e.1 / 65536 ≠ pid } }
  wr b (0x6100 + pid) 0x40 0

/-- Sum of GROUP_LIMIT. -/
def groupPool (b : Block) : Nat := (pids.map (groupLimit b)).foldl (· + ·) 0

/-- A write to GROUP_LIMIT passes STATE and CONFLICT (R248). -/
def groupLimitState (b : Block) (pid : Nat) : Bool := (allGroups b).any fun e => e.1 == pid && e.2.2.live

def groupLimitConflict (b : Block) (pid v : Nat) : Bool := 16384 < groupPool b - groupLimit b pid + v

/-- Groups that the new limit takes away are gone; those it covers anew are IDLE. -/
def setGroupLimit (b : Block) (pid v : Nat) : Block :=
  let b := { b with cru := { b.cru with
      groups := b.cru.groups.filter fun e => e.1 / 65536 ≠ pid || e.1 % 65536 < v } }
  wr b (0x6100 + pid) 0x40 v

/-! ### Commands (R252, R276) -/

def groupFails (b : Block) (acc : Access) (pid arg : Nat) (ok : GState → Bool) : CmdFails :=
  { noFails with
    rights := notHostTntFw b acc pid
    range := arg / 65536 ≠ 0 || groupLimit b pid ≤ arg
    state := !ok (group b pid arg).st }

def groupArmCmd (b : Block) (acc : Access) (pid arg : Nat) : Block :=
  partCommand b acc 0x6100 pid 1 arg
    (fun b => groupFails b acc pid arg fun st => st == .idle || st == .done || st == .aborted)
    fun b =>
      let b := onGroup b pid arg fun x => { x with prev := x.st, checked := false, io := [], pages := [] }
      recordRead (groupState b pid arg .arming) pid arg

/-- From the next check the group is ABORTED for check 13. -/
def groupAbortCmd (b : Block) (acc : Access) (pid arg : Nat) : Block :=
  partCommand b acc 0x6100 pid 2 arg
    (fun b => groupFails b acc pid arg fun st => st == .arming || st == .armed || st == .completing)
    fun b => onGroup (stopGroup b pid arg) pid arg fun x => { x with ending := some (.aborted, true) }

/-! ### The rows -/

/-- GROUP_ARM (R252). -/
def execGroupArm (acc : Access) (pid : Nat) (arg : Word) (s : State) : Host.Outcome State Fault Refusal :=
  .next { s with dev := groupArmCmd s.dev acc pid arg.toNat }

/-- GROUP_RECORD_READ_DONE (R252). -/
def execGroupRecordReadDone (pid g : Nat) (ans : Answer) (s : State) : Host.Outcome State Fault Refusal :=
  .next { s with dev := groupRecordDone s.dev pid g ans }

/-- GROUP_ARMED (R253). -/
def execGroupArmed (pid g : Nat) (s : State) : Host.Outcome State Fault Refusal :=
  .next { s with dev := groupArmed s.dev pid g }

/-- GROUP_ABORT (R276). -/
def execGroupAbort (acc : Access) (pid : Nat) (arg : Word) (s : State) : Host.Outcome State Fault Refusal :=
  .next { s with dev := groupAbortCmd s.dev acc pid arg.toNat }

/-- GROUP_ABORT_DONE (R276). -/
def execGroupAbortDone (pid g : Nat) (s : State) : Host.Outcome State Fault Refusal :=
  .next { s with dev := abortDone s.dev pid g }

/-- APPLICATION (R265). -/
def execApplication (ms pid g slot contrib : Nat) (poison : Bool) (s : State) : Host.Outcome State Fault Refusal :=
  .next { s with dev := application s.dev ms pid g slot contrib poison }

/-- APPLICATION_REPORT (R265, R269). -/
def execApplicationReport (pid g slot contrib : Nat) (s : State) : Host.Outcome State Fault Refusal :=
  .next { s with dev := applicationReport s.dev pid g slot contrib }

/-- LOCAL_SLOT_READ_DONE (R268). -/
def execLocalSlotReadDone (pid g slot : Nat) (ans : Answer) (s : State) : Host.Outcome State Fault Refusal :=
  .next { s with dev := localSlotDone s.dev pid g slot ans }

/-- OUTPUT_CAST_DONE (R272). -/
def execOutputCastDone (pid g : Nat) (ans : Answer) (s : State) : Host.Outcome State Fault Refusal :=
  .next { s with dev := outputCast s.dev pid g ans }

/-- GROUP_READBACK_DONE (R270). -/
def execGroupReadbackDone (pid g : Nat) (ans : Answer) (s : State) : Host.Outcome State Fault Refusal :=
  .next { s with dev := readbackDone s.dev pid g ans }

/-- STREAM_TABLE_READ_DONE (R295). -/
def execStreamTableReadDone (pid g : Nat) (ans : Answer) (s : State) : Host.Outcome State Fault Refusal :=
  .next { s with dev := streamTableDone s.dev pid g ans }

/-- STREAM_BIND_DONE (R297). -/
def execStreamBindDone (pid g : Nat) (s : State) : Host.Outcome State Fault Refusal :=
  .next { s with dev := streamBindDone s.dev pid g }

/-- PHASE_DONE (R290). -/
def execPhaseDone (pid g ms : Nat) (poison : Bool) (s : State) : Host.Outcome State Fault Refusal :=
  .next { s with dev := phaseDone s.dev pid g ms poison }

/-- SECOND_PHASE_START (R294). -/
def execSecondPhaseStart (pid g : Nat) (s : State) : Host.Outcome State Fault Refusal :=
  .next { s with dev := secondPhase s.dev pid g }

end Sys2Proof.Machine
end

