-- ==== Sys2Proof/Machine/Ladle.lean ====
section
/-! DEFINITION. The Ladle: descriptors, bursts, pacing lines, halts, abort and resume, completion and teardown
(05 R151-R174). -/

namespace Sys2Proof.Machine

/-! ## The descriptor (05 Table 5-2, R156, R157) -/

def dStatus (n : Nat) (st : Status) : Nat := (statusCode st <<< 56) + n
def dCount (d lo : Nat) : Nat := bits d lo 12 + 1
def dN1 (d : Nat) : Nat := dCount d 308
def dN2 (d : Nat) : Nat := dCount d 372
def dN3 (d : Nat) : Nat := dCount d 436
def dS1 (d : Nat) : Int := toSigned 48 (bits d 256 48)
def dS2 (d : Nat) : Int := toSigned 48 (bits d 320 48)
def dS3 (d : Nat) : Int := toSigned 48 (bits d 384 48)
def dElem (d : Nat) : Nat := bits d 192 26
def dDstCx (d : Nat) : Nat := bits d 180 10
def dDstVa (d : Nat) : Nat := bits d 128 52
def dSrcCx (d : Nat) : Nat := bits d 116 10
def dSrcVa (d : Nat) : Nat := bits d 64 52
def dOwn (d : Nat) : Bool := bitAt d 63
def dIrq (d : Nat) : Bool := bitAt d 62
def dPrio (d : Nat) : Nat := bits d 58 4
def dPaceEn (d : Nat) : Bool := bitAt d 57
def dPaceLine (d : Nat) : Nat := bits d 49 8
def dSide (d : Nat) : Nat := bits d 47 2

def dElems (d : Nat) : Nat := dN1 d * dN2 d * dN3 d

/-- Bursts per element: 4 KiB from its first byte, the last carrying the remainder (R157). -/
def dPerElem (d : Nat) : Nat := (dElem d + 4095) / 4096

def dBursts (d : Nat) : Nat := dElems d * dPerElem d

/-- The whole transfer in beats. -/
def dBeats (d : Nat) : Nat := dElems d * (dElem d / 64)

/-- Beats that precede burst `n`. -/
def dBeatsBefore (d n : Nat) : Nat := (n / dPerElem d) * (dElem d / 64) + (n % dPerElem d) * 64

def dBurstLen (d n : Nat) : Nat := min 4096 (dElem d - 4096 * (n % dPerElem d))

/-- The address of element `k` on a side (R156), modulo 2^52. -/
def dElemAddr (d base k : Nat) (strided : Bool) : Nat :=
  if strided then
    let i1 := k % dN1 d
    let i2 := k / dN1 d % dN2 d
    let i3 := k / dN1 d / dN2 d
    ofSigned 52 ((base : Int) + i1 * dS1 d + i2 * dS2 d + i3 * dS3 d)
  else (base + k * dElem d) % 2 ^ 52

def dBurstAddr (d base n : Nat) (strided : Bool) : Nat :=
  (dElemAddr d base (n / dPerElem d) strided + 4096 * (n % dPerElem d)) % 2 ^ 52

/-- First source and destination addresses of burst `n` (SIDE selects the strided sides). -/
def dSrcAt (d n : Nat) : Nat := dBurstAddr d (dSrcVa d) n (dSide d == 0 || dSide d == 2)
def dDstAt (d n : Nat) : Nat := dBurstAddr d (dDstVa d) n (dSide d == 1 || dSide d == 2)

/-! ### Overlapping bytes (R159) -/

/-- Is a difference of addresses, modulo 2^52, above -`lo` and below `hi`? -/
def near (x : Int) (lo hi : Nat) : Bool := decide (ofSigned 52 x < hi) || decide (2 ^ 52 < ofSigned 52 x + lo)

/-- The least and the greatest multiple of a stride by the indices `-n < i < n` (`both`) or `0 ≤ i < n`. -/
def strideLeast (n : Nat) (s : Int) (both : Bool) : Int := min (if both then -((n : Int) - 1) * s else 0) (((n : Int) - 1) * s)
def strideMost (n : Nat) (s : Int) (both : Bool) : Int := max (if both then -((n : Int) - 1) * s else 0) (((n : Int) - 1) * s)

/-- Does `x` plus a sum of the three loops' strides come near 0? Each index runs below its count, or (`both`) over the
differences of two such indices. What lies out of reach of every sum is not searched. -/
def strideNear (d : Nat) (x : Int) (lo hi : Nat) (both : Bool) : Bool :=
  let least := x + strideLeast (dN1 d) (dS1 d) both + strideLeast (dN2 d) (dS2 d) both + strideLeast (dN3 d) (dS3 d) both
  let most := x + strideMost (dN1 d) (dS1 d) both + strideMost (dN2 d) (dS2 d) both + strideMost (dN3 d) (dS3 d) both
  let idx (n : Nat) : List Int :=
    if both then (List.range (2 * n - 1)).map fun (i : Nat) => (i : Int) - ((n : Int) - 1) else (List.range n).map fun (i : Nat) => (i : Int)
  decide (least - hi < (most + lo - 1) / 2 ^ 52 * 2 ^ 52)
    && (idx (dN3 d)).any fun i3 => (idx (dN2 d)).any fun i2 => (idx (dN1 d)).any fun i1 =>
      near (x + i1 * dS1 d + i2 * dS2 d + i3 * dS3 d) lo hi

/-- Do source and destination bytes of a descriptor overlap, as addresses of one context (log 25)? -/
def dOverlap (d : Nat) : Bool :=
  let all := dElems d * dElem d
  let x : Int := (dDstVa d : Int) - dSrcVa d
  dSrcCx d == dDstCx d && match dSide d with
    | 0 => strideNear d (-x) (dElem d) all false
    | 1 => strideNear d x (dElem d) all false
    | 2 => strideNear d x (dElem d) (dElem d) true
    | _ => near x all all

/-! ## Channels -/

def freshChan : Chan :=
  { st := .off, phase := .rest, desc := 0, next := 0, flights := [], wrote := false, endSt := .ok, residue := 0,
    rejected := false, haltKind := 0, haltBurst := 0, abort := none, stop := none, offAfter := false, io := [],
    lastBurst := 0, ackTop := 0 }

def chanIndex (c : Nat) : Nat := 0x4200 + c

def chan (b : Block) (c : Nat) : Chan := look b.ladle.chans freshChan c

def setChan (b : Block) (c : Nat) (x : Chan) : Block :=
  { b with ladle := { b.ladle with chans := store b.ladle.chans freshChan c x } }

/-- The partition that holds a channel; 0: none (R151). -/
def chanPid (b : Block) (c : Nat) : Nat :=
  (pids.find? fun p => (part b p).holdsRanges && (part b p).chanBase ≤ c
    && c < (part b p).chanBase + (part b p).chanCount).getD 0

/-- The channel's partition domain or the Ladle is not in service, so that its channels stop where they are and go OFF
at the domain's reset (12 R388, Table 12-6). -/
def chanFenced (b : Block) (c : Nat) : Bool := !partServed b (chanPid b c) || !served b uLadle

def ringCx (b : Block) (c : Nat) : Nat := bits (rd b (chanIndex c) 2) 16 10

def ringSize (b : Block) (c : Nat) : Nat := 2 ^ bits (rd b (chanIndex c) 2) 0 5

/-- The address of descriptor HEAD in the ring (R152). -/
def headVa (b : Block) (c : Nat) : Nat := (rd b (chanIndex c) 1 + 64 * rd b (chanIndex c) 7) % 2 ^ 52

def chanAsker (b : Block) (c : Nat) (k : ReqKind) (burst : Nat) : Asker :=
  ⟨⟨k, c, burst⟩, 1, c - (part b (chanPid b c)).chanBase⟩

/-- The context of a channel's request in context slot `cx`. -/
def chanCtx (b : Block) (c cx : Nat) : Ctx := ctxNow b (chanPid b c) cx

/-- Is a request one of the channel? -/
def ofChan (c : Nat) (h : Holder) : Bool :=
  h.a % 2 ^ 40 == c && (h.kind == .chanDesc || h.kind == .chanRead || h.kind == .chanWrite || h.kind == .chanReadback
    || h.kind == .chanStatus)

/-- Finishes the command of a pending ABORT, if it came as one. -/
def abortDoneAs (b : Block) (a : Option AbortReq) (detail : Nat) : Block :=
  match a with
  | some ⟨some k⟩ => finishCmd b (k / 256) (k % 256) .ok detail
  | _ => b

/-- A channel goes OFF; HEAD and the ring's OWN bits stay as they are (R172-R174). An ABORT still pending finds nothing
left to abort. -/
def chanOff (b : Block) (c : Nat) : Block :=
  let b := dropHolders { b with replies := b.replies.filter fun r => !ofChan c r.holder } (ofChan c)
  setChan (wr (abortDoneAs b (chan b c).abort 1) (chanIndex c) 3 0) c freshChan

/-- The channel's objects return to their defaults at hand-back (R172). -/
def chanDefaults (b : Block) (c : Nat) : Block :=
  [1, 2, 3, 4, 5, 7, 8, 9, 0x0A, 0x10, 0x11, 0x12, 0x13, 0x14, 0x15, 0xC0, 0xC1].foldl
    (fun b s => wr b (chanIndex c) s (objDefault (chanIndex c) s)) (chanOff b c)

/-! ## Halts (05 R167-R169, Table 5-6) -/

/-- The channel latches FAIL_VA and FAIL_INFO and counts HALTS; its interrupt is raised unless an ABORT is pending. It is
HALTED, or OFF where its ring's context is being closed (R172). -/
def chanHalt (b : Block) (c kind burst va : Nat) (st : Status) (write irq : Bool) : Block :=
  if chanFenced b c then b else
  let i := chanIndex c
  let info := (statusCode st <<< 24) + (ofBool write <<< 23) + (kind <<< 20)
  let b := count (wr (wr b i 9 va) i 0x0A info) i 0x14
  let b := if irq && (chan b c).abort.isNone then msixPart b (chanPid b c) (rd b i 5) else b
  let x := chan b c
  if x.offAfter then chanOff b c
  else setChan b c { x with
    st := .halted, phase := .rest, flights := [], io := [], haltKind := kind, haltBurst := burst, stop := none
    rejected := x.rejected && kind == 4 }

/-- The channel goes IDLE with TAIL = HEAD, and its ABORT is done (R168, R169). -/
def abortIdle (b : Block) (c detail : Nat) : Block :=
  let x := chan b c
  abortDoneAs (setChan (wr b (chanIndex c) 8 (rd b (chanIndex c) 7)) c
    { x with st := .idle, phase := .rest, io := [], abort := none, stop := none, rejected := false }) x.abort detail

/-- ABORT on a halted channel of KIND 1, 2 or 4 (R168): HEAD passes the descriptor whose write-back failed. -/
def abortAtOnce (b : Block) (c : Nat) : Block :=
  if (chan b c).haltKind = 4 then abortIdle (wr b (chanIndex c) 7 ((rd b (chanIndex c) 7 + 1) % ringSize b c)) c 2
  else abortIdle b c 1

/-- A halt of KIND 1, 2 or 4, which a pending ABORT ends at once (R169). -/
def haltAtOnce (b : Block) (c kind va : Nat) (st : Status) (write irq : Bool) : Block :=
  let b := chanHalt b c kind 0 va st write irq
  if (chan b c).st = .halted && (chan b c).abort.isSome && !chanFenced b c then abortAtOnce b c else b

/-! ## Fetching (05 R154) -/

/-- An ACTIVE channel fetches descriptor HEAD. -/
def chanFetch (b : Block) (c : Nat) : Block :=
  let b := setChan b c { chan b c with
    st := .active, phase := .fetch, flights := [], wrote := false, next := 0, rejected := false, io := [] }
  if !ctxOpen b (chanPid b c) (ringCx b c) then haltAtOnce b c 2 (headVa b c) .withdrawn false true
  else match startRead b (chanAsker b c .chanDesc 0) (chanCtx b c (ringCx b c)) (headVa b c) 64 false with
    | (b, .wait) => b
    | (b, .failed st va) => haltAtOnce b c 2 va st false true
    | (b, .issued segs) => setChan b c { chan b c with io := segs }

/-- With its ring empty, or its partition being withdrawn (R172), a channel is IDLE; else it fetches the next
descriptor. -/
def chanNext (b : Block) (c : Nat) : Block :=
  let i := chanIndex c
  if chanFenced b c then b
  else if rd b i 7 = rd b i 8 || !isLive b (chanPid b c) then
    setChan b c { chan b c with st := .idle, phase := .rest, io := [], abort := none, stop := none }
  else chanFetch b c

/-! ## Completion (05 R170, R171) -/

/-- Step 4: the interrupt if IRQ is set or the status is not OK, HEAD advances; then what the channel does next: it halts
on a rejected descriptor, goes OFF with its ring's context, ends an ABORT, or goes on. FAIL_VA and DIR of a rejected
descriptor are free values (the spec names no address for it). -/
def chanFinish (b : Block) (c : Nat) : Block :=
  let i := chanIndex c
  let x := chan b c
  let irq := dIrq x.desc || x.endSt != .ok || (x.abort.isSome && x.stop.isNone)
  let b := if irq then msixPart b (chanPid b c) (rd b i 5) else b
  let b := count (wr b i 7 ((rd b i 7 + 1) % ringSize b c)) i 0x10
  if x.offAfter then chanOff (setChan (abortDoneAs b x.abort (if x.endSt = .ok then 1 else 0)) c { x with abort := none }) c
  else if x.rejected then
    let (d, b) := draw b
    haltAtOnce b c 1 (d % 2 ^ 52) x.endSt (bitAt d 52) false
  else if x.abort.isSome then abortIdle b c (if x.endSt = .ok then 1 else 0)
  else chanNext (setChan b c { x with stop := none, io := [] }) c

/-- What a failing step 2 or 3 leaves (R171). -/
def writebackFail (b : Block) (c va : Nat) (st : Status) : Block := haltAtOnce b c 4 va st true true

/-- Step 2: the status word is written, in the state the channel is in. -/
def chanWriteback (b : Block) (c : Nat) : Block :=
  let x := chan b c
  let b := setChan b c { x with phase := .writeback, flights := [], io := [] }
  match startWrite b (chanAsker b c .chanStatus 0) (chanCtx b c (ringCx b c)) ((headVa b c + 56) % 2 ^ 52)
      ⟨8, dStatus x.residue x.endSt⟩ 0 4 false with
  | (b, .wait) => b
  | (b, .failed st va) => writebackFail b c va st
  | (b, .issued segs) => setChan b c { chan b c with io := segs }

/-- Step 3: the control word is written as fetched, with OWN = 0, once the status word is accepted. -/
def chanControl (b : Block) (c : Nat) : Block :=
  let x := chan b c
  let b := setChan b c { x with phase := .control, io := [] }
  match startWrite b (chanAsker b c .chanStatus 1) (chanCtx b c (ringCx b c)) (headVa b c)
      ⟨8, setBit (bits x.desc 0 64) 63 false⟩ 0 4 false with
  | (b, .wait) => b
  | (b, .failed st va) => writebackFail b c va st
  | (b, .issued segs) => setChan b c { chan b c with io := segs }

/-- The status latched at the latest halt. -/
def haltStatus (b : Block) (c : Nat) : Status := statusOf (bits (rd b (chanIndex c) 0x0A) 24 8)

/-- ABORT on a halted channel, by KIND (R168): on KIND 0 or 3 the descriptor completes by steps 2 to 4 with the latched
status. -/
def abortHalted (b : Block) (c : Nat) (key : Option Nat) : Block :=
  let x := { chan b c with abort := some ⟨key⟩ }
  if x.haltKind = 0 || x.haltKind = 3 then
    chanWriteback (setChan b c { x with
      endSt := haltStatus b c, residue := dBeats x.desc - dBeatsBefore x.desc x.haltBurst }) c
  else abortAtOnce (setChan b c x) c

/-- A halt of KIND 0 or 3 on a burst, on which a pending ABORT acts at once (R169). -/
def haltOnBurst (b : Block) (c kind burst va : Nat) (st : Status) (write : Bool) : Block :=
  let b := chanHalt b c kind burst va st write true
  match (chan b c).abort with
  | some ⟨k⟩ => if (chan b c).st = .halted && !chanFenced b c then abortHalted b c k else b
  | none => b

/-- The last destination beat written (R170). -/
def lastVa (x : Chan) : Nat := (dDstAt x.desc x.lastBurst + dBurstLen x.desc x.lastBurst - 64) % 2 ^ 52

/-- Step 1: the last destination beat written is read back. -/
def chanReadback (b : Block) (c : Nat) : Block :=
  let x := chan b c
  let b := setChan b c { x with phase := .readback, io := [] }
  match startRead b (chanAsker b c .chanReadback 0) (chanCtx b c (dDstCx x.desc)) (lastVa x) 64 true with
  | (b, .wait) => b
  | (b, .failed s va) => haltOnBurst b c 3 x.lastBurst va s true
  | (b, .issued segs) => setChan b c { chan b c with io := segs }

/-- A descriptor completes with a status and a residue (beats): from step 1, or from step 2 where it has written nothing
or a teardown completes it (R170, R172). -/
def chanComplete (b : Block) (c : Nat) (st : Status) (residue : Nat) : Block :=
  let x := { chan b c with endSt := st, residue := residue, flights := [] }
  if chanFenced b c then b
  else if x.wrote && st != .withdrawn then chanReadback (setChan b c x) c
  else chanWriteback (setChan b c x) c

/-! ## Bursts (05 R157, R162, R164) -/

def burstOf (x : Chan) (n : Nat) : Option Burst := x.flights.find? (·.num == n)

def setBurst (x : Chan) (u : Burst) : Chan :=
  { x with flights := x.flights.map fun v => if v.num = u.num then u else v }

def burstFailed (u : Burst) : Bool :=
  match u.phase with
  | .failed .. => true
  | _ => false

/-- Has a burst not yet issued a read beat? Such a burst is not in flight (R162), and the latest one started may be. -/
def burstUnissued (u : Burst) : Bool := u.phase == .wantRead || (u.phase == .readBeats && u.slots == 0)

/-- Beats of a burst. -/
def burstBeats (x : Chan) (u : Burst) : Nat := (dBurstLen x.desc u.num + 63) / 64

/-- Beats that a channel holds in flight: outstanding reads and staged beats together (R162). -/
def flightBeats (x : Chan) : Nat :=
  (x.flights.map fun u => match u.phase with
    | .readBeats => u.slots
    | .reading | .wantWrite => burstBeats x u
    | .writeBeats => burstBeats x u - u.slots
    | _ => 0).foldl (· + ·) 0

/-- A burst is answered with a failure. -/
def burstFail (b : Block) (c : Nat) (u : Burst) (st : Status) (write : Bool) (va : Nat) : Block :=
  setChan b c (setBurst (chan b c) { u with phase := .failed st write va, segs := [], slots := 0 })

/-- A burst's source tile is translated; its beats may then be read. A burst started in a context that is not OPEN is
answered WITHDRAWN on that side (03 R91; 05 R172). -/
def burstRead (b : Block) (c n : Nat) : Block :=
  let x := chan b c
  let d := x.desc
  match burstOf x n with
  | none => b
  | some u =>
    if !ctxOpen b (chanPid b c) (dSrcCx d) then burstFail b c u .withdrawn false (dSrcAt d n)
    else if !ctxOpen b (chanPid b c) (dDstCx d) then burstFail b c u .withdrawn true (dDstAt d n)
    else match prepare b (chanAsker b c .chanRead n) (chanCtx b c (dSrcCx d)) (dSrcAt d n) (dBurstLen d n) .read true with
      | (b, .wait) => b
      | (b, .failed st va) => burstFail b c u st false va
      | (b, .issued segs) => setChan b c (setBurst (chan b c) { u with phase := .readBeats, segs := segs, slots := 0 })

/-- A burst's destination tile is translated; its beats may then be written. -/
def burstWrite (b : Block) (c n : Nat) : Block :=
  let x := chan b c
  let d := x.desc
  match burstOf x n with
  | none => b
  | some u =>
    match prepare b (chanAsker b c .chanWrite n) (chanCtx b c (dDstCx d)) (dDstAt d n) (dBurstLen d n) .write true with
      | (b, .wait) => b
      | (b, .failed st va) => burstFail b c u st true va
      | (b, .issued segs) => setChan b c (setBurst (chan b c) { u with phase := .writeBeats, segs := segs, slots := 0 })

/-- Starts the next burst. -/
def burstStart (b : Block) (c : Nat) : Block :=
  let x := chan b c
  burstRead (setChan b c { x with next := x.next + 1, flights := x.flights ++ [⟨x.next, .wantRead, 0, [], 0, 0⟩] }) c x.next

/-- May another burst start: some left, a staging beat free, the burst before it issued, none failed, no abort or teardown
pending? -/
def mayStart (x : Chan) : Bool :=
  x.st == .active && x.phase == .bursts && x.next < dBursts x.desc && flightBeats x < 64
    && x.flights.all (fun u => u.phase != .wantRead && u.phase != .readBeats && !burstFailed u)
    && x.abort.isNone && x.stop.isNone

/-- Starts the next burst if it may; a paced channel with nothing in flight waits at its line instead. -/
def chanPump (b : Block) (c : Nat) : Block :=
  let x := chan b c
  if chanFenced b c || !mayStart x then b
  else if dPaceEn x.desc then
    if x.flights.isEmpty then setChan b c { x with st := .paceWait } else b
  else burstStart b c

/-- A burst that has issued no read beat is not moved after an abort or a teardown: it counts as not started. -/
def dropUnissued (x : Chan) : Chan :=
  { x with flights := x.flights.filter (!burstUnissued ·), next := x.next - (x.flights.filter burstUnissued).length }

/-! ## Beat slots (05 R160-R162) -/

/-- Beat slots of one cycle of local time, in each direction: 8 in each of 16 FCLK cycles. -/
def cycleSlots : Nat := 128

/-- Effective priority (R160). -/
def effPrio (b : Block) (c : Nat) : Nat := min (dPrio (chan b c).desc) (rd b (chanIndex c) 4)

/-- The burst whose beats a channel reads, or writes, next. -/
def beatBurst (x : Chan) (write : Bool) : Option Burst :=
  x.flights.find? fun u => u.phase == (if write then .writeBeats else .readBeats)

/-- How many beats a channel has ready: all that are left of the burst, a read beat only where staging has room. -/
def beatsReady (x : Chan) (write : Bool) : Nat :=
  match beatBurst x write with
  | none => 0
  | some u => if write then burstBeats x u - u.slots else min (burstBeats x u - u.slots) (64 - flightBeats x)

/-- Is a channel within a burst in this direction? -/
def midBurst (x : Chan) (write : Bool) : Bool := ((beatBurst x write).map (·.slots != 0)).getD false

/-- The channels with a beat ready. -/
def beatChans (b : Block) (write : Bool) : List Nat :=
  (b.ladle.chans.filter fun e => e.2.phase == .bursts && !chanFenced b e.1 && beatsReady e.2 write != 0).map (·.1)

/-- The channels of highest effective priority of a list. -/
def topChans (b : Block) (l : List Nat) : List Nat :=
  let top := l.foldl (fun m c => max m (effPrio b c)) 0
  l.filter fun c => effPrio b c == top

/-- The first of the channels, in ascending order from the one after `last`. -/
def afterLast (l : List Nat) (last : Nat) : Option Nat :=
  match l.find? (last < ·) with
  | some c => some c
  | none => l.head?

/-- The channel that takes the next beat slot: of those of highest effective priority with a beat ready, the one within its
burst, else the next in turn (R160). -/
def slotChan (b : Block) (write : Bool) : Option Nat :=
  let last := if write then b.ladle.turnWrite else b.ladle.turnRead
  let best := topChans b (beatChans b write)
  if best.contains last && midBurst (chan b last) write then some last else afterLast best last

/-- The channel served last, within its burst and with a beat ready, loses the slot to one of higher priority: it is
pre-empted, and counts (R161). -/
def preempt (b : Block) (write : Bool) (c : Nat) : Block :=
  let last := if write then b.ladle.turnWrite else b.ladle.turnRead
  if last ≠ c && (beatChans b write).contains last && midBurst (chan b last) write then count b (chanIndex last) 0x13 else b

/-- The slots a channel takes: spent in this cycle, and its turn. -/
def spendSlots (b : Block) (write : Bool) (c n : Nat) : Block :=
  if write then { b with ladle := { b.ladle with turnWrite := c, writeSlots := b.ladle.writeSlots + n } }
  else { b with ladle := { b.ladle with turnRead := c, readSlots := b.ladle.readSlots + n } }

/-- The bytes of package memory that another channel's burst in flight writes too are undefined: free values (R159). -/
def clashes (b : Block) (c : Nat) (segs : List Seg) : List (Nat × Nat) :=
  let theirs := b.ladle.chans.flatMap fun e =>
    if e.1 = c then [] else (e.2.flights.filter (·.phase == .writing)).flatMap (·.segs)
  segs.flatMap fun s => if placeOf b s.pa == .package then theirs.filterMap fun t => common s.pa s.len t.pa t.len else []

/-- All read beats of a burst have won slots: its tile's read goes out (log 24). -/
def burstReadGo (b : Block) (c : Nat) (u : Burst) : Block :=
  let b := setChan b c (setBurst (chan b c) { u with phase := .reading, slots := 0 })
  goRead b (chanAsker b c .chanRead u.num) (chanCtx b c (dSrcCx (chan b c).desc)) u.segs

/-- All write beats of a burst have won slots: its tile's write goes out. Bytes whose contents R159 leaves undefined are
free values. -/
def burstWriteGo (b : Block) (c : Nat) (u : Burst) : Block :=
  let x := chan b c
  let len := dBurstLen x.desc u.num
  let (data, b) := if dOverlap x.desc then draw b else (u.data, b)
  let b := setChan b c (setBurst { x with wrote := true } { u with phase := .writing, slots := 0 })
  let b := goWrite b (chanAsker b c .chanWrite u.num) (chanCtx b c (dDstCx x.desc)) ⟨len, data % 2 ^ (8 * len)⟩ u.poison 0
    u.segs
  (clashes b c u.segs).foldl (fun b p => let (d, b) := draw b; writeMem b p.1 d p.2) b

/-- One channel takes beat slots: as many as are left in the cycle and its burst can use. None: no slot or no beat. -/
def slotGrant (b : Block) (write : Bool) : Option Block :=
  let left := cycleSlots - (if write then b.ladle.writeSlots else b.ladle.readSlots)
  match if left = 0 then none else slotChan b write with
  | none => none
  | some c =>
    let x := chan b c
    let n := min left (beatsReady x write)
    match beatBurst x write with
    | none => none
    | some u =>
      let b := spendSlots (preempt b write c) write c n
      let b := if !write && u.slots = 0 then count b (chanIndex c) 0x12 else b
      let u := { u with slots := u.slots + n }
      if u.slots < burstBeats x u then some (setChan b c (setBurst x u))
      else if write then some (chanPump (burstWriteGo b c u) c)
      else some (chanPump (burstReadGo b c u) c)

/-- The slots left in this cycle go to the channels that have beats ready, write beats first. Each round takes at least
one of the cycle's 256 slots. -/
def beatsGo (b : Block) : Nat → Block
  | 0 => b
  | fuel + 1 =>
    match slotGrant b true with
    | some b => beatsGo b fuel
    | none => match slotGrant b false with
      | some b => beatsGo b fuel
      | none => b

def beats (b : Block) : Block := beatsGo b 257

/-- A new cycle of local time brings new slots. -/
def ladleCycle (b : Block) : Block := beats { b with ladle := { b.ladle with readSlots := 0, writeSlots := 0 } }

/-- The next step of a channel that moves bursts: it completes when all are done, ends an abort or a teardown at a
burst boundary, or starts more bursts. A failed burst waits for CHANNEL_HALT. -/
def chanStep (b : Block) (c : Nat) : Block :=
  let x := chan b c
  let left := dBeats x.desc - dBeatsBefore x.desc x.next
  if chanFenced b c || x.phase ≠ .bursts || x.flights.any burstFailed then b
  else if x.flights.isEmpty && x.next ≥ dBursts x.desc then chanComplete b c .ok 0
  else if x.flights.isEmpty && x.stop.isSome then chanComplete b c (x.stop.getD .withdrawn) left
  else if x.flights.isEmpty && x.abort.isSome then chanComplete b c .aborted left
  else beats (chanPump b c)

/-! ## Descriptor checks (05 R158) -/

def descStatus (b : Block) (c d : Nat) : Option Status :=
  let pid := chanPid b c
  if !ctxOpen b pid (dSrcCx d) || !ctxOpen b pid (dDstCx d) then some .withdrawn
  else if dPaceEn d && (paceOwner (paceEntry b (dPaceLine d)) != pid || paceSource (paceEntry b (dPaceLine d)) == 0) then
    some .guardFault
  else if dSrcVa d % 64 != 0 || dDstVa d % 64 != 0 || dElem d % 64 != 0 || dElem d == 0 || dElem d > 0x3FFFFC0
      || bits d 256 6 != 0 || bits d 320 6 != 0 || bits d 384 6 != 0 then some .misaligned
  else none

/-- A fetched descriptor: not owned, rejected, or run. -/
def descTake (b : Block) (c d : Nat) : Block :=
  let x := { chan b c with
    desc := d, next := 0, flights := [], wrote := false, io := [], lastBurst := 0, ackTop := 0, phase := .bursts }
  if !dOwn d then count (setChan b c { x with st := .idle, phase := .rest, stop := none }) (chanIndex c) 0x15
  else match descStatus b c d with
    | some st =>
      chanComplete (count (setChan b c { x with rejected := true }) 0x4000 6) c st (dElems d * ((dElem d + 63) / 64))
    | none => chanStep (setChan b c { x with rejected := false }) c

/-- 05 R158: a fetched descriptor arrives. In a context closed since, the channel goes OFF; in a partition withdrawn
since, it is IDLE (R172); in a fenced domain it stays (R173). -/
def descArrival (b : Block) (c : Nat) (ans : Answer) : Block :=
  let x := chan b c
  if x.phase ≠ .fetch then b
  else
    let va := headVa b c
    match arrive b ⟨.chanDesc, c, 0⟩ x.io ans 64 with
    | none => b
    | some (b, st, d) =>
      if chanFenced b c then setChan b c { chan b c with io := [] }
      else if x.offAfter then chanOff b c
      else if !isLive b (chanPid b c) then chanNext b c
      else if st = .ok then descTake b c d
      else haltAtOnce b c 2 va st false true

/-- The write of a burst is acknowledged: the burst is done. -/
def burstDone (b : Block) (c n : Nat) : Block :=
  let x := chan b c
  let len := dBurstLen x.desc n
  let x := { x with flights := x.flights.filter (·.num != n) }
  let x := if x.ackTop ≤ n then { x with lastBurst := n, ackTop := n + 1 } else x
  addTo (addTo (setChan b c x) (chanIndex c) 0x11 len) 0x4000 5 len

/-- 05 R162: the read data or the write acknowledgement of a burst arrives. -/
def burstArrival (b : Block) (c n : Nat) (ans : Answer) : Block :=
  let x := chan b c
  let d := x.desc
  match burstOf x n with
  | none => b
  | some u =>
    match u.phase with
    | .reading =>
      match arrive b ⟨.chanRead, c, n⟩ u.segs ans (dBurstLen d n) with
        | none => b
        | some (b, .ok, v) =>
          let u' := { u with phase := .wantWrite, data := v, segs := [] }
          let b := addTo (setChan b c (setBurst (chan b c) u')) 0x4000 4 (dBurstLen d n)
          if chanFenced b c then b else beats (chanStep (burstWrite b c n) c)
        | some (b, st, _) => burstFail b c u st false (dSrcAt d n)
    | .writing =>
      match arrive b ⟨.chanWrite, c, n⟩ u.segs ans 0 with
        | none => b
        | some (b, .ok, _) => chanStep (burstDone b c n) c
        | some (b, st, _) => burstFail b c u st true (dDstAt d n)
    | _ => b

/-- A translation a channel waited for has ended: the step that waited is tried again. -/
def chanRetry (b : Block) (c : Nat) : Block :=
  let x := chan b c
  if chanFenced b c then b
  else match x.phase with
  | .fetch => if x.io.isEmpty then chanFetch b c else b
  | .readback => if x.io.isEmpty then chanReadback b c else b
  | .writeback => if x.io.isEmpty then chanWriteback b c else b
  | .control => if x.io.isEmpty then chanControl b c else b
  | .bursts =>
    let b := x.flights.foldl (fun b u =>
      match u.phase with
      | .wantRead => if x.flights.any burstFailed then b else burstRead b c u.num
      | .wantWrite => burstWrite b c u.num
      | _ => b) b
    beats (chanStep b c)
  | .rest => b

/-! ## Halt, abort, resume (05 R167-R169) -/

/-- The failing burst that comes first in descriptor order. -/
def firstFailed (x : Chan) : Option Burst :=
  x.flights.foldl (fun m u => if burstFailed u && (match m with
    | none => true
    | some v => u.num < v.num) then some u else m) none

/-- Every burst in flight has been answered; a burst that has issued nothing is not in flight. -/
def allAnswered (x : Chan) : Bool := x.flights.all fun u => burstFailed u || burstUnissued u

/-- 05 R167: the channel halts on its first failed burst once every burst in flight has been answered; a pending ABORT
then acts at once. -/
def chanHaltNow (b : Block) (c : Nat) : Block :=
  let x := chan b c
  match firstFailed x with
  | none => b
  | some u =>
    if chanFenced b c || !allAnswered x then b
    else match u.phase with
      | .failed st w va => haltOnBurst b c 0 u.num va st w
      | _ => b

/-- The ABORT that is pending: one accepted before as a command keeps its result object. -/
def joinAbort (x : Chan) (key : Option Nat) : Chan :=
  match x.abort with
  | some ⟨some _⟩ => x
  | _ => { x with abort := some ⟨key⟩ }

/-- ABORT of a channel (R168, R169); `key` is the command's object if it came as a command. -/
def chanAbort (b : Block) (c : Nat) (key : Option Nat) : Block :=
  let x := chan b c
  let y := joinAbort x key
  match x.st, x.phase with
  | .off, _ => b
  | .idle, _ => abortDoneAs b (some ⟨key⟩) 1
  | .halted, .rest => abortHalted b c key
  | .paceWait, .bursts => chanComplete (setChan b c y) c .aborted (dBeats x.desc - dBeatsBefore x.desc x.next)
  | .active, .fetch => abortIdle (setChan (settle b ⟨.chanDesc, c, 0⟩) c y) c 1
  | .active, .bursts => chanStep (setChan b c (dropUnissued y)) c
  | _, _ => setChan b c y

/-- RESUME of a halted channel, by KIND (R168). The burst repeated needs no further pacing request (log 27). -/
def chanResume (b : Block) (c : Nat) : Block :=
  let x := chan b c
  let y := { x with st := .active }
  match x.haltKind with
  | 1 => chanNext (setChan b c y) c
  | 2 => chanFetch b c
  | 4 => chanWriteback (setChan b c y) c
  | _ => beats (burstStart (setChan b c { y with
      phase := .bursts, next := x.haltBurst, flights := [], io := [], ackTop := 0 }) c)

/-- Does a channel accept RESUME: halted, no ABORT of it under way, and its domain in service? -/
def mayResume (b : Block) (c : Nat) : Bool :=
  (chan b c).st == .halted && (chan b c).abort.isNone && !chanFenced b c

/-- 05 R170, R171: the read-back returns. -/
def readbackArrival (b : Block) (c : Nat) (ans : Answer) : Block :=
  let x := chan b c
  if x.phase ≠ .readback then b
  else match arrive b ⟨.chanReadback, c, 0⟩ x.io ans 64 with
    | none => b
    | some (b, st, _) =>
      if chanFenced b c then setChan b c { chan b c with io := [] }
      else if st = .ok then chanWriteback b c
      else haltOnBurst b c 3 x.lastBurst (dDstAt x.desc x.lastBurst) st true

/-- 05 R170, R171: the status word or the control word is accepted, and the next step follows; or the channel halts with
KIND 4. -/
def statusArrival (b : Block) (c : Nat) (ans : Answer) : Block :=
  let x := chan b c
  let n := if x.phase = .control then 1 else 0
  if x.phase ≠ .writeback && x.phase ≠ .control then b
  else match arrive b ⟨.chanStatus, c, n⟩ x.io ans 0 with
    | none => b
    | some (b, st, _) =>
      if chanFenced b c then setChan b c { chan b c with io := [] }
      else if st ≠ .ok then writebackFail b c ((headVa b c + (if n = 0 then 56 else 0)) % 2 ^ 52) st
      else if n = 0 then chanControl b c
      else chanFinish b c

/-! ## Pacing: a request taken (05 R164) -/

/-- The channels waiting at a line. -/
def paceWaiters (b : Block) (l : Nat) : List Nat :=
  (b.ladle.chans.filter fun e =>
    e.2.st == .paceWait && e.2.phase == .bursts && dPaceLine e.2.desc == l && !chanFenced b e.1).map (·.1)

/-- The waiting channel of highest effective priority, ties in ascending order from the one after the last served. -/
def paceChoice (b : Block) (l : Nat) : Option Nat := afterLast (topChans b (paceWaiters b l)) b.ladle.turn

/-- One request of a line releases one burst (R164). -/
def paceTaken (b : Block) (l : Nat) : Block :=
  let (n, o) := paceLevel b l
  if n = 0 then b
  else match paceChoice b l with
    | none => b
    | some c =>
      let b := setPace b l (n - 1, o)
      let b := { b with ladle := { b.ladle with turn := c } }
      beats (burstStart (setChan b c { chan b c with st := .active }) c)

/-! ## Doorbells (03 R105, R106; 05 R153) -/

def doorbellDiscard (b : Block) (pid : Nat) : Block := count b (0x2200 + pid) 0x14

/-- The partition a doorbell of a function reaches, for a relative index below `limit`: else it is discarded and
counted (R105, R106). -/
def doorbell (b : Block) (vf rel : Nat) (limit : Part → Nat) : Block × Option Nat :=
  let pid := pidOfVf b vf
  if pid = 0 then (count b 0x2000 7, none)
  else if !isLive b pid || !partServed b pid || !hostAdmitted b pid || limit (part b pid) ≤ rel then
    (doorbellDiscard b pid, none)
  else (b, some pid)

/-- A KICK replaces TAIL, and an IDLE channel starts fetching (R154, Table 5-8). -/
def chanKick (b : Block) (c tail : Nat) : Block :=
  let b := wr b (chanIndex c) 8 tail
  if (chan b c).st = .idle then
    if rd b (chanIndex c) 7 = tail then b else chanFetch b c
  else b

/-- A channel doorbell word (Table 5-1), with what discards it (R153, R174). -/
def chanDoorbell (b : Block) (vf rel : Nat) (word : Word) : Block :=
  match doorbell b vf rel (·.chanCount) with
  | (b, none) => b
  | (b, some pid) =>
    let w := word.toNat
    let c := (part b pid).chanBase + rel
    let x := chan b c
    let cmd := bits w 62 2
    let reserved := !zeroBits w 24 38 || (cmd != 3 && !zeroBits w 16 8) || (cmd != 0 && !zeroBits w 0 16)
    if reserved || !served b uLadle then doorbellDiscard b pid
    else if cmd = 3 then
      let e := paceEntry b (bits w 16 8)
      if paceOwner e = pid && paceSource e = 3 then paceRequest b (bits w 16 8) else doorbellDiscard b pid
    else if x.st = .off then doorbellDiscard b pid
    else match cmd with
      | 0 => if bits w 0 16 < ringSize b c then chanKick b c (bits w 0 16) else doorbellDiscard b pid
      | 1 => chanAbort b c none
      | _ => if mayResume b c then chanResume b c else doorbellDiscard b pid

/-! ## Teardown (05 R172, R173) -/

/-- The channels of a partition. -/
def chansOf (b : Block) (pid : Nat) : List Nat :=
  (List.range (part b pid).chanCount).map ((part b pid).chanBase + ·)

/-- A teardown meets a running channel (R172): its descriptor stops at the next burst boundary with WITHDRAWN, at once
where it waits at a line. -/
def chanStop (b : Block) (c : Nat) (off : Bool) : Block :=
  let x := { chan b c with stop := some .withdrawn, offAfter := off }
  match x.st, x.phase with
  | .paceWait, .bursts =>
    chanComplete (setChan b c x) c .withdrawn (dBeats x.desc - dBeatsBefore x.desc x.next)
  | .active, .bursts => chanStep (setChan b c (dropUnissued x)) c
  | _, _ => setChan b c { x with stop := (chan b c).stop }

/-- A context close meets a channel (R172). -/
def chanClose (b : Block) (cx c : Nat) : Block :=
  let x := chan b c
  let ring := ringCx b c == cx
  match x.st, x.phase with
  | .off, _ => b
  | .idle, _ => if ring then chanOff b c else b
  | .halted, .rest => if ring then chanOff b c else b
  | _, _ => if ring || dSrcCx x.desc == cx || dDstCx x.desc == cx then chanStop b c (x.offAfter || ring) else b

/-- The withdrawal's fence meets a channel (R172): a fetch is given up, and the channel goes OFF at hand-back. -/
def chanWithdraw (b : Block) (c : Nat) : Block :=
  let x := chan b c
  match x.st, x.phase with
  | .active, .fetch =>
    if x.io.isEmpty then setChan b c { x with st := .idle, phase := .rest } else b
  | .active, _ => chanStop b c false
  | .paceWait, _ => chanStop b c false
  | _, _ => b

/-- Is a channel still moving or completing? One of a fenced domain moves nothing more (03 R98; 05 R173). -/
def chanBusy (b : Block) (c : Nat) : Bool :=
  let x := chan b c
  (x.st == .active || x.st == .paceWait || (x.st == .halted && x.phase != .rest)) && !chanFenced b c

/-- The transactions of a channel that wait for an answer, in contexts that `p` selects. -/
def chanWaiting (b : Block) (c : Nat) (p : Ctx → Bool) : List Holder :=
  ((b.tags.used.filter fun u => ofChan c u.holder && p u.ctx).map (·.holder))
    ++ ((b.tags.waits.filter fun w => ofChan c w.holder && p w.ctx).map (·.holder))

/-- A channel's requests still outstanding at a drain timeout are answered with a status (03 R96, R97): a burst fails and
halts the channel, and so does a single access, by its KIND. -/
def chanExpire (b : Block) (c : Nat) (st : Status) (p : Ctx → Bool) : Block :=
  let x := chan b c
  let asked (segs : List Seg) : Bool := segs.any fun s => p s.ctx
  let b := { b with replies := b.replies.filter fun r => !ofChan c r.holder }
  match x.phase with
  | .fetch => if asked x.io then haltAtOnce (settle b ⟨.chanDesc, c, 0⟩) c 2 (headVa b c) st false true else b
  | .readback =>
    if asked x.io then
      haltOnBurst (settle b ⟨.chanReadback, c, 0⟩) c 3 x.lastBurst (dDstAt x.desc x.lastBurst) st true
    else b
  | .writeback => if asked x.io then writebackFail (settle b ⟨.chanStatus, c, 0⟩) c ((headVa b c + 56) % 2 ^ 52) st else b
  | .control => if asked x.io then writebackFail (settle b ⟨.chanStatus, c, 1⟩) c (headVa b c) st else b
  | .bursts =>
    let b := x.flights.foldl (fun b u =>
      if !asked u.segs || burstFailed u then b
      else
        let write := u.phase == .writing || u.phase == .writeBeats
        let h : Holder := ⟨if write then .chanWrite else .chanRead, c, u.num⟩
        burstFail (settle b h) c u st write (if write then dDstAt x.desc u.num else dSrcAt x.desc u.num)) b
    chanHaltNow b c
  | .rest => b

end Sys2Proof.Machine
end

