-- ==== Sys2Proof/Machine/Tpe.lean ====
section
/-! DEFINITION. Queue pairs and keys from the tenant's side: commands and set-up records, doorbells, work-queue entries,
completions, draining and resets, key revocation, queries and the credit timers (07 R215-R247, R444). -/

namespace Sys2Proof.Machine

/-! ## Names -/

def qpRel (b : Block) (i : Nat) : Nat := i - (part b (qp b i).pid).qpBase

/-- Who asks for a queue pair's local accesses (Table 4-10: SOURCE 4). -/
def qpAsker (b : Block) (i : Nat) (k : ReqKind) (x : Nat) : Asker := ⟨⟨k, i, x⟩, 4, qpRel b i⟩

def drainTime (b : Block) (pid : Nat) : Nat := micros (rd b (0x2200 + pid) 0x10)

/-- A key changes its state or generation: the partner learns of it (13 Table 13-3, kind 0x03). -/
def keyNum (k : Key) : Nat :=
  (ofBool k.bind <<< 208) + (k.bindQp <<< 192) + (k.len <<< 128) + (k.base <<< 64)
    + ((match k.st with | .free => 0 | .valid => 1 | .revoking => 2) <<< 62) + (k.rights <<< 56) + (k.gen <<< 48)
    + (k.pid <<< 42) + (k.cx <<< 32) + k.out % 2 ^ 32

def setKey (b : Block) (i : Nat) (k : Key) : Block := mirrorNote (putKey b i k) 3 k.pid i ⟨32, keyNum k⟩

/-! ## The send queue (R224-R227) -/

/-- The packets of a message taken over are sent again, as first retransmissions (13 R425 step 6; 06 R203). -/
def copyPackets (b : Block) (i : Nat) (m : SendMsg) : Block :=
  let mine (f : Flight) : Bool := psnDiff f.psn m.base < m.n
  let fs := (qp b i).flights.filter mine
  let reads := wOpcode m.wqe == 3
  let head := ((fs.head?).map (·.psn)).getD 0
  let again (f : Flight) : Flight := if mine f then { f with attempt := 1, req := if reads then head else f.psn } else f
  let b := onQp b i fun q => { q with flights := q.flights.map again }
  (if reads then fs.take 1 else fs).foldl (fun b f =>
    match takeFrame b i f.psn with
    | (b, true) => enqueue b (msgTx b i m f.psn 1 (if reads then min fs.length 64 else 1))
    | (b, false) => b) b

/-- The message whose payload a queue pair taken over reads next. -/
def copyOf (q : Qp) : Option SendMsg :=
  match q.copies with
  | n :: _ => q.msgs.find? fun m => m.msn == n && m.st.isNone
  | [] => none

/-- Its payload cannot be read: the message completes with the status, and the queue pair enters ERROR. -/
def copyFail (b : Block) (i : Nat) (st : Status) : Block :=
  let m := copyOf (qp b i)
  let b := onQp b i fun q => { q with copies := q.copies.tailD [], fetch := .rest, io := [] }
  match m with
  | some m => qpError (finishMsg b i m st 0 0) i st 0
  | none => b

/-- A WQE fails before it starts: it completes with the status and the queue pair enters ERROR (R226). -/
def wqeFail (b : Block) (i wqe : Nat) (st : Status) : Block := qpError (tearWqe b i wqe st) i st 0

/-- Reads the payload of a WRITE or REDUCE (R225), or that of a message taken over. -/
def payloadRead (b : Block) (i : Nat) : Block :=
  let q := qp b i
  let w := q.cur
  match startReadRun b (qpAsker b i .wqePayload 0) (ctxNow b q.pid (wLocalCx w)) (wLocalVa w) (wBytes w) with
  | (b, .wait) => onQp b i fun q => { q with fetch := .wantPayload }
  | (b, .issued segs) => onQp b i fun q => { q with fetch := .readPayload, io := segs }
  | (b, .failed st _) => if q.copies.isEmpty then wqeFail b i w st else copyFail b i st

/-- Messages taken over read their payloads before any new WQE is fetched (13 R425 step 6). -/
def copyNext (b : Block) (i : Nat) : Block :=
  let q := qp b i
  match copyOf q with
  | some m =>
    if q.runs && !q.resetting && q.fetch == .rest then payloadRead (setQp b i { q with cur := m.wqe }) i else b
  | none => onQp b i fun q => { q with copies := q.copies.tailD [] }

/-- The word of a queue pair's state, or of its key, is read from its table: not correctable, it fences the Transport
Engine (01 R26). -/
def qpWordBad (b : Block) (i : Nat) : Block × Bool := checkWord b uTPE 0x11 (qp b i).pid 0 i

def keyWordBad (b : Block) (j : Nat) : Block × Bool := checkWord b uTPE 0x12 (key b j).pid 0 (j % 65536)

/-- Reads the WQE at `sqNext`. -/
def wqeRead (b : Block) (i : Nat) : Block :=
  let q := qp b i
  match startRead b (qpAsker b i .wqeFetch 0) (ctxNow b q.pid q.cx) ((q.sqBase + 64 * q.sqNext) % 2 ^ 52) 64 false with
  | (b, .wait) => onQp b i fun q => { q with fetch := .wantWqe }
  | (b, .issued segs) => onQp b i fun q => { q with fetch := .readWqe, io := segs }
  | (b, .failed st _) =>
    match q.tearing with
    | some t => tearWqe b i 0 t
    | none => qpError (tearWqe b i 0 st) i st 0

/-- Fetches the WQE at `sqNext` if the queue pair runs, or tears its queue down. -/
def sqFetch (b : Block) (i : Nat) : Block :=
  let q := qp b i
  let on := (q.tearing.isSome && (q.resetting || q.st == .draining)) || (q.runs && !q.resetting)
  if !q.copies.isEmpty then copyNext b i
  else if !on || q.sqNext = q.sqTail || !(q.fetch == .rest || q.fetch == .wantWqe) then b
  else match qpWordBad b i with
    | (b, true) => b
    | (b, false) => wqeRead b i

/-- The queue goes on with its next WQE, torn ones one after another. -/
def sqGo (b : Block) (i : Nat) : Nat → Block
  | 0 => b
  | fuel + 1 =>
    let n := (qp b i).sqNext
    let b := sqFetch b i
    if (qp b i).sqNext = n then b else sqGo b i fuel

def sqRun (b : Block) (i : Nat) : Block := sqGo b i 65536

/-- The checks of R226 in order. -/
def wqeStatus (b : Block) (q : Qp) (w : Nat) : Option Status :=
  let op := wOpcode w
  let moves := op == 1 || op == 2 || op == 3
  if moves && !ctxOpen b q.pid (wLocalCx w) then some .withdrawn
  else if op = 0 || 7 < op || !q.tcMask.testBit (wTc w) then some .guardFault
  else if moves && (wLocalVa w % 64 ≠ 0 || wOffset w % 64 ≠ 0 || wBytes w % 64 ≠ 0 || wBytes w < 64
      || 0xFFFFFFC0 < wBytes w) then some .misaligned
  else if wAtomic w && wOffset w % 8 ≠ 0 then some .misaligned
  else none

/-- WQE_FETCH_DONE: the WQE is checked, and its payload is read where it has one. -/
def wqeFetchDone (b : Block) (i : Nat) (ans : Answer) : Block :=
  let q := qp b i
  if q.fetch != .readWqe then b
  else match arrive b ⟨.wqeFetch, i, 0⟩ q.io ans 64 with
    | none => b
    | some (b, st, w) =>
      let b := onQp b i fun q => { q with fetch := .rest, io := [] }
      match q.tearing with
      | some t => sqRun (tearWqe b i (if st = .ok then w else 0) t) i
      | none =>
        if st != .ok then wqeFail b i 0 st
        else match wqeStatus b q w with
          | some st => wqeFail b i w st
          | none =>
            let b := onQp b i fun q => { q with fetch := .ready, cur := w }
            if wOpcode w = 1 || wOpcode w = 2 then payloadRead b i else b

/-- The message of the WQE at `sqNext` starts, and the next WQE is fetched. -/
def wqeStart (b : Block) (i data : Nat) : Block :=
  let q := qp b i
  let m : SendMsg := ⟨0, .wqe q.sqNext, q.cur, 0, 0, 0, data, 0, none, 0, 0⟩
  let b := setQp b i { q with sqNext := (q.sqNext + 1) % 2 ^ q.sqLog, fetch := .rest, io := [] }
  sqRun (startMsg b i m) i

/-- WQE_WRITE and WQE_REDUCE: the payload is there and the message starts (R225-R227). -/
def wqePayload (b : Block) (i op : Nat) (ans : Answer) : Block :=
  let q := qp b i
  if q.fetch != .readPayload || wOpcode q.cur ≠ op then b
  else if !q.copies.isEmpty then
    match arrive b ⟨.wqePayload, i, 0⟩ q.io ans (wBytes q.cur), copyOf q with
    | some (b, st, d), some m =>
      if st ≠ .ok then copyFail b i st
      else
        let m' := { m with data := d }
        let b := onQp b i fun q => { q with
          copies := q.copies.tailD [], fetch := .rest, io := [], msgs := q.msgs.map fun x => if x = m then m' else x }
        sqRun (copyPackets b i m') i
    | _, _ => b
  else if !mayStartMsg b q q.cur then b
  else match arrive b ⟨.wqePayload, i, 0⟩ q.io ans (wBytes q.cur) with
    | none => b
    | some (b, st, d) => if st = .ok then wqeStart b i d else wqeFail b i q.cur st

/-- WQE_READ and the atomics: the message starts (R205, R225). -/
def wqeNoPayload (b : Block) (i op : Nat) : Block :=
  let q := qp b i
  if q.fetch != .ready || wOpcode q.cur ≠ op || !mayStartMsg b q q.cur then b else wqeStart b i 0

/-- WQE_NOP sends nothing, takes no MSN and completes OK in its turn (R225). -/
def wqeNopRun (b : Block) (i : Nat) : Block :=
  let q := qp b i
  if q.fetch != .ready || wOpcode q.cur ≠ 7 || !q.runs || q.resetting || (wFence q.cur && (oldestOpen q).isSome) then b
  else sqRun (tearWqe b i q.cur .ok) i

/-- A read or a placement on this chip fails (R226). -/
def localFailure (b : Block) (i : Nat) (st : Status) : Block :=
  let q := qp b i
  match b.tpe.works.find? fun k => k.qp == i && k.kind == .response with
  | some k =>
    let b := abandon { b with tpe := { b.tpe with works := b.tpe.works.erase k } } (workHolder k) k.segs
    match msgOfPsn q k.psn with
    | some m => qpError (finishMsg b i m st 0 0) i st 0
    | none => b
  | none =>
    match q.fetch with
    | .readWqe => wqeFail (onQp (abandon b ⟨.wqeFetch, i, 0⟩ q.io) i fun q => { q with fetch := .rest, io := [] }) i 0 st
    | .readPayload => wqeFail (onQp (abandon b ⟨.wqePayload, i, 0⟩ q.io) i fun q => { q with fetch := .rest, io := [] }) i q.cur st
    | _ => b

/-! ## Completions (R228-R230, R444) -/

/-- The tracker of a receive completion is freed (R195, R230). -/
def freeTracker (b : Block) (i : Nat) (slot : Option Nat) : Block :=
  match slot with
  | none => b
  | some s => match find? (qp b i).trackers s with
    | some t => onQp b i fun q => closeMsg q t.msn
    | none => b

/-- A completion entry whose write is answered other than OK (R444). -/
def completionFail (b : Block) (i : Nat) (st : Status) : Block :=
  let q := qp b i
  match q.due with
  | [] => b
  | c :: rest =>
    if cqFull q then b
    else
      let b := freeTracker (setQp b i { q with due := rest }) i c.slot
      if q.resetting then b
      else
        let b := qpError b i st 0
        let q := qp b i
        if q.st = .error && q.due.length = rest.length + 1 then
          setQp b i { q with due := (q.due.getLast?).toList ++ rest }
        else b

/-- The next completion due is written at CQ_PROD; the vector is raised where it is armed or the entry is that of R216.
An entry whose context has passed to another generation is answered WITHDRAWN (03 R92). -/
def completionWrite (b : Block) (i : Nat) : Block :=
  let q := qp b i
  match q.due with
  | [] => b
  | c :: rest =>
    if cqFull q then b
    else if !q.isAlias && q.ownGen ≠ (ctxSlot b q.pid q.cx).gen then completionFail b i .withdrawn
    else
      let e := c.entry + (ofBool q.phase <<< 63)
      match writeNow b (qpAsker b i .completion 0) (ctxNow b q.pid q.cx) ((q.cqBase + 32 * q.cqProd) % 2 ^ 52) ⟨32, e⟩ 0 2 with
      | (b, .wait) => b
      | (b, .failed st _) => completionFail b i st
      | (b, .issued _) =>
        let p := (q.cqProd + 1) % cqSize q
        let b := onQp b i fun q => { q with due := rest, cqProd := p, phase := if p = 0 then !q.phase else q.phase, armed := false }
        let b := if (q.armed || c.always) && q.vec ≠ 0 then msixPart b q.pid q.vec else b
        freeTracker b i c.slot

/-- The queue pairs of a partition, or of one of its contexts, that still owe completions. -/
def owing (b : Block) (pid : Nat) (cx : Option Nat) : List Nat :=
  (b.tpe.qps.filter fun e => e.2.pid == pid && !e.2.due.isEmpty && (cx == none || cx == some e.2.cx)).map (·.1)

/-- Before its context's generation moves on, a queue pair writes the completions it owes, as far as they find a place. -/
def writeOwed (b : Block) (pid : Nat) (cx : Option Nat) : Block :=
  (owing b pid cx).foldl (fun b i => (qp b i).due.foldl (fun b _ => completionWrite b i) b) b

/-- Does a queue pair owe a completion that has a place in its queue? -/
def owesNow (b : Block) (pid : Nat) (cx : Option Nat) : Bool := (owing b pid cx).any fun i => !cqFull (qp b i)

/-! ## Draining and resetting (R217, R218) -/

/-- Is an accepted packet of the queue pair not yet placed? -/
def unplaced (b : Block) (i : Nat) : Bool :=
  b.tpe.works.any (fun k => k.qp == i && k.kind != .response) || b.cru.apps.any fun a => !a.isLocal && a.qp == i

/-- The command pending on a queue pair's object finishes, if it names the queue pair. -/
def finishQp (b : Block) (i sub : Nat) (c : Code) (detail : Nat) : Block :=
  let pid := qpPid b i
  match pendingCmd b (0x5200 + pid) sub with
  | some p => if (part b pid).qpBase + p.arg % 65536 = i then finishCmd b (0x5200 + pid) sub c detail else b
  | none => b

/-- What the tenant posted and the block has not sent completes with a status: messages without a PSN handed out, and
WQEs still to be read (R217, R218). -/
def tearDown (b : Block) (i : Nat) (st : Status) (all : Bool) : Block :=
  let q := qp b i
  let b := failAsks b i st
  let b := match q.fetch with
    | .readWqe => abandon b ⟨.wqeFetch, i, 0⟩ q.io
    | .readPayload => abandon b ⟨.wqePayload, i, 0⟩ q.io
    | _ => b
  let have' := q.copies.isEmpty && (q.fetch == .ready || q.fetch == .wantPayload || q.fetch == .readPayload)
  let b := onQp b i fun q => { q with tearing := some st, fetch := .rest, io := [], copies := [] }
  let b := failMsgs b i (fun m => all || m.sent == 0) st
  let b := if have' then tearWqe b i q.cur st else b
  sqRun b i

/-- QP_RESET acts (R218). -/
def resetQp (b : Block) (i : Nat) : Block :=
  let b := onQp b i fun q => { q with resetting := true }
  let b := dropTx b fun t => t.tracked && t.qp == i
  tearDown b i .aborted true

/-- The queue pair is RESET, and the QP_DRAIN or QP_RESET pending on it finishes. -/
def leaveQp (b : Block) (i : Nat) : Block :=
  let q := qp b i
  let b := toReset b i
  let b := if q.resetting then finishQp b i 3 .ok 0 else b
  if q.st == .draining then finishQp b i 4 .ok 0 else b

/-- Every completion due has been written: the queue pair is RESET. -/
def resetDone (b : Block) (i : Nat) : Block :=
  let q := qp b i
  if !q.resetting || q.sqNext ≠ q.sqTail || !q.due.isEmpty || !q.msgs.isEmpty || unplaced b i then b
  else leaveQp b i

/-- Packets of the queue pair queued to be sent are removed; a message whose first transmission is among them, or is
not yet queued, completes WITHDRAWN (R217). -/
def quietTx (b : Block) (i : Nat) : Block :=
  let gone := (b.tpe.ports.flatMap fun e => e.2.queue) ++ b.tpe.noPath
  let psns := (gone.filter fun t => t.tracked && t.qp == i && t.attempt == 0).map (·.psn)
  let b := dropTx b fun t => t.tracked && t.qp == i
  failMsgs b i (fun m => m.n != 0 && (m.sent != m.n || psns.any fun p => psnDiff p m.base < m.n)) .withdrawn

/-- A queue pair starts draining: by QP_DRAIN, or without retransmission at a context close or a withdrawal. -/
def drainQp (b : Block) (i : Nat) (quiet : Bool) : Block :=
  let b := onQp b i fun q => { q with st := .draining, quiet := quiet, drainAt := b.clk.now }
  let b := if quiet then quietTx b i else b
  noteQp (tearDown b i .withdrawn false) i

/-- The drain is over: what was placed is acknowledged, trackers close without a completion, and the queue pair is RESET
(R217). -/
def drainEnd (b : Block) (i : Nat) : Block :=
  leaveQp (if (qp b i).unreported ≠ 0 && !(qp b i).resetting then sendAck b i else b) i

/-- QP_DRAIN_COMPLETE: a message whose completion still waits for room is not finished (R217, R230; DESIGN CHOICE,
log 29). -/
def drainDone (b : Block) (i : Nat) : Block :=
  let q := qp b i
  if q.st != .draining || q.sqNext ≠ q.sqTail || q.msgs.any (·.st.isNone) || unplaced b i || !q.due.isEmpty then b
  else drainEnd b i

/-- The WQEs still unread complete without having been read. -/
def tearRest (b : Block) (i : Nat) : Nat → Block
  | 0 => b
  | fuel + 1 => if (qp b i).sqNext = (qp b i).sqTail then b else tearRest (tearWqe b i 0 .withdrawn) i fuel

/-- What is left of a draining queue pair is given up: its unanswered requests count in DRAIN_EXPIRED, and each raises
TAG_TIMEOUT. -/
def expireQp (b : Block) (i : Nat) : Block :=
  let q := qp b i
  let n := framesOf b i
  let b := (List.range n).foldl (fun b _ => raiseFree b 23 uTPE q.pid) (addTo b (0x2200 + q.pid) 0x15 n)
  let b := match q.fetch with
    | .readWqe => abandon b ⟨.wqeFetch, i, 0⟩ q.io
    | _ => b
  drainEnd (tearRest (failMsgs b i (fun _ => true) .withdrawn) i 65536) i

def drainTimeout (b : Block) (i : Nat) : Block :=
  let q := qp b i
  if q.st != .draining || !elapsed b q.drainAt (drainTime b q.pid) then b else expireQp b i

/-- A context closes, or the partition is withdrawn (R94, Table 3-5): its queue pairs drain quietly; one not connected
goes to RESET at once. -/
def closeQp (b : Block) (i : Nat) : Block :=
  let q := qp b i
  match q.st with
  | .reset => b
  | .draining => quietTx (onQp b i fun q => { q with quiet := true }) i
  | _ => if q.resetting then b else drainQp b i true

/-- The queue pairs of a partition that are not RESET. -/
def qpsOf (b : Block) (pid : Nat) : List Nat :=
  (b.tpe.qps.filter fun e => e.2.pid == pid && e.2.st != .reset).map (·.1)

/-! ## Set-up commands (R219-R223) -/

def setupBase (b : Block) (pid : Nat) : Nat := rd b (0x5200 + pid) 0x40

/-- The offset and length of the record a set-up command reads (Table 7-2). -/
def setupPlace (sub arg : Nat) : Nat × Nat := if sub = 8 then (0x400000 + 32 * arg, 32) else (64 * arg, 64)

def hostOrFw (acc : Access) : Bool := roleOf acc.path == .host || roleOf acc.path == .fw

/-- A set-up or query command whose host access is answered with a status finishes with RESOURCE (R222, R245). -/
def failCmd (b : Block) (pid sub : Nat) (st : Status) : Block :=
  finishCmd b (0x5200 + pid) sub .resource (statusCode st <<< 16)

/-- Host traffic of a sealed partition whose function is not RUN is refused (03 Table 3-11). -/
def hostRefused (b : Block) (pid sub : Nat) : Block := failCmd b pid sub .busError

/-- The object a command of 0x52pp names: its relative queue pair or key. -/
def cmdObject (sub arg : Nat) : Nat := if sub = 5 then bits arg 0 16 else if sub = 0x0A then bits arg 0 18 else arg

/-- Does a command name a key? -/
def ofKeys (sub : Nat) : Bool := 8 ≤ sub

/-- A set-up command of the same queue pair or key was accepted before and still waits for its record: commands of one
object take effect in the order of their acceptance (02 R53). The command itself is the last pending. -/
def setupBefore (b : Block) (pid sub arg : Nat) : Bool :=
  b.dict.cmds.any fun c => c.key / 256 == 0x5200 + pid && (c.key % 256 == 1 || c.key % 256 == 2 || c.key % 256 == 8)
    && c.key % 256 != sub && ofKeys (c.key % 256) == ofKeys sub && c.arg == cmdObject sub arg

/-- A command reads the state of the queue pair or key it names; a word that cannot be corrected finishes it with STATE
(01 R26; DESIGN CHOICE, log 21). -/
def objectRead (b : Block) (pid sub arg : Nat) (run : Block → Block) : Block :=
  let p := part b pid
  let (b, bad) := if ofKeys sub then keyWordBad b (p.keyBase + cmdObject sub arg) else qpWordBad b (p.qpBase + cmdObject sub arg)
  if bad then finishCmd b (0x5200 + pid) sub .state 0 else run b

/-- A command on a queue pair or key runs, or waits for the set-up command before it (02 R53). -/
def inOrder (b : Block) (pid sub arg : Nat) (run : Block → Block) : Block :=
  if setupBefore b pid sub arg then b else objectRead b pid sub arg run

/-- QP_INIT, QP_CONNECT and KEY_REG: the record is read on the partition's host link. A queue pair whose state does not
accept the command answers at once (R215); every check of Table 7-4 follows the record read. -/
def setupCmd (b : Block) (acc : Access) (pid sub arg : Nat) (accepts : Block → Bool) : Block :=
  partCommand b acc 0x5200 pid sub arg
    (fun b => { noFails with
      rights := !hostOrFw acc
      range := if sub = 8 then 2 ^ 18 ≤ arg || (part b pid).keyCount ≤ arg else 2 ^ 16 ≤ arg || (part b pid).qpCount ≤ arg
      state := !isLive b pid || !accepts b })
    fun b =>
      if setupBase b pid = 0 then finishCmd b (0x5200 + pid) sub .state 0
      else if !hostAdmitted b pid then hostRefused b pid sub
      else
        let (off, len) := setupPlace sub arg
        issue b ⟨.host, ⟨pid, 0, 0⟩, [], ⟨.setupRecord, pid, sub⟩,
          [.hostRead 0 ((setupBase b pid + off) % 2 ^ 64) len (viaOf b pid true)]⟩

/-- The first offending byte of QP_INIT's fields (Table 7-3). -/
def initFault (r : Nat) : Option Nat :=
  if 16 < bits r 16 5 || bits r 16 5 < 4 then some 2
  else if 63 < bits r 32 8 then some 4
  else if bits r 44 4 < 4 then some 5
  else if bits r 64 52 % 4096 ≠ 0 then some 8
  else if bits r 128 52 % 4096 ≠ 0 then some 16
  else if bits r 240 16 ≠ 0 && (bits r 240 16 < 5 || 10000 < bits r 240 16) then some 30
  else none

/-- QP_INIT done: the queue pair takes the record's Init fields and is in INIT. Completions it still owes to the same
context wait on, for the new ring (R230; DESIGN CHOICE, log 29). -/
def initQp (b : Block) (pid r : Nat) (old : Qp) : Qp :=
  let cx := bits r 48 10
  let same := old.pid == pid && old.cx == cx && old.ownGen == (ctxSlot b pid cx).gen
  let orElse (v d : Nat) : Nat := if v = 0 then d else v
  { freshQp with
    st := .init, pid := pid, cx := cx, ownGen := (ctxSlot b pid cx).gen
    sqBase := bits r 64 52, sqLog := bits r 44 4, cqBase := bits r 128 52, cqLog := bits r 16 5
    retx := orElse (bits r 240 16) 50, retry := orElse (bits r 236 4) 7, tcMask := orElse (bits r 232 4) 7
    entropy := bits r 0 16, vec := bits r 32 8, due := if same then old.due else [] }

/-- QP_CONNECT done: the Connect fields. -/
def connectQp (q : Qp) (r : Nat) : Qp :=
  { q with st := .ready, rChip := bits r 308 12, rQp := bits r 292 16, rGen := bits r 284 8
           sendPsn := bits r 360 24, rxBase := bits r 336 24 }

/-- The first offending byte of a key registration record (R232). -/
def keyFault (b : Block) (pid r : Nat) : Option Nat :=
  let base := bits r 64 52
  let len := bits r 128 44
  if bits r 56 4 = 0 then some 7
  else if base % 64 ≠ 0 || 2 ^ 52 < base + len then some 8
  else if len % 64 ≠ 0 || len < 64 then some 16
  else if bitAt r 208 && (part b pid).qpCount ≤ bits r 192 16 then some 24
  else none

def regKey (k : Key) (pid r : Nat) : Key :=
  let bind := bitAt r 208
  { k with st := .valid, gen := (k.gen + 1) % 256, pid := pid, cx := bits r 32 10, base := bits r 64 52, len := bits r 128 44
           rights := bits r 56 4, bind := bind, bindQp := if bind then bits r 192 16 else 0, out := 0 }

/-- The command of a record, checked in the order of Table 7-4. -/
def setupRun (b : Block) (pid sub arg r : Nat) : Block × Code × Nat :=
  let p := part b pid
  let i := p.qpBase + arg
  match sub with
  | 1 =>
    if !isLive b pid || (qp b i).st != .reset || qpReserved b i || !ctxOpen b pid (bits r 48 10) then (b, .state, 0)
    else match initFault r with
      | some off => (b, .range, off)
      | none => (noteQp (setQp b i (initQp b pid r (qp b i))) i, .ok, 0)
  | 2 =>
    let q := qp b i
    if !isLive b pid || q.st != .init || q.resetting || !ctxOpen b pid q.cx then (b, .state, 0)
    else if bits r 308 12 = chipId b then (b, .range, 38)
    else
      let b := count (noteQp (setQp b i (connectQp q r)) i) 0x5020 5
      (sqRun b i, .ok, 0)
  | _ =>
    let j := p.keyBase + arg
    if !isLive b pid || (key b j).st != .free || keyReserved b j || !ctxOpen b pid (bits r 32 10) then (b, .state, 0)
    else match keyFault b pid r with
      | some off => (b, .range, off)
      | none =>
        let k := regKey (key b j) pid r
        (setKey b j k, .ok, k.gen)

def qpInitCmd (b : Block) (acc : Access) (pid arg : Nat) : Block :=
  setupCmd b acc pid 1 arg fun b =>
    (qp b ((part b pid).qpBase + arg)).st == .reset && !qpReserved b ((part b pid).qpBase + arg)

def qpConnectCmd (b : Block) (acc : Access) (pid arg : Nat) : Block :=
  setupCmd b acc pid 2 arg fun b => (qp b ((part b pid).qpBase + arg)).st == .init

def keyRegCmd (b : Block) (acc : Access) (pid arg : Nat) : Block := 
  setupCmd b acc pid 8 arg fun b => !keyReserved b ((part b pid).keyBase + arg)

/-! ## QP_RESET, QP_DRAIN, KEY_REVOKE -/

/-- The checks of a command on a relative queue pair of a LIVE partition. -/
def qpFails (b : Block) (acc : Access) (pid arg : Nat) (ok : Qp → Bool) : CmdFails :=
  let p := part b pid
  { noFails with
    rights := notHostTntFw b acc pid
    range := 2 ^ 16 ≤ arg || p.qpCount ≤ arg
    state := !isLive b pid || !ok (qp b (p.qpBase + arg)) }

def qpResetCmd (b : Block) (acc : Access) (pid arg : Nat) : Block :=
  partCommand b acc 0x5200 pid 3 arg
    (fun b => qpFails b acc pid arg fun q => q.st != .reset && q.st != .draining)
    fun b => inOrder b pid 3 arg fun b => resetQp b ((part b pid).qpBase + arg)

def qpDrainCmd (b : Block) (acc : Access) (pid arg : Nat) : Block :=
  partCommand b acc 0x5200 pid 4 arg
    (fun b => qpFails b acc pid arg fun q => q.runs && !q.resetting)
    fun b => inOrder b pid 4 arg fun b => drainQp b ((part b pid).qpBase + arg) false

/-- The partition whose range holds a key; 0: none. -/
def keyPid (b : Block) (j : Nat) : Nat :=
  (pids.find? fun p => (part b p).holdsRanges && (part b p).keyBase ≤ j && j < (part b p).keyBase + (part b p).keyCount).getD 0

/-- A VALID key moves to REVOKING (R235). -/
def revokeKey (b : Block) (j : Nat) : Block :=
  let k := key b j
  if k.st = .valid then setKey b j { k with st := .revoking, since := b.clk.now } else b

def keyRevokeCmd (b : Block) (acc : Access) (pid arg : Nat) : Block :=
  partCommand b acc 0x5200 pid 9 arg
    (fun b =>
      let p := part b pid
      { noFails with
        rights := notHostTntFw b acc pid
        range := 2 ^ 18 ≤ arg || p.keyCount ≤ arg
        state := !isLive b pid || (key b (p.keyBase + arg)).st != .valid })
    fun b => inOrder b pid 9 arg fun b => revokeKey b ((part b pid).keyBase + arg)

/-- The KEY_REVOKE pending on a key finishes. -/
def finishKey (b : Block) (j detail : Nat) : Block :=
  let pid := keyPid b j
  match pendingCmd b (0x5200 + pid) 9 with
  | some c => if (part b pid).keyBase + c.arg = j then finishCmd b (0x5200 + pid) 9 .ok detail else b
  | none => b

/-- The key is FREE; its generation stays (R233, R235). -/
def freeKey (b : Block) (j detail : Nat) : Block :=
  let k := key b j
  finishKey (setKey b j { freshKey with gen := k.gen, pid := k.pid }) j detail

/-- KEY_REVOKE_COMPLETE (R235). -/
def revokeDone (b : Block) (j : Nat) : Block :=
  let k := key b j
  if k.st = .revoking && k.out = 0 then freeKey b j 0 else b

/-- READ_REQs on a key whose responses still wait to be sent: the queue pair, the PSN and the MSN of each one's next
response. -/
def readsQueued (b : Block) (j : Nat) : List (Nat × Nat × Nat) :=
  let l := ((b.tpe.ports.flatMap fun e => e.2.queue) ++ b.tpe.noPath).filter (·.lastOf == some j)
  (l.foldl (fun (r : List Tx) t => if r.any fun u => u.qp == t.qp && u.req == t.req then r else r ++ [t]) []).map
    fun t => (t.qp, t.psn, bits (swapBytes (slice t.body.val 16 24) 24) 96 16)

/-- What is still counted on a key is answered with a status to its queue pair, its tag is freed, and the key is FREE
(R236). -/
def expireKey (b : Block) (j : Nat) (st : Status) : Block :=
  let k := key b j
  let ws := b.tpe.works.filter fun w => w.key == j && w.kind != .response
  let b := { b with tpe := { b.tpe with works := b.tpe.works.filter fun w => !(w.key == j && w.kind != .response) } }
  let b := ws.foldl (fun b w =>
    let b := lockForget (abandon b (workHolder w) w.segs) (.packet w.qp w.psn)
    let b := if w.kind = .read && w.issued then b else freeSlot b
    refuse b w.qp w.psn w.msn st) b
  let as := b.cru.apps.filter fun a => !a.isLocal && a.key == j
  let b := as.foldl (fun b a =>
    endGroup (refuse (freeSlot (dropApps b (·.num == a.num))) a.qp a.psn a.msn st) a.pid a.group st true) b
  let rs := readsQueued b j
  let b := dropTx b fun t => t.lastOf == some j
  freeKey (rs.foldl (fun b r => refuse b r.1 r.2.1 r.2.2 st) b) j (min k.out 0xFFFFFF)

/-- KEY_REVOKE_TIMEOUT: what is still counted is answered KEY_REVOKED to its queue pair and its tag is freed (R236). -/
def revokeTimeout (b : Block) (j : Nat) : Block :=
  let k := key b j
  if k.st ≠ .revoking || k.out = 0 || !elapsed b k.since (drainTime b k.pid) then b else expireKey b j .keyRevoked

/-! ## Doorbells (R224) -/

/-- A queue-pair doorbell word at a relative index of a partition. -/
def qpWord (b : Block) (pid rel w : Nat) : Block :=
  let i := (part b pid).qpBase + rel
  let (b, bad) := qpWordBad b i
  let q := qp b i
  let v := bits w 0 16
  let live := q.st == .init || q.runs || q.st == .error
  let drop := doorbellDiscard b pid
  if bad || !zeroBits w 16 46 || (part b pid).qpCount ≤ rel then drop
  else match bits w 62 2 with
    | 0 =>
      if !live || 2 ^ q.sqLog ≤ v then drop
      else sqRun (setQp b i { q with sqTail := v }) i
    | 1 =>
      if !(live || q.st == .draining) || cqSize q ≤ v then drop
      else setQp b i { q with cqCons := v }
    | 2 => if !(live || q.st == .draining) || v ≠ 0 then drop else setQp b i { q with armed := true }
    | _ => drop

/-- A doorbell of a virtual function for a relative queue pair. -/
def qpDoorbell (b : Block) (vf rel : Nat) (word : Word) : Block :=
  match doorbell b vf rel (·.qpCount) with
  | (b, none) => b
  | (b, some pid) => if served b uTPE then qpWord b pid rel word.toNat else doorbellDiscard b pid

/-! ## Queries (R245, R246) -/

/-- The query record of a queue pair as its reader sees it. -/
def qpQueryNum (b : Block) (pid i : Nat) (host : Bool) : Nat :=
  let q := qp b i
  if !isSealed b pid then queryNum q (qpCounters q)
  else
    let n := queryNum q q.taps
    if host then
      let n := setBits (setBits (setBits n 168 24 0) 104 24 0) 80 24 0
      setBits (setBits (setBits n 64 16 0) 16 16 0) 0 16 0
    else n

def keyQueryNum (b : Block) (pid j : Nat) (host : Bool) : Nat :=
  let k := key b j
  keyNum (if host && isSealed b pid then { k with out := 0 } else k)

/-- The context and address of a query slot named by a tenant. -/
def queryBase (b : Block) (pid : Nat) : Nat := rd b (0x5200 + pid) 0x41

/-- Writes a query record where its command asked for it: the tenant's area, or the set-up area. -/
def queryWrite (b : Block) (pid sub : Nat) : Block :=
  match pendingCmd b (0x5200 + pid) sub with
  | none => b
  | some c =>
    let slot := bits c.arg 56 8
    let tenant := roleOf c.acc.path == .tnt
    let p := part b pid
    let h : Holder := ⟨.queryWrite, pid, sub⟩
    let d : Bytes :=
      if sub = 5 then ⟨64, qpQueryNum b pid (p.qpBase + bits c.arg 0 16) (!tenant)⟩
      else ⟨32, keyQueryNum b pid (p.keyBase + bits c.arg 0 18) (!tenant)⟩
    if tenant then
      let base := queryBase b pid
      let cx := bits base 52 10
      if !ctxOpen b pid cx then failCmd b pid sub .withdrawn
      else match startWrite b ⟨h, 4, bits c.arg 0 11⟩ (ctxNow b pid cx) ((bits base 0 52 + 64 * slot) % 2 ^ 52) d 0 2 false with
        | (b, .failed st _) => failCmd b pid sub st
        | (b, _) => b
    else if setupBase b pid = 0 then finishCmd b (0x5200 + pid) sub .state 0
    else if !hostAdmitted b pid then hostRefused b pid sub
    else
      let (b, m) := checkPath b pid 0 1 [(uTPE, 2), (uDXE, 2)]
      let b := hostWrite b pid ((setupBase b pid + 0xC00000 + 64 * slot) % 2 ^ 64) d (m ≠ 0) 2
      issue b ⟨.host, ⟨pid, 0, 0⟩, [], h, []⟩

def queryCmd (b : Block) (acc : Access) (pid sub arg : Nat) : Block :=
  partCommand b acc 0x5200 pid sub arg
    (fun b =>
      let p := part b pid
      { noFails with
        rights := notHostTntFw b acc pid
        range := if sub = 5 then bits arg 16 40 ≠ 0 || p.qpCount ≤ bits arg 0 16
          else bits arg 18 38 ≠ 0 || p.keyCount ≤ bits arg 0 18
        state := !(isLive b pid || p.st == .withdrawing) })
    fun b => inOrder b pid sub arg fun b => queryWrite b pid sub

/-- QUERY_WRITE_DONE (R245). -/
def queryDone (b : Block) (pid sub : Nat) (ans : Answer) : Block :=
  let h : Holder := ⟨.queryWrite, pid, sub⟩
  if !(sub = 5 || sub = 0x0A) || (pendingCmd b (0x5200 + pid) sub).isNone || !issued b h then b
  else
    let b := settleTile b h
    if ans.st = .ok then finishCmd b (0x5200 + pid) sub .ok 0 else failCmd b pid sub ans.st

/-! ## Set-up records arrive (R222, R223) -/

/-- A command that waited for a set-up command of its object now runs, if its partition and object still accept it
(R215; 02 R53). -/
def resumeCmd (b : Block) (pid : Nat) (c : PendCmd) : Block :=
  let sub := c.key % 256
  let p := part b pid
  let i := p.qpBase + c.arg % 65536
  let ok := match sub with
    | 3 => isLive b pid && (qp b i).st != .reset && (qp b i).st != .draining
    | 4 => isLive b pid && (qp b i).runs && !(qp b i).resetting
    | 9 => isLive b pid && (key b (p.keyBase + c.arg)).st == .valid
    | _ => isLive b pid || p.st == .withdrawing
  if !ok then finishCmd b (0x5200 + pid) sub .state 0
  else objectRead b pid sub c.arg fun b => match sub with
    | 3 => resetQp b i
    | 4 => drainQp b i false
    | 9 => revokeKey b (p.keyBase + c.arg)
    | _ => queryWrite b pid sub

/-- The commands that wait for a set-up command of their object: those accepted after it. -/
def waitingFor (b : Block) (pid : Nat) (c : PendCmd) : List PendCmd :=
  ((b.dict.cmds.dropWhile (·.key != c.key)).drop 1).filter fun d =>
    d.key / 256 == 0x5200 + pid && d.key % 256 != c.key % 256 && ofKeys (d.key % 256) == ofKeys (c.key % 256)
      && cmdObject (d.key % 256) d.arg == c.arg

/-- A set-up command finishes, and the commands that waited for it run. -/
def setupEnd (b : Block) (pid : Nat) (c : PendCmd) (code : Code) (detail : Nat) : Block :=
  let l := waitingFor b pid c
  l.foldl (fun b d => resumeCmd b pid d) (finishCmd b (0x5200 + pid) (c.key % 256) code detail)

/-- SETUP_RECORD_READ_DONE. -/
def setupDone (b : Block) (pid sub : Nat) (ans : Answer) : Block :=
  let h : Holder := ⟨.setupRecord, pid, sub⟩
  match pendingCmd b (0x5200 + pid) sub with
  | none => b
  | some c =>
    if !issued b h then b
    else
      let (b, m) := checkPath (settle b h) pid 0 1 [(uDXE, 1), (uTPE, 1)]
      let st := if ans.poison || m ≠ 0 then Status.poison else ans.st
      if st != .ok then setupEnd b pid c .resource (statusCode st <<< 16)
      else
        let p := part b pid
        let (b, bad) := if ofKeys sub then keyWordBad b (p.keyBase + c.arg) else qpWordBad b (p.qpBase + c.arg)
        if bad then setupEnd b pid c .state 0
        else
          let (b, code, d) := setupRun b pid sub c.arg (ans.data.val % 2 ^ 512)
          setupEnd b pid c code d

/-- A set-up record read or query write that is given up finishes its command with the status (R222, R245). -/
def expireCmd (b : Block) (h : Holder) (st : Status) : Block :=
  match h.kind, pendingCmd b (0x5200 + h.a) h.b with
  | .setupRecord, some c => setupEnd b h.a c .resource (statusCode st <<< 16)
  | .queryWrite, some _ => failCmd b h.a h.b st
  | _, _ => b

/-! ## Credit timers (R239-R241) -/

/-- CREDIT_REFRESH has passed for a chip in BASE or ACTIVE: silent classes halve their targets, and its limits are sent. -/
def refreshChip (b : Block) (chip : Nat) : Block :=
  match find? b.tpe.rxCredit chip with
  | none => b
  | some x =>
    if x.st = .quiet || !elapsed b x.refreshed (micros (rd b 0x5010 5)) then b
    else
      let t := (List.range 4).map fun c =>
        if x.st = .active && !x.seen.getD c false then max (x.t.getD c 0 / 2) (floorOf b c) else x.t.getD c 0
      sendCredit (setRx b chip { x with t := t, seen := [false, false, false, false], refreshed := b.clk.now }) chip

/-- CREDIT_REFRESH_TIMER: every chip whose period has passed. -/
def creditRefresh (b : Block) : Block := (b.tpe.rxCredit.map (·.1)).foldl refreshChip b

/-- The sender's lease from a chip has lapsed: it forfeits what it held (R239). -/
def creditLapse (b : Block) (chip : Nat) : Block :=
  let x := txCredit b chip
  if x.synced && !leaseLive b x then noteCredit (setTxCredit b chip { x with synced := false }) else b

def quietTime (b : Block) : Nat := micros (rd b 0x5010 6) + 2 * micros (rd b 0x5010 7)

/-- The CREDIT_RESYNC pending on a chip finishes. -/
def finishResync (b : Block) (chip : Nat) (c : Code) : Block :=
  match pendingCmd b 0x5010 0x20 with
  | some p => if p.arg = chip then finishCmd b 0x5010 0x20 c 0 else b
  | none => b

/-- QUIET ends: U := G and BASE with the floors, or the state of a chip no longer a peer is dropped (Table 7-12). In Hold
the limits that BASE raises wait for the wake (14 R439). -/
def quietEnd (b : Block) (chip : Nat) : Block :=
  match find? b.tpe.rxCredit chip with
  | none => b
  | some x =>
    if x.st ≠ .quiet || !elapsed b (if x.sent then x.sentAt else x.entered) (quietTime b) || (asleep b && isPeer b chip) then b
    else
      let b := count b 0x5010 0x0C
      if isPeer b chip then
        let fl := (List.range 4).map (floorOf b)
        let g := List.zipWith (fun g f => (g + f) % 2 ^ 32) x.g fl
        let b := setRx b chip { x with st := .base, u := x.g, g := g, t := fl, entered := b.clk.now, arrivedAt := b.clk.now
                                       seen := [false, false, false, false], refreshed := b.clk.now }
        finishResync (sendCredit b chip) chip .ok
      else grantCredit { b with tpe := { b.tpe with rxCredit := erase b.tpe.rxCredit chip } }

/-- A chip's credit goes QUIET. -/
def goQuiet (b : Block) (chip : Nat) : Block :=
  match find? b.tpe.rxCredit chip with
  | none => b
  | some x => if x.st = .quiet then b else setRx b chip { x with st := .quiet, entered := b.clk.now }

def creditIdle (b : Block) (chip : Nat) : Block :=
  match find? b.tpe.rxCredit chip with
  | some x => if x.st = .active && elapsed b x.arrivedAt (micros (rd b 0x5010 8)) then goQuiet b chip else b
  | none => b

def creditResyncCmd (b : Block) (acc : Access) (arg : Nat) : Block :=
  command b acc 0x5010 0x20 arg
    (fun b => { noFails with rights := notFmFw acc, range := 4096 ≤ arg, state := !isPeer b arg })
    fun b => goQuiet b arg

/-- CREDIT_PEERS has a new content: chips added start in QUIET, chips removed go QUIET (R240). -/
def peersChanged (b : Block) (old : Nat) : Block :=
  let now := (rdBlob b 0x5010 0x10).val
  let one (b : Block) (chip : Nat) : Block :=
    if now.testBit chip && !old.testBit chip then
      if (find? b.tpe.rxCredit chip).isSome then b else setRx b chip { freshRx with entered := b.clk.now }
    else if old.testBit chip && !now.testBit chip then finishResync (goQuiet b chip) chip .state
    else b
  (bitList (now ^^^ old) 4096).foldl one b

/-! ## Rows -/

/-- QP_INIT (R222). -/
def execQpInit (acc : Access) (pid : Nat) (arg : Word) (s : State) : Host.Outcome State Fault Refusal :=
  .next { s with dev := qpInitCmd s.dev acc pid arg.toNat }

/-- QP_CONNECT (R222). -/
def execQpConnect (acc : Access) (pid : Nat) (arg : Word) (s : State) : Host.Outcome State Fault Refusal :=
  .next { s with dev := qpConnectCmd s.dev acc pid arg.toNat }

/-- QP_RESET (R218). -/
def execQpReset (acc : Access) (pid : Nat) (arg : Word) (s : State) : Host.Outcome State Fault Refusal :=
  .next { s with dev := qpResetCmd s.dev acc pid arg.toNat }

/-- QP_RESET_COMPLETE (R218). -/
def execQpResetComplete (i : Nat) (s : State) : Host.Outcome State Fault Refusal :=
  .next { s with dev := resetDone s.dev i }

/-- QP_DRAIN (R217). -/
def execQpDrain (acc : Access) (pid : Nat) (arg : Word) (s : State) : Host.Outcome State Fault Refusal :=
  .next { s with dev := qpDrainCmd s.dev acc pid arg.toNat }

/-- QP_DRAIN_COMPLETE (R217). -/
def execQpDrainComplete (i : Nat) (s : State) : Host.Outcome State Fault Refusal :=
  .next { s with dev := drainDone s.dev i }

/-- QP_DRAIN_TIMEOUT (R217). -/
def execQpDrainTimeout (i : Nat) (s : State) : Host.Outcome State Fault Refusal :=
  .next { s with dev := drainTimeout s.dev i }

/-- QP_QUERY (R245). -/
def execQpQuery (acc : Access) (pid : Nat) (arg : Word) (s : State) : Host.Outcome State Fault Refusal :=
  .next { s with dev := queryCmd s.dev acc pid 5 arg.toNat }

/-- KEY_REG (R222, R233). -/
def execKeyReg (acc : Access) (pid : Nat) (arg : Word) (s : State) : Host.Outcome State Fault Refusal :=
  .next { s with dev := keyRegCmd s.dev acc pid arg.toNat }

/-- KEY_REVOKE (R235). -/
def execKeyRevoke (acc : Access) (pid : Nat) (arg : Word) (s : State) : Host.Outcome State Fault Refusal :=
  .next { s with dev := keyRevokeCmd s.dev acc pid arg.toNat }

/-- KEY_REVOKE_COMPLETE (R235). -/
def execKeyRevokeComplete (k : Nat) (s : State) : Host.Outcome State Fault Refusal :=
  .next { s with dev := revokeDone s.dev k }

/-- KEY_REVOKE_TIMEOUT (R236). -/
def execKeyRevokeTimeout (k : Nat) (s : State) : Host.Outcome State Fault Refusal :=
  .next { s with dev := revokeTimeout s.dev k }

/-- KEY_QUERY (R245). -/
def execKeyQuery (acc : Access) (pid : Nat) (arg : Word) (s : State) : Host.Outcome State Fault Refusal :=
  .next { s with dev := queryCmd s.dev acc pid 0x0A arg.toNat }

/-- SETUP_RECORD_READ_DONE (R222). -/
def execSetupRecordReadDone (pid sub : Nat) (ans : Answer) (s : State) : Host.Outcome State Fault Refusal :=
  .next { s with dev := setupDone s.dev pid sub ans }

/-- QUERY_WRITE_DONE (R245). -/
def execQueryWriteDone (pid sub : Nat) (ans : Answer) (s : State) : Host.Outcome State Fault Refusal :=
  .next { s with dev := queryDone s.dev pid sub ans }

/-- SQ_TAIL (R224). -/
def execSqTail (vf rel : Nat) (word : Word) (s : State) : Host.Outcome State Fault Refusal :=
  .next { s with dev := wakeEvent s.dev 1 (.sqTail vf rel word) fun b => qpDoorbell b vf rel word }

/-- CQ_CONS (R224). -/
def execCqCons (vf rel : Nat) (word : Word) (s : State) : Host.Outcome State Fault Refusal :=
  .next { s with dev := wakeEvent s.dev 1 (.cqCons vf rel word) fun b => qpDoorbell b vf rel word }

/-- CQ_ARM (R224). -/
def execCqArm (vf rel : Nat) (word : Word) (s : State) : Host.Outcome State Fault Refusal :=
  .next { s with dev := wakeEvent s.dev 1 (.cqArm vf rel word) fun b => qpDoorbell b vf rel word }

/-- WQE_FETCH_DONE (R226). -/
def execWqeFetchDone (i : Nat) (ans : Answer) (s : State) : Host.Outcome State Fault Refusal :=
  .next { s with dev := wqeFetchDone s.dev i ans }

/-- WQE_WRITE (R225). -/
def execWqeWrite (i : Nat) (payload : Answer) (s : State) : Host.Outcome State Fault Refusal :=
  .next { s with dev := wqePayload s.dev i 1 payload }

/-- WQE_REDUCE (R225). -/
def execWqeReduce (i : Nat) (payload : Answer) (s : State) : Host.Outcome State Fault Refusal :=
  .next { s with dev := wqePayload s.dev i 2 payload }

/-- WQE_READ (R205). -/
def execWqeRead (i : Nat) (s : State) : Host.Outcome State Fault Refusal :=
  .next { s with dev := wqeNoPayload s.dev i 3 }

/-- WQE_FETCH_ADD (R225). -/
def execWqeFetchAdd (i : Nat) (s : State) : Host.Outcome State Fault Refusal :=
  .next { s with dev := wqeNoPayload s.dev i 4 }

/-- WQE_CMP_SWAP (R225). -/
def execWqeCmpSwap (i : Nat) (s : State) : Host.Outcome State Fault Refusal :=
  .next { s with dev := wqeNoPayload s.dev i 5 }

/-- WQE_SWAP (R225). -/
def execWqeSwap (i : Nat) (s : State) : Host.Outcome State Fault Refusal :=
  .next { s with dev := wqeNoPayload s.dev i 6 }

/-- WQE_NOP (R225). -/
def execWqeNop (i : Nat) (s : State) : Host.Outcome State Fault Refusal :=
  .next { s with dev := wqeNopRun s.dev i }

/-- LOCAL_FAILURE (R226). -/
def execLocalFailure (i : Nat) (st : Status) (s : State) : Host.Outcome State Fault Refusal :=
  .next { s with dev := localFailure s.dev i st }

/-- COMPLETION_WRITE (R228). -/
def execCompletionWrite (i : Nat) (s : State) : Host.Outcome State Fault Refusal :=
  .next { s with dev := completionWrite s.dev i }

/-- COMPLETION_WRITE_FAIL (R444). -/
def execCompletionWriteFail (i : Nat) (st : Status) (s : State) : Host.Outcome State Fault Refusal :=
  .next { s with dev := if st = .ok then s.dev else completionFail s.dev i st }

/-- CREDIT_REFRESH_TIMER (R240, R241). -/
def execCreditRefreshTimer (s : State) : Host.Outcome State Fault Refusal :=
  .next { s with dev := creditRefresh s.dev }

/-- CREDIT_LEASE_EXPIRY (R239). -/
def execCreditLeaseExpiry (chip : Nat) (s : State) : Host.Outcome State Fault Refusal :=
  .next { s with dev := creditLapse s.dev chip }

/-- QUIET_PERIOD_END (R240). -/
def execQuietPeriodEnd (chip : Nat) (s : State) : Host.Outcome State Fault Refusal :=
  .next { s with dev := quietEnd s.dev chip }

/-- CREDIT_IDLE_EXPIRY (R240). -/
def execCreditIdleExpiry (chip : Nat) (s : State) : Host.Outcome State Fault Refusal :=
  .next { s with dev := creditIdle s.dev chip }

/-- CREDIT_RESYNC (R240). -/
def execCreditResync (acc : Access) (arg : Word) (s : State) : Host.Outcome State Fault Refusal :=
  .next { s with dev := creditResyncCmd s.dev acc arg.toNat }

end Sys2Proof.Machine
end

