-- ==== Sys2Proof/Machine/TpeRecv.lean ====
section
/-! DEFINITION. The transport's receive side: checks 5 to 15 on arriving packets, placement, reads, atomics, responses,
acknowledgements and credit (06 R193-R209, R443; 07 R231-R236, R239; 13 R426). -/

namespace Sys2Proof.Machine

/-! ## Taken-over queue pairs (13 R425, R426) -/

/-- The queue pair a frame's DST_QP names; of a frame to ALIAS_CHIP, the reserved slot it maps to. -/
def dstQp (b : Block) (aliased : Bool) (dst : Nat) : Option Nat :=
  if !aliased then some dst
  else (b.tpe.qps.find? fun e => e.2.isAlias && e.2.primary == dst).map (·.1)

/-! ## The fields of a request -/

/-- A request as checks 8 to 15 see it. -/
structure Req where
  port : Nat
  typ : Nat
  psn : Nat
  msn : Nat
  ackreq : Bool
  rcq : Bool
  key : Nat
  off : Nat
  bytes : Nat
  moff : Nat
  plen : Nat
  npkt : Nat
  /-- The extension header as sent. -/
  ext : Nat
  pay : Bytes
  /-- Bit `i`: beat `i` of the payload is poisoned. -/
  poison : Nat
deriving DecidableEq, Repr

def reqOf (p : Nat) (h : Bth) (ext : Nat) (pay : Bytes) (poison : Nat) : Req :=
  if h.typ = tATOMIC then
    ⟨p, h.typ, h.psn, bits ext 144 16, h.ackreq, h.rcq, bits ext 224 32, bits ext 180 44, 8, 0, 8, 1, ext, pay, poison⟩
  else
    let x := if h.typ = tREDUCE then ext >>> 64 else ext
    ⟨p, h.typ, h.psn, bits x 96 16, h.ackreq, h.rcq, bits x 160 32, bits x 116 44, bits x 64 32, bits x 32 32,
      bits x 19 13, bits x 0 6 + 1, ext, pay, poison⟩

/-- The bytes of a request on its key's region (R205, R234). -/
def Req.extent (r : Req) : Nat :=
  if r.typ = tREADREQ then min (r.moff + 4096 * r.npkt) r.bytes - r.moff else if r.typ = tATOMIC then 8 else r.plen

/-! ## Check 5 to 8 -/

/-- Connected to (chip, queue pair): check 5. -/
def Qp.peerIs (q : Qp) (chip sq : Nat) : Bool :=
  (q.runs || q.st == .error || q.st == .draining) && !q.resetting && q.rChip == chip && q.rQp == sq

/-- A context that a withdrawal has fenced still takes what arrives before the generation step (03 Table 3-6). -/
def ctxDrains (b : Block) (pid cx : Nat) : Bool := (part b pid).st == .withdrawing && (ctxSlot b pid cx).st == .closing

/-- Check 6; a taken-over queue pair answers under its mirrored generation (R426). -/
def genOk (b : Block) (q : Qp) (gen : Nat) : Bool :=
  (ctxOpen b q.pid q.cx || ctxDrains b q.pid q.cx) && gen == (if q.isAlias then q.ownGen else (ctxSlot b q.pid q.cx).gen)

/-- The PSN has been placed already. -/
def Qp.wasPlaced (q : Qp) (psn : Nat) : Bool :=
  let d := psnDiff psn q.rxBase
  2 ^ 23 ≤ d || (d < 64 && q.placed.testBit d)

/-- The kept response of an atomic goes out (again) (R207). -/
def atomicResp (b : Block) (i psn original : Nat) : Block :=
  enqueue b (qpTx b i (bth0 tATOMICRESP psn) 0 (original <<< 64) 16 ⟨0, 0⟩)

/-- What check 8 makes of a request: none, it goes on; else the block after the discard. -/
def screen (b : Block) (i : Nat) (r : Req) : Option Block :=
  let q := qp b i
  let d := psnDiff r.psn q.rxBase
  let dup := count b (0x5100 + r.port) 7
  if 64 ≤ d && d < 2 ^ 23 then some (count b (0x5100 + r.port) 8)
  else if r.typ = tREADREQ then none
  else if q.wasPlaced r.psn then
    if r.typ = tATOMIC then
      match q.replay.find? (·.1 == r.psn) with
      | some e => some (atomicResp dup i r.psn e.2)
      | none => some dup
    else some (sendAck dup i)
  else if q.accepted.testBit d then some dup
  else none

/-! ## Checks 10 to 12 -/

/-- Check 10: the status of the queue pair's state, or of a partition domain not in service (R443). -/
def stateStatus (b : Block) (q : Qp) : Option Status :=
  if !partServed b q.pid then some .fenced
  else match q.st with
    | .error => some (statusOf q.err)
    | .draining => some .withdrawn
    | _ => none

/-- The MSN lies within the 8 open messages and its tracker's place is its own; a READ_REQ executed before is let
through (R194, R205). -/
def msnOk (q : Qp) (r : Req) : Bool :=
  let d := (65536 + r.msn - q.rxMsn) % 65536
  -- a slot taken over does not know the oldest open message: the trackers alone bound it (13 Table 13-4)
  (r.typ == tREADREQ && q.wasPlaced r.psn)
    || ((q.isAlias || (d < 8 && !q.rxDone.testBit d)) && (match find? q.trackers (r.msn % 8) with
      | some t => t.msn == r.msn
      | none => true))

/-- Bytes of a message accepted and not yet placed. -/
def pendingBytes (b : Block) (i msn : Nat) : Nat :=
  ((b.tpe.works.filter fun w => w.qp == i && w.kind == .write && w.msn == msn).map (·.len)).foldl (· + ·) 0
    + ((b.cru.apps.filter fun a => !a.isLocal && a.qp == i && a.msn == msn).map (·.payload.len)).foldl (· + ·) 0

/-- The refusals of R196. -/
def reqStatus (b : Block) (i : Nat) (r : Req) : Option Status :=
  if r.typ = tATOMIC then if r.off % 8 ≠ 0 then some .misaligned else none
  else
    let plen := if r.typ = tREADREQ then 0 else r.plen
    if r.off % 64 ≠ 0 || r.moff % 64 ≠ 0 || r.bytes % 64 ≠ 0 || plen % 64 ≠ 0 then some .misaligned
    else
      let beyond := match find? (qp b i).trackers (r.msn % 8) with
        | some t => t.msn == r.msn && (t.bytes != r.bytes || (t.opcode != 0 && t.rcq != r.rcq)
            || (r.typ != tREADREQ && t.bytes < t.count + pendingBytes b i r.msn + plen))
        | none => false
      if r.bytes < r.moff + plen || beyond then some .conflict else none

/-- The key a handle names to a queue pair's arrivals; none: outside its partition's range, or another's (test 1). -/
def keyOf (b : Block) (q : Qp) (handle : Nat) : Option Nat :=
  let p := part b q.pid
  let idx := bits handle 14 18
  let base := (shadow b q.primaryPid).keyBase
  let j := if q.isAlias then shadowKeyBase b q.primaryPid + (idx - base) else idx
  let pid := if q.isAlias then q.primaryPid else q.pid
  if bits handle 0 6 ≠ pid || (q.isAlias && idx < base) || j < p.keyBase || p.keyBase + p.keyCount ≤ j then none
  else some j

/-- The right a packet type needs, as a bit of the key's rights. -/
def needs (typ : Nat) : Nat := if typ = tREADREQ then 3 else if typ = tWRITE then 2 else if typ = tREDUCE then 1 else 0

/-- Check 12: Table 7-10. -/
def keyCheck (b : Block) (i : Nat) (r : Req) : Except Status Nat :=
  let q := qp b i
  match keyOf b q r.key with
  | none => .error .guardFault
  | some j =>
    let k := key b j
    let base := if q.isAlias then shadowQpBase b q.primaryPid else (part b q.pid).qpBase
    if k.st ≠ .valid || bits r.key 6 8 ≠ k.gen then .error .keyRevoked
    else if k.bind && base + k.bindQp ≠ i then .error .guardFault
    else if !bitAt k.rights (needs r.typ) then .error .guardFault
    else if k.len < r.off + r.extent then .error .guardFault
    else .ok j

/-- Counts a NAK sent under Table 7-10 (objects 0x5020.08 and 0x52pp.44): test 2 alone answers KEY_REVOKED. -/
def keyNak (b : Block) (pid : Nat) (st : Status) : Block :=
  let b := if st = .guardFault then count b 0x5020 8 else b
  count b (0x5200 + pid) 0x44

/-- Acceptance (check 11 passed): the PSN is marked and the message's tracker is opened. -/
def acceptReq (b : Block) (i : Nat) (r : Req) : Block :=
  let q := if r.typ = tREADREQ then qp b i else setAccepted (qp b i) r.psn true
  let rel := (keyOf b q r.key).map (· - (part b q.pid).keyBase)
  let t : Tracker := ⟨r.msn, r.bytes, r.rcq, 0, rel.getD 0, (2 ^ 44 + r.off - r.moff) % 2 ^ 44, r.typ, false⟩
  match find? q.trackers (r.msn % 8) with
  | some u =>
    -- a tracker taken over does not hold RCQ, the key and the type: they come with the next packet (13 Table 13-4)
    if u.opcode = 0 && r.typ != tATOMIC && r.typ != tREADREQ then
      setQp b i { q with trackers := insert q.trackers (r.msn % 8) { t with bytes := u.bytes, count := u.count } }
    else setQp b i q
  | none =>
  if r.typ = tATOMIC || r.typ = tREADREQ then setQp b i q
  else setQp b i { q with trackers := insert q.trackers (r.msn % 8) t }

/-! ## Work in progress -/

def dropWork (b : Block) (w : Work) : Block :=
  let b := if w.kind = .atomic then lockForget (settleTile b (workHolder w)) (.packet w.qp w.psn) else b
  { b with tpe := { b.tpe with works := b.tpe.works.filter fun v => workHolder v != workHolder w } }

def setWork (b : Block) (w : Work) : Block :=
  { b with tpe := { b.tpe with works := b.tpe.works.map fun v => if workHolder v = workHolder w then w else v } }

def addWork (b : Block) (w : Work) : Block := { b with tpe := { b.tpe with works := b.tpe.works ++ [w] } }

/-- One more request counts on a key (R234). -/
def keyTaken (b : Block) (j : Nat) : Block := putKey b j { key b j with out := (key b j).out + 1 }

/-- Who asks on behalf of an arriving packet (Table 4-10: SOURCE 2). -/
def workAsker (w : Work) : Asker := ⟨workHolder w, 2, w.port⟩

/-- A request refused at check 14 or 15: its key's count and its slot are freed, and it is refused (R208, R234). -/
def workRefuse (b : Block) (w : Work) (psn : Nat) (st : Status) : Block :=
  let b := keyDone (dropWork b w) w.key
  let b := if w.kind = .read && w.issued then b else freeSlot b
  refuse b w.qp psn w.msn st

/-- A WRITE has been placed: R195, R198, R234, R237. -/
def writePlaced (b : Block) (w : Work) : Block :=
  countPlaced (freeSlot (keyDone (dropWork b w) w.key)) w.qp w.psn w.msn w.len w.ackreq

/-- Checks 14 and 15 of a WRITE, and its tile on its way: a host-aperture write goes out when it is acknowledged. Data
found poisoned on the way are refused with POISON. -/
def writeGo (b : Block) (w : Work) : Block :=
  match prepare b (workAsker w) w.ctx w.va w.len .write false with
  | (b, .wait) => b
  | (b, .failed st _) => workRefuse b w w.psn st
  | (b, .issued segs) =>
    let a := workAsker w
    let (b, m) := checkData b w.ctx segs w.len (wayOut b a segs)
    if w.poison ||| m ≠ 0 then workRefuse b w w.psn .poison
    else
      let b := setWork b { w with issued := true, segs := segs }
      if segsPlace b segs = .host then b
      else sendPieces (take b a w.ctx segs (memPieces b a w.data 0 segs)) (workHolder w) w.ctx true 0 w.data 0 segs

/-- PLACEMENT_ACK: the Memory Station, the SSU or the host link has taken the bytes. -/
def placementAck (b : Block) (i psn : Nat) : Block :=
  match b.tpe.works.find? fun w => w.qp == i && w.psn == psn && w.kind == .write && w.issued with
  | none => b
  | some w =>
    if segsPlace b w.segs = .host then writePlaced (hostPieces b w.ctx.pid 1 w.data 0 w.segs) w
    else match arrive b (workHolder w) w.segs ⟨.ok, ⟨0, 0⟩, false⟩ 0 with
      | none => b
      | some (b, st, _) => if st = .ok then writePlaced b w else workRefuse b w psn st

/-! ### Reads (R205) -/

/-- PSNs of a read that this execution places for the first time, and the bytes they stand for. -/
def newBytes (q : Qp) (r : Work) (npkt : Nat) : Nat :=
  ((List.range npkt).map fun j =>
    if q.wasPlaced (psnAdd r.psn j) then 0 else min 4096 (r.len - 4096 * j)).foldl (· + ·) 0

/-- The message of a read leaves the window once every byte of it has been asked for and read (R194). -/
def readCount (b : Block) (w : Work) (bytes rcq new : Nat) : Block :=
  let q := qp b w.qp
  let d := (65536 + w.msn - q.rxMsn) % 65536
  if 8 ≤ d || q.rxDone.testBit d || new = 0 then b
  else
    let t := match find? q.trackers (w.msn % 8) with
      | some t => t
      | none => ⟨w.msn, bytes, rcq == 1, 0, 0, 0, tREADREQ, false⟩
    let t := { t with count := t.count + new }
    if t.count = t.bytes then
      noteQp (setQp b w.qp { closeMsg q w.msn with rxMsgs := (q.rxMsgs + 1) % 2 ^ 64 }) w.qp
    else setQp b w.qp { q with trackers := insert q.trackers (w.msn % 8) t }

/-- Execution: its PSNs are ACCEPTED and PLACED, and its slot is freed (R205, R237). -/
def readTaken (b : Block) (w : Work) (segs : List Seg) : Block :=
  let npkt := bits w.ext 0 6 + 1
  let new := newBytes (qp b w.qp) w npkt
  let b := setWork (freeSlot b) { w with issued := true, segs := segs }
  let b := onQp b w.qp fun q => (List.range npkt).foldl (fun q j => setPlaced q (psnAdd w.psn j)) q
  readCount b w (bits w.ext 64 32) w.data new

/-- Checks 14 and 15 of a READ_REQ, 4 KiB tile by tile, and its read. -/
def readGo (b : Block) (w : Work) : Block :=
  match startReadRun b (workAsker w) w.ctx w.va w.len with
  | (b, .wait) => b
  | (b, .failed st va) => workRefuse b w (psnAdd w.psn ((2 ^ 52 + va - w.va) % 2 ^ 52 / 4096)) st
  | (b, .issued segs) =>
    let b := readTaken b w segs
    if w.len = 0 then keyDone (dropWork b w) w.key else b

/-- Response `j` of a READ_REQ. -/
def readResp (b : Block) (w : Work) (d j req : Nat) (last : Bool) : Block :=
  let n := min 4096 (w.len - 4096 * j)
  let x := dxh 0 0 w.msn (bits w.ext 64 32) ((bits w.ext 32 32 + 4096 * j) % 2 ^ 32) n 0
  let t := qpTx b w.qp (bth0 tREADRESP (psnAdd w.psn j)) 0 x 24 ⟨n, slice d (4096 * j) n⟩
  enqueue b { t with lastOf := if last then some w.key else none, req := req }

/-- The data of a READ_REQ is there: its responses go out; a queue pair that has left answers nothing. -/
def readReturn (b : Block) (w : Work) (ans : Answer) : Block :=
  match arrive b (workHolder w) w.segs ans w.len with
  | none => b
  | some (b, st, d) =>
    let q := qp b w.qp
    if q.resetting || q.st == .reset || onlyDict b then keyDone (dropWork b w) w.key
    else if st ≠ .ok then workRefuse b w w.psn st
    else
      let queued := (b.tpe.ports.flatMap fun e => e.2.queue) ++ b.tpe.noPath
      let req := (queued.map (·.req)).foldl max 0 + 1
      (List.range ((w.len + 4095) / 4096)).foldl (fun b j => readResp b w d j req true) (dropWork b w)

/-! ### Atomics (R207) -/

/-- An atomic has been performed: kept, mirrored, counted, answered. -/
def atomicDone (b : Block) (w : Work) (old : Nat) : Block :=
  let b := freeSlot (keyDone (dropWork b w) w.key)
  let q := qp b w.qp
  let b := mirrorNote b 5 q.pid w.qp ⟨16, w.psn + (old <<< 64)⟩
  let q := closeMsg (setPlaced q w.psn) w.msn
  let b := setQp b w.qp { q with replay := ((w.psn, old) :: q.replay).take 16, rxMsgs := (q.rxMsgs + 1) % 2 ^ 64 }
  if q.resetting then b else noteQp (reportPlaced (atomicResp b w.qp w.psn old) w.qp w.ackreq) w.qp

/-- The read-modify-write at the Memory Station, its line's lock held. -/
def atomicRun (b : Block) (w : Work) : Block :=
  let pa := (w.segs.head?.map (·.pa)).getD 0
  if !served b (uMS (stationOf pa)) then workRefuse b w w.psn .fenced
  else
    let (b, old) := atomicAt b pa (bits w.ext 172 4) (bits w.ext 64 64) (bits w.ext 0 64)
    atomicDone b w old

/-- Checks 14 and 15 of an ATOMIC; it takes its tag (01 R27) and its line's lock, or waits for them. -/
def atomicGo (b : Block) (w : Work) : Block :=
  match prepare b (workAsker w) w.ctx w.va 8 .atomic false with
  | (b, .wait) => b
  | (b, .failed st _) => workRefuse b w w.psn st
  | (b, .issued segs) =>
    let pa := (segs.head?.map (·.pa)).getD 0
    if placeOf b pa ≠ .package then
      workRefuse (guardRecord b (uMS (stationOf pa)) pa w.ctx 1 .core 0) w w.psn .guardFault
    else
      let t : TagWait := ⟨.mem, w.ctx, [], workHolder w, []⟩
      if !tagReady b t then waitTag b t
      else
        let w := { w with issued := true, segs := segs }
        let b := setWork (if issued b (workHolder w) then b else grantTag b t) w
        if lockFree b pa 1 then atomicRun b w else lockWait b pa 1 (.packet w.qp w.psn)

/-- A packet's work whose translation waited tries again. -/
def workGo (b : Block) (w : Work) : Block :=
  match w.kind with
  | .write => writeGo b w
  | .read => readGo b w
  | .atomic => atomicGo b w
  | .response => b

/-! ## Check 13 (08 R262-R264) -/

/-- The group of a REDUCE has not been armed: unaccepted (R263). -/
def unaccepted (b : Block) (i j : Nat) (r : Req) : Block :=
  count (freeSlot (keyDone (onQp b i fun q => setAccepted q r.psn false) j)) 0x6000 7

/-- The wire operation, format, group and contributor of a REDUCE (Table 6-5). -/
def rOp (r : Req) : Nat := bits r.ext 60 4
def rWfmt (r : Req) : Nat := bits r.ext 56 4
def rGroup (r : Req) : Nat := bits r.ext 40 16
def rContrib (r : Req) : Nat := bits r.ext 28 12

/-- Test 4 of Table 8-7: what the packet says differs from its group. -/
def groupDiffers (b : Block) (pid j : Nat) (r : Req) (g : Nat) : Bool :=
  rOp r != gOp g || rWfmt r != gWire g || j - (part b pid).keyBase != gKey g || r.off % 4096 != 0
    || gS g ≤ r.off / 4096 || r.plen != slotBytes g (r.off / 4096) || gCount g ≤ rContrib r
    || (gLocal g && rContrib r == gCount g - 1)

/-- Check 13, and the contribution on its way to its application. -/
def reduceGo (b : Block) (i j : Nat) (r : Req) : Block :=
  let pid := (qp b i).pid
  let g := rGroup r
  let x := group b pid g
  let a : App := ⟨0, pid, g, r.off / 4096, rContrib r, r.pay, r.poison ≠ 0, false, i, r.psn, r.msn, j, r.ackreq,
    r.port, 0, noSeg, .xlate⟩
  let nak (b : Block) (st : Status) : Block := refuse (freeSlot (keyDone b j)) i r.psn r.msn st
  if groupLimit b pid ≤ g then nak b .guardFault
  else match x.st with
    | .aborted => nak b .aborted
    | .idle => unaccepted b i j r
    | .arming => unaccepted b i j r
    | _ =>
      if groupDiffers b pid j r x.r then nak (count b 0x6000 8) .conflict
      else if bitAt (look x.cached 0 (r.off / 4096)) (rContrib r) then ledgerHit b a
      else startApp b a

/-! ## A request from check 8 on -/

/-- The work of a request that has passed check 12, on key `j`. -/
def workOf (b : Block) (i j : Nat) (r : Req) : Work :=
  let k := key b j
  let kind : WorkKind := if r.typ = tREADREQ then .read else if r.typ = tATOMIC then .atomic else .write
  let copies := (b.tpe.works.filter fun w => w.qp == i && w.psn == r.psn).length
  { kind := kind, qp := i, psn := r.psn, key := j, ctx := ctxNow b (qp b i).pid k.cx
    va := (k.base + r.off) % 2 ^ 52, len := r.extent, data := if kind = .read then ofBool r.rcq else r.pay.val
    poison := r.poison, msn := r.msn, ackreq := r.ackreq, ext := r.ext, copy := copies, port := r.port
    issued := false, segs := [] }

/-- Checks 8 to 15; the request holds a slot of the receive pool. -/
def request (b : Block) (i : Nat) (r : Req) : Block :=
  match screen b i r with
  | some b => freeSlot b
  | none =>
    let q := qp b i
    match q.refusing with
    | some st => freeSlot (sendNak b i r.psn st)
    | none =>
      match stateStatus b q with
      | some st => freeSlot (refuse b i r.psn r.msn st)
      | none =>
        if !msnOk q r then freeSlot (count b (0x5100 + r.port) 8)
        else match reqStatus b i r with
          | some st => freeSlot (refuse b i r.psn r.msn st)
          | none =>
            let b := acceptReq b i r
            match checkWord b uTPE 0x12 q.pid 0 (bits r.key 14 18 % 65536) with
            | (b, true) => freeSlot (refuse b i r.psn r.msn .fenced)
            | (b, false) =>
              match keyCheck b i r with
              | .error st => freeSlot (refuse (keyNak b q.pid st) i r.psn r.msn st)
              | .ok j =>
                let b := keyTaken b j
                if r.typ = tREDUCE then reduceGo b i j r
                else
                  let w := workOf b i j r
                  workGo (addWork b w) w

/-! ## Responses at the requester (R201, R206, R207, R209) -/

/-- Bytes of a READ have been placed; the last of them completes it, with the pacing event of R195 (R206). -/
def readPlaced (b : Block) (i : Nat) (m : SendMsg) (len : Nat) : Block :=
  let m' := { m with got := m.got + len }
  let b := onQp b i fun q => { q with msgs := q.msgs.map fun x => if x = m then m' else x }
  let b := if m'.got = wBytes m.wqe then finishMsg (paceTransport b i false) i m' .ok 0 0 else b
  sqRun (advance b i) i

/-- The local placement of a response fails: a local failure (R226). -/
def responseFail (b : Block) (i : Nat) (m : SendMsg) (st : Status) : Block :=
  qpError (finishMsg b i m st 0 0) i st 0

/-- Places a response in the buffer its work-queue entry names. -/
def responseGo (b : Block) (w : Work) : Block :=
  match msgOfPsn (qp b w.qp) w.psn with
  | none => dropWork b w
  | some m =>
    match writeNow b ⟨workHolder w, 4, qpRel b w.qp⟩ w.ctx w.va ⟨w.len, w.data⟩ w.poison 1 with
    | (b, .wait) => b
    | (b, .failed st _) => responseFail (dropWork b w) w.qp m st
    | (b, .issued _) => readPlaced (dropWork b w) w.qp m w.len

/-- READ_RESP: acknowledges its PSN and is placed, or is handed to the unit whose request it answers. -/
def takeReadResp (b : Block) (p i : Nat) (h : Bth) (ext : Nat) (pay : Bytes) (poison : Nat) : Block :=
  let q := qp b i
  match q.flights.find? (·.psn == h.psn), msgOfPsn q h.psn with
  | some f, some m =>
    if wOpcode m.wqe ≠ 3 then count b (0x5100 + p) 7
    else
      let off := bits ext 32 32
      let b := freeReserved (freeFrames (setQp b i { q with flights := q.flights.erase f }) i) 1
      match m.origin with
      | .request _ _ =>
        if poison ≠ 0 then finishMsg b i m .poison 0 0
        else
          let m' := { m with data := patch m.data off pay.len pay.val }
          let b := onQp b i fun q => { q with msgs := q.msgs.map fun x => if x = m then m' else x }
          readPlaced b i m' pay.len
      | _ =>
        let w : Work :=
          { kind := .response, qp := i, psn := h.psn, key := 0, ctx := ctxNow b q.pid (wLocalCx m.wqe)
            va := (wLocalVa m.wqe + off) % 2 ^ 52, len := pay.len, data := pay.val, poison := poison, msn := m.msn
            ackreq := false, ext := ext, copy := 0, port := p, issued := false, segs := [] }
        responseGo (addWork b w) w
  | _, _ => count b (0x5100 + p) 7

/-- ATOMIC_RESP: acknowledges and completes the atomic. -/
def takeAtomicResp (b : Block) (p i psn original : Nat) : Block :=
  let q := qp b i
  match q.flights.any (·.psn == psn), msgOfPsn q psn with
  | true, some m =>
    if wAtomic m.wqe then sqRun (advance (finishMsg b i m .ok 0 original) i) i else count b (0x5100 + p) 7
  | _, _ => count b (0x5100 + p) 7

/-- Check 7. -/
def response (b : Block) (p i : Nat) (h : Bth) (ext : Nat) (pay : Bytes) (poison : Nat) : Block :=
  if h.typ = tACK then sqRun (takeAck b i h.psn ext) i
  else if h.typ = tNAK then sqRun (takeNak b p i h.psn (bits ext 56 8)) i
  else if h.typ = tREADRESP then takeReadResp b p i h ext pay poison
  else takeAtomicResp b p i h.psn (bits ext 64 64)

/-- Checks 5 to 7, then the request or the response; a request holds a slot. -/
def qpArrival (b : Block) (p : Nat) (aliased : Bool) (h : Bth) (ext : Nat) (pay : Bytes) (poison : Nat) : Block :=
  let req := requestType h.typ
  let stop (b : Block) : Block := if req then freeSlot b else b
  match dstQp b aliased h.dstQp with
  | none => stop (count b (0x5100 + p) 9)
  | some i =>
    match qpWordBad b i with
    | (b, true) => stop b
    | (b, false) =>
      let q := qp b i
      if !q.peerIs h.src h.srcQp then stop (count b (0x5100 + p) 9)
      else if !genOk b q h.gen then stop (count b (0x2200 + q.pid) 0x13)
      else if req then request b i (reqOf p h ext pay poison)
      else response b p i h ext pay poison

/-! ## Credit received (07 R239) -/

/-- A CREDIT packet: a base for an unsynchronised sender, else newer limits class by class; it renews the lease. -/
def takeCredit (b : Block) (chip ext : Nat) : Block :=
  let x := txCredit b chip
  let lim (c : Nat) : Nat := bits ext (32 * c) 32
  if leaseLive b x then
    let l := (List.range 4).map fun c =>
      let h := x.limit.getD c 0
      if (2 ^ 32 + lim c - h) % 2 ^ 32 < 2 ^ 31 then lim c else h
    setTxCredit b chip { x with limit := l, leaseAt := b.clk.now }
  else
    let l := (List.range 4).map lim
    let u := (List.range 4).map fun c => (2 ^ 32 + lim c - floorOf b c) % 2 ^ 32
    setTxCredit b chip ⟨true, l, u, b.clk.now⟩

/-! ## Timers and links -/

/-- ACK_DELAY has passed since the first placement not reported (R200). -/
def ackDelay (b : Block) (i : Nat) : Block :=
  let q := qp b i
  if q.unreported ≠ 0 && rd b 0x5000 5 ≤ 10 * (b.clk.now - q.unreportedAt) && !q.resetting then sendAck b i else b

/-- LINK_DEGRADED changes: packets held may now find a path. -/
def linkDegraded (b : Block) (p : Nat) (deg : Bool) : Block :=
  if 36 ≤ p then b
  else
    let x := port b p
    if x.linkUp then retryHeld (portLink b p true deg) else setPort b p { x with degraded := deg }

/-! ## Rows -/

/-- PACKET_TRANSMIT (06 R188, 07 R244). -/
def execPacketTransmit (p : Nat) (s : State) : Host.Outcome State Fault Refusal :=
  .next { s with dev := packetTransmit s.dev p }

/-- PLACEMENT_ACK (R195). -/
def execPlacementAck (i psn : Nat) (s : State) : Host.Outcome State Fault Refusal :=
  .next { s with dev := placementAck s.dev i psn }

/-- ACK_DELAY_EXPIRY (R200). -/
def execAckDelayExpiry (i : Nat) (s : State) : Host.Outcome State Fault Refusal :=
  .next { s with dev := ackDelay s.dev i }

/-- RETRANSMISSION_TIMER_EXPIRY (R203). -/
def execRetransmissionTimerExpiry (i psn : Nat) (s : State) : Host.Outcome State Fault Refusal :=
  .next { s with dev := retransmit s.dev i psn }

/-- RETRY_LIMIT_EXPIRY (R204). -/
def execRetryLimitExpiry (i psn : Nat) (s : State) : Host.Outcome State Fault Refusal :=
  .next { s with dev := retryOut s.dev i psn }

/-- LINK_UP_FALL (R190, R212). -/
def execLinkUpFall (p : Nat) (s : State) : Host.Outcome State Fault Refusal :=
  .next { s with dev := wakeEvent s.dev 6 (.linkUpFall p) fun b => linkDown b p }

/-- LINK_UP_RISE (R212). -/
def execLinkUpRise (p : Nat) (degraded : Bool) (s : State) : Host.Outcome State Fault Refusal :=
  .next { s with dev := wakeEvent s.dev 6 (.linkUpRise p degraded) fun b => linkUp b p degraded }

/-- LINK_DEGRADED_CHANGE (R212). -/
def execLinkDegradedChange (p : Nat) (degraded : Bool) (s : State) : Host.Outcome State Fault Refusal :=
  .next { s with dev := wakeEvent s.dev 6 (.linkDegradedChange p degraded) fun b => linkDegraded b p degraded }

end Sys2Proof.Machine
end

