-- ==== Sys2Proof/Machine/Chanter.lean ====
section
/-! DEFINITION. The Chanter: step descriptors, rings and submissions, dispatch, kills, commits, accounts, telemetry and
budgets (11 R343-R374). -/

namespace Sys2Proof.Machine

/-! ## Descriptors (Tables 11-1, 11-2) -/

def sResultVa (d : Nat) : Nat := bits d 460 52
def sRangeVa (d : Nat) : Nat := bits d 408 52
def sCmdVa (d : Nat) : Nat := bits d 356 52
def sCmdLen (d : Nat) : Nat := bits d 324 32
def sUser (d : Nat) : Nat := bits d 292 32
def sCx (d : Nat) : Nat := bits d 282 10
def sQueue (d : Nat) : Nat := bits d 279 3
def sK (d : Nat) : Nat := bits d 272 7 + 1
def sNRanges (d : Nat) : Nat := bits d 267 5
def sEclass (d : Nat) : Nat := bits d 263 4
def sIrq (d : Nat) : Bool := bitAt d 262
def sVec (d : Nat) : Nat := bits d 256 6

def rDir (e : Nat) : Nat := bits e 126 2
def rBase (e : Nat) : Nat := bits e 64 52
def rLen (e : Nat) : Nat := bits e 0 40

/-- The entries of a range list. -/
def rangeList (d list : Nat) : List Nat := (List.range (sNRanges d)).map fun i => slice list (16 * i) 16

/-! ## Stations and steps -/

def freshStation : Station := ⟨false, none, 0, 0, false, 0, [], []⟩

def station (b : Block) (es : Nat) : Station := look b.cha.stations freshStation es

def setStation (b : Block) (es : Nat) (x : Station) : Block :=
  { b with cha := { b.cha with stations := store b.cha.stations freshStation es x } }

def onStationES (b : Block) (es : Nat) (f : Station → Station) : Block := setStation b es (f (station b es))

def stepOf (b : Block) (num : Nat) : Option Step := b.cha.steps.find? (·.num == num)

def setStep (b : Block) (s : Step) : Block :=
  { b with cha := { b.cha with steps := b.cha.steps.map fun t => if t.num = s.num then s else t } }

def dropStep (b : Block) (num : Nat) : Block :=
  { b with cha := { b.cha with steps := b.cha.steps.filter (·.num != num) } }

/-- Queued and running steps of a partition. -/
def stepsHeld (b : Block) (pid : Nat) : Nat := (b.cha.steps.filter (·.pid == pid)).length

/-- Below STEP_CEILING and STEP_SLOTS (R346, R374). -/
def stepRoom (b : Block) (pid : Nat) : Bool := stepsHeld b pid < rd b (0x8100 + pid) 0x0A && b.cha.steps.length < 4096

/-- Room for one more step beside those whose descriptors are being read. -/
def fetchRoom (b : Block) (pid : Nat) : Bool :=
  stepsHeld b pid + (b.cha.rings.filter fun e => e.1 / 8 == pid).length < rd b (0x8100 + pid) 0x0A
    && b.cha.steps.length + b.cha.rings.length < 4096

def inMask (b : Block) (pid es : Nat) : Bool := (part b pid).engines.testBit es

/-- An Engine Station that is present and in service. -/
def esServed (b : Block) (es : Nat) : Bool := esPresent b es && served b (uES es)

/-- Running: DISPATCHING, RUNNING or BOUND. -/
def Step.active (s : Step) : Bool := s.st != .queued

/-- Has its WAITs answered. -/
def Step.started (s : Step) : Bool := s.st == .running || s.st == .bound

/-- The zone ZONE_MAP assigns a station to (R365). -/
def zoneOf (b : Block) (es : Nat) : Nat := slice (rdBlob b 0x8000 0x20).val es 1

/-! ## Results (R352, R353) -/

/-- One µJ in units of 100 nJ / 65,536. -/
def microJoule : Nat := 655360

def coarse (n : Nat) : Nat := 1024 * (n / 1024)

/-- Table 11-7. -/
def resultRecord (b : Block) (pid d cycles energy kills : Nat) (st : Status) : Nat :=
  let uj := energy / microJoule
  let (c, e) := if isSealed b pid then (coarse cycles, coarse uj) else (cycles, uj)
  (sUser d <<< 96) + ((c % 2 ^ 48) <<< 48) + ((e % 2 ^ 32) <<< 16) + (statusCode st <<< 8) + (min kills 127 <<< 1) + 1

/-- Writes a result; one whose translation waits stays due. -/
def putResult (b : Block) (r : StepResult) : Block :=
  let b := { b with cha := { b.cha with results := b.cha.results.filter (·.num != r.num) } }
  match writeNow b ⟨⟨.stepRanges, r.num, 1⟩, 6, r.queue⟩ r.ctx r.va ⟨16, r.body⟩ 0 2 with
  | (b, .wait) => { b with cha := { b.cha with results := b.cha.results ++ [r] } }
  | (b, .failed _ _) => count b 0x8000 0x14
  | (b, .issued _) => b

/-- Results of contexts that can no longer be written are failed writes (R353). -/
def failResults (b : Block) (p : Ctx → Bool) : Block :=
  let n := (b.cha.results.filter fun r => p r.ctx).length
  addTo { b with cha := { b.cha with results := b.cha.results.filter fun r => !p r.ctx } } 0x8000 0x14 n

/-- A step ends with a status: its result is written and its vector raised where due. -/
def stepResult (b : Block) (num pid : Nat) (c : Ctx) (d cycles energy kills : Nat) (st : Status) : Block :=
  let b := putResult b ⟨num, sQueue d, c, sResultVa d, resultRecord b pid d cycles energy kills st⟩
  if (sIrq d || st != .ok) && sVec d ≠ 0 then msixPart b pid (sVec d) else b

/-- The QUEUE_FLUSH pending on a partition is done once its queue is empty. -/
def flushCheck (b : Block) (pid : Nat) : Block :=
  match pendingCmd b (0x8100 + pid) 1 with
  | none => b
  | some c =>
    if b.cha.steps.any fun s => s.pid == pid && s.queue == c.arg then b
    else finishCmd { b with cha := { b.cha with flushed := erase b.cha.flushed pid } } (0x8100 + pid) 1 .ok
      (look b.cha.flushed 0 pid)

/-- A step of a queue has ended: counted for a QUEUE_FLUSH of that queue. -/
def flushNote (b : Block) (s : Step) : Block :=
  match pendingCmd b (0x8100 + s.pid) 1 with
  | some c =>
    if c.arg = s.queue then
      flushCheck { b with cha := { b.cha with flushed := store b.cha.flushed 0 s.pid (look b.cha.flushed 0 s.pid + 1) } } s.pid
    else b
  | none => b

/-- A run of a step is over: its class's estimate becomes its measured power (R366). -/
def endRun (b : Block) (s : Step) : Block :=
  if !s.started then b
  else
    let dur := b.clk.now - s.since
    let i := 0x50 + sEclass s.desc
    if dur = 0 then
      let (v, b) := draw b
      wr b (0x8100 + s.pid) i (v % 2 ^ 32)
    else wr b (0x8100 + s.pid) i (10000 * s.energy / (65536 * sK s.desc * dur) % 2 ^ 32)

/-! ### Rings -/

def ringSub (q x : Nat) : Nat := 0x10 + 8 * q + x

def ringRd (b : Block) (pid q x : Nat) : Nat := rd b (0x8100 + pid) (ringSub q x)

def stepRingSize (b : Block) (pid q : Nat) : Nat := 2 ^ bits (ringRd b pid q 1) 0 4

def ringKey (pid q : Nat) : Nat := pid * 8 + q

def setRing (b : Block) (pid q : Nat) (l : Option (List Seg)) : Block :=
  { b with cha := { b.cha with rings := match l with
    | some l => insert b.cha.rings (ringKey pid q) l
    | none => erase b.cha.rings (ringKey pid q) } }

/-- The queue reads its next descriptor if it may (R346); a ring context that is not OPEN answers WITHDRAWN (03 R91). -/
def ringFetch (b : Block) (pid q : Nat) : Block :=
  let under := match find? b.cha.rings (ringKey pid q) with
    | some l => !l.isEmpty
    | none => false
  if under || !isLive b pid || !served b uChanter || ringRd b pid q 2 = ringRd b pid q 3 || ringRd b pid q 4 ≠ 0
      || !fetchRoom b pid then b
  else
    let cx := bits (ringRd b pid q 1) 16 10
    if !ctxOpen b pid cx then wr b (0x8100 + pid) (ringSub q 4) (statusCode .withdrawn)
    else match startRead b ⟨⟨.stepDesc, pid, q⟩, 6, q⟩ (ctxNow b pid cx)
        ((ringRd b pid q 0 + 64 * ringRd b pid q 2) % 2 ^ 52) 64 false with
    | (b, .wait) => setRing b pid q (some [])
    | (b, .failed st _) => wr (setRing b pid q none) (0x8100 + pid) (ringSub q 4) (statusCode st)
    | (b, .issued segs) => setRing b pid q (some segs)

/-- Every queue reads on where it may. -/
def ringsGo (b : Block) : Block := pids.foldl (fun b p => (List.range 8).foldl (fun b q => ringFetch b p q) b) b

/-- A step ends (Table 11-6): it leaves its queue, and there is room for another (R346). -/
def endStep (b : Block) (s : Step) (st : Status) : Block :=
  let b := stepResult (dropStep b s.num) s.num s.pid s.ctx s.desc s.cycles s.energy s.kills st
  ringsGo (flushNote (count b (0x8100 + s.pid) 7) s)

/-! ## Kills (R355, R86) -/

/-- KILL_REQ at a station: requests not yet issued are refused ABORTED. -/
def killStation (b : Block) (es : Nat) : Block :=
  let x := station b es
  let b := (x.reqs.filter fun r => !r.issued).foldl (fun b _ => emit b (.eqStatus es .aborted)) b
  let b := setStation b es { x with killing := true, killAt := b.clk.now, reqs := x.reqs.filter (·.issued) }
  emit b (.killReq es)

/-- A step that is DISPATCHING, RUNNING or BOUND is killed: to run again, or to end. A kill under way that was to run again
may come to an end. A station whose R86 kill is under way is under KILL_REQ already. -/
def killStep (b : Block) (s : Step) (k : KillEnd) : Block :=
  match s.kill with
  | some .again => setStep b { s with kill := some k }
  | some (.ends _) => b
  | none =>
    let b := count (count b 0x8000 0x0E) (0x8100 + s.pid) 8
    let b := setStep b { s with kill := some k, left := s.clusters }
    s.clusters.foldl (fun b es =>
      let b := onStationES b es fun x => { x with waiting := false }
      if (station b es).killing then b else killStation b es) b

/-- A step that has ended gives back its clusters. -/
def releaseClusters (b : Block) (s : Step) : Block :=
  s.clusters.foldl (fun b es => onStationES b es fun x => { x with step := none }) b

/-- The run of a step that a kill ends: what it used is charged. -/
def killedRun (b : Block) (s : Step) : Block := endRun (addTo b (0x8100 + s.pid) 9 s.cycles) s

/-- A kill is complete: what the run used is charged, and the step is queued again at the head of its queue, or ends. -/
def killOver (b : Block) (s : Step) : Block :=
  let b := killedRun b s
  match s.kill with
  | some (.ends st) => endStep b s st
  | _ =>
    setStep b { s with st := .queued, kills := s.kills + 1, clusters := [], before := [], committed := [], cycles := 0
                       energy := 0, kill := none, left := [], past := false, displaced := false, overrun := 0 }

/-- A step ends otherwise than by its commit (Table 11-8). -/
def stopStep (b : Block) (s : Step) (st : Status) : Block :=
  match s.st with
  | .queued => endStep b s st
  | _ => killStep b s (.ends st)

/-- Every step a predicate selects ends with a status. -/
def stopSteps (b : Block) (p : Step → Bool) (st : Status) : Block :=
  (b.cha.steps.filter p).foldl (fun b s => match stepOf b s.num with
    | some s => stopStep b s st
    | none => b) b

/-- WAITs answered: the step runs on its clusters (R350, R370). -/
def dispatchRecord (s : Step) (rank : Nat) : Nat :=
  (sCmdVa s.desc <<< 460) + (sCmdLen s.desc <<< 428) + (s.pid <<< 422) + (s.ctx.cx <<< 412) + (s.ctx.gen <<< 404)
    + (rank <<< 397) + ((sK s.desc - 1) <<< 390) + (sUser s.desc <<< 358) + (s.seq <<< 326)

def startStep (b : Block) (s : Step) : Block :=
  let b := setStep b { s with st := .running, since := b.clk.now }
  (s.clusters.zip (List.range s.clusters.length)).foldl (fun b e =>
    let b := onStationES b e.1 fun x => { x with waiting := false, pid := s.pid, lastPid := s.pid }
    emit b (.edData e.1 ⟨64, dispatchRecord s e.2⟩)) b

/-- A DISPATCHING step whose clusters are ready starts, unless one of them lies in a tripped zone (R368). -/
def startReady (b : Block) (s : Step) : Block :=
  if s.st = .dispatching && s.kill.isNone && s.before.isEmpty && !s.clusters.any (fun k => b.cha.tripped.contains (zoneOf b k))
  then startStep b s else b

/-- Every DISPATCHING step that may start does. -/
def startAll (b : Block) : Block := b.cha.steps.foldl startReady b

/-- KILL_DONE (R355): the cluster is done; the last one of a kill completes it, and the last one before a dispatch
starts the step. -/
def killDone (b : Block) (es : Nat) : Block :=
  let x := station b es
  if !x.killing then b
  else
    let num := x.step
    let b := setStation b es { x with killing := false }
    match num.bind (stepOf b) with
    | none => onStationES b es fun x => { x with step := none }
    | some s =>
      let s := { s with before := s.before.erase es }
      let b := setStep b s
      if s.kill.isNone && s.st = .dispatching then startReady b s
      else
        let b := onStationES b es fun x => { x with step := none }
        let s := { s with left := s.left.erase es }
        let b := setStep b s
        if s.kill.isSome && s.left.isEmpty then killOver b s else b

/-- A step of a station that goes out of service (Table 11-8). -/
def stationLost (b : Block) (es : Nat) : Block :=
  match (station b es).step.bind (stepOf b) with
  | none => b
  | some s =>
    match s.st with
    | .bound => killStep b s (.ends .fenced)
    | .queued => b
    | _ => killStep b s .again

/-- KILL_TIMEOUT has passed (R355): the station is reported, and the step ends FENCED; its other clusters finish their
kills by themselves. -/
def killTimeout (b : Block) (es : Nat) : Block :=
  let x := station b es
  if !x.killing || !elapsed b x.killAt (micros (rd b 0x8000 4)) then b
  else
    let b := setStation b es { x with killing := false }
    let b := raiseFree b 17 (uES es) x.pid
    match x.step.bind (stepOf b) with
    | none => onStationES b es fun x => { x with step := none }
    | some s =>
      let b := killedRun b s
      let b := s.clusters.foldl (fun b c => onStationES b c fun y => if y.killing then y else { y with step := none }) b
      endStep b s .fenced

/-! ## External acts and commits (R349, R354) -/

/-- A cluster's step makes an external act: a killable one becomes BOUND. -/
def bindStep (b : Block) (es : Nat) : Block :=
  match (station b es).step.bind (stepOf b) with
  | some s => if s.st = .running then setStep b { s with st := .bound } else b
  | none => b

/-- A COMMIT is forwarded; the Kth ends the step. -/
def commitStep (b : Block) (es : Nat) : Block :=
  match (station b es).step.bind (stepOf b) with
  | none => b
  | some s =>
    if s.committed.contains es then b
    else
      let s := { s with committed := s.committed ++ [es] }
      let b := setStep b s
      if s.committed.length < sK s.desc then b
      else
        let b := addTo (addTo b 0x8000 0x0F s.overrun) (0x8100 + s.pid) 3 s.overrun
        let b := { b with cha := { b.cha with overDue := store b.cha.overDue 0 s.pid (look b.cha.overDue 0 s.pid + s.overrun) } }
        endStep (releaseClusters (endRun b s) s) s .ok

/-! ## Submission (R345-R348) -/

/-- Do two runs of addresses overlap? -/
def runsMeet (a n c m : Nat) : Bool := a < c + m && c < a + n

/-- Checks 2 to 5 of Table 11-3; `rst` is how the range-list read was answered. -/
def stepFault (b : Block) (pid d : Nat) (rst : Status) (rs : List Nat) : Option Status :=
  let n := sNRanges d
  let ins := (sCmdVa d, sCmdLen d) :: (rs.filter (rDir · == 1)).map fun e => (rBase e, rLen e)
  let outs := (rs.filter (rDir · == 2)).map fun e => (rBase e, rLen e)
  if sResultVa d % 16 ≠ 0 || (n ≠ 0 && sRangeVa d % 64 ≠ 0) || sCmdVa d % 64 ≠ 0 || sCmdLen d % 64 ≠ 0 || sCmdLen d < 64
      || rs.any (fun e => rBase e % 64 != 0 || rLen e % 64 != 0) then some .misaligned
  else if bits d 0 256 ≠ 0 || 16 < n
      || rs.any (fun e => bits e 116 10 != 0 || bits e 40 24 != 0 || rDir e == 0 || rDir e == 3 || rLen e == 0)
      || popCount (part b pid).engines 128 < sK d || (sIrq d && sVec d == 0) then some .guardFault
  else if rst ≠ .ok then some rst
  else if outs.any fun o => ins.any fun i => runsMeet o.1 o.2 i.1 i.2 then some .conflict
  else none

/-- A submitted step is checked and queued, or its result is written (R348). -/
def submitStep (b : Block) (pid d : Nat) (rst : Status) (list : Nat) : Block :=
  if !ctxOpen b pid (sCx d) then count b 0x8000 0x13
  else
    let rs := if rst = .ok && sNRanges d ≤ 16 then rangeList d list else []
    let num := b.cha.nextStep
    let c := ctxNow b pid (sCx d)
    let b := { b with cha := { b.cha with nextStep := num + 1 } }
    match stepFault b pid d rst rs with
    | some st =>
      let b := if st = .conflict then count b (0x8100 + pid) 0x0C else b
      stepResult b num pid c d 0 0 0 st
    | none =>
      let seq := look b.cha.seqs 0 pid
      let s : Step :=
        { num := num, pid := pid, queue := sQueue d, ctx := c, desc := d, ranges := rs, seq := seq, st := .queued, kills := 0
          clusters := [], before := [], committed := [], since := 0, cycles := 0, energy := 0, kill := none, left := []
          past := false, displaced := false, overrun := 0 }
      { b with cha := { b.cha with steps := b.cha.steps ++ [s], seqs := store b.cha.seqs 0 pid ((seq + 1) % 2 ^ 32) } }

/-- A range list is read as one tile, answered in the same step: package memory gives what it holds, `ans` stands for
host memory and the other regions. None: its translation, or its tag, waits. -/
def readNow (b : Block) (a : Asker) (c : Ctx) (va len : Nat) (ans : Answer) : Block × Option (Status × Nat) :=
  match prepare b a c va len .read false with
  | (b, .wait) => (b, none)
  | (b, .failed st _) => (b, some (st, 0))
  | (b, .issued segs) =>
    let w : TagWait := ⟨poolOf b segs, c, segs, a.holder, readOuts b a c.pid segs⟩
    if tagged b segs && !tagReady b w then (waitTag b w, none)
    else
    let b := if tagged b segs then underTag b w id else b
    let (b, m) := checkData b c segs len (wayIn b a.holder segs)
    if ans.poison || m ≠ 0 then (b, some (.poison, 0))
    else if ans.st ≠ .ok then (b, some (ans.st, 0))
    else if segsPlace b segs = .package then
      (b, some (.ok, (segs.reverse.foldl (fun (x : Nat) s => (x <<< (8 * s.len)) + readMem b s.pa s.len) 0)))
    else (b, some (.ok, ans.data.val % 2 ^ (8 * len)))

/-- The range list of a descriptor, where it has one that can be read. -/
def readRanges (b : Block) (pid d : Nat) (h : Holder) (ans : Answer) : Block × Option (Status × Nat) :=
  if sNRanges d = 0 || 16 < sNRanges d || sRangeVa d % 64 ≠ 0 || !ctxOpen b pid (sCx d) then (b, some (.ok, 0))
  else readNow b ⟨h, 6, sQueue d⟩ (ctxNow b pid (sCx d)) (sRangeVa d) (16 * sNRanges d) ans

/-! ### Descriptors arrive -/

/-- The descriptor and its range list have been read. Where there is no room for the step any more, it is read again
later. -/
def descTaken (b : Block) (pid q : Nat) (desc ranges : Answer) : Block :=
  match find? b.cha.rings (ringKey pid q) with
  | none => b
  | some [] => b
  | some segs =>
    match arrive b ⟨.stepDesc, pid, q⟩ segs desc 64 with
    | none => b
    | some (b', st, d) =>
      if st ≠ .ok then wr (setRing b' pid q none) (0x8100 + pid) (ringSub q 4) (statusCode st)
      else if !stepRoom b pid then setRing b' pid q none
      else match readRanges b pid d ⟨.stepRanges, pid * 8 + q, 0⟩ ranges with
        | (b, none) => b
        | (b, some (rst, list)) =>
          match arrive b ⟨.stepDesc, pid, q⟩ segs desc 64 with
          | none => b
          | some (b, _, _) =>
            let b := wr (setRing b pid q none) (0x8100 + pid) (ringSub q 2) ((ringRd b pid q 2 + 1) % stepRingSize b pid q)
            ringFetch (submitStep b pid d rst list) pid q

/-- STEP_DOORBELL (R345). -/
def stepDoorbell (b : Block) (vf q : Nat) (word : Word) : Block :=
  match doorbell b vf q fun _ => 8 with
  | (b, none) => b
  | (b, some pid) =>
    let w := word.toNat
    if !zeroBits w 16 48 || stepRingSize b pid q ≤ bits w 0 16 then doorbellDiscard b pid
    else ringFetch (wr (wr b (0x8100 + pid) (ringSub q 3) (bits w 0 16)) (0x8100 + pid) (ringSub q 4) 0) pid q

/-! ### From the engines (R347) -/

/-- EQ_READY: fewer than 16 misses are outstanding and there is room for a submission (R347; 04 R131). A request kept
behind another is no miss of its own (DESIGN CHOICE, log 31). -/
def eqReady (b : Block) (es : Nat) : Bool :=
  let x := station b es
  (x.reqs.filter fun r => r.op < 5 && !r.issued && !r.behind).length < 16 && x.subs.length < 4

/-- SUBMISSION: buffered, for the partition of the step that runs there. -/
def submission (b : Block) (es : Nat) (d : Bytes) : Block :=
  let x := station b es
  if !esServed b es || heldInReset b (uES es) || !eqReady b es then b
  else match x.step.bind (stepOf b) with
    | some s => if s.started then setStation b es { x with subs := x.subs ++ [⟨s.pid, d.val % 2 ^ 512⟩] } else count b 0x8000 0x13
    | none => count b 0x8000 0x13

/-- SUBMISSION_FORWARD. -/
def submissionForward (b : Block) (es : Nat) (ranges : Answer) : Block :=
  match (station b es).subs with
  | [] => b
  | u :: rest =>
    if !fetchRoom b u.pid || !served b uChanter then b
    else
      match readRanges b u.pid u.desc ⟨.stepRanges, es, 2⟩ ranges with
      | (b, none) => b
      | (b, some (rst, list)) => submitStep (onStationES b es fun x => { x with subs := rest }) u.pid u.desc rst list

/-! ## Shares (R357-R360) -/

/-- SCHED and ENERGY_ALLOWANCE as the latest update left them standing. -/
def schedNow (b : Block) (p : Nat) : Nat × Nat := look b.cha.inForce ((part b p).sched, (part b p).energy) p

def weight (b : Block) (p : Nat) : Nat := bits (schedNow b p).1 0 16
def reserve (b : Block) (p : Nat) : Nat := bits (schedNow b p).1 16 8
def cap (b : Block) (p : Nat) : Nat := bits (schedNow b p).1 24 8

def acctKey (p k : Nat) : Nat := p * 128 + k

/-- The head step of each queue of a partition that is waiting to be chosen. -/
def headSteps (b : Block) (p : Nat) : List Step :=
  (List.range 8).filterMap fun q =>
    match b.cha.steps.find? fun s => s.pid == p && s.queue == q with
    | some s => if s.st = .queued then some s else none
    | none => none

/-- The partition's occupancy of a cluster has reached its cap allowance in this window (R360). -/
def capped (b : Block) (p k : Nat) : Bool :=
  cap b p != 0 && 160000 * cap b p / 256 - look b.cha.capCut 0 (acctKey p k) ≤ look b.cha.now.occupied 0 (acctKey p k)

/-- A cluster the partition could be given: in service, idle, its WAIT parked. -/
def clusterFree (b : Block) (k : Nat) : Bool :=
  let x := station b k
  esServed b k && x.waiting && x.step.isNone && !x.killing

/-! ### Energy (R365-R368); one unit is 10 pJ / 65,536 -/

def estimate (b : Block) (s : Step) : Nat := rd b (0x8100 + s.pid) (0x50 + sEclass s.desc)

/-- A scope of the energy budget. -/
inductive Scope4 where
  | package | zone (z : Nat) | part (p : Nat)
deriving DecidableEq, Repr

/-- Clusters of a step within a scope. -/
def within (b : Block) (sc : Scope4) (pid : Nat) (cs : List Nat) : Nat :=
  match sc with
  | .package => cs.length
  | .zone z => (cs.filter fun k => zoneOf b k == z).length
  | .part p => if pid = p then cs.length else 0

def windowEnd (b : Block) : Nat := b.cha.windowAt + 10000

/-- The budget of a scope, as the latest update set it (R365, R371), or 0 while its reading is invalid (R364); none: it has
none. -/
def budgetOf (b : Block) : Scope4 → Option Nat
  | .package => if b.cha.powerBad && rd b 0x8000 9 ≠ 0 then some 0 else b.cha.pkgBudget
  | .zone z => some (if b.cha.zonesBad.contains z then 0 else look b.cha.zoneBudget 0 z)
  | .part p => if (schedNow b p).2 = 0 then none else some (655360000 * (schedNow b p).2)

/-- Energy measured in a scope so far in the window. -/
def measured (b : Block) (sc : Scope4) : Nat :=
  10000 * (match sc with
    | .part p => look b.cha.now.partEnergy 0 p
    | .zone z => ((b.cha.now.energy.filter fun e => zoneOf b e.1 == z).map (·.2)).foldl (· + ·) 0
    | .package => (b.cha.now.energy.map (·.2)).foldl (· + ·) 0)

/-- What the running steps of a scope will still use in the window. -/
def committedEnergy (b : Block) (sc : Scope4) : Nat :=
  ((b.cha.steps.filter Step.active).map fun s =>
    65536 * (estimate b s * within b sc s.pid s.clusters * (windowEnd b - b.clk.now))).foldl (· + ·) 0

def freeEnergy (b : Block) (sc : Scope4) : Option Int :=
  (budgetOf b sc).map fun x => (x : Int) - measured b sc - committedEnergy b sc

/-- A step on given clusters fits every scope it touches (R367). -/
def fits (b : Block) (s : Step) (cs : List Nat) : Bool :=
  let scopes := [Scope4.package, .part s.pid] ++ ((cs.map (zoneOf b)).eraseDups.map Scope4.zone)
  scopes.all fun sc => match freeEnergy b sc with
    | none => true
    | some f => decide (((65536 * (estimate b s * within b sc s.pid cs * (windowEnd b - b.clk.now)) : Nat) : Int) ≤ f)

/-! ### The choice (R369, R370) -/

/-- The clusters a step would get, `extra` counted as free: those of its partition first, then the rest, ascending. -/
def clustersFor (b : Block) (s : Step) (extra : List Nat) : Option (List Nat) :=
  let ok := (List.range 128).filter fun k =>
    inMask b s.pid k && (clusterFree b k || (extra.contains k && esServed b k)) && !capped b s.pid k
      && !b.cha.tripped.contains (zoneOf b k)
  let l := (ok.filter fun k => (station b k).lastPid == s.pid) ++ ok.filter fun k => (station b k).lastPid != s.pid
  if l.length < sK s.desc then none else some (l.take (sK s.desc))

/-- The partition may run steps now. -/
def mayDispatch (b : Block) (p : Nat) : Bool :=
  isLive b p && bitAt (rd b (0x3100 + p) 4) 63 && partServed b p && rd b 0xC000 6 == 0 && served b uChanter

/-- The clusters an eligible head step gets. -/
def eligibleOn (b : Block) (s : Step) (extra : List Nat) : Option (List Nat) :=
  if !mayDispatch b s.pid then none
  else match clustersFor b s extra with
    | some cs => if fits b s cs then some cs else none
    | none => none

def sumFor (m : SMap Nat) (p : Nat) : Nat := ((m.filter fun e => e.1 / 128 == p).map (·.2)).foldl (· + ·) 0

def occ (b : Block) (p : Nat) : Nat := sumFor b.cha.now.occupied p

/-- 256 times what the partition's reserve entitles it to so far in this window. -/
def due256 (b : Block) (p : Nat) : Nat := reserve b p * sumFor b.cha.now.backlogged p

def short (b : Block) (p : Nat) : Bool := 256 * occ b p < due256 b p

def deficit (b : Block) (p : Nat) : Int := look b.cha.deficit 0 p

/-- Is partition `p` served before `q` (R369, ties excluded)? -/
def ahead (b : Block) (p q : Nat) : Bool :=
  if short b p && short b q then occ b p * due256 b q < occ b q * due256 b p
  else if short b p then true
  else if short b q then false
  else deficit b q < deficit b p

/-- The partition chosen among those with an eligible step, ties in round-robin order after the last chosen. -/
def bestPart (b : Block) : List Nat → Option Nat
  | [] => none
  | p :: ps => match bestPart b ps with
    | some q => if ahead b q p then some q else some p
    | none => some p

/-- Partitions in the order of their turns. -/
def partOrder (b : Block) : List Nat := ((List.range 64).map fun i => (b.cha.turn + 1 + i) % 64).filter (· != 0)

/-- A partition's waiting head steps, its queues in their turn. -/
def headsInTurn (b : Block) (p : Nat) : List Step :=
  let t := look b.cha.queueTurn 0 p
  let hs := headSteps b p
  (List.range 8).filterMap fun i => hs.find? fun s => s.queue == (t + i) % 8

/-- A head step that only its energy keeps from running is counted once in the window (R367). -/
def noteBudget (b : Block) : Block :=
  pids.foldl (fun b p => (headSteps b p).foldl (fun b s =>
    if b.cha.counted.contains s.num || !mayDispatch b p then b
    else match clustersFor b s [] with
      | some cs =>
        if fits b s cs then b
        else count { b with cha := { b.cha with counted := b.cha.counted ++ [s.num] } } 0x8000 0x10
      | none => b) b) b

/-- Dispatches a step on its clusters: those whose last step belonged to another partition are killed first (R86). -/
def dispatch (b : Block) (s : Step) (cs : List Nat) : Block :=
  let kills := cs.filter fun k => (station b k).lastPid != s.pid && (station b k).lastPid != 0
  let s := { s with st := .dispatching, clusters := cs, before := kills }
  let b := { setStep b s with cha := { (setStep b s).cha with
    turn := s.pid, queueTurn := store b.cha.queueTurn 0 s.pid ((s.queue + 1) % 8) } }
  let b := count b 0x8000 0x0D
  let b := cs.foldl (fun b k => onStationES b k fun x => { x with step := some s.num }) b
  if kills.isEmpty then startStep b s else kills.foldl killStation b

/-- The choice is repeated until no eligible step remains. -/
def choose (b : Block) : Nat → Block
  | 0 => b
  | fuel + 1 =>
    let able := (partOrder b).filter fun p => (headSteps b p).any fun s => (eligibleOn b s []).isSome
    match bestPart b able with
    | none => b
    | some p =>
      match (headsInTurn b p).findSome? fun s => (eligibleOn b s []).map fun cs => (s, cs) with
      | some (s, cs) => choose (dispatch b s cs) fuel
      | none => b

/-! ### Displacement (R361, R362) -/

/-- A step of another partition with a larger DEFICIT or an unmet reserve would be eligible on this step's clusters. -/
def wanted (b : Block) (s : Step) : Bool :=
  pids.any fun p => p != s.pid && (decide (deficit b s.pid < deficit b p) || short b p)
    && (headSteps b p).any fun h => (eligibleOn b h s.clusters).isSome

/-- Steps past their quantum meet a dispatch opportunity: killed if killable, else their overrun begins. -/
def displace (b : Block) : Block :=
  (b.cha.steps.filter fun s => s.past && s.started && s.kill.isNone && s.kills < rd b 0x8000 5).foldl (fun b s =>
    if !wanted b s then b
    else if s.st = .running then killStep b s .again
    else setStep b { s with displaced := true }) b

/-- A dispatch opportunity. -/
def opportunity (b : Block) : Block :=
  if !served b uChanter then b else displace (choose (noteBudget (startAll b)) 4096)

/-- QUANTUM_EXPIRY. -/
def quantumEnd (b : Block) (num : Nat) : Block :=
  match stepOf b num with
  | some s =>
    if s.started && !s.past && elapsed b s.since (micros (rd b 0x8000 2)) then
      displace (setStep b { s with past := true })
    else b
  | none => b

/-- STEP_TIMEOUT_EXPIRY (Table 11-8). -/
def stepTimeout (b : Block) (num : Nat) : Block :=
  match stepOf b num with
  | some s =>
    if s.started && elapsed b s.since (micros (rd b 0x8000 3)) then killStep b s (.ends .timeout) else b
  | none => b

/-! ## Accounts, one PCLK cycle at a time (R357) -/

/-- The step that occupies a cluster: answered there and not ended (R357). -/
def occupied (b : Block) (k : Nat) : Option Step :=
  match (station b k).step.bind (stepOf b) with
  | some s => if s.started then some s else none
  | none => none

/-- The partitions backlogged on a cluster. -/
def backlog (b : Block) (waiting : List Nat) (k : Nat) : List Nat :=
  let holds := ((occupied b k).map (·.pid)).toList
  holds ++ waiting.filter fun p => inMask b p k && !holds.contains p

def plus (m : SMap Nat) (k n : Nat) : SMap Nat := store m 0 k (look m 0 k + n)

/-- One cycle of a cluster in the window's accounts. -/
def acctCluster (b : Block) (waiting : List Nat) (w : Window) (k : Nat) : Window :=
  let bl := backlog b waiting k
  let busy := (occupied b k).isSome
  let p := ((occupied b k).map (·.pid)).getD 0
  let w := { w with backlogged := bl.foldl (fun m q => plus m (acctKey q k) 16) w.backlogged
                    occupied := if busy then plus w.occupied (acctKey p k) 16 else w.occupied }
  if 2 ≤ bl.length then
    { w with contended := plus w.contended k 16
             contendedUse := if busy then plus w.contendedUse (acctKey p k) 16 else w.contendedUse }
  else w

/-- One PCLK cycle passes for the Chanter. -/
def chanterTick (b : Block) : Block :=
  if b.cha.steps.isEmpty then b
  else
    let ks := (bitList b.straps.esMask.toNat 128)
    let waiting := pids.filter fun p => !(headSteps b p).isEmpty
    let w := ks.foldl (acctCluster b waiting) b.cha.now
    let one (b : Block) (s : Step) : Block :=
      if s.started then
        let n := 16 * (s.clusters.filter fun k => (station b k).step == some s.num).length
        addTo (setStep b { s with cycles := s.cycles + n, overrun := if s.displaced then s.overrun + n else s.overrun })
          (0x8100 + s.pid) 5 n
      else b
    b.cha.steps.foldl one { b with cha := { b.cha with now := w } }

/-! ## Telemetry (R363, R364, R368) -/

def fxSigned (n : Nat) : Int := toSigned 32 n

/-- Energy of a station's delta, in units of 100 nJ / 65,536. -/
def sampleCluster (b : Block) (es : Nat) (c : BitVec 32) : Block :=
  let d := (2 ^ 32 + c.toNat - look b.cha.enCount 0 es) % 2 ^ 32
  let e := d * rd b 0xB002 (es + 1)
  let w := { b.cha.now with energy := plus b.cha.now.energy es e }
  let b := { b with cha := { b.cha with enCount := store b.cha.enCount 0 es c.toNat, now := w } }
  match occupied b es with
  | none => b
  | some s =>
    let w := { b.cha.now with partEnergy := plus b.cha.now.partEnergy s.pid e }
    let rest := look b.cha.enRest 0 s.pid + e
    let b := setStep b { s with energy := s.energy + e }
    addTo { b with cha := { b.cha with now := w, enRest := store b.cha.enRest 0 s.pid (rest % microJoule) } }
      (0x8100 + s.pid) 6 (rest / microJoule)

/-- A package power reading. -/
def samplePower (b : Block) (raw : BitVec 32) : Block :=
  if raw.toNat = 0xFFFFFFFF then
    let b := { b with cha := { b.cha with powerBad := true } }
    if rd b 0x8000 9 = 0 then b else raiseFree b 12 uChanter 0
  else
    let v : Int := (raw.toNat * rd b 0xB000 1 : Nat) + fxSigned (rd b 0xB000 2) * 65536
    let (s, n) := b.cha.now.power
    { b with cha := { b.cha with powerBad := false, now := { b.cha.now with power := (s + v, n + 1) } } }

/-- The step that holds clusters in a zone and can be killed, of the smallest DEFICIT. -/
def zoneVictim (b : Block) (z : Nat) : Option Step :=
  let l := b.cha.steps.filter fun s => (s.st == .running || s.st == .dispatching) && s.kill.isNone && s.clusters.any fun k => zoneOf b k == z
  l.foldl (fun m s => match m with
    | none => some s
    | some t => if deficit b s.pid < deficit b t.pid then some s else m) none

/-- Projected power of a zone in mW: the estimates of the steps that run on in it. -/
def zonePower (b : Block) (z : Nat) : Nat :=
  ((b.cha.steps.filter fun s => s.active && s.kill.isNone).map fun s =>
    estimate b s * within b (.zone z) s.pid s.clusters).foldl (· + ·) 0

/-- A tripped zone sheds killable steps until it is within its allowance (R368). -/
def shedZone (b : Block) (z : Nat) : Nat → Block
  | 0 => b
  | fuel + 1 =>
    let allow := if b.cha.zonesBad.contains z then 0 else rd b (0x8020 + z) 5
    if zonePower b z ≤ allow then b
    else match zoneVictim b z with
      | some s => shedZone (killStep b s .again) z fuel
      | none => b

/-- A zone's temperature reading. -/
def sampleZone (b : Block) (z : Nat) (raw : BitVec 16) : Block :=
  if b.straps.zones ≤ z then b
  else if raw.toNat = 0x8000 then
    let b := { b with cha := { b.cha with
      zonesBad := if b.cha.zonesBad.contains z then b.cha.zonesBad else b.cha.zonesBad ++ [z] } }
    raiseFree b 12 uChanter 0
  else
    let v : Int := toSigned 16 raw.toNat * 1024 + fxSigned (rd b 0xB001 (z + 1))
    let (s, n) := look b.cha.now.temps ((0 : Int), 0) z
    let b := { b with cha := { b.cha with
      zonesBad := b.cha.zonesBad.filter (· != z)
      now := { b.cha.now with temps := store b.cha.now.temps (0, 0) z (s + v, n + 1) } } }
    let b := wr b (0x8020 + z) 1 (ofSigned 32 v)
    if fxSigned (rd b (0x8020 + z) 3) ≤ v then
      let new := !b.cha.tripped.contains z
      let b := if new then
          raiseFree (count { b with cha := { b.cha with tripped := b.cha.tripped ++ [z] } } (0x8020 + z) 7) 13 uChanter 0
        else b
      shedZone b z b.cha.steps.length
    else if v < fxSigned (rd b (0x8020 + z) 2) then { b with cha := { b.cha with tripped := b.cha.tripped.filter (· != z) } }
    else b

/-- Whole µJ of an energy in budget units, rounded down. -/
def toMicro (e : Int) : Int := e / (100000 * 65536)

/-- TELEMETRY_SAMPLE. -/
def telemetry (b : Block) (counts : List (Nat × BitVec 32)) (power : BitVec 32) (temps : List (Nat × BitVec 16)) : Block :=
  let b := counts.foldl (fun b e => if esPresent b e.1 then sampleCluster b e.1 e.2 else b) b
  let b := samplePower b power
  let b := startAll (temps.foldl (fun b e => sampleZone b e.1 e.2) b)
  wr b 0x8000 0x0C (match freeEnergy b .package with
    | some f => ofSigned 32 (toMicro f)
    | none => 0)

/-! ## Windows (R358-R360, R365, R371) -/

/-- The body of an ACCT record: 0x81pp.02-.09 at their types' sizes (13 Table 13-3). -/
def acctBody (b : Block) (p : Nat) : Nat :=
  let r (s : Nat) : Nat := rd b (0x8100 + p) s
  ofSigned 32 (deficit b p / 1024) + (((List.range 7).map fun i => r (3 + i) <<< (32 + 64 * i)).foldl (· + ·) 0)

/-- BUDGET_WINDOW_START: the accounts of the window just over are kept for its update, with the overrun committed in it
and the values that stand from that update on; none starts in Hold (14 R438). -/
def windowStart (b : Block) : Block :=
  if b.clk.now % 10000 ≠ 0 || b.cha.windowAt = b.clk.now || asleep b then b
  else
    let live := pids.filter (isLive b)
    let b := live.foldl (fun b p => mirrorNote b 7 p 0 ⟨64, acctBody b p⟩) b
    let set := live.map fun p => (p, ((part b p).sched, (part b p).energy))
    { b with cha := { b.cha with
      windowAt := b.clk.now, past := b.cha.past ++ [⟨b.clk.now, b.cha.now, b.cha.overDue, set⟩], now := Window.fresh
      counted := [], overDue := [] } }

/-- Shares by weight of what is left, those bound by their cap first set to it and the rest shared again (R358):
partition, its reserve part, its weight and its bound. -/
def shareOut : List (Nat × Nat × Nat × Nat) → Nat → Nat → List (Nat × Nat)
  | _, _, 0 => []
  | l, rest, fuel + 1 =>
    let w := (l.map (·.2.2.1)).foldl (· + ·) 0
    let part (e : Nat × Nat × Nat × Nat) : Nat := e.2.1 + rest * e.2.2.1 / w
    match l.find? fun e => e.2.2.2 < part e with
    | some e => (e.1, e.2.2.2) :: shareOut (l.erase e) (rest - (e.2.2.2 - e.2.1)) fuel
    | none => l.map fun e => (e.1, part e)

/-- What each partition backlogged on a cluster is entitled to of its contended cycles (R358). -/
def entitled (b : Block) (w : Window) (k : Nat) : List (Nat × Nat) :=
  let ps := pids.filter fun p => look w.backlogged 0 (acctKey p k) != 0
  let t := look w.contended 0 k
  let sum := (ps.map (reserve b)).foldl (· + ·) 0
  let res (p : Nat) : Nat := if sum ≤ 256 then reserve b p * t / 256 else reserve b p * t / sum
  let rest := t - (ps.map res).foldl (· + ·) 0
  let bound (p : Nat) : Nat := if cap b p = 0 then t else max (res p) (160000 * cap b p / 256)
  shareOut (ps.map fun p => (p, res p, weight b p, bound p)) rest (ps.length + 1)

def clamp (lim : Nat) (v : Int) : Int := if v < -(lim : Int) then -(lim : Int) else if (lim : Int) < v then lim else v

/-- Deficits after a window: every LIVE partition's entitlement less its use, less the overrun due. -/
def newDeficit (b : Block) (w : Window) (excess : SMap Nat) (ent : List (Nat × List (Nat × Nat))) (p : Nat) : Int :=
  let gain : Int := (ent.map fun e =>
    let mine : Nat := ((e.2.find? (·.1 == p)).map (·.2)).getD 0
    (mine : Int) - (look w.contendedUse 0 (acctKey p e.1) : Nat)).foldl (· + ·) (0 : Int)
  let due : Nat := look excess 0 p
  clamp (rd b 0x8000 6) (deficit b p + gain - (due : Int))

/-- The growth of a partition's guarantee debt in a window (R359). -/
def newDebt (b : Block) (w : Window) (ks : List Nat) (p : Nat) : Nat :=
  (ks.map fun k => reserve b p * look w.backlogged 0 (acctKey p k) / 256 - look w.occupied 0 (acctKey p k)).foldl (· + ·) 0

/-- Average of a window's samples. -/
def average (x : Int × Nat) : Int := x.1 / (x.2 : Int)

/-- The budgets of this window (R365). -/
def setBudgets (b : Block) (w : Window) : Block :=
  let engines : Nat := (w.energy.map (·.2)).foldl (· + ·) 0
  let pkg : Int := if w.power.2 = 0 then 0 else average w.power
  let n : Int := pkg - engines
  let budget : Nat := ((65536 * rd b 0x8000 9 : Nat) - n).toNat * 10000
  let b := if w.power.2 = 0 then b else wr b 0x8000 0x0A (pkg / 65536).toNat
  let has := rd b 0x8000 9 ≠ 0
  let b := wr b 0x8000 0x0B (if has then (toMicro budget).toNat % 2 ^ 32 else 0)
  let b := { b with cha := { b.cha with pkgBudget := if has then some budget else none } }
  let zone (b : Block) (z : Nat) : Block :=
    let e := ((w.energy.filter fun e => zoneOf b e.1 == z).map (·.2)).foldl (· + ·) 0
    let t := look w.temps ((0 : Int), 0) z
    let a : Nat := if t.2 = 0 then 0 else (rd b (0x8020 + z) 4 * (fxSigned (rd b (0x8020 + z) 2) - average t)).toNat
    let b := wr (wr b (0x8020 + z) 5 (a / 65536 % 2 ^ 32)) (0x8020 + z) 6 (e / 65536 % 2 ^ 32)
    { b with cha := { b.cha with zoneBudget := store b.cha.zoneBudget 0 z (10000 * a) } }
  let b := (List.range b.straps.zones).foldl zone b
  pids.foldl (fun b p => if isLive b p then wr b (0x8100 + p) 0x0D (look w.partEnergy 0 p / 65536 % 2 ^ 32) else b) b

/-- Amounts by which a window's occupancy passed the caps that stood in it (R360). -/
def capCuts (b : Block) (w : Window) (live ks : List Nat) : SMap Nat :=
  let beyond (p k : Nat) : Nat :=
    if cap b p = 0 then 0 else look w.occupied 0 (acctKey p k) - 160000 * cap b p / 256
  live.foldl (fun m p => ks.foldl (fun m k => store m 0 (acctKey p k) (beyond p k)) m) []

/-- The update of a past window (R358-R360), under the values that stood in it. -/
def settleWindow (b : Block) (x : PastWindow) : Block :=
  let ks := bitList b.straps.esMask.toNat 128
  let ent := ks.map fun k => (k, entitled b x.win k)
  let live := pids.filter (isLive b)
  let ds := live.map fun p => (p, newDeficit b x.win x.excess ent p)
  let cuts := capCuts b x.win live ks
  let b := live.foldl (fun b p => addTo b (0x8100 + p) 4 (newDebt b x.win ks p)) b
  { b with cha := { b.cha with deficit := ds.foldl (fun m e => store m 0 e.1 e.2) b.cha.deficit, capCut := cuts } }

/-- POLICY_UPDATE_DONE: the oldest update due is finished, and what it sets stands from now on (R365, R371). -/
def policyDone (b : Block) : Block :=
  match b.cha.past with
  | [] => b
  | x :: rest =>
    let b := if x.since + 2000 < b.clk.now then count b 0x8000 0x11 else b
    let b := settleWindow b x
    let b := { b with cha := { b.cha with past := rest, inForce := x.set } }
    setBudgets (progressed b uChanter) x.win

/-! ## Commands and what others ask of the Chanter -/

/-- QUEUE_FLUSH (Table 11-8). -/
def queueFlush (b : Block) (acc : Access) (pid arg : Nat) : Block :=
  partCommand b acc 0x8100 pid 1 arg
    (fun b => { noFails with rights := notHostTntFw b acc pid, range := 8 ≤ arg, state := !isLive b pid })
    fun b =>
      let b := { b with cha := { b.cha with flushed := erase b.cha.flushed pid } }
      flushCheck (stopSteps b (fun s => s.pid == pid && s.queue == arg && s.st != .bound) .aborted) pid

/-- RING_BASE and RING_CFG may not be written now (R374). -/
def ringBusy (b : Block) (pid q : Nat) : Bool :=
  ringRd b pid q 2 != ringRd b pid q 3 || b.cha.steps.any fun s => s.pid == pid && s.queue == q

/-- CREATE sets the partition's Chanter state to its defaults. -/
def chanterDefaults (b : Block) (p : Nat) : Block :=
  let c := b.cha
  let b := { b with cha := { c with
    deficit := erase c.deficit p, overDue := erase c.overDue p, enRest := erase c.enRest p, seqs := erase c.seqs p
    inForce := erase c.inForce p
    past := c.past.map fun x => { x with excess := erase x.excess p, set := erase x.set p }
    capCut := c.capCut.filter fun e => e.1 / 128 ≠ p } }
  (List.range 16).foldl (fun b i => wr b (0x8100 + p) (0x50 + i) (rd b 0x8001 (i + 1))) b

/-- ADD_SCHED or ADD_ENERGY in LIVE: the values of now stand until the update of the next window (Table 3-2; R371). -/
def keepForWindow (b : Block) (p : Nat) : Block :=
  if (find? b.cha.inForce p).isSome then b
  else { b with cha := { b.cha with inForce := insert b.cha.inForce p ((part b p).sched, (part b p).energy) } }

/-- A partition leaves: its clusters count as another's from now on, its rings and submissions are dropped. -/
def chanterGone (b : Block) (p : Nat) : Block :=
  let c := b.cha
  { b with cha := { c with
    stations := c.stations.map fun e =>
      (e.1, { e.2 with lastPid := if e.2.lastPid = p then 64 else e.2.lastPid, subs := e.2.subs.filter (·.pid != p) })
    rings := c.rings.filter fun e => e.1 / 8 ≠ p } }

/-! ## Rows -/

/-- STEP_DOORBELL (R345). -/
def execStepDoorbell (vf queue : Nat) (word : Word) (s : State) : Host.Outcome State Fault Refusal :=
  .next { s with dev := wakeEvent s.dev 1 (.stepDoorbell vf queue word) fun b => stepDoorbell b vf queue word }

/-- STEP_DESCRIPTOR_ARRIVAL (R346). -/
def execStepDescriptorArrival (pid queue : Nat) (desc ranges : Answer) (s : State) : Host.Outcome State Fault Refusal :=
  .next { s with dev := descTaken s.dev pid queue desc ranges }

/-- SUBMISSION (R347). -/
def execSubmission (es : Nat) (desc : Bytes) (s : State) : Host.Outcome State Fault Refusal :=
  .next { s with dev := wakeEvent s.dev 4 (.submission es desc) fun b => submission b es desc }

/-- SUBMISSION_FORWARD (R347). -/
def execSubmissionForward (es : Nat) (ranges : Answer) (s : State) : Host.Outcome State Fault Refusal :=
  .next { s with dev := submissionForward s.dev es ranges }

/-- STEP_DISPATCH (R369). -/
def execStepDispatch (s : State) : Host.Outcome State Fault Refusal :=
  .next { s with dev := opportunity s.dev }

/-- KILL_DONE (R355). -/
def execKillDone (es : Nat) (s : State) : Host.Outcome State Fault Refusal :=
  .next { s with dev := killDone s.dev es }

/-- KILL_TIMEOUT_EXPIRY (R355). -/
def execKillTimeoutExpiry (es : Nat) (s : State) : Host.Outcome State Fault Refusal :=
  .next { s with dev := killTimeout s.dev es }

/-- QUANTUM_EXPIRY (R361). -/
def execQuantumExpiry (num : Nat) (s : State) : Host.Outcome State Fault Refusal :=
  .next { s with dev := quantumEnd s.dev num }

/-- STEP_TIMEOUT_EXPIRY (R356). -/
def execStepTimeoutExpiry (num : Nat) (s : State) : Host.Outcome State Fault Refusal :=
  .next { s with dev := stepTimeout s.dev num }

/-- TELEMETRY_SAMPLE (R363). -/
def execTelemetrySample (counts : List (Nat × BitVec 32)) (power : BitVec 32) (temps : List (Nat × BitVec 16)) (s : State) :
    Host.Outcome State Fault Refusal :=
  .next { s with dev := telemetry s.dev counts power temps }

/-- BUDGET_WINDOW_START (R365). -/
def execBudgetWindowStart (s : State) : Host.Outcome State Fault Refusal :=
  .next { s with dev := windowStart s.dev }

/-- POLICY_UPDATE_DONE (R371). -/
def execPolicyUpdateDone (s : State) : Host.Outcome State Fault Refusal :=
  .next { s with dev := policyDone s.dev }

/-- QUEUE_FLUSH (R356). -/
def execQueueFlush (acc : Access) (pid : Nat) (arg : Word) (s : State) : Host.Outcome State Fault Refusal :=
  .next { s with dev := queueFlush s.dev acc pid arg.toNat }

end Sys2Proof.Machine
end

