-- ==== Sys2Proof/Machine/Engine.lean ====
section
/-! DEFINITION. The Engine Stations: an engine cluster's requests, their range check, translation and answers, and the
responses, tags and line locks they wait for (01 R15-R18, R27, R30; 05 R165; 08 R267; 11 R349-R351, R354). -/

namespace Sys2Proof.Machine

/-! ## The step a cluster runs -/

/-- The step whose WAIT the cluster has been answered, until it ends there (R350). -/
def runsStep (b : Block) (es : Nat) : Option Step :=
  match (station b es).step.bind (stepOf b) with
  | some s => if s.started then some s else none
  | none => none

/-- A run of addresses lies wholly within another. -/
def inside (a n c m : Nat) : Bool := c ≤ a && a + n ≤ c + m

/-- R351: a read lies within an input range, an output range or the command extent; a write within an output range. -/
def declared (s : Step) (write : Bool) (va len : Nat) : Bool :=
  (s.ranges.any fun e => (rDir e == 2 || !write) && inside va len (rBase e) (rLen e))
    || (!write && inside va len (sCmdVa s.desc) (sCmdLen s.desc))

/-- The refusal RANGE_DECL, recorded as R148 states; the address recorded has no physical address to stand for it: it
is a free value (log 3). -/
def declFault (b : Block) (es : Nat) (c : Ctx) : Block :=
  let (a, b) := draw b
  guardRecord b (uES es) (a % 2 ^ 56) c 6 .engine 0

def eqStatus (b : Block) (es : Nat) (st : Status) : Block := emit b (.eqStatus es st)

/-! ## The station's requests -/

def reqHolder (es num : Nat) : Holder := ⟨.engineRead, es, num⟩

def reqAsker (es : Nat) (r : EReq) : Asker := ⟨reqHolder es r.num, 0, es⟩

def findReq (b : Block) (es num : Nat) : Option EReq := (station b es).reqs.find? (·.num == num)

def setReq (b : Block) (es : Nat) (r : EReq) : Block :=
  onStationES b es fun x => { x with reqs := x.reqs.map fun q => if q.num = r.num then r else q }

/-- A request leaves its station, with the tag and the line lock it holds or waits for. -/
def dropReq (b : Block) (es num : Nat) : Block :=
  let segs := ((findReq b es num).map (·.segs)).getD []
  let b := onStationES b es fun x => { x with reqs := x.reqs.filter (·.num != num) }
  abandon (lockForget b (.engine es num)) (reqHolder es num) segs

/-- A request is over: refused with a status, or answered. -/
def refuseReq (b : Block) (es : Nat) (r : EReq) (st : Status) : Block := eqStatus (dropReq b es r.num) es st

/-- READ, WRITE and the atomics. -/
def EReq.isMem (r : EReq) : Bool := r.op < 5

def EReq.isAtomic (r : EReq) : Bool := 2 ≤ r.op && r.op < 5

def EReq.writes (r : EReq) : Bool := 1 ≤ r.op && r.op < 5

def EReq.access (r : EReq) : Access4 := if r.op = 0 then .read else if r.op = 1 then .write else .atomic

/-- A request that must stay behind `q` (04 R131): one of its context to a 256-byte line of an unanswered one, or to a
page that is being filled for one not yet translated. -/
def EReq.after (r q : EReq) : Bool :=
  r.isMem && q.isMem && r.ctx == q.ctx
    && ((common (r.va / 256) ((r.va + r.len - 1) / 256 - r.va / 256 + 1) (q.va / 256)
          ((q.va + q.len - 1) / 256 - q.va / 256 + 1)).isSome
      || (!q.issued && (common (pageOf r.va) (pageOf (r.va + r.len - 1) - pageOf r.va + 1) (pageOf q.va)
          (pageOf (q.va + q.len - 1) - pageOf q.va + 1)).isSome))

/-- The earlier requests of its station. -/
def earlier (b : Block) (es num : Nat) : List EReq := (station b es).reqs.takeWhile (·.num != num)

/-- A request of a station that has not been issued at the memory request interface: its translation or its tag
waits. -/
def unsent (b : Block) (es : Nat) (q : EReq) : Bool := !q.issued || b.tags.waits.any (·.holder == reqHolder es q.num)

/-! ## COMMIT and PACE wait for earlier writes (05 R165; 11 R349) -/

/-- PACE: the line's request, or its refusal (R165). -/
def paceNow (b : Block) (es : Nat) (r : EReq) : Block :=
  let b := dropReq b es r.num
  let e := paceEntry b (r.va % 256)
  if paceOwner e ≠ r.ctx.pid || paceSource e ≠ 1 then eqStatus (count b 0x4000 7) es .guardFault
  else paceRequest (bindStep b es) (r.va % 256)

/-- COMMIT, or a WAIT that stands for one: forwarded; the WAIT is parked (R349). -/
def commitNow (b : Block) (es : Nat) (r : EReq) : Block :=
  let b := commitStep (bindStep (dropReq b es r.num) es) es
  if r.op = 11 then onStationES b es fun x => { x with waiting := true } else eqStatus b es .ok

/-! ## Memory requests -/

/-- Code of the atomic (06 R207): 0 FETCH_ADD, 1 CMP_SWAP, 2 SWAP. -/
def EReq.aop (r : EReq) : Nat := r.op - 2

def EReq.pa (r : EReq) : Nat := (r.segs.head?.map (·.pa)).getD 0

/-- The read-modify-write of an engine atomic, its line's lock held (R16). -/
def engineAtomic (b : Block) (es : Nat) (r : EReq) : Block :=
  if !served b (uMS (stationOf r.pa)) then refuseReq b es r .fenced
  else
    let (b, old) := atomicAt b r.pa r.aop r.data r.compare
    emit (dropReq b es r.num) (.edData es ⟨8, old⟩)

/-- An atomic holds its tag; it takes its line's lock, or waits for it. -/
def engineLock (b : Block) (es : Nat) (r : EReq) : Block :=
  if lockFree b r.pa 1 then engineAtomic b es r else lockWait b r.pa 1 (.engine es r.num)

/-- A translated write or atomic of package or host memory is done under a tag, for which it waits where it finds none
(R27); a host write is posted and takes none. -/
def engineStore (b : Block) (es : Nat) (r : EReq) : Block :=
  let a := reqAsker es r
  let w : TagWait := ⟨.mem, r.ctx, [], a.holder, []⟩
  match segsPlace b r.segs with
  | .host =>
    let (src, b) := draw b
    dropReq (putPieces b a r.ctx ⟨r.len, r.data⟩ 0 (src % 16) r.segs) es r.num
  | _ =>
    if !tagReady b w then waitTag b w
    else
      let b := if issued b w.holder then b else grantTag b w
      if r.isAtomic then engineLock b es r else dropReq (putPieces b a r.ctx ⟨r.len, r.data⟩ 0 0 r.segs) es r.num

/-- An atomic where Table 4-7 lets none be performed: NO_TARGET, recorded as R148 states. -/
def noTarget (b : Block) (es : Nat) (r : EReq) : Block :=
  refuseReq (guardRecord b (uES es) r.pa r.ctx 1 .engine 0) es r .guardFault

/-- A remote atomic becomes a JFT request on the queue pair of its window (04 R120). -/
def remoteAtomic (b : Block) (es : Nat) (r : EReq) : Block :=
  match rwinUse b r.ctx.pid ((r.segs.head?.map (·.rwin)).getD 0) r.pa with
  | some (i, k) => remoteSend b i k (pieceHolder (reqHolder es r.num) 0) r.ctx (4 + r.aop) r.pa 8 0 0 r.data r.compare
  | none => refuseReq b es r .xlateFault

/-- A request whose every page has been translated goes where its tile lies; one to another chip is its step's external
act (R354). -/
def engineSend (b : Block) (es : Nat) (r : EReq) (segs : List Seg) : Block :=
  let a := reqAsker es r
  let r := { r with issued := true, segs := segs }
  let b := setReq b es r
  let place := segsPlace b segs
  let b := if place == .remote then bindStep b es else b
  if r.op = 0 then goRead b a r.ctx segs
  else if r.isAtomic then
    match place with
    | .package => engineStore b es r
    | .remote => remoteAtomic b es r
    | _ => noTarget b es r
  else
    match place with
    | .package => engineStore b es r
    | .host => engineStore b es r
    | _ => goWrite b a r.ctx ⟨r.len, r.data⟩ 0 0 segs

/-- A request that nothing keeps back is translated; one that waits for a walk stays (R15, R131). -/
def engineTry (b : Block) (es : Nat) (r : EReq) : Block :=
  if (earlier b es r.num).any r.after then setReq b es { r with behind := true }
  else
    let b := if r.behind then setReq b es { r with behind := false } else b
    match prepare b (reqAsker es r) r.ctx r.va r.len r.access true with
    | (b, .wait) => b
    | (b, .failed st _) => refuseReq b es r st
    | (b, .issued segs) => engineSend b es { r with behind := false } segs

/-! ## What a station does when a request is over -/

/-- May a PACE or COMMIT go: are the writes before it issued, or acknowledged (R165, R349)? -/
def ctlReady (b : Block) (es : Nat) (r : EReq) : Bool :=
  let before := (earlier b es r.num).filter EReq.writes
  if r.op = 8 then before.all fun q => q.ctx != r.ctx || !unsent b es q else before.isEmpty

/-- The first request of a station that may go on now: a PACE or COMMIT whose writes are through, or a request that
nothing keeps back any more. -/
def freed (b : Block) (es : Nat) : Option EReq :=
  (station b es).reqs.find? fun r =>
    if r.isMem then r.behind && !(earlier b es r.num).any r.after else ctlReady b es r

def goOn (b : Block) (es : Nat) (r : EReq) : Block :=
  if r.isMem then engineTry b es r else if r.op = 8 then paceNow b es r else commitNow b es r

/-- The requests of a station that waited for others go on, one after the other. -/
def releaseReqs (b : Block) (es : Nat) : Nat → Block
  | 0 => b
  | fuel + 1 =>
    match freed b es with
    | none => b
    | some r => releaseReqs (goOn b es r) es fuel

def release (b : Block) (es : Nat) : Block := releaseReqs b es (station b es).reqs.length

/-- A request is tried, and what waited for it goes on. -/
def engineGo (b : Block) (es : Nat) (r : EReq) : Block := release (engineTry b es r) es

/-- What an atomic or a write waited for has come. -/
def engineResume (b : Block) (es : Nat) (r : EReq) : Block := release (engineStore b es r) es

/-- A new request joins its station's list. -/
def addReq (b : Block) (es : Nat) (r : EReq) : Block × EReq :=
  let r := { r with num := b.cha.nextReq }
  let b := { b with cha := { b.cha with nextReq := b.cha.nextReq + 1 } }
  (onStationES b es fun x => { x with reqs := x.reqs ++ [r] }, r)

/-- The refusals that come before translation, in the order of R32: `bad` gives those of the request itself, GUARD_FAULT
or MISALIGNED; none, the request goes on in its step. A request of a cluster where no step runs is refused GUARD_FAULT
(DESIGN CHOICE, log 31). -/
def screenReq (b : Block) (es : Nat) (bad : Step → Option Status) : Except Status Step :=
  if !served b (uES es) then .error .fenced
  else match runsStep b es with
    | none => .error .guardFault
    | some s =>
      if fencedAccess b s.ctx then .error .fenced
      else if !ctxOpen b s.pid s.ctx.cx then .error .withdrawn
      else match bad s with
        | some st => .error st
        | none => if (station b es).killing || s.kill.isSome then .error .aborted else .ok s

/-- The range check and the alignment check of a memory request (R16, R351). -/
def memFault (write mis : Bool) (va len : Nat) (s : Step) : Option Status :=
  if !declared s write va len then some .guardFault else if mis then some .misaligned else none

/-- A refusal by the range check is recorded. -/
def screenRecord (b : Block) (es : Nat) (st : Status) : Block :=
  match runsStep b es with
  | some s => if st = .guardFault then declFault b es s.ctx else b
  | none => b

/-- READ, WRITE or an atomic at an Engine Station (R15-R17, R351). `beats` as EQ_LEN carries it: a READ or WRITE of a
number of beats that Table 1-9 does not give has no effect (DESIGN CHOICE, log 31). -/
def engineMem (b : Block) (es op va beats data compare : Nat) : Block :=
  let atomic := decide (2 ≤ op)
  if 2 ^ 52 ≤ va || 15 < beats || (!atomic && (beats = 0 || 8 < beats)) then b
  else
    let len := if atomic then 8 else 64 * beats
    let mis := if atomic then va % 8 ≠ 0 || beats ≠ 1 else va % 64 ≠ 0
    match screenReq b es (memFault (op != 0) mis va len) with
    | .error st => eqStatus (screenRecord b es st) es st
    | .ok s =>
      match checkWord b (uES es) 0x13 s.pid 0 (pageOf va % 128) with
      | (b, true) => eqStatus b es .fenced
      | (b, false) =>
        let (b, r) := addReq b es ⟨0, op, va, len, data % 2 ^ (8 * len), compare, s.ctx, [], false, false⟩
        engineGo b es r

/-- PACE, COMMIT and a WAIT that stands for a COMMIT: held behind the earlier writes. -/
def engineCtl (b : Block) (es op va : Nat) : Block :=
  match screenReq b es fun _ => none with
  | .error st => eqStatus b es st
  | .ok s =>
    let (b, _) := addReq b es ⟨0, op, va, 0, 0, 0, s.ctx, [], false, false⟩
    release b es

/-- POST: the doorbell of a queue pair of the step's partition; answered OK even where R224 discards it. -/
def enginePost (b : Block) (es va w : Nat) : Block :=
  match screenReq b es fun _ => none with
  | .error st => eqStatus b es st
  | .ok s => eqStatus (qpWord (bindStep b es) s.pid (va % 65536) w) es .ok

/-- WAIT: counts as the COMMIT its cluster still owes; else it is parked, unless a kill is under way (R349, R355). -/
def engineWait (b : Block) (es : Nat) : Block :=
  let owes : Bool := match runsStep b es with
    | some s => !s.committed.contains es || s.kill.isSome
    | none => false
  if !served b (uES es) then eqStatus b es .fenced
  else if owes then engineCtl b es 11 0
  else if (station b es).killing then eqStatus b es .aborted
  else onStationES b es fun x => { x with waiting := true }

/-- A cluster presents a request: its station takes it where it is out of reset (01 R20). -/
def atStation (b : Block) (es : Nat) (f : Block → Block) : Block :=
  if esPresent b es && !heldInReset b (uES es) then f b else b

/-- A request is presented only while EQ_READY is high (04 R131; 11 R347). -/
def presented (b : Block) (es : Nat) (f : Block → Block) : Block := if eqReady b es then atStation b es f else b

/-! ## Answers -/

/-- Does an answer still reach its request: its context is as it was, or is being drained by a withdrawal (03 R92,
Table 3-6)? -/
def answerLive (b : Block) (c : Ctx) : Bool :=
  (ctxOpen b c.pid c.cx || ctxDrains b c.pid c.cx) && (ctxSlot b c.pid c.cx).gen == c.gen

/-- The answer of a request is complete: data on ED_RDATA, a refusal on EQ_STATUS; a response of a context that has
moved on is discarded and counted (R92). -/
def engineAnswer (b : Block) (es : Nat) (r : EReq) (st : Status) (d : Nat) : Block :=
  let b := dropReq b es r.num
  let b :=
    if !answerLive b r.ctx then count b (0x2200 + r.ctx.pid) 0x13
    else if st ≠ .ok then eqStatus b es st
    else if r.op = 1 then b
    else emit b (.edData es ⟨r.len, d⟩)
  release b es

/-- A station's request is answered, if all its pieces are. -/
def engineArrive (b : Block) (es num : Nat) (ans : Answer) : Block :=
  match findReq b es num with
  | none => b
  | some r =>
    match arrive b (reqHolder es num) r.segs ans (if r.op = 1 then 0 else r.len) with
    | none => b
    | some (b, st, d) => engineAnswer b es r st d

/-- Requests whose answers the SSU and the transport hold are answered. -/
def pumpEngines (b : Block) : Block :=
  b.cha.stations.foldl (fun b e => release (e.2.reqs.foldl (fun b r =>
    if r.issued && !tagged b r.segs then
      engineArrive b e.1 r.num ⟨.ok, ⟨0, 0⟩, false⟩
    else b) b) e.1) b

/-- The work of an arriving packet that a tag's holder names. -/
def workNamed (b : Block) (h : Holder) : Option Work := b.tpe.works.find? fun w => workHolder w == h

/-- 01 R18: read data returns for a tag. Package data are what memory holds; the data of a read of host memory by an
engine come from outside: they are a free value (log 3). -/
def memResponse (b : Block) (tag : Nat) (bad : Bool) : Block :=
  match b.tags.used.find? (·.tag == tag) with
  | none => b
  | some u =>
    match u.holder.kind with
    | .engineRead =>
      let (d, b) := draw b
      engineArrive b u.holder.a u.holder.b ⟨.ok, ⟨512, d % 2 ^ 4096⟩, bad⟩
    | .placement =>
      match workNamed b u.holder with
      | some w =>
        if w.kind = .read then
          let (d, b) := draw b
          readReturn b w ⟨.ok, ⟨w.len, d % 2 ^ (8 * w.len)⟩, bad⟩
        else b
      | none => b
    | _ => b

/-- 01 R30: a response whose epoch does not match its tag's. -/
def staleResponse (b : Block) (tag epoch : Nat) : Block :=
  if tag < 65536 && epoch < 16 && epoch ≠ tagEpoch b tag then count b 0x1300 7 else b

def poolOfNum : Nat → Option Pool
  | 0 => some .mem | 1 => some .fabric | 2 => some .host | _ => none

/-! ## Line locks (08 R267) -/

/-- A request that waited takes its lock and does what it waited for. -/
def lockServe (b : Block) (w : LockWait) : Block :=
  match w.who with
  | .app n =>
    match app b n with
    | some a => lock (setApp b { a with st := .locked }) w.pa w.lines
    | none => b
  | .packet i psn =>
    match b.tpe.works.find? fun k => k.kind == .atomic && k.qp == i && k.psn == psn with
    | some k => atomicRun b k
    | none => b
  | .engine es num =>
    match findReq b es num with
    | some r => release (engineAtomic b es r) es
    | none => b

/-- The oldest waiting request whose lines are free takes the lock. -/
def lockGrant (b : Block) (ms line : Nat) : Block :=
  match lockNext b ms with
  | none => b
  | some w => if lineOf w.pa ≠ line then b else lockServe (lockTake b w) w

/-! ## Rows -/

/-- READ (R16). -/
def execRead (es va beats : Nat) (s : State) : Host.Outcome State Fault Refusal :=
  .next { s with dev := wakeEvent s.dev 4 (.read es va beats) fun b => presented b es fun b => engineMem b es 0 va beats 0 0 }

/-- WRITE (R17). -/
def execWrite (es va beats : Nat) (data : Bytes) (s : State) : Host.Outcome State Fault Refusal :=
  .next { s with dev := wakeEvent s.dev 4 (.write es va beats data) fun b => presented b es fun b => engineMem b es 1 va beats data.val 0 }

/-- FETCH_ADD (R16). -/
def execFetchAdd (es va beats : Nat) (addend : Word) (s : State) : Host.Outcome State Fault Refusal :=
  .next { s with dev := wakeEvent s.dev 4 (.fetchAdd es va beats addend) fun b => presented b es fun b => engineMem b es 2 va beats addend.toNat 0 }

/-- CMP_SWAP (R16). -/
def execCmpSwap (es va beats : Nat) (new compare : Word) (s : State) : Host.Outcome State Fault Refusal :=
  .next { s with dev := wakeEvent s.dev 4 (.cmpSwap es va beats new compare) fun b => presented b es fun b => engineMem b es 3 va beats new.toNat compare.toNat }

/-- SWAP (R16). -/
def execSwap (es va beats : Nat) (value : Word) (s : State) : Host.Outcome State Fault Refusal :=
  .next { s with dev := wakeEvent s.dev 4 (.swap es va beats value) fun b => presented b es fun b => engineMem b es 4 va beats value.toNat 0 }

/-- PACE (R165). -/
def execPace (es va : Nat) (s : State) : Host.Outcome State Fault Refusal :=
  .next { s with dev := wakeEvent s.dev 4 (.pace es va) fun b => presented b es fun b => engineCtl b es 8 va }

/-- COMMIT (R349). -/
def execCommit (es : Nat) (s : State) : Host.Outcome State Fault Refusal :=
  .next { s with dev := wakeEvent s.dev 4 (.commit es) fun b => presented b es fun b => engineCtl b es 9 0 }

/-- POST (R349). -/
def execPost (es va : Nat) (word : Word) (s : State) : Host.Outcome State Fault Refusal :=
  .next { s with dev := wakeEvent s.dev 4 (.post es va word) fun b => presented b es fun b => enginePost b es va word.toNat }

/-- WAIT (R349). -/
def execWait (es : Nat) (s : State) : Host.Outcome State Fault Refusal :=
  .next { s with dev := presented s.dev es fun b => engineWait b es }

/-- The reserved values of EQ_OP (Table 1-9). -/
def reservedOp (op : Nat) : Bool := (5 ≤ op && op < 8) || (12 ≤ op && op < 16)

def engineReserved (b : Block) (es op : Nat) : Block :=
  if reservedOp op then eqStatus b es (if served b (uES es) then .guardFault else .fenced) else b

/-- RESERVED_EQ_OP (R16). -/
def execReservedEqOp (es op : Nat) (s : State) : Host.Outcome State Fault Refusal :=
  .next { s with dev := wakeEvent s.dev 4 (.reservedEqOp es op) fun b => presented b es fun b => engineReserved b es op }

/-- MEMORY_READ_RESPONSE (R18). -/
def execMemoryReadResponse (tag poison : Nat) (err : Bool) (s : State) : Host.Outcome State Fault Refusal :=
  .next { s with dev := memResponse s.dev tag (err || poison != 0) }

/-- STALE_RESPONSE (R30). -/
def execStaleResponse (tag epoch : Nat) (s : State) : Host.Outcome State Fault Refusal :=
  .next { s with dev := staleResponse s.dev tag epoch }

/-- LINE_LOCK_GRANT (R267). -/
def execLineLockGrant (ms line : Nat) (s : State) : Host.Outcome State Fault Refusal :=
  .next { s with dev := lockGrant s.dev ms line }

end Sys2Proof.Machine
end

