-- ==== Sys2Proof/Machine/Walks.lean ====
section
/-! DEFINITION. The Translation Hub's walks and what waits for them, the root commands and the invalidation window
(04 R126-R145). -/

namespace Sys2Proof.Machine

/-! ## Who waits for a walk -/

/-- The unit that waited for a walk tries its access again. -/
def retryAsker (b : Block) (h : Holder) : Block :=
  match h.kind with
  | .engineRead =>
    match findReq b h.a h.b with
    | some r => if r.issued then engineResume b h.a r else engineGo b h.a r
    | none => b
  | .chanDesc | .chanRead | .chanWrite | .chanReadback | .chanStatus => chanRetry b h.a
  | .groupRecord | .localSlot | .castOut | .groupRecordOut | .streamTable => groupRetry b h
  | .placement =>
    match b.tpe.works.find? fun w => workHolder w == h && !w.issued with
    | some w => if w.kind = .response then responseGo b w else workGo b w
    | none =>
      match b.cru.apps.find? fun a => !a.isLocal && a.qp == h.a && a.psn == h.b && a.st == .xlate with
      | some a => appGo b a
      | none => b
  | .wqeFetch => if (qp b h.a).fetch = .wantWqe then sqFetch b h.a else b
  | .wqePayload => if (qp b h.a).fetch = .wantPayload then payloadRead b h.a else b
  | .queryWrite => queryWrite b h.a h.b
  | .stepDesc => ringFetch b h.a h.b
  | .stepRanges =>
    match b.cha.results.find? fun r => h.b == 1 && r.num == h.a with
    | some r => putResult b r
    | none => b
  | _ => b

def retryAll (b : Block) (l : List Asker) : Block := l.foldl (fun b a => retryAsker b a.holder) b

/-- After a change that started walks again: what waited for those that have ended tries again (R142). -/
def retryEnded (b0 b : Block) : Block :=
  (b0.hub.walks.filter fun w => !b.hub.walks.any fun v => v.num == w.num && v.ctx == w.ctx && v.va == w.va).foldl
    (fun b w => retryAll b w.askers) b

/-- 01 R27: a freed tag goes to the next waiting request, which is then issued: it carries what it presents, or the unit
that waited tries again. -/
def grantRow (b : Block) (p : Pool) : Block :=
  match nextWaiter b p with
  | none => b
  | some w =>
    let b := tagGrant b p
    if w.holder.kind = .frame then frameGo b w.holder.a w.holder.b
    else if w.msg.isEmpty then retryAsker b w.holder
    else b

/-! ## The walkers (R126-R132) -/

/-- The partitions with a waiting miss, in the order of their turns. -/
def missNext (b : Block) : Option (Ctx × Nat × Asker) :=
  (turnOrder b.hub.walkTurn).findSome? fun pid =>
    b.hub.missWait.find? fun m => m.1.pid == pid
      && (walkerFree b pid || b.hub.walks.any fun w => w.ctx == m.1 && pageOf w.va == pageOf m.2.1)

/-- WALKER_GRANT: a waiting miss takes a free walker, or joins the walk of its page. -/
def walkerGrant (b : Block) : Block :=
  match missNext b with
  | none => b
  | some (c, va, a) =>
    let b := miss { b with hub := { b.hub with missWait := b.hub.missWait.erase (c, va, a), walkTurn := c.pid } } c va a
    if b.hub.walks.any (·.askers.contains a) then b else retryAsker b a.holder

/-- The status a failed table read gives the request (R129). -/
def readStatus (st : Status) : Status := if statusRank st < statusRank .xlateFault then st else .xlateFault

/-- A table read has been answered. -/
def tableReadDone (b : Block) (num : Nat) (ans : Answer) : Block :=
  match b.hub.walks.find? (·.num == num) with
  | none => b
  | some w =>
    if !issued b (walkHolder num) then b
    else
      let b := memoryUe (settle b (walkHolder num)) ((ans.poison || ans.st != .ok) && regionOf w.need == .package) w.need
        w.ctx.pid
      let st := if ans.poison then .poison else ans.st
      if st ≠ .ok then retryAll (endWalkFault b w (readStatus st) causeWalkError 0) w.askers
      else
        let v := if regionOf w.need = .package then readMem b w.need 8 else ans.data.val % 2 ^ 64
        let w := { w with reads := insert w.reads w.need v }
        let (b, ended) := walkAdvance (setWalk b w) w
        if ended then retryAll b w.askers else b

/-- A table read gets no answer within WALK_TIMEOUT (R129). -/
def walkTimeout (b : Block) (num : Nat) : Block :=
  match b.hub.walks.find? (·.num == num) with
  | none => b
  | some w =>
    if !issued b (walkHolder num) || !elapsed b w.since (micros (rd b 0x3000 4)) then b
    else retryAll (endWalkFault b w .xlateFault causeWalkError 0) w.askers

/-! ## Root commands (R137, R138, R145) -/

/-- S2_ROOT_SET. -/
def s2RootSet (b : Block) (acc : Access) (pid arg : Nat) : Block :=
  let valid := bitAt arg 63
  let pa := bits arg 0 44 <<< 12
  retryEnded b (partCommand b acc 0x3100 pid 1 arg
    (fun b => { noFails with
      rights := notHostFw acc
      range := !zeroBits arg 44 19 || (valid && (isRemote b pa || regionOf pa != .aperture))
      state := (part b pid).st != .building && (part b pid).st != .live })
    fun b => invalidateFor (wr b (0x3100 + pid) 4 (if valid then arg else 0)) (0x3100 + pid) 1 none ⟨.partition, pid, 0, 0, 0⟩)

def setRoot1 (b : Block) (pid cx : Nat) (root : Option Nat) : Block :=
  let p := part b pid
  setPart b pid { p with s1Roots := match root with
    | some r => insert p.s1Roots cx r
    | none => erase p.s1Roots cx }

/-- S1_ROOT_SET. -/
def s1RootSet (b : Block) (acc : Access) (pid arg : Nat) : Block :=
  let cx := bits arg 0 10
  retryEnded b (partCommand b acc 0x3100 pid 2 arg
    (fun b => { noFails with
      rights := notHostTntFw b acc pid
      range := !zeroBits arg 46 17
      state := !isLive b pid || !ctxOpen b pid cx })
    fun b => invalidateFor (setRoot1 b pid cx (if bitAt arg 63 then some (bits arg 10 36) else none)) (0x3100 + pid) 2
      (some (pid, cx, find? (part b pid).s1Roots cx)) ⟨.s1Context, pid, cx, 0, 0⟩)

/-- S1_INVALIDATE. -/
def s1Invalidate (b : Block) (acc : Access) (pid arg : Nat) : Block :=
  let cx := bits arg 0 10
  let sc := bits arg 10 2
  retryEnded b (partCommand b acc 0x3100 pid 3 arg
    (fun b => { noFails with
      rights := notHostTntFw b acc pid
      range := !zeroBits arg 12 13 || (sc != 1 && sc != 2)
      state := !isLive b pid || !ctxOpen b pid cx })
    fun b => invalidateFor b (0x3100 + pid) 3 none
      ⟨if sc = 1 then .s1Range else .s1Context, pid, cx, bits arg 25 27, bits arg 52 12 + 1⟩)

/-! ## The invalidation window (R139-R143) -/

def freshInv : InvSlot := ⟨false, false, 0, []⟩

def invSlot (b : Block) (s : Nat) : InvSlot := look b.hub.inv freshInv s

def setInv (b : Block) (s : Nat) (x : InvSlot) : Block :=
  { b with hub := { b.hub with inv := store b.hub.inv freshInv s x } }

/-- The DONE word (Table 4-14). -/
def doneWord (x : InvSlot) : Nat :=
  (ofBool x.overflow <<< 63) + (ofBool x.rejected <<< 62) + (x.queue.length <<< 32) + x.seq

/-- A record at the front of its slot is complete: it leaves the queue and is published (R143). -/
def invPublish (b : Block) (s : Nat) (r : InvRec) : Block :=
  let x := invSlot b s
  let x := { x with queue := x.queue.drop 1, seq := r.seq, rejected := r.rejected }
  let b := count (setInv b s x) 0x3000 9
  let base := rd b 0x3000 6
  if base = 0 then b else emit b (.hostWrite (base + 8 * s) ⟨8, doneWord x⟩ false plainVia)

/-- Rejected records at the front complete at once (R140). -/
def invRejects (b : Block) (s : Nat) : Nat → Block
  | 0 => b
  | fuel + 1 =>
    match (invSlot b s).queue with
    | r :: _ => if r.rejected then invRejects (invPublish b s r) s fuel else b
    | [] => b

/-- The scope of a record; none: reserved. -/
def recScope : Nat → Option Scope
  | 0 => some .sync | 1 => some .s1Range | 2 => some .s1Context | 3 => some .s2Range | 4 => some .partition
  | 5 => some .all | _ => none

/-- A record's cover; none: it is rejected (R140). -/
def recCover (r : Nat) : Option Cover :=
  match recScope (bits r 76 4) with
  | none => none
  | some sc =>
    if !zeroBits r 52 12 || !zeroBits r 0 25 || (sc == .s2Range && !zeroBits r 48 4) then none
    else some ⟨sc, bits r 90 6, bits r 80 10, bits r 25 27, bits r 64 12 + 1⟩

/-- A record is queued in its slot, or discarded when the slot holds 16 (R141, R142). -/
def invTake (b : Block) (s r : Nat) : Block :=
  let x := invSlot b s
  if 16 ≤ x.queue.length then count (setInv b s { x with overflow := true }) 0x3000 0x0B
  else
    let seq := bits r 96 32
    match recCover r with
    | none => invRejects (count (setInv b s { x with queue := x.queue ++ [⟨seq, true, []⟩] }) 0x3000 0x0A) s 16
    | some c =>
      let (b', tiles) := invalidate b c
      retryEnded b (setInv b' s { x with queue := x.queue ++ [⟨seq, false, tiles⟩] })

/-- DONE_CLEAR. -/
def doneClear (b : Block) (s width value : Nat) : Block :=
  if s < 256 && width = 8 && bitAt value 63 then setInv b s { invSlot b s with overflow := false } else b

/-- A write to a slot of the window (R139), which opens in step 7 of start-up (14 Table 14-1). -/
def invWrite (b : Block) (s off : Nat) (d : Bytes) : Block :=
  if 256 ≤ s || d.len = 0 || 256 < off + d.len || !bitAt (rd b 0xC000 2) 7 then b
  else if off = 0 && d.len = 16 then invTake b s d.val
  else if off < 16 then count b 0x3000 0x0B
  else if off = 0x18 then doneClear b s d.len d.val
  else b

/-- INVALIDATION_COMPLETE: the oldest record of the slot, once every tile it waits for has been answered. -/
def invComplete (b : Block) (s : Nat) : Block :=
  match (invSlot b s).queue with
  | r :: _ => if r.waitOn.any (tileOut b) then b else invRejects (invPublish b s r) s 16
  | [] => b

/-! ## Rows -/

/-- TAG_GRANT (R27). -/
def execTagGrant (pool : Nat) (s : State) : Host.Outcome State Fault Refusal :=
  .next { s with dev := match poolOfNum pool with
    | some p => grantRow s.dev p
    | none => s.dev }

/-- WALKER_GRANT (R132). -/
def execWalkerGrant (s : State) : Host.Outcome State Fault Refusal :=
  .next { s with dev := walkerGrant s.dev }

/-- WALK_TABLE_READ_DONE (R126, R129). -/
def execWalkTableReadDone (walk : Nat) (ans : Answer) (s : State) : Host.Outcome State Fault Refusal :=
  .next { s with dev := tableReadDone s.dev walk ans }

/-- WALK_TIMEOUT (R129). -/
def execWalkTimeout (walk : Nat) (s : State) : Host.Outcome State Fault Refusal :=
  .next { s with dev := walkTimeout s.dev walk }

/-- S2_ROOT_SET (R137). -/
def execS2RootSet (acc : Access) (pid : Nat) (arg : Word) (s : State) : Host.Outcome State Fault Refusal :=
  .next { s with dev := s2RootSet s.dev acc pid arg.toNat }

/-- S1_ROOT_SET (R138). -/
def execS1RootSet (acc : Access) (pid : Nat) (arg : Word) (s : State) : Host.Outcome State Fault Refusal :=
  .next { s with dev := s1RootSet s.dev acc pid arg.toNat }

/-- S1_INVALIDATE (R145). -/
def execS1Invalidate (acc : Access) (pid : Nat) (arg : Word) (s : State) : Host.Outcome State Fault Refusal :=
  .next { s with dev := s1Invalidate s.dev acc pid arg.toNat }

/-- INVALIDATION_RECORD (R139-R142). -/
def execInvalidationRecord (slot offset : Nat) (data : Bytes) (s : State) : Host.Outcome State Fault Refusal :=
  .next { s with dev := wakeEvent s.dev 1 (.invalidationRecord slot offset data) fun b => invWrite b slot offset data }

/-- INVALIDATION_COMPLETE (R143). -/
def execInvalidationComplete (slot : Nat) (s : State) : Host.Outcome State Fault Refusal :=
  .next { s with dev := invComplete s.dev slot }

/-- DONE_CLEAR (R139). -/
def execDoneClear (slot width : Nat) (value : Word) (s : State) : Host.Outcome State Fault Refusal :=
  .next { s with dev := wakeEvent s.dev 1 (.doneClear slot width value) fun b => doneClear b slot width value.toNat }

end Sys2Proof.Machine
end

