-- ==== Sys2Proof/Machine/Seals.lean ====
section
/-! DEFINITION. The key port and the key commands, and the commands and arrivals of the Spill Seal Unit
(10 R309-R336). -/

namespace Sys2Proof.Machine

/-! ## Keys (R309, R310) -/

def setRingKeys (b : Block) (f : Keyring → Keyring) : Block := { b with ring := f b.ring }

/-- A word joins a staging register; the ninth is discarded and clears it. -/
def stageWord (l : List (BitVec 32)) (w : BitVec 32) : List (BitVec 32) := if 8 ≤ l.length then [] else l ++ [w]

/-- KEY_PORT_WORD. -/
def keyPortWord (b : Block) (slot : Nat) (w : BitVec 32) : Block :=
  let full (l : List (BitVec 32)) : Bool := 8 ≤ l.length
  match slot with
  | 0 =>
    let b' := setRingKeys b fun r => { r with stageSpill := stageWord r.stageSpill w }
    if full b.ring.stageSpill then count b' 0x7000 0x13 else b'
  | 1 =>
    let b' := setRingKeys b fun r => { r with stageLink := stageWord r.stageLink w }
    if full b.ring.stageLink then count b' 0x7000 0x13 else b'
  | _ => if slot < 16 then count b 0x7000 0x13 else b

/-- The key of eight staged words, the first its lowest bits. -/
def stagedKey (l : List (BitVec 32)) : Nat := l.reverse.foldl (fun a w => a * 2 ^ 32 + w.toNat) 0

/-- SPILL_KEY_INSTALL. -/
def spillKeyInstall (b : Block) (acc : Access) (arg : Nat) : Block :=
  command b acc 0x7000 0x40 arg
    (fun b => { noFails with
      rights := notRot acc, range := arg != 0 || b.ring.stageSpill.length != 8, state := spillState b == 1 })
    fun b =>
      let k := stagedKey b.ring.stageSpill
      if spillState b = 0 then
        finishCmd (setRingKeys b fun r => { r with spillCur := some k, fresh := true, stageSpill := [] }) 0x7000 0x40 .ok 0
      else
        let b := setRingKeys b fun r => { r with spillNext := some k }
        wr (wr { b with ssu := { b.ssu with annealPoisoned := 0, annealAt := b.clk.now } } 0x7000 7 3) 0x7000 8 0

/-- LINK_KEY_INSTALL; packets held for want of a key are tried again (R313). -/
def linkKeyInstall (b : Block) (acc : Access) (arg : Nat) : Block :=
  commandNow b acc 0x7000 0x41 arg
    (fun b => { noFails with rights := notRot acc, range := arg != 0 || b.ring.stageLink.length != 8 })
    fun b =>
      let k := stagedKey b.ring.stageLink
      let b := if b.ring.linkCur.isNone then
          retryHeld (setRingKeys b fun r => { r with linkCur := some k, stageLink := [] })
        else setRingKeys b fun r => { r with linkNext := some k, stageLink := [] }
      (b, .ok, 0)

/-- LINK_KEY_SWITCH. -/
def linkKeySwitch (b : Block) (acc : Access) (arg : Nat) : Block :=
  commandNow b acc 0x7000 0x42 arg
    (fun b => { noFails with rights := notFmFw acc, range := arg != 0, state := b.ring.linkNext.isNone })
    fun b => (setRingKeys b fun r => { r with
      linkPrev := r.linkCur, linkCur := r.linkNext, linkNext := none, switchAt := b.clk.now, stageLink := [] }, .ok, 0)

/-- A partition's spill state keeps the key: ACTIVE, FENCED or RESETTING. -/
def spillHeld (b : Block) : Bool := pids.any fun p => spillPstate b p != 0

/-- SPILL_KEY_DESTROY. -/
def spillKeyDestroy (b : Block) (acc : Access) (arg : Nat) : Block :=
  commandNow b acc 0x7000 0x43 arg
    (fun b => { noFails with
      rights := notRot acc, range := arg != 0
      state := (spillState b != 0 && spillState b != 2) || spillHeld b })
    fun b =>
      let b := setRingKeys b fun r => { r with spillCur := none, fresh := false, stageSpill := [] }
      let b := { b with ssu := { b.ssu with root := List.replicate 8 0, cache := [], condemned := [], retired := [] } }
      (wr b 0x7000 7 0, .ok, 0)

/-- LINK_KEY_DESTROY. -/
def linkKeyDestroy (b : Block) (acc : Access) (arg : Nat) : Block :=
  commandNow b acc 0x7000 0x44 arg
    (fun b => { noFails with
      rights := notRot acc, range := arg != 0, state := (List.range 36).any (portLive b) })
    fun b => (setRingKeys b fun r => { r with linkCur := none, linkNext := none, linkPrev := none, stageLink := [] }, .ok, 0)

/-- LINK_GRACE_EXPIRY (R315). -/
def linkGraceOver (b : Block) : Block :=
  if elapsed b b.ring.switchAt (micros (rd b 0x7000 2)) then setRingKeys b fun r => { r with linkPrev := none } else b

/-- SPILL_INIT (R331). -/
def spillInit (b : Block) (acc : Access) (arg : Nat) : Block :=
  command b acc 0x7000 0x45 arg
    (fun b => { noFails with
      rights := notHostFw acc, range := arg != 0 || spillInitRange b, state := spillState b != 0 || !b.ring.fresh })
    fun b => wr b 0x7000 7 1

/-! ## Accesses named by a row -/

/-- Who is answered for an access that a row names by its window offset alone: the reply stays with the SSU. -/
def rowHolder (b : Block) : Holder := ⟨.spillLine, b.ssu.nextOp, 2 ^ 41⟩

def spillRow (b : Block) (pid cx off len : Nat) (write : Bool) (data : Nat) : Block :=
  if pid = 0 || 64 ≤ pid || 1024 ≤ cx || len = 0 || 4096 < len || 2 ^ 42 < off + len then b
  else spillAccess b (rowHolder b) (ctxNow b pid cx) off len write data 0

/-! ## Rows -/

/-- KEY_PORT_WORD (R309). -/
def execKeyPortWord (slot : Nat) (word : BitVec 32) (s : State) : Host.Outcome State Fault Refusal :=
  .next { s with dev := keyPortWord s.dev slot word }

/-- SPILL_KEY_INSTALL (R310). -/
def execSpillKeyInstall (acc : Access) (arg : Word) (s : State) : Host.Outcome State Fault Refusal :=
  .next { s with dev := spillKeyInstall s.dev acc arg.toNat }

/-- LINK_KEY_INSTALL (R310). -/
def execLinkKeyInstall (acc : Access) (arg : Word) (s : State) : Host.Outcome State Fault Refusal :=
  .next { s with dev := linkKeyInstall s.dev acc arg.toNat }

/-- LINK_KEY_SWITCH (R310). -/
def execLinkKeySwitch (acc : Access) (arg : Word) (s : State) : Host.Outcome State Fault Refusal :=
  .next { s with dev := linkKeySwitch s.dev acc arg.toNat }

/-- SPILL_KEY_DESTROY (R310). -/
def execSpillKeyDestroy (acc : Access) (arg : Word) (s : State) : Host.Outcome State Fault Refusal :=
  .next { s with dev := spillKeyDestroy s.dev acc arg.toNat }

/-- LINK_KEY_DESTROY (R310). -/
def execLinkKeyDestroy (acc : Access) (arg : Word) (s : State) : Host.Outcome State Fault Refusal :=
  .next { s with dev := linkKeyDestroy s.dev acc arg.toNat }

/-- LINK_GRACE_EXPIRY (R315). -/
def execLinkGraceExpiry (s : State) : Host.Outcome State Fault Refusal :=
  .next { s with dev := linkGraceOver s.dev }

/-- SPILL_INIT (R331). -/
def execSpillInit (acc : Access) (arg : Word) (s : State) : Host.Outcome State Fault Refusal :=
  .next { s with dev := spillInit s.dev acc arg.toNat }

/-- SPILL_INIT_COMPLETE (R331). -/
def execSpillInitComplete (s : State) : Host.Outcome State Fault Refusal :=
  .next { s with dev := spillInitDone s.dev }

/-- SPILL_READ (R322, R323). -/
def execSpillRead (pid cx offset length : Nat) (s : State) : Host.Outcome State Fault Refusal :=
  .next { s with dev := spillRow s.dev pid cx offset length false 0 }

/-- SPILL_READ_RETURN (R323, R324). -/
def execSpillReadReturn (line : Nat) (ans : Answer) (tag : Word) (s : State) : Host.Outcome State Fault Refusal :=
  .next { s with dev := pumpEngines (spillLineReturn s.dev line ans tag) }

/-- SPILL_WRITE (R322, R324). -/
def execSpillWrite (pid cx offset : Nat) (data : Bytes) (s : State) : Host.Outcome State Fault Refusal :=
  .next { s with dev := spillRow s.dev pid cx offset data.len true data.val }

/-- MINOR_COUNTER_OVERFLOW (R325). -/
def execMinorCounterOverflow (leaf : Nat) (lines : List LineAnswer) (s : State) : Host.Outcome State Fault Refusal :=
  .next { s with dev := pumpEngines (minorOverflow s.dev leaf lines) }

/-- TREE_NODE_FETCH_RETURN (R321, R328). -/
def execTreeNodeFetchReturn (level node : Nat) (ans : Answer) (s : State) : Host.Outcome State Fault Refusal :=
  .next { s with dev := pumpEngines (nodeReturn s.dev level node ans) }

/-- NODE_EVICTION (R321). -/
def execNodeEviction (level node : Nat) (s : State) : Host.Outcome State Fault Refusal :=
  .next { s with dev := pumpEngines (evictNode s.dev level node) }

/-- ANNEAL_LEAF_CONVERSION (R335). -/
def execAnnealLeafConversion (lines : List LineAnswer) (s : State) : Host.Outcome State Fault Refusal :=
  .next { s with dev := pumpEngines (annealLeaf s.dev lines) }

/-- SPILL_UNIT_RESET_DONE (R333). -/
def execSpillUnitResetDone (pid : Nat) (s : State) : Host.Outcome State Fault Refusal :=
  .next { s with dev := unitResetDone s.dev pid }

end Sys2Proof.Machine
end

