-- ==== Sys2Proof/Machine/LadleRows.lean ====
section
/-! DEFINITION. The Ladle's commands and arrivals (05). -/

namespace Sys2Proof.Machine

/-- A channel's command: open to HOST, to the TNT of the partition that holds it and to FW (R151). -/
def notChanOwner (b : Block) (acc : Access) (c : Nat) : Bool :=
  match roleOf acc.path with
  | .host => false
  | .fw => false
  | .tnt => pathPid b acc.path = 0 || chanPid b c ≠ pathPid b acc.path
  | _ => true

/-- A channel command object: channels 512 and on hold none. A channel of a fenced domain accepts none (DESIGN CHOICE,
log 28). -/
def chanCommand (b : Block) (acc : Access) (c sub arg : Nat) (ok : Block → Bool) (run : Block → Block) : Block :=
  if c < 512 then
    command b acc (chanIndex c) sub arg
      (fun b => { noFails with rights := notChanOwner b acc c, range := arg != 0, state := !ok b }) run
  else
    let b := busAccess b
    answer b acc (if dictReady b then .noobj else .busy)

/-- ABORT as a command or as a doorbell word. -/
def abortRow (b : Block) : ChannelVia → Block
  | .doorbell vf rel w => wakeEvent b 1 (.abort (.doorbell vf rel w)) fun b => chanDoorbell b vf rel w
  | .command acc c arg =>
    chanCommand b acc c 0x40 arg.toNat (fun b => (chan b c).st != .off && !chanFenced b c) fun b => chanAbort b c (some (objKey (chanIndex c) 0x40))

/-- RESUME as a command or as a doorbell word. -/
def resumeRow (b : Block) : ChannelVia → Block
  | .doorbell vf rel w => wakeEvent b 1 (.resume (.doorbell vf rel w)) fun b => chanDoorbell b vf rel w
  | .command acc c arg =>
    chanCommand b acc c 0x41 arg.toNat (mayResume · c) fun b => finishCmd (chanResume b c) (chanIndex c) 0x41 .ok 0

/-- PACE_RESET (Table 5-9). -/
def paceResetCmd (b : Block) (acc : Access) (arg : Nat) : Block :=
  commandNow b acc 0x4000 0x40 arg (fun _ => { noFails with rights := notHostFw acc, range := !zeroBits arg 8 56 })
    fun b => (setPace b (arg % 256) (0, false), .ok, 0)

/-! ## Rows -/

/-- KICK (R153, R154). -/
def execKick (vf rel : Nat) (word : Word) (s : State) : Host.Outcome State Fault Refusal :=
  .next { s with dev := wakeEvent s.dev 1 (.kick vf rel word) fun b => chanDoorbell b vf rel word }

/-- ABORT (R168, R169). -/
def execAbort (via : ChannelVia) (s : State) : Host.Outcome State Fault Refusal :=
  .next { s with dev := abortRow s.dev via }

/-- RESUME (R168). -/
def execResume (via : ChannelVia) (s : State) : Host.Outcome State Fault Refusal :=
  .next { s with dev := resumeRow s.dev via }

/-- PACE_DOORBELL (R153, R164). -/
def execPaceDoorbell (vf rel : Nat) (word : Word) (s : State) : Host.Outcome State Fault Refusal :=
  .next { s with dev := wakeEvent s.dev 1 (.paceDoorbell vf rel word) fun b => chanDoorbell b vf rel word }

/-- DESCRIPTOR_ARRIVAL (R158). -/
def execDescriptorArrival (c : Nat) (ans : Answer) (s : State) : Host.Outcome State Fault Refusal :=
  .next { s with dev := descArrival s.dev c ans }

/-- BURST_RESPONSE (R162). -/
def execBurstResponse (c burst : Nat) (ans : Answer) (s : State) : Host.Outcome State Fault Refusal :=
  .next { s with dev := burstArrival s.dev c burst ans }

/-- CHANNEL_HALT (R167). -/
def execChannelHalt (c : Nat) (s : State) : Host.Outcome State Fault Refusal :=
  .next { s with dev := chanHaltNow s.dev c }

/-- PACE_REQUEST_TAKEN (R164). -/
def execPaceRequestTaken (line : Nat) (s : State) : Host.Outcome State Fault Refusal :=
  .next { s with dev := paceTaken s.dev line }

/-- READBACK_RESPONSE (R170, R171). -/
def execReadbackResponse (c : Nat) (ans : Answer) (s : State) : Host.Outcome State Fault Refusal :=
  .next { s with dev := readbackArrival s.dev c ans }

/-- STATUS_WRITEBACK_DONE (R170, R171): first for the status word, then for the control word. -/
def execStatusWritebackDone (c : Nat) (ans : Answer) (s : State) : Host.Outcome State Fault Refusal :=
  .next { s with dev := statusArrival s.dev c ans }

/-- PACE_RESET (R164). -/
def execPaceReset (acc : Access) (arg : Word) (s : State) : Host.Outcome State Fault Refusal :=
  .next { s with dev := paceResetCmd s.dev acc arg.toNat }

end Sys2Proof.Machine
end

