-- ==== Sys2Proof/Machine/Programs.lean ====
section
/-! DEFINITION. Runner programs as objects: validation, versions, unloading and PROG_LIMIT (09 R281-R283, R288, R291,
R302-R307). -/

namespace Sys2Proof.Machine

/-! ## Legality of an instruction word (R282, R283, R288) -/

/-- What a field of a word holds for an opcode. -/
inductive Field where
  | unused | reg | pred | stream | cond | code (n : Nat) | plog
deriving DecidableEq, Repr

/-- VD, SA, SB and SC as each opcode of Table 9-5 uses them. -/
def opFields (opc : Nat) : Field × Field × Field × Field :=
  match opc with
  | 0x00 => (.unused, .unused, .unused, .unused)
  | 0x04 => (.reg, .reg, .reg, .reg)
  | 0x05 => (.reg, .reg, .reg, .reg)
  | 0x08 => (.reg, .reg, .unused, .unused)
  | 0x09 => (.reg, .reg, .unused, .unused)
  | 0x0B => (.reg, .unused, .reg, .unused)
  | 0x20 => (.pred, .reg, .reg, .cond)
  | 0x21 => (.pred, .reg, .reg, .cond)
  | 0x22 => (.reg, .reg, .reg, .pred)
  | 0x23 => (.pred, .pred, .plog, .pred)
  | 0x28 => (.reg, .reg, .unused, .unused)
  | 0x29 => (.reg, .reg, .unused, .unused)
  | 0x2A => (.reg, .reg, .unused, .unused)
  | 0x2B => (.reg, .reg, .unused, .unused)
  | 0x2C => (.reg, .reg, .unused, .unused)
  | 0x30 => (.reg, .reg, .unused, .code 6)
  | 0x31 => (.reg, .reg, .unused, .unused)
  | 0x32 => (.reg, .reg, .unused, .unused)
  | 0x38 => (.reg, .stream, .unused, .unused)
  | 0x39 => (.stream, .reg, .unused, .unused)
  | 0x3A => (.unused, .reg, .unused, .code 3)
  | 0x3B => (.reg, .unused, .unused, .code 3)
  | 0x3C => (.unused, .unused, .unused, .unused)
  | _ => (.reg, .reg, .reg, .unused)

/-- Does the value of a field suit it? A second source selects a register with bit 5 zero, or a constant. -/
def fieldFits (f : Field) (v : Nat) : Bool :=
  match f with
  | .unused => v == 0
  | .reg => true
  | .pred => v < 4
  | .stream => v < 8
  | .cond => v < 8
  | .code n => v ≤ n
  | .plog => v ≤ 4

def sbFits (f : Field) (v : Nat) : Bool :=
  match f with
  | .reg => bitAt v 6 || !bitAt v 5
  | f => fieldFits f v

/-- LD, ST, LDS and BAR cannot be guarded; p0 is no destination; PG = 0 goes with PN = 0. -/
def guardFits (opc : Nat) (o : RunnerOp) : Bool :=
  (o.pg != 0 || !o.pn)
    && (!(opc == 0x38 || opc == 0x39 || opc == 0x3B || opc == 0x3C) || (o.pg == 0 && !o.pn))

def wordLegal (w : Nat) : Bool :=
  let opc := wordOpc w
  let o := wordOp w
  let (d, a, b, c) := opFields opc
  runnerOpcode opc && fieldFits d o.vd && (d != .pred || o.vd != 0) && fieldFits a o.sa && sbFits b o.sb
    && fieldFits c o.sc && guardFits opc o && !bitAt w 0

/-! ## Legality of a program (R281, R288, R291, R303) -/

/-- Offending bytes of the header. -/
def headerFaults (len img : Nat) : List Nat :=
  let kind := progKind img
  let n := progCount img
  let arr := kind == 1
  ((List.range 4).filter fun i => byteOf img i != byteOf 0x4E525A31 i)
    ++ (if kind ≠ 1 && kind ≠ 2 then [4] else [])
    ++ (if 3 < progScalar img || (arr && progScalar img ≠ 0) then [5] else [])
    ++ (if bits (byteOf img 6) 1 7 ≠ 0 || (arr && progWb img) then [6] else [])
    ++ (if byteOf img 7 ≠ 0 then [7] else [])
    ++ (if n = 0 || (if arr then 32 else 256) < n || len ≠ 272 + 4 * n then [8] else [])
    ++ (([10, 11, 12, 13, 14, 15] : List Nat).filter fun i => byteOf img i != 0)

/-- Does instruction `n` break R291 (completion programs) or R288 (arrival programs)? -/
def placeFault (img n : Nat) : Bool :=
  let opc := wordOpc (progWord img n)
  let mode := (wordOp (progWord img n)).sc
  let kind := progScalar img
  if progKind img = 1 then decide (0x38 ≤ opc)
  else
    let bar := progBar img
    match opc with
    | 0x3C => n == 0 || n + 1 == progCount img || bar != some n || kind == 0
    | 0x3A =>
      (match bar with
        | some p => decide (p < n)
        | none => false)
      || (if mode ≤ 1 then kind != 1 else if mode = 2 then kind != 2 else kind != 3)
    | 0x3B =>
      match bar with
      | some p => decide (n < p)
      | none => true
    | _ => false

/-- R303: the first offending byte, if any. -/
def programFault (c : Bytes) : Option Nat :=
  match headerFaults c.len c.val with
  | off :: _ => some off
  | [] =>
    ((List.range (progCount c.val)).find? fun n => !wordLegal (progWord c.val n) || placeFault c.val n).map (272 + 4 * ·)

/-! ## Versions (R304, R306) -/

def progLimit (b : Block) (pid : Nat) : Nat := rd b (0x6400 + pid) 0x20

def progPool (b : Block) : Nat := (pids.map (progLimit b)).foldl (· + ·) 0

/-- PROG_LIMIT is held while the partition has a current version or one in use (R302). -/
def progLimitState (b : Block) (pid : Nat) : Bool :=
  b.cru.progs.any (fun e => e.1 / 256 == pid)
    || (allGroups b).any fun e => e.1 == pid && e.2.2.live && !e.2.2.unread && (e.2.2.arr.isSome || e.2.2.cmp.isSome)

def progLimitConflict (b : Block) (pid v : Nat) : Bool := 64 < progPool b - progLimit b pid + v

/-- A version place of the program is free. -/
def placeFree (b : Block) (pid p : Nat) : Bool := (versionsHeld b pid p).length < 2

/-- The image becomes the current version of its program number. -/
def makeCurrent (b : Block) (pid p : Nat) (img : Bytes) : Block :=
  let v : Version := ⟨b.cru.serial, img⟩
  let b := { b with cru := { b.cru with
      progs := insert b.cru.progs (progKey pid p) v, serial := b.cru.serial + 1
      valid := b.cru.valid.erase (progKey pid p) } }
  count b 0x6010 4

/-- VERSIONS_IN_USE: the version places held by every program. -/
def versionsInUse (b : Block) : Nat :=
  (pids.map fun pid => ((List.range (progLimit b pid)).map fun p => (versionsHeld b pid (p + 1)).length).foldl (· + ·) 0).foldl
    (· + ·) 0

/-- PROG_LOADED: bit p − 1 for program p. -/
def progLoaded (b : Block) (pid : Nat) : Nat :=
  ((List.range 64).filter fun p => (program b pid (p + 1)).isSome).foldl (fun n p => n + 2 ^ p) 0

/-- The partition's programs are unloaded and PROG_LIMIT returns to 0 (Table 3-5). -/
def dropPrograms (b : Block) (pid : Nat) : Block :=
  wr { b with cru := { b.cru with
      progs := b.cru.progs.filter fun e => e.1 / 256 ≠ pid
      valid := b.cru.valid.filter fun k => k / 256 ≠ pid } } (0x6400 + pid) 0x20 0

/-- The current version of a program is removed (R306). -/
def unloadNow (b : Block) (pid p : Nat) : Block :=
  finishCmd { b with cru := { b.cru with progs := erase b.cru.progs (progKey pid p) } } (0x6400 + pid) 1 .ok 0

/-- The program's BLOB is VALIDATING (02 Table 2-5). -/
def imageValidating (b : Block) (pid p : Nat) : Bool :=
  match find? b.dict.xfers (objKey (0x6200 + pid) p) with
  | some t => t.validating.isSome
  | none => false

/-- A PROG_UNLOAD that waits for no BLOB_END any more takes effect (02 R53). -/
def unloadWaiting (b : Block) (pid : Nat) : Block :=
  match pendingCmd b (0x6400 + pid) 1 with
  | some d => if imageValidating b pid d.arg then b else unloadNow b pid d.arg
  | none => b

/-- PROG_UNLOAD (R306, R307): HOST may not for a sealed partition. After a BLOB_END of the same program that is VALIDATING
it waits for that (02 R53). -/
def progUnloadCmd (b : Block) (acc : Access) (pid arg : Nat) : Block :=
  partCommand b acc 0x6400 pid 1 arg
    (fun b => { noFails with
      rights := notHostTntFw b acc pid || (roleOf acc.path == .host && isSealed b pid)
      range := arg / 256 ≠ 0 || arg = 0 || progLimit b pid < arg })
    fun b => if imageValidating b pid arg then b else unloadNow b pid arg

/-- PROG_UNLOAD (R306). -/
def execProgUnload (acc : Access) (pid : Nat) (arg : Word) (s : State) : Host.Outcome State Fault Refusal :=
  .next { s with dev := progUnloadCmd s.dev acc pid arg.toNat }

end Sys2Proof.Machine
end

