-- ==== Sys2Proof/Machine/Partition.lean ====
section
/-! DEFINITION. Building, withdrawing and releasing partitions, contexts, and the events of their functions
(03 R81-R109). -/

namespace Sys2Proof.Machine

/-! ## Descriptors -/

def pCode : PState → Nat
  | .free => 0 | .building => 1 | .live => 2 | .withdrawing => 3 | .scrubbing => 4

def rangeWord (count base : Nat) : Nat := (count <<< 32) + base

/-- ATTR as 0x22pp.0C reads it. -/
def attrWord (b : Block) (pid : Nat) : Nat :=
  let p := part b pid
  (ofBool p.hostLink <<< 24) + (faultDomain b pid <<< 8) + ofBool p.sealed

/-- The body of a PART record: 0x22pp.01-.04 and .06-.0D at their types' sizes (13 Table 13-3). -/
def partBody (b : Block) (pid : Nat) : Nat :=
  let p := part b pid
  pCode p.st + (p.engines <<< 8) + (popCount p.granules 2048 <<< 136) + (p.share <<< 168)
    + (rangeWord p.qpCount p.qpBase <<< 184) + (rangeWord p.keyCount p.keyBase <<< 248)
    + (rangeWord p.chanCount p.chanBase <<< 312) + (p.sched <<< 376) + (p.energy <<< 408) + (attrWord b pid <<< 440)
    + (p.vf <<< 472)

def notePart (b : Block) (pid : Nat) : Block := mirrorNote b 1 pid 0 ⟨64, partBody b pid⟩

def ctxCode : CtxState → Nat
  | .free => 0 | .open => 1 | .closing => 2

def ctxEntry (c : CtxSlot) : Nat := (c.gen <<< 8) + ctxCode c.st

/-- A context slot changes, and the partner learns of it (13 Table 13-3, kind 0x02). -/
def changeCtx (b : Block) (pid cx : Nat) (c : CtxSlot) : Block :=
  let b := setCtx b pid cx c
  mirrorNote b 2 pid cx ⟨16, cx + (ctxEntry c <<< 16)⟩

/-- Objects of the listed indices return to their defaults, their commands' results with them; those named stay. -/
def clearObjs (b : Block) (idxs keep : List Nat) : Block :=
  let gone (k : Nat) : Bool := idxs.contains (k / 256) && !keep.contains k
  { b with dict := { b.dict with
      objs := b.dict.objs.filter fun e => !gone e.1
      blobs := b.dict.blobs.filter fun e => !gone e.1 } }

/-- Start-up is over (14 R431). -/
def running (b : Block) : Bool := rd b 0xC000 1 == 8

/-- CREATE (Table 3-2, R116, R150, R366): everything the partition holds at its defaults. -/
def create (b : Block) (acc : Access) (pid arg : Nat) : Block :=
  partCommandNow b acc 0x2100 pid 1 arg
    (fun b => { noFails with
      rights := notHostFw acc, range := arg != 0, state := (part b pid).st != .free || !running b })
    fun b =>
      let b := clearObjs b [0x2200 + pid, 0x2400 + pid, 0x3100 + pid, 0x8100 + pid] [objKey (0x2200 + pid) 0x10]
      let b := wr (wr b (0x7100 + pid) 1 0) (0x7100 + pid) 7 0xFF
      let b := setPart b pid { freePart with st := .building, ctxs := (part b pid).ctxs }
      (chanterDefaults b pid, .ok, 0)

/-- The TDISP state of the staged VF keeps a sealed descriptor as it is (Table 3-11). -/
def tdispLocked (b : Block) (pid : Nat) : Bool :=
  let p := part b pid
  p.sealed && p.vf != 0 && look b.ptb.tdisp 0 p.vf != 0

/-- An ADD_* command: `live` where it is accepted in LIVE too. -/
def addCmd (b : Block) (acc : Access) (pid sub arg : Nat) (live range : Bool) (f : Part → Part) (detail : Part → Nat) :
    Block :=
  partCommandNow b acc 0x2100 pid sub arg
    (fun b =>
      let st := (part b pid).st
      { noFails with
        rights := notHostFw acc, range := range
        state := !(st == .building && (live || !tdispLocked b pid)) && !(live && st == .live)
        busy := resultState b (0x2100 + pid) 0x10 == 1 })
    fun b =>
      let b := if isLive b pid then keepForWindow b pid else b
      let b := setPart b pid (f (part b pid))
      (if isLive b pid then notePart b pid else b, .ok, detail (part b pid))

def noDetail (_ : Part) : Nat := 0

def addEngines (b : Block) (acc : Access) (pid sub arg base : Nat) : Block :=
  addCmd b acc pid sub arg false ((bitList arg 64).any fun n => !esPresent b (n + base))
    (fun p => { p with engines := p.engines ||| (arg <<< base) }) noDetail

/-- The mask of a run of granules. -/
def runMask (first n : Nat) : Nat := (2 ^ n - 1) <<< first

def addGranules (b : Block) (acc : Access) (pid arg : Nat) : Block :=
  let n := bits arg 32 16
  let g := bits arg 0 11
  addCmd b acc pid 4 arg false
    (!zeroBits arg 48 16 || !zeroBits arg 11 21 || n == 0 || 2048 < n
      || (List.range n).any fun i => !granuleExists b (g + i))
    (fun p => { p with granules := p.granules ||| runMask g n }) fun p => popCount p.granules 2048

def addLinkShare (b : Block) (acc : Access) (pid arg : Nat) : Block :=
  addCmd b acc pid 5 arg false (256 < arg) (fun p => { p with share := arg }) noDetail

/-- A range argument: count in [63:32], base in [31:0]. -/
def badRange (arg top : Nat) : Bool := decide (top < bits arg 32 32 + bits arg 0 32)

def addQp (b : Block) (acc : Access) (pid arg : Nat) : Block :=
  addCmd b acc pid 6 arg false (badRange arg 65536)
    (fun p => { p with qpBase := bits arg 0 32, qpCount := bits arg 32 32 }) noDetail

def addKeys (b : Block) (acc : Access) (pid arg : Nat) : Block :=
  addCmd b acc pid 7 arg false (badRange arg 262144)
    (fun p => { p with keyBase := bits arg 0 32, keyCount := bits arg 32 32 }) noDetail

def addChannels (b : Block) (acc : Access) (pid arg : Nat) : Block :=
  addCmd b acc pid 8 arg false (badRange arg 512)
    (fun p => { p with chanBase := bits arg 0 32, chanCount := bits arg 32 32 }) noDetail

def addSched (b : Block) (acc : Access) (pid arg : Nat) : Block :=
  addCmd b acc pid 9 arg true
    (!zeroBits arg 32 32 || bits arg 0 16 == 0 || (bits arg 24 8 != 0 && bits arg 24 8 < bits arg 16 8)) (fun p => { p with sched := arg }) noDetail

def addEnergy (b : Block) (acc : Access) (pid arg : Nat) : Block :=
  addCmd b acc pid 0x0A arg true (!zeroBits arg 32 32) (fun p => { p with energy := arg }) noDetail

def addAttr (b : Block) (acc : Access) (pid arg : Nat) : Block :=
  addCmd b acc pid 0x0B arg false (!zeroBits arg 25 39 || !zeroBits arg 14 10 || !zeroBits arg 1 7)
    (fun p => { p with sealed := bitAt arg 0, domain := bits arg 8 6, hostLink := bitAt arg 24 }) noDetail

def addVf (b : Block) (acc : Access) (pid arg : Nat) : Block :=
  addCmd b acc pid 0x0C arg false (!zeroBits arg 6 58 || arg == 0) (fun p => { p with vf := arg }) noDetail

/-! ## COMMIT (R88-R90) -/

/-- The other partitions that a predicate selects. -/
def others (b : Block) (pid : Nat) (ok : Part → Bool) : List Nat := pids.filter fun q => q != pid && ok (part b q)

/-- The lowest common index of two ranges. -/
def meetAt (a n c m : Nat) : Option Nat := (common a n c m).map (·.1)

/-- The lowest index of a staged range that another partition's range holds, and that partition. -/
def rangeClash (b : Block) (pid base n : Nat) (r : Part → Nat × Nat) : Option (Nat × Nat) :=
  let hits := (others b pid Part.holdsRanges).filterMap fun q =>
    (meetAt base n (r (part b q)).1 (r (part b q)).2).map fun i => (i, q)
  hits.foldl (fun m h => match m with
    | none => some h
    | some x => if h.1 < x.1 then some h else m) none

/-- The failing check of Table 3-3: KIND, final code, holder and the index for CONFLICT_INDEX. -/
def commitFault (b : Block) (pid : Nat) : Option (Nat × Code × Nat × Nat) :=
  let p := part b pid
  let tdisp := look b.ptb.tdisp 0 p.vf
  let gs := bitList p.granules 2048
  let held := gs.filterMap fun g =>
    ((others b pid Part.holdsGranules).find? fun q => (part b q).granules.testBit g).map fun q => (g, q)
  let dirty := gs.find? fun g => (owner b g).scrub != .clean
  let engines := (bitList p.engines 128).filterMap fun e =>
    ((others b pid Part.holdsRanges).find? fun q => (part b q).engines.testBit e && (p.sealed || (part b q).sealed)).map
      fun q => (e, q)
  let sum := ((others b pid Part.holdsRanges).map fun q => (part b q).share).foldl (· + ·) p.share
  if p.sealed && (p.vf = 0 || (tdisp ≠ 1 && tdisp ≠ 2)) then some (0xC, .state, 0, p.vf)
  else if p.engines = 0 then some (9, .state, 0, 0)
  else if p.granules = 0 then some (0xA, .state, 0, 0)
  else if p.vf = 0 then some (0xB, .state, 0, 0)
  else match held.head? with
  | some (g, q) => some (1, .conflict, q, g)
  | none => match dirty with
  | some g => some (2, .conflict, 0, g)
  | none => match engines.head? with
  | some (e, q) => some (3, .conflict, q, e)
  | none => match rangeClash b pid p.qpBase p.qpCount fun x => (x.qpBase, x.qpCount) with
  | some (i, q) => some (4, .conflict, q, i)
  | none => match rangeClash b pid p.keyBase p.keyCount fun x => (x.keyBase, x.keyCount) with
  | some (i, q) => some (5, .conflict, q, i)
  | none => match rangeClash b pid p.chanBase p.chanCount fun x => (x.chanBase, x.chanCount) with
  | some (i, q) => some (6, .conflict, q, i)
  | none => match (others b pid Part.holdsGranules).find? fun q => (part b q).vf == p.vf with
  | some q => some (7, .conflict, q, p.vf)
  | none => if 256 < sum then some (8, .conflict, 0, sum) else none

/-- The claims of R90. -/
def claim (b : Block) (pid : Nat) : Block :=
  let p := part b pid
  let b := (bitList p.granules 2048).foldl (fun b g => setOwner b g ⟨pid, p.sealed, .inUse⟩) b
  let b := setPart b pid { p with st := .live }
  let b := if p.sealed && (spillRange b pid).2 ≠ 0 then wr b (0x7100 + pid) 2 1 else b
  notePart b pid

/-- COMMIT. -/
def commitRun (b : Block) (pid : Nat) : Block × Code × Nat :=
  match commitFault b pid with
  | some (kind, c, other, i) =>
    let b := wr b (0x2200 + pid) 0x11 i
    (if c = .conflict then count b 0x2000 6 else b, c, (kind <<< 20) + (other <<< 14))
  | none => (claim b pid, .ok, 0)

def partitionCommit (b : Block) (acc : Access) (pid arg : Nat) : Block :=
  partCommandNow b acc 0x2100 pid 0x10 arg
    (fun b => { noFails with rights := notHostFw acc, range := arg != 0, state := (part b pid).st != .building })
    fun b => commitRun b pid

/-! ## Contexts (R91-R95) -/

def ctxOpenCmd (b : Block) (acc : Access) (pid arg : Nat) : Block :=
  partCommandNow b acc 0x2100 pid 0x18 arg
    (fun b => { noFails with
      rights := notHostFw acc, range := !zeroBits arg 10 54
      state := !isLive b pid || (ctxSlot b pid arg).st != .free })
    fun b =>
      let c := ctxSlot b pid arg
      (changeCtx b pid arg { c with st := .open }, .ok, c.gen)

/-- The keys of a partition's range. -/
def keysOf (b : Block) (pid : Nat) : List Nat := (List.range (part b pid).keyCount).map ((part b pid).keyBase + ·)

/-- Requests of a partition's contexts that its Engine Stations hold and have not issued are refused. -/
def refuseReqs (b : Block) (p : Ctx → Bool) (st : Status) (also : Bool) : Block :=
  b.cha.stations.foldl (fun b e => e.2.reqs.foldl (fun b r =>
    if p r.ctx && (also || !r.issued) then refuseReq (abandon b (reqHolder e.1 r.num) r.segs) e.1 r st else b) b) b

/-- CTX_CLOSE's fence (R94, steps 1 to 3; R277). -/
def closeCtx (b : Block) (pid cx : Nat) : Block :=
  let c := ctxSlot b pid cx
  let b := changeCtx b pid cx { c with st := .closing, fencedAt := b.clk.now, byCommand := true }
  let b := refuseReqs b (fun x => x.pid == pid && x.cx == cx) .withdrawn false
  let b := stopSteps b (fun s => s.pid == pid && s.ctx.cx == cx) .withdrawn
  let b := (chansOf b pid).foldl (fun b n => chanClose b cx n) b
  let b := ((qpsOf b pid).filter fun i => (qp b i).cx == cx).foldl closeQp b
  let b := ((keysOf b pid).filter fun j => (key b j).st == .valid && (key b j).cx == cx).foldl revokeKey b
  endGroups b (fun q _ g => q == pid && gGcx g.r == cx) .withdrawn false

def ctxCloseCmd (b : Block) (acc : Access) (pid arg : Nat) : Block :=
  partCommand b acc 0x2100 pid 0x19 arg
    (fun b => { noFails with
      rights := notHostFw acc, range := !zeroBits arg 10 54
      state := !isLive b pid || (ctxSlot b pid arg).st != .open })
    fun b => closeCtx b pid arg

/-- The context whose accesses an application makes: its group's. -/
def appCtx (b : Block) (a : App) : Ctx := groupCtx b a.pid (group b a.pid a.group).r

/-- A request made for a context; the reads and writes of a partition's set-up area are made for none. -/
def ofCtx (b : Block) (pid cx : Nat) (h : Holder) (c : Ctx) : Bool :=
  let area := h.kind == .setupRecord || (h.kind == .queryWrite && match pendingCmd b (0x5200 + h.a) h.b with
    | some c => roleOf c.acc.path != .tnt
    | none => false)
  c.pid == pid && c.cx == cx && !area

/-- Does anything of a context still wait for an answer (R94 step 4)? -/
def ctxBusy (b : Block) (pid cx : Nat) : Bool :=
  let mine (c : Ctx) : Bool := c.pid == pid && c.cx == cx
  (b.tags.used.any fun u => ofCtx b pid cx u.holder u.ctx)
    || (b.tags.waits.any fun w => ofCtx b pid cx w.holder w.ctx)
    || (b.tpe.works.any (mine ·.ctx)) || (b.cru.apps.any fun a => mine (appCtx b a)) || (b.cha.results.any (mine ·.ctx))
    || (b.cha.steps.any fun s => s.pid == pid && s.ctx.cx == cx)
    || (b.cha.stations.any fun e => e.2.reqs.any fun r => r.ctx.pid == pid && r.ctx.cx == cx)
    || ((chansOf b pid).any fun n => (chan b n).stop.isSome)
    || ((qpsOf b pid).any fun i => (qp b i).cx == cx)
    || ((keysOf b pid).any fun j => (key b j).st == .revoking && (key b j).cx == cx)
    || (b.ssu.ops.any (mine ·.ctx)) || !(owing b pid (some cx)).isEmpty

/-- A request that several pieces make up, by the piece that names it. -/
def wholeHolder (h : Holder) : Holder := { h with b := h.b % 2 ^ 40 }

/-- The transactions that a predicate selects and that no answer has reached, queue pairs' own requests apart: those under
a tag, those at the Spill Seal Unit, arriving packets and applications. -/
def leftOver (b : Block) (p : Holder → Ctx → Bool) : Nat :=
  let tags := ((b.tags.used.filter fun u => p u.holder u.ctx && u.holder.kind != .frame).map (·.holder))
  let spills := ((b.ssu.ops.filter fun o => p o.holder o.ctx).map fun o => wholeHolder o.holder)
  let works := ((b.tpe.works.filter fun w => p (workHolder w) w.ctx && w.kind != .response).map workHolder)
  (tags ++ spills ++ works).eraseDups.length + (b.cru.apps.filter fun a => p (appAsker a).holder (appCtx b a)).length

/-- A request under a tag that gets no answer in time raises TAG_TIMEOUT, with its address (12 Table 12-2, R382). -/
def timeouts (b : Block) (p : TagUse → Bool) : Block :=
  (b.tags.used.filter p).foldl (fun b u =>
    let (d, b) := draw b
    raise b 23 (unitOfHolder u.holder) u.pid ((u.segs.head?.map (·.pa)).getD 0) (d % 2 ^ 32)) b

/-- A step ring whose descriptor is being read for a context given up stops with the status. -/
def expireRings (b : Block) (p : Holder → Ctx → Bool) (st : Status) : Block :=
  (b.cha.rings.filter fun e => e.2.any fun s => p ⟨.stepDesc, e.1 / 8, e.1 % 8⟩ s.ctx).foldl (fun b e =>
    wr (setRing b (e.1 / 8) (e.1 % 8) none) (0x8100 + e.1 / 8) (ringSub (e.1 % 8) 4) (statusCode st)) b

/-- Applications given up: a packet's is refused, the local contributor's is gone. -/
def expireApps (b : Block) (p : Holder → Ctx → Bool) (st : Status) : Block :=
  (b.cru.apps.filter fun a => p (appAsker a).holder (appCtx b a)).foldl
    (fun b a => if a.isLocal then dropApp b a else appRefuse b a st) b

/-- What is left of the requests a predicate selects is answered with a status, and its tags are freed. -/
def expireTags (b : Block) (p : Holder → Ctx → Bool) (st : Status) : Block :=
  let b := refuseReqs b (p (reqHolder 0 0)) st true
  let b := expireRings (expireApps b p st) p st
  let ops := b.ssu.ops.filter fun o => p o.holder o.ctx
  let b := { b with ssu := { b.ssu with
      ops := b.ssu.ops.filter fun o => !ops.contains o
      lines := b.ssu.lines.filter fun l => !ops.any fun o => o.num == l.op } }
  let b := ops.foldl (fun b o => putReply b ⟨o.holder, st, ⟨0, 0⟩, false⟩) b
  let used := b.tags.used.filter fun u => p u.holder u.ctx
  let waits := b.tags.waits.filter fun w => p w.holder w.ctx
  let b := used.foldl (fun b u => dropTag b u.tag) b
  let b := { b with tags := { b.tags with waits := b.tags.waits.filter fun w => !waits.contains w } }
  pumpInv ((used.map (·.holder) ++ waits.map (·.holder)).foldl (fun b h => expireCmd b h st) b)

/-- DRAIN_TIMEOUT has passed: the queue pairs, keys and channels named give up what they have outstanding, and so does
every other requester of what `p` selects; the number of transactions so answered. -/
def giveUp (b : Block) (p : Holder → Ctx → Bool) (qps keys chans : List Nat) (st : Status) : Block × Nat :=
  let n := leftOver b p
  let b := timeouts b fun u => p u.holder u.ctx && u.holder.kind != .frame
  let b := keys.foldl (fun b j => expireKey b j st) (qps.foldl expireQp b)
  let b := chans.foldl (fun b c => chanExpire b c st (p ⟨.chanRead, c, 0⟩)) b
  (expireTags b p st, n)

/-- The generation step for one slot (R93, R138). -/
def freeCtxSlot (b : Block) (pid cx : Nat) : Block :=
  let c := ctxSlot b pid cx
  let b0 := b
  let (b, _) := invalidate (setRoot1 b pid cx none) ⟨.s1Context, pid, cx, 0, 0⟩
  retryEnded b0 (changeCtx b pid cx { c with st := .free, gen := (c.gen + 1) % 256, byCommand := false })

/-- DRAIN_TIMEOUT has passed for a closing context: what is left of it is answered WITHDRAWN. -/
def expireCtx (b : Block) (pid cx : Nat) : Block :=
  let qps := (qpsOf b pid).filter fun i => (qp b i).cx == cx
  let keys := (keysOf b pid).filter fun j => (key b j).st == .revoking && (key b j).cx == cx
  let (b, n) := giveUp b (ofCtx b pid cx) qps keys (chansOf b pid) .withdrawn
  addTo (failResults b fun c => c.pid == pid && c.cx == cx) (0x2200 + pid) 0x15 n

/-- CTX_CLOSE_COMPLETE (R94): once everything has drained, or DRAIN_TIMEOUT has passed, and 1 ms since the fence. Queue
pairs given up then write their completions before the generation moves on. -/
def ctxCloseDone (b : Block) (pid cx : Nat) : Block :=
  let c := ctxSlot b pid cx
  let late := elapsed b c.fencedAt (drainTime b pid)
  if !isLive b pid || c.st != .closing || !c.byCommand || !elapsed b c.fencedAt (micros 1000) || (ctxBusy b pid cx && !late)
  then b
  else
    let first := (qpsOf b pid).any fun i => (qp b i).cx == cx
    let waits := owesNow b pid (some cx)
    let b := if ctxBusy b pid cx && (first || !waits) then expireCtx b pid cx else b
    if owesNow b pid (some cx) then b
    else
      let b := freeCtxSlot b pid cx
      match pendingCmd b (0x2100 + pid) 0x19 with
      | some cmd => if cmd.arg = cx then finishCmd b (0x2100 + pid) 0x19 .ok 0 else b
      | none => b

/-! ## Withdrawal (R96-R98) -/

/-- Is the command a tenant's for this partition (R56)? -/
def tenantCmd (b : Block) (pid : Nat) (c : PendCmd) : Bool := roleOf c.acc.path == .tnt && pathPid b c.acc.path == pid

/-- What a tenant's command has done is taken back as its partition is withdrawn (R54, R56): a root set while its
invalidation runs stands as before, and a queue pair under reset and a group under GROUP_ABORT go the withdrawal's own
way (DESIGN CHOICE, log 32). -/
def undoTenant (b : Block) (pid : Nat) (c : PendCmd) : Block :=
  let sub := c.key % 256
  match c.key / 256 - pid with
  | 0x3100 =>
    let undo := ((b.hub.invCmds.find? (·.key == c.key)).bind (·.undo))
    let b := { b with hub := { b.hub with invCmds := b.hub.invCmds.filter (·.key != c.key) } }
    match undo with
    | some (p, cx, r) => setRoot1 b p cx r
    | none => b
  | 0x5200 =>
    if sub = 3 then onQp b ((part b pid).qpBase + c.arg % 65536) fun q => { q with resetting := false, tearing := none }
    else b
  | 0x6100 => if sub = 2 then onGroup b pid c.arg fun x => { x with ending := none } else b
  | _ => b

/-- Open transfers of the tenant are abandoned, and its pending commands finish with STATE (R56, R59). -/
def dropTenant (b : Block) (pid : Nat) : Block :=
  let mine (o : Owner) : Bool := match o with
    | .tenant _ _ p => p == pid
    | _ => false
  let gone := b.dict.xfers.filter fun e => mine e.2.owner
  let waits (k : Nat) : Bool := !gone.any fun e => e.1 == objKey (0x6200 + k / 256) (k % 256)
  let b := { b with
    dict := { b.dict with xfers := b.dict.xfers.filter fun e => !mine e.2.owner }
    cru := { b.cru with valid := b.cru.valid.filter waits } }
  let b := addTo b 0x1402 6 gone.length
  unloadWaiting ((b.dict.cmds.filter (tenantCmd b pid)).foldl
    (fun b c => finishCmd (undoTenant b pid c) (c.key / 256) (c.key % 256) .state 0) b) pid

/-- Step 1 of Table 3-5, on WITHDRAW and on every other event that withdraws a LIVE partition. -/
def startWithdraw (b : Block) (pid cause : Nat) : Block :=
  let p := part b pid
  let b := dropTenant b pid
  let b := setPart b pid { part b pid with
    st := .withdrawing, cause := cause, wd := ⟨b.clk.now, rd b (0x2200 + pid) 0x10, 0, false⟩ }
  let b := notePart b pid
  let opened := (p.ctxs.filter fun e => e.2.st == .open).map (·.1)
  let b := opened.foldl (fun b cx => changeCtx b pid cx { ctxSlot b pid cx with st := .closing, fencedAt := b.clk.now }) b
  let b := refuseReqs b (·.pid == pid) .withdrawn false
  let b := stopSteps b (·.pid == pid) .withdrawn
  let b := (chansOf b pid).foldl chanWithdraw b
  let b := (qpsOf b pid).foldl closeQp b
  let b := (keysOf b pid).foldl revokeKey b
  endGroups b (fun q _ _ => q == pid) .withdrawn false

def withdrawCmd (b : Block) (acc : Access) (pid arg : Nat) : Block :=
  partCommand b acc 0x2100 pid 0x11 arg
    (fun b => { noFails with rights := notHostFw acc, range := arg != 0, state := !isLive b pid })
    fun b => startWithdraw b pid 1

/-- Does a transaction of the partition still wait for its answer (step 2)? -/
def outstanding (b : Block) (pid : Nat) : Bool :=
  (b.tags.used.any (·.pid == pid)) || (b.tags.waits.any (·.pid == pid)) || (b.cha.steps.any (·.pid == pid))
    || (b.cha.stations.any fun e => e.2.reqs.any (·.ctx.pid == pid)) || ((chansOf b pid).any (chanBusy b))
    || ((qpsOf b pid).any fun i => (qp b i).msgs.any (·.st.isNone) || unplaced b i)
    || (b.tpe.works.any fun w => qpPid b w.qp == pid) || (b.cru.apps.any (·.pid == pid))
    || (b.ssu.ops.any (·.ctx.pid == pid)) || (b.cha.results.any (·.ctx.pid == pid)) || !(owing b pid none).isEmpty

/-- The generation step (R93, R103). -/
def generation (b : Block) (pid : Nat) : Block :=
  let p := part b pid
  let closing := (p.ctxs.filter fun e => e.2.st == .closing).map (·.1)
  let b := (List.range 1024).foldl (fun b cx =>
    let c := ctxSlot b pid cx
    let c' := { c with st := .free, gen := (c.gen + 1) % 256, byCommand := false }
    if closing.contains cx then changeCtx b pid cx c' else setCtx b pid cx c') b
  let b := setPart b pid { part b pid with s1Roots := [] }
  let b := { b with hub := { b.hub with
      walks := b.hub.walks.filter (·.ctx.pid != pid)
      missWait := b.hub.missWait.filter (·.1.pid != pid)
      walkFaults := b.hub.walkFaults.filter (·.ctx.pid != pid) } }
  let b := dropHolders b fun h => h.kind == .walk && !b.hub.walks.any (·.num == h.a)
  let (b, _) := invalidate b ⟨.partition, pid, 0, 0, 0⟩
  finishCmd (pumpInv (failResults b (·.pid == pid))) (0x2100 + pid) 0x19 .ok 0

/-- Every pacing line of the partition becomes zero, its level with it (05 R163). -/
def dropLines (b : Block) (pid : Nat) : Block :=
  let ls := (List.range 256).filter fun l => paceOwner (paceEntry b l) == pid
  let m := rdBlob b 0x4000 0x20
  let v := ls.foldl (fun v l => patch v (8 * l) 8 0) m.val
  let b := if ls.isEmpty then b else wrBlob b 0x4000 0x20 ⟨2048, v⟩
  ls.foldl (fun b l => setPace b l (0, false)) b

/-- The hand-back (step 4). -/
def handBack (b : Block) (pid : Nat) : Block :=
  let p := part b pid
  let b := (keysOf b pid).foldl (fun b j => if (key b j).st = .free then b else freeKey b j 0) b
  let b := (qpsOf b pid).foldl (fun b i => setQp (leaveQp b i) i { freshQp with pid := pid }) b
  let b := dropTx b fun t => t.pid == pid
  let b := (chansOf b pid).foldl chanDefaults b
  let b := dropPrograms (dropGroups b pid) pid
  let b := dropLines b pid
  let b := (bitList p.granules 2048).foldl (fun b g => setOwner b g { owner b g with scrub := .scrubbing }) b
  let b := if spillPstate b pid = 1 || spillPstate b pid = 2 then resetUnits b pid else b
  let i := 0x2400 + pid
  let b := wr (wr b i 3 0) i 6 (setBit (rd b i 6) 0 false)
  let b := setPart b pid { part b pid with
    st := .scrubbing, engines := 0, share := 0, qpBase := 0, qpCount := 0, keyBase := 0, keyCount := 0, chanBase := 0
    chanCount := 0 }
  finishCmd (chanterGone b pid) (0x2100 + pid) 0x11 .ok (min (part b pid).wd.expired 0xFFFFFF)

/-- WITHDRAW_DRAIN_DONE: steps 3 and 4 follow. -/
def withdrawDone (b : Block) (pid : Nat) : Block :=
  if (part b pid).st = .withdrawing && !outstanding b pid then handBack (generation b pid) pid
  else b

/-- Steps whose kills have not been answered end, what they used charged; their stations stay under their kills. -/
def expireSteps (b : Block) (pid : Nat) (st : Status) : Block :=
  (b.cha.steps.filter (·.pid == pid)).foldl (fun b s =>
    let b := killedRun b s
    let b := s.clusters.foldl (fun b k => onStationES b k fun x => { x with step := none }) b
    endStep b s st) b

/-- WITHDRAW_DRAIN_TIMEOUT: what is still outstanding is answered WITHDRAWN (R96). Queue pairs given up then write their
completions before the generation moves on. -/
def withdrawExpire (b : Block) (pid : Nat) : Block :=
  let p := part b pid
  if p.st ≠ .withdrawing || !elapsed b p.wd.fencedAt (micros p.wd.drain) || ((qpsOf b pid).isEmpty && owesNow b pid none)
  then b
  else
    let msgs := ((qpsOf b pid).map (framesOf b)).foldl (· + ·) 0
    let keys := (keysOf b pid).filter fun j => (key b j).st == .revoking
    let (b, n) := giveUp b (fun _ c => c.pid == pid) (qpsOf b pid) keys (chansOf b pid) .withdrawn
    let b := addTo (expireSteps b pid .withdrawn) (0x2200 + pid) 0x15 n
    let w := (part b pid).wd
    let b := setPart b pid { part b pid with wd := { w with expired := w.expired + n + msgs } }
    if owesNow b pid none then b else handBack (generation b pid) pid

/-! ## Scrub and RELEASE (R99-R102) -/

/-- The memory of a granule reads as zeros. -/
def zeroGranule (b : Block) (g : Nat) : Block :=
  { b with mem := b.mem.filter fun c => c.1 / 2 ^ 30 ≠ g }

/-- GRANULE_SCRUB_DONE. -/
def scrubDone (b : Block) (g : Nat) : Block :=
  let e := owner b g
  if e.scrub ≠ .scrubbing || !served b (uMS (g / 64)) then b
  else
    let b := emit (zeroGranule b g) (.memWrite (2 ^ 30 * g) ⟨2 ^ 30, 0⟩ 0)
    addTo (setOwner b g { e with scrub := .clean }) 0x2000 5 (2 ^ 30)

/-- The partition is FREE; its generations stay (R93). -/
def freePid (b : Block) (pid : Nat) : Block := setPart b pid { freePart with ctxs := (part b pid).ctxs }

def releaseCmd (b : Block) (acc : Access) (pid arg : Nat) : Block :=
  partCommand b acc 0x2100 pid 0x12 arg
    (fun b => { noFails with
      rights := notHostFw acc, range := arg != 0
      state := (part b pid).st != .building && (part b pid).st != .scrubbing })
    fun b => if (part b pid).st = .building then finishCmd (freePid b pid) (0x2100 + pid) 0x12 .ok 0 else b

/-- RELEASE_COMPLETE (R102, R333). -/
def releaseDone (b : Block) (pid : Nat) : Block :=
  let p := part b pid
  let gs := bitList p.granules 2048
  if p.st ≠ .scrubbing || (pendingCmd b (0x2100 + pid) 0x12).isNone || !elapsed b p.wd.fencedAt (micros 1000)
      || spillPstate b pid ≠ 0 || gs.any (fun g => (owner b g).scrub != .clean) then b
  else
    let b := gs.foldl (fun b g => setOwner b g ⟨0, false, .clean⟩) b
    finishCmd (freePid b pid) (0x2100 + pid) 0x12 .ok 0

/-! ## Functions (R108, R109) -/

/-- FUNCTION_LEVEL_RESET. -/
def flr (b : Block) (vf : Nat) : Block :=
  if vf = 0 || 64 ≤ vf then b
  else
    let b := { b with
      dict := { b.dict with
        slots := b.dict.slots.filter fun e => e.1 / 64 ≠ vf
        cmds := b.dict.cmds.map fun c => match c.acc.path with
          | .tenant v _ => if v = vf then { c with acc := { c.acc with notify := false } } else c
          | _ => c }
      ptb := { b.ptb with msix := b.ptb.msix.filter fun e => e.1 / 256 ≠ vf } }
    let pid := pidOfVf b vf
    if pid ≠ 0 && isLive b pid then startWithdraw b pid 2 else b

/-- VF_ENABLE_CLEAR. -/
def vfEnableClear (b : Block) : Block :=
  let b := { b with ptb := { b.ptb with vfEnable := false } }
  (pids.filter fun p => isLive b p && (part b p).vf != 0).foldl (fun b p => startWithdraw b p 3) b

/-- TDISP_STATE_CHANGE (Table 3-11). -/
def tdispChange (b : Block) (vf code : Nat) : Block :=
  if vf = 0 || 64 ≤ vf || 8 ≤ code || look b.ptb.tdisp 0 vf = code then b
  else
    let b := { b with ptb := { b.ptb with tdisp := store b.ptb.tdisp 0 vf code } }
    let pid := pidOfVf b vf
    if code = 2 then sendPending b vf
    else if pid = 0 || !isLive b pid || !(part b pid).sealed then b
    else if code = 0 then startWithdraw b pid 4
    else if 3 ≤ code then startWithdraw b pid 5
    else b

/-! ## Rows -/

/-- CREATE (R82). -/
def execCreate (acc : Access) (pid : Nat) (arg : Word) (s : State) : Host.Outcome State Fault Refusal :=
  .next { s with dev := create s.dev acc pid arg.toNat }

/-- ADD_ENGINES_LO (R82, R83). -/
def execAddEnginesLo (acc : Access) (pid : Nat) (arg : Word) (s : State) : Host.Outcome State Fault Refusal :=
  .next { s with dev := addEngines s.dev acc pid 2 arg.toNat 0 }

/-- ADD_ENGINES_HI (R82, R83). -/
def execAddEnginesHi (acc : Access) (pid : Nat) (arg : Word) (s : State) : Host.Outcome State Fault Refusal :=
  .next { s with dev := addEngines s.dev acc pid 3 arg.toNat 64 }

/-- ADD_GRANULES (R82, R83). -/
def execAddGranules (acc : Access) (pid : Nat) (arg : Word) (s : State) : Host.Outcome State Fault Refusal :=
  .next { s with dev := addGranules s.dev acc pid arg.toNat }

/-- ADD_LINK_SHARE (R82). -/
def execAddLinkShare (acc : Access) (pid : Nat) (arg : Word) (s : State) : Host.Outcome State Fault Refusal :=
  .next { s with dev := addLinkShare s.dev acc pid arg.toNat }

/-- ADD_QP (R82). -/
def execAddQp (acc : Access) (pid : Nat) (arg : Word) (s : State) : Host.Outcome State Fault Refusal :=
  .next { s with dev := addQp s.dev acc pid arg.toNat }

/-- ADD_KEYS (R82). -/
def execAddKeys (acc : Access) (pid : Nat) (arg : Word) (s : State) : Host.Outcome State Fault Refusal :=
  .next { s with dev := addKeys s.dev acc pid arg.toNat }

/-- ADD_CHANNELS (R82). -/
def execAddChannels (acc : Access) (pid : Nat) (arg : Word) (s : State) : Host.Outcome State Fault Refusal :=
  .next { s with dev := addChannels s.dev acc pid arg.toNat }

/-- ADD_SCHED (R82). -/
def execAddSched (acc : Access) (pid : Nat) (arg : Word) (s : State) : Host.Outcome State Fault Refusal :=
  .next { s with dev := addSched s.dev acc pid arg.toNat }

/-- ADD_ENERGY (R82). -/
def execAddEnergy (acc : Access) (pid : Nat) (arg : Word) (s : State) : Host.Outcome State Fault Refusal :=
  .next { s with dev := addEnergy s.dev acc pid arg.toNat }

/-- ADD_ATTR (R82). -/
def execAddAttr (acc : Access) (pid : Nat) (arg : Word) (s : State) : Host.Outcome State Fault Refusal :=
  .next { s with dev := addAttr s.dev acc pid arg.toNat }

/-- ADD_VF (R82). -/
def execAddVf (acc : Access) (pid : Nat) (arg : Word) (s : State) : Host.Outcome State Fault Refusal :=
  .next { s with dev := addVf s.dev acc pid arg.toNat }

/-- COMMIT of a partition (R88-R90). -/
def execPartitionCommit (acc : Access) (pid : Nat) (arg : Word) (s : State) : Host.Outcome State Fault Refusal :=
  .next { s with dev := partitionCommit s.dev acc pid arg.toNat }

/-- CTX_OPEN (R95). -/
def execCtxOpen (acc : Access) (pid : Nat) (arg : Word) (s : State) : Host.Outcome State Fault Refusal :=
  .next { s with dev := ctxOpenCmd s.dev acc pid arg.toNat }

/-- CTX_CLOSE (R94). -/
def execCtxClose (acc : Access) (pid : Nat) (arg : Word) (s : State) : Host.Outcome State Fault Refusal :=
  .next { s with dev := ctxCloseCmd s.dev acc pid arg.toNat }

/-- CTX_CLOSE_COMPLETE (R93, R94). -/
def execCtxCloseComplete (pid cx : Nat) (s : State) : Host.Outcome State Fault Refusal :=
  .next { s with dev := ctxCloseDone s.dev pid cx }

/-- WITHDRAW (R96). -/
def execWithdraw (acc : Access) (pid : Nat) (arg : Word) (s : State) : Host.Outcome State Fault Refusal :=
  .next { s with dev := withdrawCmd s.dev acc pid arg.toNat }

/-- WITHDRAW_DRAIN_DONE (R96). -/
def execWithdrawDrainDone (pid : Nat) (s : State) : Host.Outcome State Fault Refusal :=
  .next { s with dev := withdrawDone s.dev pid }

/-- WITHDRAW_DRAIN_TIMEOUT (R96). -/
def execWithdrawDrainTimeout (pid : Nat) (s : State) : Host.Outcome State Fault Refusal :=
  .next { s with dev := withdrawExpire s.dev pid }

/-- RELEASE (R102). -/
def execRelease (acc : Access) (pid : Nat) (arg : Word) (s : State) : Host.Outcome State Fault Refusal :=
  .next { s with dev := releaseCmd s.dev acc pid arg.toNat }

/-- RELEASE_COMPLETE (R102). -/
def execReleaseComplete (pid : Nat) (s : State) : Host.Outcome State Fault Refusal :=
  .next { s with dev := releaseDone s.dev pid }

/-- GRANULE_SCRUB_DONE (R99). -/
def execGranuleScrubDone (granule : Nat) (s : State) : Host.Outcome State Fault Refusal :=
  .next { s with dev := scrubDone s.dev granule }

/-- FUNCTION_LEVEL_RESET (R108). -/
def execFunctionLevelReset (vf : Nat) (s : State) : Host.Outcome State Fault Refusal :=
  .next { s with dev := flr s.dev vf }

/-- VF_ENABLE_CLEAR (R108). -/
def execVfEnableClear (s : State) : Host.Outcome State Fault Refusal :=
  .next { s with dev := vfEnableClear s.dev }

/-- TDISP_STATE_CHANGE (R109). -/
def execTdispStateChange (vf code : Nat) (s : State) : Host.Outcome State Fault Refusal :=
  .next { s with dev := wakeEvent s.dev 6 (.tdispStateChange vf code) fun b => tdispChange b vf code }

end Sys2Proof.Machine
end

