-- ==== Sys2Proof/Machine/Mirror.lean ====
section
/-! DEFINITION. The mirror pair: the full copy, acknowledgement and lag, the partner's shadows, takeover and the alias
(13). -/

namespace Sys2Proof.Machine

/-! ## The full copy (R421) -/

def mirrorEnabled (b : Block) (pid : Nat) : Bool := rd b (0xA100 + pid) 1 == 1

def emitPart (b : Block) (pid : Nat) (sync : Bool) : Block := emitRec b 1 pid 0 sync ⟨64, partBody b pid⟩

def emitCtx (b : Block) (pid cx : Nat) (sync : Bool) : Block :=
  emitRec b 2 pid cx sync ⟨16, cx + (ctxEntry (ctxSlot b pid cx) <<< 16)⟩

def emitKey (b : Block) (pid j : Nat) (sync : Bool) : Block := emitRec b 3 pid j sync ⟨32, keyNum (key b j)⟩

def emitQp (b : Block) (pid i : Nat) (sync : Bool) : Block :=
  let r := qpRecord (qp b i)
  emitRec (onQp b i fun q => { q with mirrored := r }) 4 pid i sync r

def emitGroup (b : Block) (pid g : Nat) (sync : Bool) : Block := emitRec b 6 pid g sync (groupBody g (group b pid g))

def emitAcct (b : Block) (pid : Nat) (sync : Bool) : Block := emitRec b 7 pid 0 sync ⟨64, acctBody b pid⟩

/-- The full copy of a partition. -/
def copyPart (b : Block) (pid : Nat) : Block :=
  let b := emitPart b pid true
  let b := ((part b pid).ctxs.filter fun e => e.2.st != .free).foldl (fun b e => emitCtx b pid e.1 true) b
  let b := ((keysOf b pid).filter fun j => (key b j).st != .free).foldl (fun b j => emitKey b pid j true) b
  let b := (qpsOf b pid).foldl (fun b i => emitQp b pid i true) b
  let b := ((allGroups b).filter fun e => e.1 == pid && e.2.2.live).foldl (fun b e => emitGroup b pid e.2.1 true) b
  emitAcct b pid true

/-- `a` is at or after `c` in the order of sequence numbers modulo 2^32. -/
def atOrAfter (a c : Nat) : Bool := (2 ^ 32 + a - c % 2 ^ 32) % 2 ^ 32 < 2 ^ 31

/-- The state becomes SYNCED once the last SYNC record of the copy is acknowledged (R421). -/
def syncCheck (b : Block) : Block :=
  let m := b.mirror
  let acked := match m.syncEnd with
    | some n => atOrAfter (rd b 0xA000 9) n
    | none => true
  if mirrorState b = 1 && acked && !m.marks.any (256 ≤ ·.kind) then finishCmd (wr b 0xA000 6 2) 0xA000 0x40 .ok 0 else b

/-- Nothing of this chip's records is kept or waits any more; its ACK records still go out. -/
def clearMirror (b : Block) : Block :=
  { b with mirror := { b.mirror with
    queue := b.mirror.queue.filter (·.kind == 0x0F), replay := [], marks := [], syncEnd := none, ackAt := b.clk.now } }

/-- The replay buffer is cleared and a full copy of every mirrored partition emitted. -/
def startCopy (b : Block) : Block :=
  let b := wr (clearMirror b) 0xA000 6 1
  let ps := pids.filter fun p => mirrorEnabled b p && (part b p).st != .free
  syncCheck (ps.foldl copyPart b)

/-- MIRROR_START; a fenced Mirror Unit accepts none (12 R388; DESIGN CHOICE, log 28). -/
def mirrorStart (b : Block) (acc : Access) (arg : Nat) : Block :=
  command b acc 0xA000 0x40 arg
    (fun b => { noFails with
      rights := notFmFw acc, range := arg != 0
      state := (mirrorState b != 0 && mirrorState b != 4) || !served b uMirror })
    startCopy

/-- MIRROR_STOP: sending stops; a MIRROR_START under way finishes with STATE. -/
def mirrorStop (b : Block) (acc : Access) (arg : Nat) : Block :=
  commandNow b acc 0xA000 0x41 arg (fun _ => { noFails with rights := notFmFw acc, range := arg != 0 })
    fun b => (finishCmd (wr (clearMirror b) 0xA000 6 0) 0xA000 0x40 .state 0, .ok, 0)

/-- R429: the Mirror Unit is reset. -/
def mirrorReset (b : Block) : Block :=
  let b := { b with mirror := { b.mirror with queue := [], applied := 0 } }
  if mirrorState b = 0 then clearMirror b else startCopy b

/-- MIRROR_ENABLE has been set: a LIVE partition is copied (R421); of another its PART record goes out (Table 13-3). -/
def mirrorEnableSet (b : Block) (pid old : Nat) : Block :=
  if old ≠ 0 then b else if mirrors b pid && isLive b pid then copyPart b pid else notePart b pid

/-! ## Acknowledgement, lag and timers (R416-R420) -/

/-- The records of a marked object's latest state (R419). -/
def emitLatest (b : Block) (x : MirrorMark) : Block :=
  let pid := x.pid
  let i := x.index
  let sync := decide (256 ≤ x.kind)
  match x.kind % 256 with
  | 1 => emitPart b pid sync
  | 2 => emitCtx b pid i sync
  | 3 => emitKey b pid i sync
  | 4 => emitQp b pid i sync
  | 5 => (qp b i).replay.reverse.foldl (fun b e => emitRec b 5 pid i sync ⟨16, e.1 + (e.2 <<< 64)⟩) b
  | 6 => emitGroup b pid i sync
  | 7 => emitAcct b pid sync
  | _ => b

/-- A marked object's records are emitted; the change they carry is as old as the mark, which stays as old too if there is
no room for them yet (R420). -/
def emitMark (b : Block) (x : MirrorMark) : Block :=
  let old := b.mirror
  let b := emitLatest b x
  let m := b.mirror
  let aged (r : MRec) : MRec := { r with born := min r.born x.since }
  let n := old.queue.length
  let k := old.marks.length
  { b with mirror := { m with
    queue := m.queue.take n ++ (m.queue.drop n).map aged
    marks := m.marks.take k ++ (m.marks.drop k).map fun y => { y with since := min y.since x.since } } }

/-- As room frees, the marked objects' records follow. -/
def pumpMarks (b : Block) : Block :=
  let ms := b.mirror.marks
  ms.foldl emitMark { b with mirror := { b.mirror with marks := [] } }

/-- An ACK record: every record up to `n` is acknowledged. -/
def mirrorAck (b : Block) (n : Nat) : Block :=
  let m := b.mirror
  let done (r : MRec) : Bool := r.kind != 0x0F && r.sent && atOrAfter n r.mseq
  let gone := ((m.queue ++ m.replay).filter done).length
  if gone = 0 || !atOrAfter (rd b 0xA000 8) n then b
  else
    let b := { b with mirror := { m with
      queue := m.queue.filter (!done ·), replay := m.replay.filter (!done ·), ackAt := b.clk.now } }
    syncCheck (pumpMarks (progressedBy (wr b 0xA000 9 n) uMirror gone))

def mirroring (b : Block) : Bool := 1 ≤ mirrorState b && mirrorState b ≤ 3

/-- Mirroring is active in a unit that is in service: a fenced one sends nothing of its own (12 R388). -/
def mirrorRuns (b : Block) : Bool := mirroring b && served b uMirror

/-- This chip's records not yet acknowledged. -/
def unacked (b : Block) : List MRec := b.mirror.replay ++ b.mirror.queue.filter (·.kind != 0x0F)

/-- MARK_TIMER: 16 µs without a record (R416); none in Hold (14 R438). -/
def markTimer (b : Block) : Block :=
  if mirrorRuns b && !asleep b && elapsed b b.mirror.recordAt 1600 then emitRec b 8 0 0 false ⟨16, b.clk.now % 2 ^ 64⟩
  else b

/-- QP_RECORD_REFRESH: the state of a queue pair differs from the last record of it. -/
def qpRefresh (b : Block) (i : Nat) : Block :=
  let q := qp b i
  if q.mirrored != qpRecord q then noteQp b i else b

/-- MIRROR_RETX: the records sent and not acknowledged are sent again, the oldest first (R419). -/
def mirrorRetx (b : Block) : Block :=
  let m := b.mirror
  if !mirrorRuns b || m.replay.isEmpty || !elapsed b (max m.ackAt m.sentAt) (micros (rd b 0xA000 4)) then b
  else addTo { b with mirror := { m with queue := m.replay ++ m.queue, replay := [] } } 0xA000 0x0C m.replay.length

/-- MIRROR_TIMEOUT: nothing is acknowledged for too long, and the state is BROKEN (R420). -/
def mirrorBroken (b : Block) : Block :=
  let m := b.mirror
  if !mirrorRuns b || (unacked b).isEmpty || !elapsed b m.ackAt (micros (rd b 0xA000 5)) then b
  else
    let b := { b with mirror := { m with queue := m.queue.filter (·.kind == 0x0F), replay := unacked b } }
    raiseFree (finishCmd (wr b 0xA000 6 4) 0xA000 0x40 .state 0) 25 uMirror 0

/-- The lag in PCLK cycles: the age of the oldest change not covered (R420), a change being as old as its record or its
mark (DEDUCED, log 42). -/
def lag (b : Block) : Nat :=
  ((unacked b).map (·.born) ++ b.mirror.marks.map (·.since)).foldl (fun n t => max n (b.clk.now - t)) 0

/-- LAG_THRESHOLD (R420). -/
def lagCheck (b : Block) : Block :=
  if !served b uMirror then b
  else if mirrorState b = 2 && 2000 ≤ lag b then raiseFree (count (wr b 0xA000 6 3) 0xA000 0x0F) 25 uMirror 0
  else if mirrorState b = 3 && lag b < 1000 then wr b 0xA000 6 2
  else b

/-! ## The partner's side (R412, R418, R422, R423) -/

/-- An ACK record of the latest MSEQ applied waits to be sent. -/
def sendMirrorAck (b : Block) : Block :=
  let m := b.mirror
  let r : MRec := ⟨0x0F, 0, 0, 0, false, ⟨16, rd b 0xA000 0x0A⟩, b.clk.now, false⟩
  { b with mirror := { m with queue := m.queue.filter (·.kind != 0x0F) ++ [r], applied := 0 } }

/-- MIRROR_ACK_TIMER: 2 µs after the first record applied since the last ACK (R418). -/
def mirrorAckTimer (b : Block) : Block :=
  if served b uMirror && b.mirror.applied ≠ 0 && elapsed b b.mirror.appliedAt 200 then sendMirrorAck b else b

/-- A range lies within another: base and count each. -/
def inRange (a n c m : Nat) : Bool := n == 0 || (c ≤ a && a + n ≤ c + m)

def disjoint (a n c m : Nat) : Bool := (common a n c m).isNone

/-- The mapping of a shadow to standby `sp` at the bases given stands, for the counts its PART record gives (R422). -/
def mappingOk (b : Block) (pp sp qb kb : Nat) (s : Shadow) : Bool :=
  let p := part b sp
  let nq := s.qpCount
  let nk := s.keyCount
  isLive b sp && inRange qb nq p.qpBase p.qpCount && inRange kb nk p.keyBase p.keyCount
    && (pids.all fun o => o == pp || !shadowHolds b o
      || (disjoint qb nq (shadowQpBase b o) (shadow b o).qpCount && disjoint kb nk (shadowKeyBase b o) (shadow b o).keyCount))
    && (b.tpe.qps.all fun e => !(qb ≤ e.1 && e.1 < qb + nq) || e.2.st == .reset)
    && (b.tpe.keys.all fun e => !(kb ≤ e.1 && e.1 < kb + nk) || e.2.st == .free)

/-- A write to SHADOW_PID, SHADOW_QP_BASE or SHADOW_KEY_BASE: refused, or done (R422). -/
def shadowWrite (b : Block) (pp sub v : Nat) : Block × Code :=
  let st := shadowState b pp
  let sp := if sub = 1 then v else shadowPid b pp
  let qb := if sub = 2 then v else shadowQpBase b pp
  let kb := if sub = 3 then v else shadowKeyBase b pp
  let s := { shadow b pp with released := false }
  if st ≠ 0 && st ≠ 4 then (b, .state)
  else if sp ≠ 0 && !mappingOk b pp sp qb kb s then (b, .conflict)
  else (setShadow (wr b (0xA200 + pp) sub v) pp s, .ok)

/-- The state code in the query record of a QP record's body. -/
def recState (body : Bytes) : Nat := bits body.val (512 + 56) 8

/-- What a record leaves in its shadow. -/
def shadowTake (s : Shadow) (r : MRec) : Shadow :=
  match r.kind with
  | 1 => { s with part := bytesOf 64 r.body.val }
  | 3 => { s with keys := insert s.keys r.index r.body }
  | 4 => { s with qps := if recState r.body = 0 then erase s.qps r.index else insert s.qps r.index r.body }
  | 5 =>
    let l := look s.atomics [] r.index
    { s with atomics := insert s.atomics r.index (((bits r.body.val 0 24, bits r.body.val 64 64) :: l).take 16) }
  | 6 => { s with groups := insert s.groups r.index r.body }
  | 7 => { s with acct := bytesOf 64 r.body.val }
  | _ => s

/-- What a shadow held of queue pairs, keys and groups is dropped. -/
def Shadow.emptied (s : Shadow) : Shadow := { s with qps := [], keys := [], groups := [], atomics := [] }

/-- A record of a primary partition meets its shadow (Table 13-5); the Boolean says that it was applied. -/
def shadowRecord (b : Block) (r : MRec) : Block × Bool :=
  let pp := r.pid
  let i := 0xA200 + pp
  let st := shadowState b pp
  let s := shadow b pp
  let next := shadowTake s r
  let fits := shadowPid b pp ≠ 0
    && mappingOk b pp (shadowPid b pp) (shadowQpBase b pp) (shadowKeyBase b pp) next
  if pp = 0 || 3 ≤ st then (b, false)
  else if r.kind = 1 && st ≠ 0 && (slice r.body.val 0 1 = 3 || !fits) then (setShadow (wr b i 4 0) pp next.emptied, true)
  else if r.sync && st ≠ 1 then
    if fits then (setShadow (wr b i 4 1) pp { shadowTake s.emptied r with released := false }, true) else (b, false)
  else if st = 0 then (b, false)
  else
    let b := setShadow b pp next
    (if st = 1 && !r.sync then wr b i 4 2 else b, true)

/-- A record in its turn: applied, or a duplicate or out of order (R418). -/
def applyRecord (b : Block) (r : MRec) : Block :=
  let d := (2 ^ 32 + r.mseq - rd b 0xA000 0x0A) % 2 ^ 32
  if d ≠ 1 then count b 0xA000 0x0E
  else
    let b := wr b 0xA000 0x0A r.mseq
    let m := b.mirror
    let b := { b with mirror := { m with
      applied := m.applied + 1, appliedAt := if m.applied = 0 then b.clk.now else m.appliedAt } }
    let (b, ok) := if r.kind = 8 then (b, true) else shadowRecord b r
    let b := if ok then count b 0xA000 0x0D else count b 0xA000 0x0E
    if 64 ≤ b.mirror.applied then sendMirrorAck b else b

/-- The records of a packet, one after another. -/
def applyRecords (b : Block) (pay : Bytes) (off : Nat) : Nat → Block
  | 0 => b
  | fuel + 1 =>
    let h := slice pay.val off 16
    let len := bits h 104 16
    if pay.len < off + 16 || bits h 120 8 = 0 || pay.len < off + 16 + len then b
    else
      let body : Bytes := ⟨len, slice pay.val (off + 16) len⟩
      let r : MRec := ⟨bits h 120 8, bits h 98 6, bits h 64 32, bits h 32 32, bitAt h 31, body, 0, false⟩
      let b := if r.kind = 0x0F then mirrorAck b (slice body.val 0 4) else applyRecord b r
      applyRecords b pay (off + 16 + len) fuel

/-- A MIRROR packet is taken from PARTNER_CHIP alone, not once it has been taken over (R412, R425), and by a Mirror Unit
that is in service (12 R388). -/
def mirrorArrival (b : Block) (src : Nat) (pay : Bytes) : Block :=
  if served b uMirror && src = rd b 0xA000 1 && rd b 0xA000 0x11 ≠ src then applyRecords b pay 0 257 else count b 0xA000 0x0E

/-! ## Takeover (R424, R425) -/

/-- A reserved key of a taken shadow (step 2): the entry of its last record, held now by the standby partition. -/
def takeKey (b : Block) (pp j n : Nat) : Block :=
  let s := shadow b pp
  let i := shadowKeyBase b pp + (j - s.keyBase)
  if j < s.keyBase || s.keyBase + s.keyCount ≤ j || bits n 62 2 ≠ 1 then b
  else setKey b i
    { st := .valid, gen := bits n 48 8, pid := shadowPid b pp, cx := bits n 32 10, base := bits n 64 52, len := bits n 128 44
      rights := bits n 56 4, bind := bitAt n 208, bindQp := bits n 192 16, out := 0, since := 0 }

/-- The trackers of a receive state (Table 13-4); RCQ, the key and the type come with the next packet. -/
def recTrackers (rx : Nat) : SMap Tracker :=
  (List.range 8).filterMap fun t =>
    let x := bits rx (128 * t + 128) 128
    if bitAt x 127 then some (t, ⟨bits x 96 16, bits x 64 32, false, bits x 32 32, 0, 0, 0, false⟩) else none

/-- The mirrored WQEs of a QP record. -/
def recWqes (body : Bytes) : List Nat := (List.range ((body.len - 288) / 64)).map fun k => slice body.val (288 + 64 * k) 64

/-- The messages of mirrored WQEs from PSN `base` and MSN `msn` on, `send` being SEND_PSN. -/
def recMsgs (size head send : Nat) : List Nat → Nat → Nat → Nat → List SendMsg
  | [], _, _, _ => []
  | w :: ws, k, base, msn =>
    let n := wPackets w
    ⟨msn, .copied ((head + k) % size), w, base, n, min n (psnDiff send base), 0, 0, none, 0, 0⟩
      :: recMsgs size head send ws (k + 1) (psnAdd base n) ((msn + 1) % 65536)

/-- The queue pair of a reserved slot as its record shows it (steps 3 and 4). -/
def recQp (b : Block) (pp j : Nat) (body : Bytes) (phase : Bool) : Qp :=
  let s := shadow b pp
  let r := body.val % 2 ^ 512
  let x := bits body.val 512 512
  let rx := bits body.val 1024 1280
  let q := connectQp (initQp b (shadowPid b pp) r freshQp) r
  let send := bits x 104 24
  let unack := bits x 80 24
  let ws := recWqes body
  let sum := (ws.map wPackets).foldl (· + ·) 0
  let open' := psnDiff send unack
  let base := if open' < sum then (2 ^ 24 + send - sum % 2 ^ 24) % 2 ^ 24 else unack
  let msgs := recMsgs (2 ^ q.sqLog) (bits x 16 16) send ws 0 base ((65536 + bits x 64 16 - ws.length) % 65536)
  { q with
    st := if bits x 56 8 = 3 then .error else .takenOver
    err := bits x 48 8, ownGen := bits rx 64 8, rxBase := bits x 168 24, sendPsn := send, nextMsn := bits x 64 16
    sqHead := bits x 16 16, sqTail := bits x 16 16, sqNext := bits x 16 16
    cqProd := bits x 0 16, cqCons := bits x 0 16, phase := phase
    placed := bits rx 0 64, accepted := bits rx 0 64, trackers := recTrackers rx
    replay := look s.atomics [] j
    txMsgs := bits x 192 64, rxMsgs := bits x 256 64, txBytes := bits x 320 64, rxBytes := bits x 384 64
    retxPkts := bits x 448 64
    msgs := if bits x 56 8 = 3 then [] else msgs
    flights := if bits x 56 8 = 3 then [] else (List.range open').map fun k => ⟨psnAdd unack k, 0, 0, false, none, psnAdd unack k⟩
    isAlias := true, primary := j, primaryPid := pp }

/-- The mirrored WQEs of a queue pair taken over are sent again (step 6): a WRITE or REDUCE once its payload is read. -/
def resend (b : Block) (i : Nat) : Block :=
  let q := qp b i
  let direct := q.msgs.filter fun m => !isWriteMsg m
  let res := (direct.map (reservedBy q)).foldl (· + ·) 0
  let b := { b with tpe := { b.tpe with reserved := b.tpe.reserved + res } }
  let b := direct.foldl (fun b m => copyPackets b i m) b
  sqRun (onQp b i fun q => { q with copies := (q.msgs.filter isWriteMsg).map (·.msn) }) i

/-- A reserved queue pair of a taken shadow; with the number of queue pairs taken over. -/
def takeQp (b : Block) (pp j : Nat) (body : Bytes) : Block × Nat :=
  let s := shadow b pp
  let st := recState body
  let i := shadowQpBase b pp + (j - s.qpBase)
  if j < s.qpBase || s.qpBase + s.qpCount ≤ j || !(st == 2 || st == 3 || st == 5) then (b, 0)
  else
    let (d, b) := draw b
    let b := noteQp (setQp b i (recQp b pp j body (d % 2 == 1))) i
    if st = 3 then (b, 0) else (resend b i, 1)

/-- The groups a taken shadow lists in TAKEOVER_GROUPS (step 5). -/
def lostGroups (s : Shadow) : List Bytes :=
  (s.groups.filter fun e => 1 ≤ bits e.2.val 16 8 && bits e.2.val 16 8 ≤ 3).map fun e => bytesOf 8 e.2.val

/-- May the shadow be taken over (R424)? -/
def takeable (b : Block) (pp : Nat) : Bool :=
  shadowState b pp == 2 && shadowPid b pp != 0 && isLive b (shadowPid b pp)
    && (!bitAt (shadow b pp).part.val 440 || (part b (shadowPid b pp)).sealed)

/-- Steps 2 to 5 and 7 for one shadow; with the number of queue pairs taken over. -/
def takeShadow (b : Block) (pp : Nat) : Block × Nat :=
  let s := shadow b pp
  let b := s.keys.foldl (fun b e => takeKey b pp e.1 e.2.val) b
  let (b, n) := s.qps.foldl (fun (x : Block × Nat) e =>
    let (b, k) := takeQp x.1 pp e.1 e.2
    (b, x.2 + k)) (b, 0)
  let gs := lostGroups s
  let b := addTo b 0x6000 9 gs.length
  let b := setShadow b pp { s with takenGroups := gs.foldl bytesAppend ⟨0, 0⟩ }
  (msixPart (wr b (0xA200 + pp) 4 3) (shadowPid b pp) 0, n)

/-- A shadow that is not taken over becomes REFUSED, if there is one. -/
def refuseShadow (b : Block) (pp : Nat) : Block :=
  if shadowPid b pp ≠ 0 || shadowState b pp ≠ 0 then wr b (0xA200 + pp) 4 4 else b

/-- The takeover of Table 13-6. -/
def takeoverRun (b : Block) : Block × Nat :=
  let b := wr b 0xA000 0x11 (rd b 0xA000 1)
  let yes := pids.filter (takeable b)
  let b := (pids.filter fun p => !yes.contains p).foldl refuseShadow b
  yes.foldl (fun (x : Block × Nat) pp =>
    let (b, k) := takeShadow x.1 pp
    (b, x.2 + k)) (b, 0)

def takeover (b : Block) (acc : Access) (arg : Nat) : Block :=
  commandNow b acc 0xA000 0x42 arg
    (fun b => { noFails with
      rights := notFmFw acc, range := arg != 0, state := rd b 0xA000 1 == 0xFFFF || rd b 0xA000 0x11 != 0xFFFF })
    fun b =>
      let (b, n) := takeoverRun b
      (b, .ok, n)

/-- ALIAS_END: the queue pairs taken over are reset (R428). -/
def aliasEnd (b : Block) (acc : Access) (arg : Nat) : Block :=
  command b acc 0xA000 0x43 arg
    (fun b => { noFails with rights := notFmFw acc, range := arg != 0, state := rd b 0xA000 0x11 == 0xFFFF })
    fun b =>
      let l := b.tpe.qps.filter fun e => e.2.isAlias && e.2.st != .reset && e.2.st != .draining && !e.2.resetting
      aliasDone (l.foldl (fun b e => resetQp b e.1) b)

/-! ## Rows -/

/-- MIRROR_START (R421). -/
def execMirrorStart (acc : Access) (arg : Word) (s : State) : Host.Outcome State Fault Refusal :=
  .next { s with dev := mirrorStart s.dev acc arg.toNat }

/-- MIRROR_STOP (R414). -/
def execMirrorStop (acc : Access) (arg : Word) (s : State) : Host.Outcome State Fault Refusal :=
  .next { s with dev := mirrorStop s.dev acc arg.toNat }

/-- MIRROR_ACK_TIMER (R418). -/
def execMirrorAckTimer (s : State) : Host.Outcome State Fault Refusal :=
  .next { s with dev := mirrorAckTimer s.dev }

/-- MARK_TIMER (R416). -/
def execMarkTimer (s : State) : Host.Outcome State Fault Refusal :=
  .next { s with dev := markTimer s.dev }

/-- QP_RECORD_REFRESH (R416). -/
def execQpRecordRefresh (i : Nat) (s : State) : Host.Outcome State Fault Refusal :=
  .next { s with dev := qpRefresh s.dev i }

/-- MIRROR_RETX_EXPIRY (R419). -/
def execMirrorRetxExpiry (s : State) : Host.Outcome State Fault Refusal :=
  .next { s with dev := mirrorRetx s.dev }

/-- MIRROR_TIMEOUT_EXPIRY (R420). -/
def execMirrorTimeoutExpiry (s : State) : Host.Outcome State Fault Refusal :=
  .next { s with dev := mirrorBroken s.dev }

/-- LAG_THRESHOLD (R420). -/
def execLagThreshold (s : State) : Host.Outcome State Fault Refusal :=
  .next { s with dev := lagCheck s.dev }

/-- TAKEOVER (R424, R425). -/
def execTakeover (acc : Access) (arg : Word) (s : State) : Host.Outcome State Fault Refusal :=
  .next { s with dev := takeover s.dev acc arg.toNat }

/-- ALIAS_END (R428). -/
def execAliasEnd (acc : Access) (arg : Word) (s : State) : Host.Outcome State Fault Refusal :=
  .next { s with dev := aliasEnd s.dev acc arg.toNat }

end Sys2Proof.Machine
end

