-- ==== Sys2Proof/Machine/Fcu.lean ====
section
/-! DEFINITION. The Fault Collection Unit: events, severities, counting, the log and FAULT_L; reset domains from fence to
return; the fenced block; hangs, Skim dumps and injection (12). -/

namespace Sys2Proof.Machine

/-! ## Units (Table 12-4) -/

/-- The core units, ascending. -/
def coreUnits : List Nat := (List.range 9).map (· + 1) ++ [0x10, 0x11, 0x12, 0x13, 0x20, 0x21, 0x22]

def isPP (u : Nat) : Bool := 0x100 ≤ u && u < 0x124
def isES (u : Nat) : Bool := 0x200 ≤ u && u < 0x280
def isMS (u : Nat) : Bool := 0x300 ≤ u && u < 0x320
def isLane (u : Nat) : Bool := 0x400 ≤ u && u < 0x500
def isReed (u : Nat) : Bool := 0x10 ≤ u && u < 0x14

def unitPresent (b : Block) (u : Nat) : Bool :=
  coreUnits.contains u || isPP u || (isES u && esPresent b (u - 0x200)) || (isMS u && msPresent b (u - 0x300))
    || (isLane u && msPresent b ((u - 0x400) / 8))

/-- The units that are present, ascending. -/
def presentUnits (b : Block) : List Nat := (List.range 0x500).filter (unitPresent b)

/-- The Memory Station of a lane group. -/
def laneMs (u : Nat) : Nat := uMS ((u - 0x400) / 8)

/-- The reset domain of a unit (Table 12-4): the Anneal engine's is the SSU's, a lane group's its Memory Station's. -/
def domainOf (u : Nat) : Nat := if u = uAnneal then uSSU else if isLane u then laneMs u else u

/-- The state of a unit: its domain's; a lane group has an entry of its own for the time it is out of service alone. -/
def unitState (b : Block) (u : Nat) : DomState :=
  let d := (domain b (domainOf u)).st
  if isLane u && d == .inService then (domain b u).st else d

/-- The lane groups of the block that have an entry. -/
def lanesListed (b : Block) : List Nat := (b.fcu.doms.map (·.1)).filter isLane

/-- The Reed cores in service. -/
def reedsIn (b : Block) : Nat := ((List.range 4).filter fun n => served b (uReed n)).length

/-- May the unit be taken out of service? -/
def removable (u : Nat) : Bool := isReed u || isPP u || isES u || isMS u || isLane u

/-- The members of a partition domain that hold resources. -/
def members (b : Block) (d : Nat) : List Nat := pids.filter fun p => (part b p).holdsRanges && faultDomain b p == d

/-! ## The log and FAULT_L (R382-R385) -/

/-- A fault record (Table 12-3). -/
def faultNum (now seq addr applied target : Nat) (e : Event) (promoted : Bool) : Nat :=
  (now <<< 192) + (seq <<< 160) + ((addr % 2 ^ 56) <<< 104) + ((e.detail % 2 ^ 32) <<< 72) + (e.unit <<< 56) + (e.pid <<< 50)
    + (e.fsrc <<< 41) + (applied <<< 38) + (ofBool promoted <<< 37) + (ofBool e.injected <<< 36) + (target <<< 32)

/-- FAULT_WAIT commands that a FENCE or FATAL record satisfies finish (R384). -/
def finishWaits (b : Block) (q : Nat) : Block :=
  [0x45, 0x46].foldl (fun b sub => match pendingCmd b 0x9000 sub with
    | some c =>
      let d := (2 ^ 32 + q - c.arg % 2 ^ 32) % 2 ^ 32
      if 1 ≤ d && d < 2 ^ 31 then finishCmd b 0x9000 sub .ok (q % 2 ^ 24) else b
    | none => b) b

/-- An event is recorded with the severity applied and what it acted on. -/
def logEvent (b : Block) (e : Event) (applied target : Nat) (promoted : Bool) : Block :=
  let q := (rd b 0x9000 6 + 1) % 2 ^ 32
  let r := faultNum b.clk.now q (if isSealed b e.pid then 0 else e.addr) applied target e promoted
  let f := b.fcu
  let b := if 256 ≤ f.logged then count b 0x9000 8 else b
  let b := { b with fcu := { f with
    log := insert f.log (f.logged % 256) r
    logged := f.logged + 1
    firstFatal := if applied = 4 && f.firstFatal = 0 then r else f.firstFatal
    lastFence := if 3 ≤ applied then r else f.lastFence
    lastSrc := store f.lastSrc 0 e.unit e.fsrc } }
  let b := wr (wr b 0x9000 6 q) (0x9200 + e.fsrc) 8 q
  let b := if 1 ≤ applied then msix b 0 1 else b
  if 3 ≤ applied && rd b 0x9000 1 ≠ 2 && rd b 0xF000 1 ≠ 2 then
    finishWaits { b with fcu := { b.fcu with qualifying := some q } } q
  else b

def faultLow (b : Block) : Block :=
  let b := if rd b 0x9000 3 = 1 then b else emit (wr b 0x9000 3 1) (.faultL true)
  { b with fcu := { b.fcu with faultAt := b.clk.now, faultReleased := false } }

/-- FAULT_L is released once both conditions of R385 hold. -/
def faultRise (b : Block) : Block :=
  if rd b 0x9000 3 = 1 && elapsed b b.fcu.faultAt 200 && rd b 0xC000 1 ≠ 0xFF
      && (rd b 0x9000 2 = 0 || b.fcu.faultReleased) then emit (wr b 0x9000 3 0) (.faultL false)
  else b

/-! ## Skim (R403-R406) -/

/-- The units Skim reads, ascending: all but itself and the lane groups. -/
def skimUnits (b : Block) : List Nat := (presentUnits b).filter fun u => u != uSkim && !isLane u

def skimStart (b : Block) (trig : Nat) : Block :=
  let b := wrBlob (count (wr b 0x9002 3 1) 0x9002 4) 0x9002 0x20 ⟨0, 0⟩
  { b with fcu := { b.fcu with skim := ⟨skimUnits b, ⟨0, 0⟩, b.clk.now, b.clk.now, trig, 0, 0⟩ } }

/-- A trigger is ignored while a dump runs, and while the buffer is held (R403). -/
def skimFree (b : Block) : Bool :=
  let st := rd b 0x9002 3
  st != 1 && !(rd b 0x9002 2 == 1 && (st == 2 || st == 3))
    && ((domain b uSkim).st == .inService || (domain b uSkim).st == .blockFenced)

/-- A reaction of a severity selected in SKIM_TRIGGER starts a dump; the Boolean says that it did. -/
def skimTrigger (b : Block) (sev : Nat) : Block × Bool :=
  if bitAt (rd b 0x9002 1) (4 - sev) && skimFree b then (skimStart b (rd b 0x9000 6), true) else (b, false)

/-- The dump header (Table 12-10). -/
def skimHeader (b : Block) (s : SkimState) (st : Nat) : Nat :=
  (s.start <<< 448) + (b.clk.now <<< 384) + (s.trigSeq <<< 352) + (s.units <<< 336) + (s.noResp <<< 320)
    + ((64 + s.body.len) <<< 288) + (0x4D494B53 <<< 32) + st

def domCode : DomState → Nat
  | .inService => 0 | .fencing => 1 | .dumping => 2 | .resetting => 3 | .retraining => 4 | .out => 5 | .blockFenced => 6

/-- The common words of a record (Table 12-12); words 2 and 3 are the unit's own. Which scan words carry data of a sealed
partition is not stated: all of them read zero while one holds granules (10 R337; DESIGN CHOICE, log 33). -/
def skimWord (b : Block) (u i : Nat) (w : BitVec 32) : Nat :=
  let p := look b.fcu.progress 0 u
  match i with
  | 0 => domCode (unitState b u) <<< 24
  | 1 => (b.tags.used.filter fun t => unitOfHolder t.holder == u).length
  | 4 => p % 2 ^ 32
  | 5 => p >>> 32
  | 6 => look b.fcu.lastSrc 0 u
  | 7 => 0
  | _ => if 8 ≤ i && pids.any (isSealed b) then 0 else w.toNat

/-- A unit record with its header (Table 12-11), padded to 16 bytes. -/
def skimRecord (b : Block) (u asked res : Nat) (ws : List (BitVec 32)) : Bytes :=
  let n := ws.length
  let body := ((List.range n).zip ws).reverse.foldl (fun a e => a * 2 ^ 32 + skimWord b u e.1 e.2) 0
  ⟨16 + (4 * n + 15) / 16 * 16, (asked <<< 64) + (u <<< 48) + (n <<< 16) + res + (body <<< 128)⟩

/-! ## What a domain has outstanding (R388) -/

/-- Where the accesses of a request lie that its tag does not say. -/
def holderSegs (b : Block) (h : Holder) : List Seg :=
  match h.kind with
  | .engineRead => ((findReq b h.a h.b).map (·.segs)).getD []
  | .placement => ((workNamed b h).map (·.segs)).getD []
  | _ => []

/-- Is a request one from or to the unit? -/
def ofUnit (b : Block) (key : Nat) (h : Holder) (segs : List Seg) : Bool :=
  unitOfHolder h == key
    || (isMS key && (segs ++ holderSegs b h).any fun s => placeOf b s.pa == .package && stationOf s.pa == key - 0x300)

/-- Does a partition have a request outstanding? -/
def partBusy (b : Block) (pid : Nat) : Bool :=
  (b.tags.used.any (·.pid == pid)) || (b.tags.waits.any (·.pid == pid))
    || (b.cha.stations.any fun e => e.2.reqs.any (·.ctx.pid == pid)) || (b.tpe.works.any fun w => qpPid b w.qp == pid)
    || (b.cru.apps.any (·.pid == pid)) || (b.ssu.ops.any (·.ctx.pid == pid)) || (b.cha.results.any (·.ctx.pid == pid))

/-- Does a unit have a request outstanding? -/
def unitBusy (b : Block) (key : Nat) : Bool :=
  (b.tags.used.any fun u => ofUnit b key u.holder u.segs) || (b.tags.waits.any fun w => ofUnit b key w.holder w.segs)
    || (isES key && !(station b (key - 0x200)).reqs.isEmpty)
    || (isMS key && ((b.cru.apps.any fun a => a.st != .xlate && stationOf a.pa == key - 0x300)
      || b.cru.waits.any (·.ms == key - 0x300)))
    || (key == uTPE && !b.tpe.works.isEmpty) || (key == uSSU && !b.ssu.ops.isEmpty) || (key == uTXH && !b.hub.walks.isEmpty)

def domBusy (b : Block) (key : Nat) : Bool :=
  if key < 0x10000 then unitBusy b key else (members b (key - 0x10000)).any (partBusy b)

/-- Nothing at all is outstanding. -/
def blockIdle (b : Block) : Bool := b.tags.used.isEmpty && b.tags.waits.isEmpty && b.cha.stations.all (·.2.reqs.isEmpty)

/-! ## Answers at a drain timeout (R388 step 2) -/

def fencedAnswer : Answer := ⟨.fenced, ⟨0, 0⟩, false⟩

/-- An arriving packet's work is answered FENCED. -/
def fenceWork (b : Block) (w : Work) : Block :=
  let b := abandon b (workHolder w) w.segs
  match w.kind with
  | .response => match msgOfPsn (qp b w.qp) w.psn with
    | some m => responseFail (dropWork b w) w.qp m .fenced
    | none => dropWork b w
  | _ => workRefuse b w w.psn .fenced

/-- A station's request is answered FENCED. -/
def fenceReq (b : Block) (es : Nat) (r : EReq) : Block := refuseReq b es r .fenced

def fenceReqs (b : Block) (es : Nat) : Block := (station b es).reqs.foldl (fun b r => fenceReq b es r) b

/-- What a request's unit makes of the answer FENCED; the messages of a queue pair end as Table 12-6 states. -/
def fenceHolder (b : Block) (h : Holder) : Block :=
  let pid := h.a / 65536
  let g := h.a % 65536
  match h.kind with
  | .engineRead => match findReq b h.a h.b with
    | some r => fenceReq b h.a r
    | none => b
  | .chanDesc => descArrival b h.a fencedAnswer
  | .chanRead | .chanWrite => burstArrival b h.a h.b fencedAnswer
  | .chanReadback => readbackArrival b h.a fencedAnswer
  | .chanStatus => statusArrival b h.a fencedAnswer
  | .placement => match workNamed b h with
    | some w => fenceWork b w
    | none => b
  | .wqeFetch | .wqePayload => localFailure b h.a .fenced
  | .setupRecord | .queryWrite => expireCmd b h .fenced
  | .walk => tableReadDone b h.a fencedAnswer
  | .stepDesc => descTaken b h.a h.b fencedAnswer fencedAnswer
  | .groupRecord => groupRecordDone b pid g fencedAnswer
  | .localSlot => localSlotDone b pid g h.b fencedAnswer
  | .streamTable => streamTableDone b pid g fencedAnswer
  | .castOut => readbackDone b pid g fencedAnswer
  | _ => b

/-- A request waiting for a tag takes one without being presented, so that it can be answered. -/
def adopt (b : Block) (w : TagWait) : Block :=
  let t := lowestFree (b.tags.used.filter fun u => inPool w.pool u.tag) (poolBase w.pool)
  { b with tags := { b.tags with
    used := insertTag b.tags.used ⟨t, w.ctx, w.segs, w.holder⟩, waits := b.tags.waits.erase w } }

/-- The requests under a tag, or waiting for one, that a predicate selects are answered FENCED. -/
def fenceTags (b : Block) (p : Holder → List Seg → Bool) : Block :=
  let b := (b.tags.waits.filter fun w => p w.holder w.segs).foldl adopt b
  (b.tags.used.filter fun u => p u.holder u.segs).foldl (fun b u =>
    let b := fenceHolder b u.holder
    if b.tags.used.contains u then dropTag b u.tag else b) b

/-- The spill accesses under way are answered FENCED. -/
def fenceSpillOps (b : Block) (p : SpillOp → Bool) : Block :=
  let ops := b.ssu.ops.filter p
  let b := { b with ssu := { b.ssu with
    ops := b.ssu.ops.filter fun o => !p o, lines := b.ssu.lines.filter fun l => !ops.any fun o => o.num == l.op } }
  ops.foldl (fun b o => putReply b ⟨o.holder, .fenced, ⟨0, 0⟩, false⟩) b

/-- What a partition still has outstanding is answered FENCED; each of its tags raises TAG_TIMEOUT. -/
def expirePart (b : Block) (pid : Nat) : Block :=
  let p (_ : Holder) (c : Ctx) : Bool := c.pid == pid
  let b := timeouts b fun u => u.pid == pid
  let b := (b.tpe.works.filter fun w => qpPid b w.qp == pid).foldl fenceWork b
  let b := (chansOf b pid).foldl (fun b c => chanExpire b c .fenced (p ⟨.chanRead, c, 0⟩)) b
  expireTags b p .fenced

/-- What a unit still has outstanding is answered FENCED; each tag raises TAG_TIMEOUT. -/
def expireUnit (b : Block) (key : Nat) : Block :=
  let b := timeouts b fun u => ofUnit b key u.holder u.segs
  let b := if isES key then fenceReqs b (key - 0x200) else b
  let b := if isMS key then
      (b.cru.apps.filter fun a => a.st != .xlate && stationOf a.pa == key - 0x300).foldl (fun b a => appRefuse b a .fenced) b
    else b
  let b := if key = uTPE then b.tpe.works.foldl fenceWork b else b
  let b := if key = uSSU then fenceSpillOps b fun _ => true else b
  pumpInv (pumpEngines (fenceTags b (ofUnit b key)))

def expireDomain (b : Block) (key : Nat) : Block :=
  if key < 0x10000 then expireUnit b key else (members b (key - 0x10000)).foldl expirePart b

/-- The whole block at the end of its drain: every request is answered FENCED. -/
def expireBlock (b : Block) : Block :=
  let b := timeouts b fun _ => true
  let b := (b.cha.stations.map (·.1)).foldl fenceReqs b
  let b := fenceSpillOps b fun _ => true
  let b := b.tags.used.foldl (fun b u => dropTag b u.tag) b
  pumpInv { b with tags := { b.tags with waits := [] } }

/-! ## Resets (R390, R392, Table 12-6) -/

/-- Running misses wait for a walker again. -/
def resetTxh (b : Block) : Block :=
  let again := b.hub.walks.flatMap fun w => w.askers.map fun a => (w.ctx, w.va, a)
  let b := dropHolders b fun h => h.kind == .walk
  let b := { b with hub := { b.hub with shared := [], walks := [], missWait := again ++ b.hub.missWait } }
  let b := { b with hub := { b.hub with
    inv := b.hub.inv.map fun e => (e.1, { e.2 with queue := e.2.queue.map fun r => { r with waitOn := [] } })
    invCmds := b.hub.invCmds.map fun c => { c with waitOn := [] } } }
  pumpInv b

/-- Every queue pair not in RESET enters ERROR with FENCED; trackers, windows and replay caches are cleared; keys in
REVOKING are FREE. -/
def resetTpe (b : Block) : Block :=
  let b := b.tpe.works.foldl (fun b w =>
    let b := abandon b (workHolder w) w.segs
    let b := if w.kind = .response then b else keyDone b w.key
    let b := if w.kind = .response || (w.kind = .read && w.issued) then b else freeSlot b
    dropWork b w) b
  let one (b : Block) (e : Nat × Qp) : Block :=
    let i := e.1
    if e.2.st = .reset then b
    else
      let b := onQp b i fun q => { q with
        trackers := [], accepted := 0, placed := 0, replay := [], unreported := 0, refusing := none, fetch := .rest, io := [] }
      let b := failAsks b i .fenced
      if e.2.st = .draining then finishQp (enterError b i .fenced 0) i 4 .state 0 else qpError b i .fenced 0
  let b := b.tpe.qps.foldl one b
  (b.tpe.keys.filter (·.2.st == .revoking)).foldl (fun b e => freeKey b e.1 0) b

/-- Every dirty node whose codeword corrects is written back, every other is condemned; the cache is empty. What the
Anneal and the unit resets had fetched they fetch again. -/
def resetSsu (b : Block) : Block :=
  let level (b : Block) (l : Nat) : Block :=
    (b.ssu.cache.filter fun e => e.1 / 2 ^ 30 == l).foldl (fun b e =>
      let n := e.1 % 2 ^ 30
      match cached b l n with
      | none => b
      | some x =>
        if !x.dirty then b
        else match nodeUse b l n 0 with
          | (b, true) => b
          | (b, false) => match parentUse b l n with
            | (b, true) => b
            | (b, false) => writeBack b l n x) b
  let b := (List.range 10).foldl level b
  let b := dropHolders b fun h => unitOfHolder h == uSSU
  { b with ssu := { b.ssu with cache := [], fetching := [], lines := [], ops := [], annealLock := false } }

/-- The Reed cores' commands: which of those pending the core was performing is not stated: a free value each (log 15). -/
def resetReed (b : Block) : Block :=
  (b.dict.cmds.filter fun c => c.key / 256 != 0x9000 && c.key / 256 != 0x9002).foldl (fun b c =>
    let (d, b) := draw b
    if d % 2 = 1 then finishCmd b (c.key / 256) (c.key % 256) .state 0x0B0000 else b) b

def resetMs (b : Block) (ms : Nat) : Block :=
  let gone := b.cru.waits.filter (·.ms == ms)
  let b := { b with cru := { b.cru with
    locks := b.cru.locks.filter (·.1 != ms), waits := b.cru.waits.filter (·.ms != ms), jobs := erase b.cru.jobs ms } }
  gone.foldl (fun b w => match w.who with
    | .app n => match app b n with
      | some a => appRefuse b a .fenced
      | none => b
    | .packet i psn => match b.tpe.works.find? fun k => k.kind == .atomic && k.qp == i && k.psn == psn with
      | some k => fenceWork b k
      | none => b
    | .engine es num => match findReq b es num with
      | some r => release (fenceReq b es r) es
      | none => b) b

/-- A dump ends with what it has; the domains that wait for it go on by `dumpOver`. -/
def skimClose (b : Block) (st : Nat) : Block :=
  let s := b.fcu.skim
  let b := wrBlob b 0x9002 0x20 ⟨64 + s.body.len, skimHeader b s st + (s.body.val <<< 512)⟩
  finishCmd (wr { b with fcu := { b.fcu with skim := { s with left := [] } } } 0x9002 3 st) 0x9002 0x40 .ok 0

/-- The effects of a unit's reset. -/
def resetUnit (b : Block) (u : Nat) : Block :=
  if u = uTXH then resetTxh b
  else if u = uTPE then resetTpe b
  else if u = uLadle then
    let b := b.ladle.chans.foldl (fun b e => if e.2.st = .off then b else chanOff b e.1) b
    { b with ladle := { b.ladle with pace := [] } }
  else if u = uSSU then resetSsu b
  else if u = uChanter then
    { stopSteps b Step.active .fenced with cha := { (stopSteps b Step.active .fenced).cha with rings := [] } }
  else if u = uMirror then mirrorReset b
  else if u = uWGD then { b with fcu := { b.fcu with standing := [] } }
  else if u = uSkim then (if rd b 0x9002 3 = 1 then skimClose b 3 else b)
  else if isReed u then resetReed b
  else if isPP u then
    let p := u - 0x100
    let x := port b p
    requeue (portLink (setPort (setPortState b p 0) p { x with realigning := true }) p x.linkUp x.degraded) p
  else if isES u then
    let e := u - 0x200
    let b := { b with hub := { b.hub with esTlb := erase b.hub.esTlb e } }
    onStationES b e fun x => { x with subs := [], lastPid := 64 }
  else if isMS u then resetMs b (u - 0x300)
  else b

/-- R392 for one partition of the domain. -/
def resetPart (b : Block) (pid : Nat) : Block :=
  let b := (List.range 1024).foldl (fun b cx =>
    let c := ctxSlot b pid cx
    setCtx b pid cx { c with gen := (c.gen + 1) % 256 }) b
  let b := { b with hub := { b.hub with
    walks := b.hub.walks.filter (·.ctx.pid != pid)
    missWait := b.hub.missWait.filter (·.1.pid != pid)
    walkFaults := b.hub.walkFaults.filter (·.ctx.pid != pid) } }
  let b := dropHolders b fun h => h.kind == .walk && !b.hub.walks.any (·.num == h.a)
  let (b, _) := invalidate b ⟨.partition, pid, 0, 0, 0⟩
  let b := dropFrames b (·.pid == pid)
  let b := (qpsOf b pid).foldl (fun b i =>
    let b := onQp (failAsks b i .fenced) i fun q => { q with due := [] }
    finishQp (finishQp (toReset b i) i 3 .ok 0) i 4 .ok 0) b
  let b := (chansOf b pid).foldl (fun b c => if (chan b c).st = .off then b else chanOff b c) b
  let b := failResults b (·.pid == pid)
  let b := { b with cha := { b.cha with rings := b.cha.rings.filter fun e => e.1 / 8 ≠ pid } }
  pumpInv (expireSteps b pid .fenced)

def resetDomain (b : Block) (key : Nat) : Block :=
  if key < 0x10000 then resetUnit b key else (members b (key - 0x10000)).foldl resetPart b

/-! ## Domains from fence to return (R387, Table 12-5) -/

/-- The pending UNIT_OUT, UNIT_RETURN or DOMAIN_FENCE that names the unit or domain finishes. -/
def finishDom (b : Block) (sub arg : Nat) (c : Code) : Block :=
  match pendingCmd b 0x9000 sub with
  | some p => if p.arg = arg then finishCmd b 0x9000 sub c 0 else b
  | none => b

/-- The drain timeout of a domain in µs: the largest DRAIN_TIMEOUT of its partitions, or UNIT_DRAIN_TIMEOUT. -/
def domDrain (b : Block) (key : Nat) : Nat :=
  if key < 0x10000 then rd b 0x9000 4 else ((members b (key - 0x10000)).map fun p => rd b (0x2200 + p) 0x10).foldl max 0

/-- What happens at the fence of a domain: its steps and groups end (Tables 8-12, 11-8); a port going out of service
requeues its frames. -/
def fenceEffects (b : Block) (key : Nat) (toOut : Bool) : Block :=
  if 0x10000 ≤ key then
    (members b (key - 0x10000)).foldl (fun b p =>
      endGroups (stopSteps b (·.pid == p) .fenced) (fun q _ _ => q == p) .fenced false) b
  else if isPP key && toOut then requeue (wr b (0x5100 + (key - 0x100)) 1 3) (key - 0x100)
  else if isES key then stationLost b (key - 0x200)
  else if isMS key then endGroups b (fun _ _ x => x.onStation (key - 0x300)) .fenced true
  else if isLane key then
    let ms := (key - 0x400) / 8
    if (List.range 8).any fun g => served b (uLane ms g) then b
    else endGroups b (fun _ _ x => x.onStation ms) .fenced true
  else b

/-- A domain in service is fenced. -/
def fenceDomain (b : Block) (key : Nat) (toOut byCommand dump : Bool) : Block :=
  let d : Domain := ⟨.fencing, toOut, byCommand, dump, false, b.clk.now, domDrain b key, false⟩
  fenceEffects (setDomain b key d) key toOut

/-- A domain's reset starts. -/
def startReset (b : Block) (key : Nat) : Block :=
  let b := setDomain b key { domain b key with st := .resetting }
  resetDomain b key

/-- A unit is OUT. -/
def goOut (b : Block) (key : Nat) : Block :=
  let b := setDomain b key { freshDomain with st := .out }
  let b := if isPP key then wr b (0x5100 + (key - 0x100)) 1 3 else b
  finishDom b 0x42 key .ok

/-- What a domain leaves FENCING or DUMPING for. -/
def afterDrain (b : Block) (key : Nat) (dumped : Bool) : Block :=
  let d := domain b key
  if d.toOut && !(dumped && d.byCommand) then goOut b key else startReset b key

/-- The drain is done: DUMPING while the dump its fence triggered runs. -/
def drained (b : Block) (key : Nat) : Block :=
  let d := domain b key
  if d.dump && rd b 0x9002 3 = 1 then setDomain b key { d with st := .dumping } else afterDrain b key d.dump

/-- Once no dump runs, the domains that waited for one go on. -/
def dumpOver (b : Block) : Block :=
  if rd b 0x9002 3 = 1 then b
  else ((b.fcu.doms.filter (·.2.st == .dumping)).map (·.1)).foldl (fun b k => afterDrain b k true) b

/-- MI_READY of a Memory Station is high. -/
def readyMs (b : Block) (ms : Nat) : Block := { b with clk := { b.clk with miReady := b.clk.miReady ||| BitVec.ofNat 32 (2 ^ ms) } }

/-- A domain is back: IN_SERVICE, or OUT after a DEGRADE during its recovery (R395). -/
def comeBack (b : Block) (key : Nat) : Block :=
  if (domain b key).degraded && removable key then finishDom (goOut b key) 0x43 key .state
  else
    let b := count (setDomain b key freshDomain) 0x9000 0x0B
    if 0x10000 ≤ key then
      finishDom ((members b (key - 0x10000)).foldl (fun b p => msixPart b p 0) b) 0x44 (key - 0x10000) .ok
    else
      let b := if isPP key then
          let p := key - 0x100
          let x := port b p
          retryHeld (portLink (setPortState (setPort b p { x with realigning := false }) p 0) p x.linkUp x.degraded)
        else b
      let b := if isMS key then readyMs b (key - 0x300) else b
      let b := if key = uChanter then
          pids.foldl (fun b p => (List.range 8).foldl (fun b q => ringFetch b p q) b) b
        else b
      finishDom b 0x43 key .ok

/-! ## The whole block (R393-R395) -/

/-- The keys of every domain: the present units' and the partition domains. -/
def allDomains (b : Block) : List Nat :=
  (presentUnits b).filter (fun u => u != uAnneal && !isLane u) ++ pids.map domKey

/-- Recovery starts, or starts again: the drain of every domain (R394 step 1); a start-up under way is given up, and
STARTUP_STEP reads as before a recovery (R395; DESIGN CHOICE, log 34). -/
def startRecovery (b : Block) : Block :=
  { wr (wr b 0x9000 1 2) 0xC000 1 8 with fcu := { b.fcu with blockDrain := some (b.clk.now, rd b 0x9000 4) } }

/-- Steps 1 and 2 are over once nothing is outstanding and no dump runs: start-up goes on from its step 2 (14 R435). -/
def recoveryNext (b : Block) : Block :=
  if b.fcu.blockDrain.isSome && blockIdle b && rd b 0x9002 3 ≠ 1 then
    let b := { b with fcu := { b.fcu with blockDrain := none } }
    wr (wr b 0xC000 1 2) 0xC000 2 (rd b 0xC000 2 % 4)
  else b

/-- FATAL: every domain is fenced with the block, a lane group on its way OUT with its station; commands on domains end
(R393, R445). -/
def blockFence (b : Block) : Block :=
  let again := rd b 0x9000 1 = 2 && rd b 0xC000 1 ≠ 0xFF
  let b := if rd b 0x9000 1 = 0 then wr b 0x9000 1 1 else b
  let b := (allDomains b).foldl (fun b k =>
    let d := domain b k
    if d.st = .blockFenced then b
    else setDomain b k { freshDomain with st := .blockFenced, wasOut := d.st == .out }) b
  let b := (lanesListed b).foldl (fun b k => if (domain b k).st = .out then b else setDomain b k freshDomain) b
  let b := [0x42, 0x43, 0x44].foldl (fun b sub => finishCmd b 0x9000 sub .state 0) b
  let b := endGroups (stopSteps b (fun _ => true) .fenced) (fun _ _ _ => true) .fenced false
  let b := quietPorts b
  if again || (rd b 0x9000 1 = 1 && rd b 0x9000 5 = 1) then startRecovery b else b

/-! ## Reactions (R375-R380) -/

/-- What a reaction acts on. -/
inductive Act where
  | nothing | out (u : Nat) | fence (key : Nat) | fatal
deriving DecidableEq, Repr

/-- A FENCE of a unit's domain; of the DXE's, the PTB's or the FCU's it is FATAL (R378). -/
def fenceOf (u : Nat) : Nat × Act :=
  let k := domainOf u
  if k = uDXE || k = uPTB || k = uFCU then (4, .fatal) else (3, .fence k)

/-- The severity applied and what it acts on (R377, R378). -/
def reactionOf (b : Block) (e : Event) (sev : Nat) : Nat × Act :=
  match sev with
  | 2 =>
    if isReed e.unit && served b e.unit && reedsIn b = 1 then (4, .fatal)
    else if removable e.unit then (2, .out e.unit)
    else fenceOf e.unit
  | 3 =>
    if rd b (0x9200 + e.fsrc) 2 = 1 then
      if e.pid = 0 then (1, .nothing) else (3, .fence (domKey (faultDomain b e.pid)))
    else fenceOf e.unit
  | 4 => (4, .fatal)
  | s => (s, .nothing)

/-- R379: the event counts in its source's window; the Boolean says that it completed the count. -/
def countEvent (b : Block) (s : Nat) : Block × Bool :=
  let n := rd b (0x9200 + s) 3
  let cur := currentSeverity b s
  if n = 0 || 3 ≤ cur then (b, false)
  else
    let (at', k) := match find? b.fcu.windows s with
      | some (t, k) => if elapsed b t (micros (rd b (0x9200 + s) 4)) then (b.clk.now, 0) else (t, k)
      | none => (b.clk.now, 0)
    if n ≤ k + 1 then
      let b := { b with fcu := { b.fcu with windows := erase b.fcu.windows s } }
      (count (wr b (0x9200 + s) 5 (cur + 1)) (0x9200 + s) 7, true)
    else ({ b with fcu := { b.fcu with windows := insert b.fcu.windows s (at', k + 1) } }, false)

/-- TARGET of the record (Table 12-3) for an act. -/
def targetOf (b : Block) : Act → Nat
  | .nothing => 0
  | .out u => if unitState b u = .out then 0 else 1
  | .fence k => if !served b k then 0 else if k < 0x10000 then 1 else 2
  | .fatal => 3

/-- The act itself: on a domain in service; a DEGRADE of one in recovery is kept (R395), that of a lane group as its being
OUT when its station returns. -/
def act (b : Block) (dump : Bool) : Act → Block
  | .nothing => b
  | .out u =>
    let d := domain b u
    if isLane u && !served b (laneMs u) then (if d.st = .inService then setDomain b u { d with st := .out } else b)
    else if d.st = .inService then fenceDomain b u true false dump
    else if d.st = .out then b
    else setDomain b u { d with degraded := true }
  | .fence k => if served b k then fenceDomain b k false false dump else b
  | .fatal => blockFence b

/-- The INJECT_EVENT whose event has been recorded finishes. -/
def injectEnd (b : Block) (e : Event) : Block :=
  match pendingCmd b 0xF000 0x40 with
  | some c =>
    if e.injected && bits c.arg 0 9 = e.fsrc && bits c.arg 20 6 = e.pid && bits c.arg 32 16 = e.unit
        && bits c.arg 48 16 = e.detail then finishCmd b 0xF000 0x40 .ok 0 else b
  | none => b

/-- An event is counted, recorded and reacted to. -/
def takeEvent (b : Block) (e : Event) : Block :=
  let (b, promoted) := countEvent (count b (0x9200 + e.fsrc) 6) e.fsrc
  let (sev, a) := reactionOf b e (currentSeverity b e.fsrc)
  let b := injectEnd (logEvent b e sev (targetOf b a) promoted) e
  let b := if 3 ≤ sev then faultLow b else b
  let (b, dump) := if 2 ≤ sev then skimTrigger b sev else (b, false)
  act b dump a

/-- FCU_EVENT: the oldest event leaves the queue, an event held moves in; an uncorrectable word of the queue loses the
event and is itself an event (R381, FSRC 0). -/
def fcuEvent (b : Block) : Block :=
  match b.fcu.queue with
  | [] => b
  | e :: rest =>
    let f := b.fcu
    let b := { b with fcu := { f with queue := rest ++ f.held.take 1, held := f.held.drop 1 } }
    if injectHere b uFCU 0x16 && rd b 0xF000 4 = 2 then
      injectEventAt (countSat b 0x1200 4 32 0x1200 6 1 uFCU 0) 0 uFCU 0x16 0 0 0
    else takeEvent (checkWord b uFCU 0x16 0 0 0).1 e

/-- In Hold an event of severity DEGRADE or above wakes the block first (14 R440). -/
def fcuRow (b : Block) : Block :=
  match b.fcu.queue with
  | [] => b
  | e :: _ => if 2 ≤ currentSeverity b e.fsrc then wakeEvent b 5 .fcuEvent fcuEvent else fcuEvent b

/-- COUNT_WINDOW_EXPIRY. -/
def countExpiry (b : Block) (s : Nat) : Block :=
  match find? b.fcu.windows s with
  | some (t, _) =>
    if elapsed b t (micros (rd b (0x9200 + s) 4)) then { b with fcu := { b.fcu with windows := erase b.fcu.windows s } } else b
  | none => b

/-- SEVERITY, COUNT_N or COUNT_WINDOW has been written: CURRENT is SEVERITY and no window is open (R380). -/
def sourceWritten (b : Block) (s : Nat) : Block :=
  let b := wr b (0x9200 + s) 5 (rd b (0x9200 + s) 1)
  { b with fcu := { b.fcu with windows := erase b.fcu.windows s } }

/-! ## The domains' rows -/

/-- DOMAIN_DRAIN_DONE; of a fenced block in recovery, the drain of the block. -/
def domainDrainDone (b : Block) (key : Nat) : Block :=
  match (domain b key).st with
  | .fencing => if domBusy b key then b else dumpOver (drained b key)
  | .blockFenced => recoveryNext b
  | _ => b

/-- DOMAIN_DRAIN_TIMEOUT. -/
def domainDrainTimeout (b : Block) (key : Nat) : Block :=
  let d := domain b key
  match d.st with
  | .fencing => if elapsed b d.since (micros d.drain) then dumpOver (drained (expireDomain b key) key) else b
  | .blockFenced => match b.fcu.blockDrain with
    | some (t, us) => if elapsed b t (micros us) then recoveryNext (expireBlock b) else b
    | none => b
  | _ => b

/-- The stations on a die, or on a UCIe module, by `place`: their units. -/
def stationsOn (b : Block) (place : List Nat) (n : Nat) : List Nat :=
  ((List.range 160).filter fun i => place.getD i 0 == n).filterMap fun i =>
    if i < 128 then (if esPresent b i then some (uES i) else none)
    else if msPresent b (i - 128) then some (uMS (i - 128)) else none

/-- DOMAIN_RESET_DONE: port pipes and Memory Stations retrain; the others are back. -/
def domainResetDone (b : Block) (key : Nat) : Block :=
  if (domain b key).st ≠ .resetting || heldInReset b key then b
  else if isPP key then setDomain b key { domain b key with st := .retraining }
  else if isMS key then emit (setDomain b key { domain b key with st := .retraining }) (.miTrain (key - 0x300))
  else comeBack b key

/-- DOMAIN_RETRAIN_DONE. -/
def domainRetrainDone (b : Block) (key : Nat) : Block := if (domain b key).st = .retraining then comeBack b key else b

/-- A command on a unit that Table 12-4 lets go out of service. -/
def badUnit (b : Block) (arg : Nat) : Bool := 65536 ≤ arg || !removable arg || !unitPresent b arg

def unitOut (b : Block) (acc : Access) (arg : Nat) : Block :=
  command b acc 0x9000 0x42 arg
    (fun b => { noFails with
      rights := notHostFmFw acc, range := badUnit b arg
      state := unitState b arg != .inService || (isReed arg && reedsIn b ≤ 1) })
    fun b => fenceDomain b arg true true false

def unitReturn (b : Block) (acc : Access) (arg : Nat) : Block :=
  command b acc 0x9000 0x43 arg
    (fun b => { noFails with rights := notHostFmFw acc, range := badUnit b arg, state := unitState b arg != .out })
    fun b => dumpOver (startReset (if isPP arg then setPortState b (arg - 0x100) 0 else b) arg)

def domainFence (b : Block) (acc : Access) (arg : Nat) : Block :=
  command b acc 0x9000 0x44 arg
    (fun b => { noFails with
      rights := notHostFmFw acc, range := 64 ≤ arg || arg == 0, state := !served b (domKey arg) })
    fun b => fenceDomain b (domKey arg) false true false

def recoverBlock (b : Block) (acc : Access) (arg : Nat) : Block :=
  command b acc 0x9000 0x41 arg
    (fun b => { noFails with rights := notHostFmFw acc, range := arg != 0, state := rd b 0x9000 1 != 1 })
    startRecovery

/-- FAULT_WAIT_HOST and FAULT_WAIT_FM: done at once if the latest qualifying record answers it (R384). -/
def faultWait (b : Block) (acc : Access) (sub arg : Nat) (rights : Bool) : Block :=
  command b acc 0x9000 sub arg (fun _ => { noFails with rights := rights, range := 2 ^ 32 ≤ arg })
    fun b => match b.fcu.qualifying with
      | some q => finishWaits b q
      | none => b

def faultLRelease (b : Block) (acc : Access) (arg : Nat) : Block :=
  commandNow b acc 0x9000 0x40 arg (fun _ => { noFails with rights := notHostFmFw acc, range := arg != 0 })
    fun b => (faultRise { b with fcu := { b.fcu with faultReleased := true } }, .ok, 0)

/-! ## Hangs (R399-R402) -/

/-- A list of numbers in rising order. -/
def sortNats (l : List Nat) : List Nat := l.foldl (fun s x => s.takeWhile (· < x) ++ x :: s.dropWhile (· < x)) []

/-- The simple cycles through `start` whose other members are above it, each as its members in rising order. -/
def cyclesFrom (es : List WaitEdge) (start : Nat) : Nat → List Nat → Nat → List (List Nat)
  | 0, _, _ => []
  | fuel + 1, path, cur =>
    (es.filter (·.src == cur)).flatMap fun e =>
      if e.dst = start then [sortNats path]
      else if e.dst < start || path.contains e.dst then []
      else cyclesFrom es start fuel (e.dst :: path) e.dst

/-- The cycles of the relation, by their members. -/
def cycles (es : List WaitEdge) : List (List Nat) :=
  ((es.map (·.src)).eraseDups.flatMap fun s => cyclesFrom es s (es.length + 1) [s] s).eraseDups

/-- The head of a cycle that has waited longest. -/
def longest (es : List WaitEdge) (ms : List Nat) : Option WaitEdge :=
  (es.filter fun e => ms.contains e.src && ms.contains e.dst).foldl (fun m e => match m with
    | none => some e
    | some x => if x.age < e.age then some e else m) none

/-- A hang is reported (R400). -/
def reportHang (b : Block) (es : List WaitEdge) (ms : List Nat) : Block :=
  match longest es ms with
  | none => b
  | some e =>
    let blob := (ms.take 16).reverse.foldl (fun a m => a * 2 ^ 32 + m % 2 ^ 32) 0
    raiseFree (wrBlob (count b 0x9001 4) 0x9001 5 ⟨64, blob⟩) 21 (e.src / 65536) e.pid

/-- WGD_SCAN: edges that have stood since the previous scan make the relation; of the cycles found often enough, the one
with the longest-waiting head is reported. -/
def wgdScan (b : Block) (edges : List WaitEdge) : Block :=
  if b.clk.now % 6400 ≠ 0 || !served b uWGD || asleep b then b
  else
    let es := edges.filter (6400 ≤ ·.age)
    let old := b.fcu.standing
    let now' := (cycles es).map fun ms => (⟨ms, ((old.find? (·.members == ms)).map (·.scans)).getD 0 + 1⟩ : Standing)
    let b := count { b with fcu := { b.fcu with standing := now' } } 0x9001 3
    let age (s : Standing) : Nat := ((longest es s.members).map (·.age)).getD 0
    let worst := (now'.filter fun s => rd b 0x9001 2 ≤ s.scans).foldl (fun m s => match m with
      | none => some s
      | some x => if age x < age s then some s else m) none
    match worst with
    | some s => reportHang b es s.members
    | none => b

/-- The target of a Drone, and the condition under which it is armed (Table 12-9). -/
def droneUnit (n : Nat) : Nat :=
  match n with
  | 4 => uTXH | 5 => uAnneal | 6 => uMirror | 7 => uSkim | 8 => uChanter | _ => uReed n

def droneArmed (b : Block) (n : Nat) : Bool :=
  !asleep b && rd b (0x9010 + n) 3 == 1 && (match n with
    | 4 => !b.hub.walks.isEmpty
    | 5 => spillState b == 3
    | 6 => mirroring b
    | 7 => rd b 0x9002 3 == 1
    | 8 => true
    | _ => n < 4 && served b (uReed n))

def freshDrone : Drone := ⟨0, 0, false⟩

/-- A Drone looks at its counter: its window starts again when the counter changes or its arming begins (R401). -/
def droneLook (b : Block) (n : Nat) : Block :=
  let d := look b.fcu.drones freshDrone n
  let c := look b.fcu.progress 0 (droneUnit n)
  let d' : Drone :=
    if !droneArmed b n then ⟨c, b.clk.now, false⟩
    else if !d.armed || d.seen ≠ c then ⟨c, b.clk.now, true⟩
    else d
  { b with fcu := { b.fcu with drones := store b.fcu.drones freshDrone n d' } }

def droneTick (b : Block) : Block := (List.range 9).foldl droneLook b

/-! ## The end of a dump -/

/-- A dump ends: the domains that waited for it go on, and the recovery of the block (R394 step 2). -/
def skimEnd (b : Block) (st : Nat) : Block :=
  recoveryNext (dumpOver (skimClose b st))

/-- The next unit's record is written, or room for it is lacking (R404, R406). -/
def skimTake (b : Block) (res : Nat) (words : List (BitVec 32)) : Block :=
  let s := b.fcu.skim
  match s.left with
  | [] => b
  | u :: rest =>
    if rd b 0x9002 3 ≠ 1 then b
    else
      let r := skimRecord b u s.asked res (words.take 1024)
      if 2 ^ 20 < 64 + s.body.len + r.len then
        let h : Bytes := ⟨16, (s.asked <<< 64) + (u <<< 48) + 2⟩
        let body := if 64 + s.body.len + 16 ≤ 2 ^ 20 then bytesAppend s.body h else s.body
        skimEnd { b with fcu := { b.fcu with skim := { s with body := body } } } 3
      else
        let s := { s with
          left := rest, body := bytesAppend s.body r, asked := b.clk.now, units := s.units + 1
          noResp := s.noResp + (if res = 1 then 1 else 0) }
        let b := progressed { b with fcu := { b.fcu with skim := s } } uSkim
        let b := if res = 1 then count b 0x9002 5 else b
        if rest.isEmpty then skimEnd b 2 else b

/-- SKIM_UNIT_TIMEOUT: 50 µs after the request (R404). -/
def skimTimeout (b : Block) (words : List (BitVec 32)) : Block :=
  if elapsed b b.fcu.skim.asked (micros 50) then skimTake b 1 words else b

def skimStartCmd (b : Block) (acc : Access) (arg : Nat) : Block :=
  command b acc 0x9002 0x40 arg (fun _ => { noFails with rights := notHostFmFw acc, range := arg != 0 })
    fun b =>
      if rd b 0x9002 3 = 1 then b
      else if skimFree b then skimStart b 0
      else finishCmd b 0x9002 0x40 .ok 0

def skimRelease (b : Block) (acc : Access) (arg : Nat) : Block :=
  commandNow b acc 0x9002 0x41 arg
    (fun b => { noFails with rights := notHostFmFw acc, range := arg != 0, state := rd b 0x9002 3 == 1 })
    fun b => (wr (wrBlob b 0x9002 0x20 ⟨0, 0⟩) 0x9002 3 0, .ok, 0)

/-- DRONE_EXPIRY (R401); a dump that D7 finds stalled ends INCOMPLETE (R406). -/
def droneExpiry (b : Block) (n : Nat) : Block :=
  let b := if n < 9 then droneLook b n else b
  let d := look b.fcu.drones freshDrone n
  if 9 ≤ n || !d.armed || !elapsed b d.start (micros (rd b (0x9010 + n) 2)) then b
  else
    let b := { b with fcu := { b.fcu with drones := store b.fcu.drones freshDrone n { d with start := b.clk.now } } }
    let b := raiseFree (count b (0x9010 + n) 4) 22 (droneUnit n) 0
    if n = 7 then skimEnd b 3 else b

/-! ## Injection (R407-R409) -/

/-- INJECT_MODE has a new value: in FACTORY the ports send DICT frames alone (R398). -/
def injectModeSet (b : Block) (old : Nat) : Block :=
  if rd b 0xF000 1 = 2 && old ≠ 2 then quietPorts b
  else if rd b 0xF000 1 ≠ 2 && old = 2 then retryHeld b
  else b

/-- INJECT_LOCK has been set: FACTORY ends. -/
def injectLocked (b : Block) : Block := if rd b 0xF000 1 = 2 then injectModeSet (wr b 0xF000 1 0) 2 else b

/-- Does a pattern fit the code of the check point INJECT_TARGET names (R408; Table 12-4)? Where it names none, no code
refuses it. The counter cache holds BC-72 codewords (10 R321) and SEC-DED root words alike (DESIGN CHOICE, log 23). -/
def patternFits (target pattern : Nat) : Bool :=
  let p := bits target 0 16
  if p = 0x15 then true
  else if 1 ≤ p && p ≤ 4 then pattern != 2 else if 0x10 ≤ p && p ≤ 0x16 then pattern != 3 else true

def injectEventCmd (b : Block) (acc : Access) (arg : Nat) : Block :=
  command b acc 0xF000 0x40 arg
    (fun b => { noFails with
      rights := notHostFw acc && roleOf acc.path != .dbg
      range := !zeroBits arg 26 6 || !zeroBits arg 9 11 || 27 < bits arg 0 9 || !unitPresent b (bits arg 32 16)
      state := rd b 0xF000 1 != 2 })
    fun b =>
      let e : Event := ⟨bits arg 0 9, bits arg 32 16, bits arg 20 6, 0, bits arg 48 16, true⟩
      let n := b.fcu.queue.length + b.fcu.held.length
      let b := raiseEvent (count b 0xF000 6) e
      if b.fcu.queue.length + b.fcu.held.length = n then finishCmd b 0xF000 0x40 .ok 0 else b

/-! ## Rows -/

/-- FCU_EVENT (R375-R381). -/
def execFcuEvent (s : State) : Host.Outcome State Fault Refusal := .next { s with dev := fcuRow s.dev }

/-- COUNT_WINDOW_EXPIRY (R379). -/
def execCountWindowExpiry (source : Nat) (s : State) : Host.Outcome State Fault Refusal :=
  .next { s with dev := countExpiry s.dev source }

/-- FAULT_L_HOLD_EXPIRY (R385). -/
def execFaultLHoldExpiry (s : State) : Host.Outcome State Fault Refusal := .next { s with dev := faultRise s.dev }

/-- FAULT_L_RELEASE (R385). -/
def execFaultLRelease (acc : Access) (arg : Word) (s : State) : Host.Outcome State Fault Refusal :=
  .next { s with dev := faultLRelease s.dev acc arg.toNat }

/-- FAULT_WAIT_HOST (R384). -/
def execFaultWaitHost (acc : Access) (arg : Word) (s : State) : Host.Outcome State Fault Refusal :=
  .next { s with dev := faultWait s.dev acc 0x45 arg.toNat (notHostFw acc) }

/-- FAULT_WAIT_FM (R384). -/
def execFaultWaitFm (acc : Access) (arg : Word) (s : State) : Host.Outcome State Fault Refusal :=
  .next { s with dev := faultWait s.dev acc 0x46 arg.toNat (notFmFw acc) }

/-- DOMAIN_DRAIN_DONE (R388). -/
def execDomainDrainDone (dom : Nat) (s : State) : Host.Outcome State Fault Refusal :=
  .next { s with dev := domainDrainDone s.dev dom }

/-- DOMAIN_DRAIN_TIMEOUT (R388). -/
def execDomainDrainTimeout (dom : Nat) (s : State) : Host.Outcome State Fault Refusal :=
  .next { s with dev := domainDrainTimeout s.dev dom }

/-- DOMAIN_RESET_DONE (R387). -/
def execDomainResetDone (dom : Nat) (s : State) : Host.Outcome State Fault Refusal :=
  .next { s with dev := domainResetDone s.dev dom }

/-- DOMAIN_RETRAIN_DONE (R387). -/
def execDomainRetrainDone (dom : Nat) (s : State) : Host.Outcome State Fault Refusal :=
  .next { s with dev := domainRetrainDone s.dev dom }

/-- UNIT_OUT (R445). -/
def execUnitOut (acc : Access) (arg : Word) (s : State) : Host.Outcome State Fault Refusal :=
  .next { s with dev := unitOut s.dev acc arg.toNat }

/-- UNIT_RETURN (R445). -/
def execUnitReturn (acc : Access) (arg : Word) (s : State) : Host.Outcome State Fault Refusal :=
  .next { s with dev := unitReturn s.dev acc arg.toNat }

/-- DOMAIN_FENCE (R445). -/
def execDomainFence (acc : Access) (arg : Word) (s : State) : Host.Outcome State Fault Refusal :=
  .next { s with dev := domainFence s.dev acc arg.toNat }

/-- RECOVER_BLOCK (R394). -/
def execRecoverBlock (acc : Access) (arg : Word) (s : State) : Host.Outcome State Fault Refusal :=
  .next { s with dev := recoverBlock s.dev acc arg.toNat }

/-- WGD_SCAN (R399, R400). -/
def execWgdScan (edges : List WaitEdge) (s : State) : Host.Outcome State Fault Refusal :=
  .next { s with dev := wgdScan s.dev edges }

/-- DRONE_EXPIRY (R401). -/
def execDroneExpiry (n : Nat) (s : State) : Host.Outcome State Fault Refusal :=
  .next { s with dev := droneExpiry s.dev n }

/-- SKIM_START (R403). -/
def execSkimStart (acc : Access) (arg : Word) (s : State) : Host.Outcome State Fault Refusal :=
  .next { s with dev := skimStartCmd s.dev acc arg.toNat }

/-- SKIM_UNIT_RECORD (R404, R405). -/
def execSkimUnitRecord (words : List (BitVec 32)) (s : State) : Host.Outcome State Fault Refusal :=
  .next { s with dev := skimTake s.dev 0 words }

/-- SKIM_UNIT_TIMEOUT (R404). -/
def execSkimUnitTimeout (words : List (BitVec 32)) (s : State) : Host.Outcome State Fault Refusal :=
  .next { s with dev := skimTimeout s.dev words }

/-- SKIM_RELEASE (R403). -/
def execSkimRelease (acc : Access) (arg : Word) (s : State) : Host.Outcome State Fault Refusal :=
  .next { s with dev := skimRelease s.dev acc arg.toNat }

/-- INJECT_EVENT (R409). -/
def execInjectEvent (acc : Access) (arg : Word) (s : State) : Host.Outcome State Fault Refusal :=
  .next { s with dev := injectEventCmd s.dev acc arg.toNat }

end Sys2Proof.Machine
end

