-- ==== Sys2Proof/Machine/Startup.lean ====
section
/-! DEFINITION. Start-up from its step 1 to RUNNING, apart from the dictionary's defaults and image; the clock, memory
interface, module and host-link failures; Hold and its entry (01 R14, R20, R21; 14 R431-R438). -/

namespace Sys2Proof.Machine

/-! ## The steps (R431) -/

def startupStep (b : Block) : Nat := rd b 0xC000 1

/-- Step `n` is complete: its bit, its time, and the next step. -/
def stepDone (b : Block) (n : Nat) : Block :=
  let t := patch (rdBlob b 0xC000 4).val (8 * n) 8 (b.clk.now % 2 ^ 64)
  let b := wrBlob (wr b 0xC000 2 (setBit (rd b 0xC000 2) n true)) 0xC000 4 ⟨64, t⟩
  wr b 0xC000 1 (n + 1)

/-- The local time at which step `n` was completed. -/
def stepTime (b : Block) (n : Nat) : Nat := slice (rdBlob b 0xC000 4).val (8 * n) 8

/-- A unit takes part in start-up: in service, or fenced with the block and to return with it (12 R394, R395). -/
def starts (b : Block) (key : Nat) : Bool :=
  let d := domain b key
  d.st == .inService || (d.st == .blockFenced && !d.wasOut && !d.degraded)

/-- A start-up failure is recorded as an event of its source (R432); the severity that the record gives as applied, and
its DETAIL, are free values. -/
def startupEvent (b : Block) (fsrc unit target : Nat) : Block :=
  let (sev, b) := draw b
  let (d, b) := draw b
  logEvent (count b (0x9200 + fsrc) 6) ⟨fsrc, unit, 0, 0, d % 2 ^ 32, false⟩ (sev % 5) target false

/-- A unit is OUT after a start-up failure. -/
def startupOut (b : Block) (key : Nat) : Block :=
  let b := setDomain b key { freshDomain with st := .out }
  if isPP key then wr b (0x5100 + (key - 0x100)) 1 3 else b

/-- HALTED: FAULT_L is driven low and STARTUP_FAIL names the failure. -/
def halt (b : Block) (fsrc unit : Nat) : Block :=
  let b := wr b 0xC000 3 ((startupStep b <<< 24) + (fsrc <<< 16) + unit)
  faultLow (wr (startupEvent b fsrc unit 3) 0xC000 1 0xFF)

/-! ## Step 1: PLL lock (01 R20, R21) -/

/-- The stations present on dies that have not reported lock. -/
def unlockedUnits (b : Block) : List Nat :=
  ((List.range 160).filter (unlocked b)).filterMap fun i =>
    if i < 128 then (if esPresent b i then some (uES i) else none)
    else if msPresent b (i - 128) then some (uMS (i - 128)) else none

/-- Step 1 is complete once the JX9 PLL and the PLL of every die that carries a station are locked. -/
def lockCheck (b : Block) : Block :=
  if b.clk.released && startupStep b = 1 && b.clk.coreLock && (unlockedUnits b).isEmpty then stepDone b 1 else b

/-- PLL_LOCK. -/
def pllLock (b : Block) (core : Bool) (die : Nat) : Block :=
  if !b.clk.released then b
  else if core then lockCheck { b with clk := { b.clk with coreLock := true } }
  else if 16 ≤ die then b
  else lockCheck { b with clk := { b.clk with dieLock := b.clk.dieLock ||| BitVec.ofNat 16 (2 ^ die) } }

/-- STARTUP_PLL_TIMEOUT: 10 ms of step 1. -/
def pllTimeout (b : Block) : Block :=
  if !b.clk.released || startupStep b ≠ 1 || b.clk.now < micros 10000 then b
  else if !b.clk.coreLock then halt b 14 uFCU
  else stepDone ((unlockedUnits b).foldl (fun b u => startupEvent (startupOut b u) 15 u 1) b) 1

/-- Step 1 is over: every PLL that start-up waits for has locked, and none loses its lock unnoticed from then on (01
R21). -/
def pllWatched (b : Block) : Bool := b.clk.released && 2 ≤ startupStep b && startupStep b ≤ 8

/-- DIE_PLL_LOCK_LOSS: each station on the die raises FSRC 15. -/
def dieLockLoss (b : Block) (die : Nat) : Block :=
  let off := BitVec.ofNat 16 (2 ^ 16 - 1 - 2 ^ die)
  let b := if die < 16 then { b with clk := { b.clk with dieLock := b.clk.dieLock &&& off } } else b
  if pllWatched b then (stationsOn b b.straps.dieOf die).foldl (fun b u => raiseFree b 15 u 0) b else b

/-- CORE_PLL_LOCK_LOSS: FSRC 14, which is FATAL. -/
def coreLockLoss (b : Block) : Block :=
  let b := { b with clk := { b.clk with coreLock := false } }
  if pllWatched b then raiseFree b 14 uFCU 0 else b

/-- UCIE_MODULE_DOWN: each station on the module raises FSRC 16 (01 R14). -/
def moduleDown (b : Block) (m : Nat) : Block := (stationsOn b b.straps.modOf m).foldl (fun b u => raiseFree b 16 u 0) b

def hostLinkError (b : Block) : Block := raiseFree b 27 uDXE 0

def firmwareFail (b : Block) (n : Nat) : Block := if n < 4 then raiseFree b 26 (uReed n) 0 else b

/-! ## Steps 5 to 8 -/

/-- The Memory Stations that start-up trains. -/
def trained (b : Block) : List Nat := (List.range 32).filter fun m => msPresent b m && starts b (uMS m)

def ready (b : Block) (m : Nat) : Bool := b.clk.miReady.toNat.testBit m

/-- The port pipes that start-up realigns. -/
def aligned (b : Block) : List Nat := (List.range 36).filter fun p => starts b (uPP p)

/-- Whole-block recovery is over: every domain is IN_SERVICE, or OUT if it was OUT or was degraded meanwhile
(12 R394, R395). -/
def recovered (b : Block) : Block :=
  let b := b.fcu.doms.foldl (fun b e =>
    if e.2.st != .blockFenced then b
    else if e.2.wasOut || (e.2.degraded && removable e.1) then startupOut b e.1
    else setDomain b e.1 freshDomain) b
  faultRise (finishCmd (wr b 0x9000 1 0) 0x9000 0x41 .ok 0)

/-- STARTUP_TRANSLATION_DONE: step 7. -/
def translationDone (b : Block) : Block :=
  if startupStep b ≠ 7 then b
  else
    let b := { b with
      hub := { b.hub with esTlb := [], shared := [], inv := [] }
      ptb := { b.ptb with parts := b.ptb.parts.map fun e => (e.1, { e.2 with s1Roots := [] }) } }
    let b := pids.foldl (fun b p => wr b (0x3100 + p) 4 0) b
    let b := stepDone b 7
    retryHeld (if rd b 0x9000 1 = 2 then recovered b else b)

/-- Step 6 is complete once every port pipe that takes part is realigned. -/
def alignCheck (b : Block) : Block :=
  if startupStep b = 6 && (aligned b).all fun p => !(port b p).realigning then stepDone b 6 else b

/-- Step 5 is complete once every Memory Station has reported or is OUT; the port pipes then realign. -/
def readyCheck (b : Block) : Block :=
  if startupStep b = 5 && (trained b).all (ready b) then
    let b := stepDone b 5
    alignCheck ((aligned b).foldl (fun b p => setPort b p { port b p with realigning := true }) b)
  else b

/-- PORT_PIPE_REALIGNED: at start-up, or in the recovery of the port pipe's domain. -/
def portRealigned (b : Block) (p : Nat) : Block :=
  if 36 ≤ p then b
  else if (domain b (uPP p)).st = .retraining then comeBack b (uPP p)
  else if startupStep b = 6 && starts b (uPP p) && (port b p).realigning then
    let x := port b p
    alignCheck (portLink (setPort b p { x with realigning := false }) p x.linkUp x.degraded)
  else b

/-- MI_READY: at start-up, or in the recovery of the station's domain. -/
def miReady (b : Block) (m : Nat) : Block :=
  if !msPresent b m then b
  else if (domain b (uMS m)).st = .retraining then comeBack b (uMS m)
  else if startupStep b = 5 && starts b (uMS m) then readyCheck (readyMs b m)
  else b

/-- MI_READY_TIMEOUT: 1.2 s after MI_TRAIN in step 5 the station is OUT; a training that fails later is an event. -/
def miReadyTimeout (b : Block) (m : Nat) : Block :=
  if !msPresent b m then b
  else if (domain b (uMS m)).st = .retraining then raiseFree b 18 (uMS m) 0
  else if startupStep b = 5 && starts b (uMS m) && !ready b m && elapsed b (stepTime b 4) (micros 1200000) then
    readyCheck (startupEvent (startupOut b (uMS m)) 18 (uMS m) 1)
  else b

/-- MI_READY_FALL, after training (12 Table 12-2, FSRC 18). -/
def miReadyFall (b : Block) (m : Nat) : Block :=
  if !msPresent b m || !ready b m then b
  else
    let off := BitVec.ofNat 32 (2 ^ 32 - 1 - 2 ^ m)
    raiseFree { b with clk := { b.clk with miReady := b.clk.miReady &&& off } } 18 (uMS m) 0

/-- STARTUP_SCRUB_GRANULE_DONE: the next granule of the station, in ascending offset, is zero, owner 0 and CLEAN
(R434). -/
def startupScrub (b : Block) (g : Nat) : Block :=
  let m := g / 64
  let first := ((List.range 64).map (64 * m + ·)).find? fun x => granuleExists b x && (owner b x).scrub == .unscrubbed
  if first ≠ some g || !ready b m || !starts b (uMS m) then b
  else
    let b := emit (zeroGranule b g) (.memWrite (2 ^ 30 * g) ⟨2 ^ 30, 0⟩ 0)
    addTo (setOwner b g ⟨0, false, .clean⟩) 0x2000 5 (2 ^ 30)

/-! ## Step 4: KEYS_DONE (R433) -/

/-- KEYS_DONE ends step 4, and MI_TRAIN is asserted at every Memory Station in service. -/
def keysDone (b : Block) (acc : Access) (arg : Nat) : Block :=
  commandNow b acc 0xC000 0x41 arg
    (fun b => { noFails with
      rights := notRot acc, range := arg != 0, state := startupStep b != 4 || b.ring.spillCur.isNone })
    fun b =>
      let b := stepDone b 4
      let b := (trained b).foldl (fun b m => emit b (.miTrain m)) { b with clk := { b.clk with miReady := 0 } }
      (readyCheck b, .ok, 0)

/-! ## Hold (R437, R438) -/

/-- A queue pair holds an unsent or unacknowledged message, or an open receive tracker. -/
def qpMoves (q : Qp) : Bool :=
  (q.runs && (q.sqNext != q.sqTail || q.fetch != .rest)) || q.msgs.any (·.st.isNone) || !q.asks.isEmpty
    || !q.copies.isEmpty || !q.flights.isEmpty || !q.trackers.isEmpty

/-- Scrubbing or spill work under way (Table 14-5, code 7). -/
def scrubs (b : Block) : Bool :=
  ((List.range 2048).any fun g =>
      granuleExists b g && ((owner b g).scrub == .scrubbing || (owner b g).scrub == .unscrubbed))
    || spillState b == 1 || spillState b == 3 || pids.any fun p => spillPstate b p == 3

/-- The first failing condition of Table 14-5; the command itself is pending on 0xC000.40. -/
def holdFault (b : Block) : Option Nat :=
  let own := objKey 0xC000 0x40
  if !running b || rd b 0x9000 1 ≠ 0 then some 1
  else if !b.cha.steps.isEmpty then some 2
  else if b.ladle.chans.any fun e => e.2.st == .active || e.2.st == .paceWait then some 3
  else if !b.tags.used.isEmpty then some 4
  else if b.tpe.qps.any fun e => qpMoves e.2 then some 5
  else if (allGroups b).any fun e => e.2.2.st == .arming || e.2.2.st == .completing then some 6
  else if scrubs b then some 7
  else if mirrorState b = 1 || mirrorState b = 3 || rd b 0x9002 3 = 1
      || b.fcu.doms.any fun e => e.2.st != .inService && e.2.st != .out then some 8
  else if b.dict.cmds.any (·.key != own) then some 9
  else if rd b 0xC000 6 ≠ 0 then some 0x0A
  else none

/-- HOLD_ENTER. -/
def holdEnter (b : Block) (acc : Access) (arg : Nat) : Block :=
  command b acc 0xC000 0x40 arg (fun _ => { noFails with rights := notHostFmFw acc, range := arg != 0 })
    fun b => match holdFault b with
      | some d => finishCmd b 0xC000 0x40 .state d
      | none => wr b 0xC000 6 1

/-- HOLD_ENTRY_DONE: the gating of R438 has taken place. -/
def holdEntryDone (b : Block) : Block :=
  if rd b 0xC000 6 = 1 then finishCmd (count (wr b 0xC000 6 2) 0xC000 7) 0xC000 0x40 .ok 0 else b

/-! ## Rows -/

/-- UCIE_MODULE_DOWN (R14). -/
def execUcieModuleDown (module : Nat) (s : State) : Host.Outcome State Fault Refusal :=
  .next { s with dev := moduleDown s.dev module }

/-- DIE_PLL_LOCK_LOSS (R21). -/
def execDiePllLockLoss (die : Nat) (s : State) : Host.Outcome State Fault Refusal :=
  .next { s with dev := dieLockLoss s.dev die }

/-- CORE_PLL_LOCK_LOSS (R21). -/
def execCorePllLockLoss (s : State) : Host.Outcome State Fault Refusal := .next { s with dev := coreLockLoss s.dev }

/-- PLL_LOCK (R20, R431). -/
def execPllLock (core : Bool) (die : Nat) (s : State) : Host.Outcome State Fault Refusal :=
  .next { s with dev := pllLock s.dev core die }

/-- STARTUP_PLL_TIMEOUT (R432). -/
def execStartupPllTimeout (s : State) : Host.Outcome State Fault Refusal := .next { s with dev := pllTimeout s.dev }

/-- KEYS_DONE (R433). -/
def execKeysDone (acc : Access) (arg : Word) (s : State) : Host.Outcome State Fault Refusal :=
  .next { s with dev := keysDone s.dev acc arg.toNat }

/-- MI_READY (R434). -/
def execMiReady (ms : Nat) (s : State) : Host.Outcome State Fault Refusal := .next { s with dev := miReady s.dev ms }

/-- MI_READY_TIMEOUT (R432). -/
def execMiReadyTimeout (ms : Nat) (s : State) : Host.Outcome State Fault Refusal :=
  .next { s with dev := miReadyTimeout s.dev ms }

/-- MI_READY_FALL (R376). -/
def execMiReadyFall (ms : Nat) (s : State) : Host.Outcome State Fault Refusal := .next { s with dev := miReadyFall s.dev ms }

/-- PORT_PIPE_REALIGNED (R431). -/
def execPortPipeRealigned (port : Nat) (s : State) : Host.Outcome State Fault Refusal :=
  .next { s with dev := portRealigned s.dev port }

/-- STARTUP_TRANSLATION_DONE (R431). -/
def execStartupTranslationDone (s : State) : Host.Outcome State Fault Refusal := .next { s with dev := translationDone s.dev }

/-- STARTUP_SCRUB_GRANULE_DONE (R434). -/
def execStartupScrubGranuleDone (granule : Nat) (s : State) : Host.Outcome State Fault Refusal :=
  .next { s with dev := startupScrub s.dev granule }

/-- HOLD_ENTER (R437). -/
def execHoldEnter (acc : Access) (arg : Word) (s : State) : Host.Outcome State Fault Refusal :=
  .next { s with dev := holdEnter s.dev acc arg.toNat }

/-- HOLD_ENTRY_DONE (R438). -/
def execHoldEntryDone (s : State) : Host.Outcome State Fault Refusal := .next { s with dev := holdEntryDone s.dev }

/-- WAKE (R440). -/
def execWake (cause : Nat) (s : State) : Host.Outcome State Fault Refusal :=
  .next { s with dev := if 1 ≤ cause && cause < 7 then wakeBy s.dev cause else s.dev }

/-- HOST_LINK_ERROR (R376). -/
def execHostLinkError (link : Nat) (s : State) : Host.Outcome State Fault Refusal :=
  .next { s with dev := if link < 2 then hostLinkError s.dev else s.dev }

/-- FIRMWARE_SELF_CHECK_FAIL (R376). -/
def execFirmwareSelfCheckFail (core : Nat) (s : State) : Host.Outcome State Fault Refusal :=
  .next { s with dev := firmwareFail s.dev core }

end Sys2Proof.Machine
end

