-- ==== Sys2Proof/Machine/Views.lean ====
section
/-! DEFINITION. What a read of an object returns: the objects that are kept as values, those that read the state of a
unit, the tenant-visible copies of a sealed partition's counters, and the content of BLOB objects (01 R35; 02 R38, R58;
10 R339; the object tables of every chapter). -/

namespace Sys2Proof.Machine

/-! ## Which objects exist -/

/-- Objects of a station that is not present, and of a zone at or above ZONES, are answered NOOBJ (04 R150; 08 R279; 11
R374). -/
def objAbsent (b : Block) (idx : Nat) : Bool :=
  (0x3300 ≤ idx && idx < 0x3380 && !esPresent b (idx - 0x3300))
    || (0x3400 ≤ idx && idx < 0x3420 && !msPresent b (idx - 0x3400))
    || (0x6300 ≤ idx && idx < 0x6320 && !msPresent b (idx - 0x6300))
    || (0x8020 ≤ idx && idx < 0x8030 && b.straps.zones ≤ idx - 0x8020)

def objKnown (b : Block) (idx : Nat) : Bool := indexKnown idx && !objAbsent b idx

/-- The partition whose objects an index holds: 0x2100, 0x2200 and so on plus the PID; for those of a Ladle channel, its
owner; 0: no partition's. -/
def objPid (b : Block) (idx : Nat) : Nat :=
  let hi := idx / 256 * 256
  let lo := idx % 256
  if 0x4200 ≤ idx && idx < 0x4400 then chanPid b (idx - 0x4200)
  else if 1 ≤ lo && lo ≤ 63
      && [0x2100, 0x2200, 0x2400, 0x3100, 0x5200, 0x6100, 0x6200, 0x6400, 0x7100, 0x8100, 0xA100].contains hi then lo
  else 0

/-! ## Objects that read a unit's state -/

def countGranules (b : Block) (p : Nat → Bool) : Nat :=
  ((List.range 2048).filter fun g => granuleExists b g && p g).length

def scrubIs (b : Block) (s : Scrub) (g : Nat) : Bool := (owner b g).scrub == s

def partView (b : Block) (pid sub : Nat) : Option Nat :=
  let p := part b pid
  match sub with
  | 0x01 => some (pCode p.st)
  | 0x02 => some (bits p.engines 0 64)
  | 0x03 => some (bits p.engines 64 64)
  | 0x04 => some (popCount p.granules 2048)
  | 0x06 => some p.share
  | 0x07 => some (rangeWord p.qpCount p.qpBase)
  | 0x08 => some (rangeWord p.keyCount p.keyBase)
  | 0x09 => some (rangeWord p.chanCount p.chanBase)
  | 0x0A => some p.sched
  | 0x0B => some p.energy
  | 0x0C => some (if p.st == .free then 0 else attrWord b pid)
  | 0x0D => some p.vf
  | 0x0E => some (if p.vf = 0 then 0 else look b.ptb.tdisp 0 p.vf)
  | 0x0F => some p.cause
  | 0x12 => some ((List.range 1024).filter fun c => (ctxSlot b pid c).st == .open).length
  | 0x16 => some (if p.st == .scrubbing then popCount p.granules 2048
      - ((bitList p.granules 2048).filter (scrubIs b .clean)).length else 0)
  | _ => none

/-- KEY_STATE (10 Table 10-9). -/
def keyStateWord (r : Keyring) : Nat :=
  ofBool r.spillCur.isSome + 2 * ofBool r.spillNext.isSome + 4 * ofBool r.fresh + 8 * ofBool r.linkCur.isSome
    + 16 * ofBool r.linkNext.isSome + 32 * ofBool r.linkPrev.isSome + (r.stageSpill.length <<< 8)
    + (r.stageLink.length <<< 12)

/-- MIRROR_PSTATE (13 Table 13-8): SYNCING while a record of the partition's copy is not acknowledged. -/
def mirrorPstate (b : Block) (pid : Nat) : Nat :=
  if !mirrorEnabled b pid || !mirroring b then 0
  else if (unacked b).any (fun r => r.sync && r.pid == pid)
      || b.mirror.marks.any (fun m => 256 ≤ m.kind && m.pid == pid) then 1
  else 2

/-- SHADOW_QPS: reserved queue-pair slots holding state. -/
def shadowQps (b : Block) (pp : Nat) : Nat :=
  let s := shadow b pp
  if shadowState b pp = 3 then
    (b.tpe.qps.filter fun e => shadowQpBase b pp ≤ e.1 && e.1 < shadowQpBase b pp + s.qpCount && e.2.isAlias
      && e.2.st != .reset).length
  else s.qps.length

def connected (b : Block) (p : Nat → Bool) : Nat := (b.tpe.qps.filter fun e => p e.1 && e.2.runs).length

def validKeys (b : Block) (p : Nat → Bool) : Nat := (b.tpe.keys.filter fun e => p e.1 && e.2.st == .valid).length

def chanStateCode : ChanState → Nat
  | .off => 0 | .idle => 1 | .active => 2 | .paceWait => 3 | .halted => 4

/-- The value of an object that reads a unit's state; none for one that is kept. -/
def unitView (b : Block) (idx sub : Nat) : Option Nat :=
  let pp := idx % 256
  match idx, sub with
  | 0x1000, 0x04 => some (bits b.straps.esMask.toNat 0 64)
  | 0x1000, 0x05 => some (bits b.straps.esMask.toNat 64 64)
  | 0x1000, 0x06 => some b.straps.msMask.toNat
  | 0x1100, 0x01 => some b.clk.now
  | 0x1100, 0x02 => some ((ofBool b.clk.coreLock <<< 16) + b.clk.dieLock.toNat)
  | 0x1300, 0x04 => some (poolUsed b .mem)
  | 0x1300, 0x05 => some (poolUsed b .fabric)
  | 0x1300, 0x06 => some (poolUsed b .host)
  | 0x1400, 0x02 => some b.dict.cmds.length
  | 0x2000, 0x01 => some ((pids.filter (isLive b)).foldl (fun n p => n + 2 ^ p) 0)
  | 0x2000, 0x02 => some (((pids.filter fun p => (part b p).holdsRanges).map fun p => (part b p).share).foldl (· + ·) 0)
  | 0x2000, 0x03 => some (countGranules b fun g => (owner b g).owner == 0 && scrubIs b .clean g)
  | 0x2000, 0x04 => some (countGranules b (scrubIs b .scrubbing))
  | 0x2000, 0x08 => some b.straps.stackGranules
  | 0x3000, 0x0C => some b.hub.walks.length
  | 0x5000, 0x07 => some b.tpe.noPath.length
  | 0x5010, 0x02 => some (poolFree b)
  | 0x5020, 0x03 => some (connected b fun _ => true)
  | 0x5020, 0x04 => some (validKeys b fun _ => true)
  | 0x6000, 0x03 => some (groupPool b)
  | 0x6000, 0x04 => some ((allGroups b).filter fun e => e.2.2.live).length
  | 0x6010, 0x02 => some (progPool b)
  | 0x6010, 0x03 => some (versionsInUse b)
  | 0x7000, 0x01 => some (keyStateWord b.ring)
  | 0x8000, 0x08 => some b.cha.steps.length
  | 0x8000, 0x0B => if b.cha.powerBad && rd b 0x8000 9 ≠ 0 then some 0 else none
  | 0x8000, 0x12 => some b.straps.zones
  | 0x9100, d => some (domCode (domain b (domKey d)).st)
  | 0xA000, 0x07 => some (lag b * 10)
  | 0xC000, 0x05 => some (countGranules b (scrubIs b .unscrubbed))
  | _, _ =>
    if 0x2201 ≤ idx && idx < 0x2240 then partView b pp sub
    else if 0x4200 ≤ idx && idx < 0x4400 && sub == 0x06 then some (chanStateCode (chan b (idx - 0x4200)).st)
    else if 0x5201 ≤ idx && idx < 0x5240 && sub == 0x42 then
      some (connected b fun i => (part b pp).qpBase ≤ i && i < (part b pp).qpBase + (part b pp).qpCount)
    else if 0x5201 ≤ idx && idx < 0x5240 && sub == 0x43 then
      some (validKeys b fun j => (part b pp).keyBase ≤ j && j < (part b pp).keyBase + (part b pp).keyCount)
    else if 0x6300 ≤ idx && idx < 0x6320 && sub == 0x04 then some (b.cru.locks.filter (·.1 == pp)).length
    else if 0x6300 ≤ idx && idx < 0x6320 && sub == 0x05 then
      some (((List.range 8).filter fun g => unitState b (uLane pp g) == .inService).foldl (fun n g => n + 2 ^ g) 0)
    else if 0x6401 ≤ idx && idx < 0x6440 && sub == 0x22 then some (progLoaded b pp)
    else if 0x8020 ≤ idx && idx < 0x8030 && sub == 0x05 && b.cha.zonesBad.contains (idx - 0x8020) then some 0
    else if 0x8101 ≤ idx && idx < 0x8140 && sub == 0x02 then some (ofSigned 32 (deficit b pp / 1024))
    else if 0x8101 ≤ idx && idx < 0x8140 && sub == 0x0B then
      some (b.cha.steps.filter fun s => s.pid == pp && s.st == .queued).length
    else if 0xA101 ≤ idx && idx < 0xA140 && sub == 0x02 then some (mirrorPstate b pp)
    else if 0xA201 ≤ idx && idx < 0xA240 && sub == 0x08 then some (shadowQps b pp)
    else none

/-- The exact value of a scalar object. -/
def value (b : Block) (idx sub : Nat) : Nat :=
  if sub = 0 then highestSub idx else (unitView b idx sub).getD (rd b idx sub)

/-! ## Tenant-visible copies (01 R35; 10 R339) -/

/-- Is the object a counter of a partition, or a reading of its energy, power or engine time? -/
def tapped (idx sub : Nat) : Bool :=
  (match objRow idx sub with
    | some r => r.legal == .counter
    | none => false)
    || (0x8101 ≤ idx && idx < 0x8140 && (sub == 0x02 || sub == 0x0D || (0x50 ≤ sub && sub < 0x60)))

/-- Reads of a sealed partition's objects: TAP values, and the addresses that R339 hides. -/
def readValue (b : Block) (role : Role) (idx sub : Nat) : Nat :=
  let pid := objPid b idx
  if sub = 0 || pid = 0 || !isSealed b pid then value b idx sub
  else if 0x3100 ≤ idx && idx < 0x3140 && sub == 0x09 then 0
  else if ((0x3100 ≤ idx && idx < 0x3140 && sub == 0x06) || (0x4200 ≤ idx && idx < 0x4400 && sub == 0x09))
      && role != .tnt then 0
  else if tapped idx sub then look b.dict.taps 0 (objKey idx sub)
  else value b idx sub

/-- A signed 32-bit reading rounded down to a multiple of 1,024. -/
def coarseSigned (n : Nat) : Nat := ofSigned 32 (toSigned 32 n / 1024 * 1024)

/-- Every object of a partition that sealed readers see as a TAP value. -/
def tapKeys (b : Block) (pid : Nat) : List (Nat × Nat) :=
  let own := objects.filter fun r => r.span == 63 && r.legal == .counter
  let chans := (objects.filter fun r => r.base == 0x4200 && r.legal == .counter).flatMap fun r =>
    (chansOf b pid).map fun c => (0x4200 + c, r.sub)
  (own.flatMap fun r => (List.range r.count).map fun i => (r.base - 1 + pid, r.sub + i)) ++ chans
    ++ [(0x8100 + pid, 0x02), (0x8100 + pid, 0x0D)] ++ (List.range 16).map fun i => (0x8100 + pid, 0x50 + i)

def tapValue (b : Block) (idx sub : Nat) : Nat :=
  if 0x8101 ≤ idx && idx < 0x8140 && sub == 0x02 then coarseSigned (value b idx sub) else coarse (value b idx sub)

/-- An ACCT body (13 Table 13-3) as TAP values: DEFICIT and seven accounts. -/
def coarseAcct (n : Nat) : Nat :=
  coarseSigned (bits n 0 32)
    + (((List.range 7).map fun i => coarse (bits n (32 + 64 * i) 64) <<< (32 + 64 * i)).foldl (· + ·) 0)

/-- TAP_REFRESH: on the cycle at which local time is a multiple of 100,000. -/
def tapRefresh (b : Block) : Block :=
  if b.clk.now % 100000 ≠ 0 then b
  else
    let ps := pids.filter (isSealed b)
    let t := (ps.flatMap (tapKeys b)).foldl (fun m k => store m 0 (objKey k.1 k.2) (tapValue b k.1 k.2)) []
    let t := (pids.filter fun p => bitAt (shadow b p).part.val 440).foldl
      (fun m p => store m 0 (objKey (0xA200 + p) 6) (coarseAcct (shadow b p).acct.val)) t
    let b := { b with dict := { b.dict with taps := t } }
    let one (b : Block) (i : Nat) : Block :=
      if isSealed b (qpPid b i) then onQp b i fun q => { q with taps := (qpCounters q).map coarse } else b
    (b.tpe.qps.map (·.1)).foldl one b

/-! ## Content of BLOB objects -/

/-- A BLOB that is not kept as written: what it reads. -/
def blobView (b : Block) (idx sub : Nat) : Option Bytes :=
  let pp := idx % 256
  match idx, sub with
  | 0x1401, 0x01 => some (b.dict.image.getD ⟨0, 0⟩)
  | 0x4000, 0x21 => some ⟨512, joinValues 2 ((List.range 256).map fun l =>
      (ofBool (paceLevel b l).2 <<< 15) + (paceLevel b l).1)⟩
  | 0x7000, 0x20 => some (condemnedBlob b)
  | 0x9000, 0x09 => some ⟨32, b.fcu.firstFatal⟩
  | 0x9000, 0x0A => some ⟨32, b.fcu.lastFence⟩
  | 0x9000, 0x20 => some ⟨8192, joinValues 32 ((List.range 256).map (look b.fcu.log 0))⟩
  | 0x9000, 0x21 => some ⟨1280, joinValues 1 ((List.range 1280).map fun u =>
      if unitPresent b u then domCode (unitState b u) else 0xFF)⟩
  | _, _ =>
    if 0x2201 ≤ idx && idx < 0x2240 && sub == 0x05 then some ⟨256, (part b pp).granules⟩
    else if 0x2201 ≤ idx && idx < 0x2240 && sub == 0x20 then
      some ⟨2048, joinValues 2 ((List.range 1024).map fun c => ctxEntry (ctxSlot b pp c))⟩
    else if 0x3101 ≤ idx && idx < 0x3140 && sub == 0x11 then
      some ⟨8192, joinValues 8 ((List.range 1024).map fun c =>
        match find? (part b pp).s1Roots c with
        | some r => 2 ^ 63 + r
        | none => 0)⟩
    else if 0x3400 ≤ idx && idx < 0x3420 && sub == 0x01 then
      some ⟨128, joinValues 2 ((List.range 64).map fun o =>
        let e := owner b (64 * pp + o)
        let s := match e.scrub with
          | .clean => 0 | .inUse => 1 | .scrubbing => 2 | .unscrubbed => 3
        (e.owner <<< 10) + (ofBool e.sealed <<< 9) + (s <<< 7) + ofBool (granuleExists b (64 * pp + o)))⟩
    else if 0x6101 ≤ idx && idx < 0x6140 && sub == 0x20 then
      some ⟨4096, joinValues 1 ((List.range 4096).map fun g => gCode (group b pp g).st)⟩
    else if 0x6201 ≤ idx && idx < 0x6240 && 1 ≤ sub && sub ≤ 64 then
      some (((program b pp sub).map (·.image)).getD ⟨0, 0⟩)
    else if 0xA201 ≤ idx && idx < 0xA240 && sub == 0x05 then some (shadow b pp).part
    else if 0xA201 ≤ idx && idx < 0xA240 && sub == 0x06 then
      some (if bitAt (shadow b pp).part.val 440 then ⟨64, look b.dict.taps 0 (objKey idx sub)⟩ else (shadow b pp).acct)
    else if 0xA201 ≤ idx && idx < 0xA240 && sub == 0x07 then some (shadow b pp).takenGroups
    else none

/-- The committed content of a BLOB object: what was written, else zeros over its whole length; the buffer of Skim holds
nothing until a dump is taken. -/
def blobContent (b : Block) (idx sub : Nat) : Bytes :=
  match blobView b idx sub with
  | some c => c
  | none => match find? b.dict.blobs (objKey idx sub), objRow idx sub with
    | some c, _ => c
    | none, some r => if idx = 0x9002 then ⟨0, 0⟩ else ⟨r.dflt, 0⟩
    | none, none => ⟨0, 0⟩

/-- TAP_REFRESH (01 R35). -/
def execTapRefresh (s : State) : Host.Outcome State Fault Refusal := .next { s with dev := tapRefresh s.dev }

end Sys2Proof.Machine
end

