-- ==== Sys2Proof/Machine/Writes.lean ====
section
/-! DEFINITION. What a write of a scalar object is checked for, and what it does (01 R34, R37; 02 R43, R47; the object
tables of every chapter). -/

namespace Sys2Proof.Machine

/-! ## RANGE -/

def powerOfTwo (v lo hi : Nat) : Bool := (List.range (hi + 1 - lo)).any fun i => v == 2 ^ (lo + i)

/-- The legal values that Table rows state one by one. -/
def legalSpecial (b : Block) (idx sub v : Nat) : Bool :=
  let pp := idx % 256
  if 0x2401 ≤ idx && idx < 0x2440 then
    if sub = 2 then powerOfTwo v 9 20 else decide (v < rd b idx 2)
  else if 0x4200 ≤ idx && idx < 0x4400 then
    zeroBits v 26 6 && zeroBits v 5 11 && decide (4 ≤ bits v 0 5) && decide (bits v 0 5 ≤ 16)
  else if idx = 0x5000 && sub = 3 then zeroBits v 48 16 && zeroBits v 0 18 && bitAt v 41 && !bitAt v 40
  else if idx = 0x5000 then
    !bitAt v 15 && !bitAt v 11 && !bitAt v 7 && !bitAt v 3
      && (!bitAt v 31 || (bits v 16 12 != 0 && bits v 16 12 != 4095))
  else if idx = 0x5010 then classes.all fun c => bits v (8 * c) 8 ≤ 32
  else if 0x7101 ≤ idx && idx < 0x7140 then
    bits v 32 32 ≤ 131072 && bits v 0 32 + bits v 32 32 ≤ rd b 0x7000 6 * 32
  else if 0x8101 ≤ idx && idx < 0x8140 then
    zeroBits v 26 6 && zeroBits v 4 12 && decide (4 ≤ bits v 0 4) && decide (bits v 0 4 ≤ 12)
  else if 0x9010 ≤ idx && idx < 0x9020 then decide (v ≤ 1) && (idx - 0x9010 < 9 || v == 0)
  else if 0x9200 ≤ idx && idx < 0x921C then
    let r := sourceRow pp
    if sub = 1 then decide (r.minimum ≤ v) && decide (v ≤ 4) else decide (v ≤ 1) && (r.either || v == r.scope)
  else if 0xA201 ≤ idx && idx < 0xA240 then decide (v < if sub = 2 then 65536 else 262144)
  else if idx = 0xF000 then decide (1 ≤ v) && decide (v ≤ 3) && patternFits (rd b 0xF000 3) v
  else true

def legalValue (b : Block) (r : ObjRow) (idx sub v : Nat) : Bool :=
  decide (v < 2 ^ (8 * r.ty.size)) && match r.legal with
    | .any => true
    | .counter => v == 0
    | .range lo hi => decide (lo ≤ v) && decide (v ≤ hi)
    | .rangeOr lo hi other => (decide (lo ≤ v) && decide (v ≤ hi)) || v == other
    | .signed lo hi => decide (lo ≤ toSigned 32 v) && decide (toSigned 32 v ≤ hi)
    | .mult al top => v % 2 ^ al == 0 && decide (v < 2 ^ top)
    | .special => legalSpecial b idx sub v

/-! ## STATE -/

def anyLive (b : Block) : Bool := pids.any (isLive b)

/-- Ring objects of queue `q` of a partition: RING_BASE and RING_CFG (11 Table 11-15). -/
def stepRing (sub : Nat) : Option Nat :=
  if 0x10 ≤ sub && sub < 0x50 && sub % 8 ≤ 1 then some ((sub - 0x10) / 8) else none

/-- The VF of a partition is CONFIG_LOCKED or RUN (10 R341). -/
def vfLocked (b : Block) (pid : Nat) : Bool :=
  let vf := (part b pid).vf
  vf != 0 && (look b.ptb.tdisp 0 vf == 1 || look b.ptb.tdisp 0 vf == 2)

/-- Table 5-8: does the channel accept ENABLE with this value? -/
def enableOk (b : Block) (c v : Nat) : Bool :=
  let st := (chan b c).st
  if v = 1 then st == .off && isLive b (chanPid b c) && ctxOpen b (chanPid b c) (ringCx b c)
  else st == .idle || st == .halted

/-- The write is not permitted in the state of the object or of its owner. The objects of a channel that no partition
holds stay at their defaults (05 R151): a write to them is refused here (DEDUCED, log 35). -/
def writeState (b : Block) (idx sub v : Nat) : Bool :=
  let pp := idx % 256
  if (idx = 0x1000 && sub = 3) || (idx = 0x3000 && sub = 1) then anyLive b
  else if 0x2401 ≤ idx && idx < 0x2440 then
    if sub ≤ 2 then rd b idx 3 == 1 else sub == 3 && v == 1 && !isLive b pp
  else if 0x4200 ≤ idx && idx < 0x4400 then
    chanPid b (idx - 0x4200) == 0
      || (if sub ≤ 2 then (chan b (idx - 0x4200)).st != .off else sub == 3 && !enableOk b (idx - 0x4200) v)
  else if idx = 0x5000 && 2 ≤ sub && sub ≤ 4 then (List.range 36).any (portLive b)
  else if 0x6101 ≤ idx && idx < 0x6140 && sub = 0x40 then groupLimitState b pp
  else if 0x6401 ≤ idx && idx < 0x6440 && sub = 0x20 then progLimitState b pp
  else if idx = 0x7000 && 3 ≤ sub && sub ≤ 6 then spillState b != 0
  else if 0x7101 ≤ idx && idx < 0x7140 then
    if sub = 1 then (part b pp).st != .building else sub == 7 && vfLocked b pp
  else if 0x8101 ≤ idx && idx < 0x8140 then
    match stepRing sub with
    | some q => ringBusy b pp q
    | none => false
  else if idx = 0xA000 && sub ≤ 2 then mirrorState b != 0 && mirrorState b != 4
  else if 0xA201 ≤ idx && idx < 0xA240 then (shadowWrite b pp sub v).2 == .state
  else if idx = 0xF000 && sub = 1 then v == 2 && rd b 0xF000 2 == 1
  else if idx = 0xF000 && sub = 2 then !(v == 1 && rd b 0xF000 2 == 0)
  else false

/-! ## CONFLICT -/

/-- R243: the peers' floors beyond 5,120 units, or a lease shorter than four refresh periods. -/
def creditConflict (floors peers lease refresh : Nat) : Bool :=
  5120 < peers * ((classes.map fun c => bits floors (8 * c) 8).foldl (· + ·) 0) || lease < 4 * refresh

/-- A spill range meets another partition's, or a retired unit (10 R332). -/
def spillOverlap (b : Block) (pid v : Nat) : Bool :=
  let base := bits v 0 32
  let n := bits v 32 32
  (pids.any fun p => p != pid && (part b p).st != .free && (common base n (spillRange b p).1 (spillRange b p).2).isSome)
    || b.ssu.retired.any fun u => base ≤ u && u < base + n

def writeConflict (b : Block) (idx sub v : Nat) : Bool :=
  let pp := idx % 256
  if idx = 0x5010 && (sub = 3 || sub = 5 || sub = 6) then
    let now (s : Nat) : Nat := if s = sub then v else rd b 0x5010 s
    creditConflict (now 3) (popCount (rdBlob b 0x5010 0x10).val 4096) (now 6) (now 5)
  else if 0x6101 ≤ idx && idx < 0x6140 && sub = 0x40 then groupLimitConflict b pp v
  else if 0x6401 ≤ idx && idx < 0x6440 && sub = 0x20 then progLimitConflict b pp v
  else if 0x7101 ≤ idx && idx < 0x7140 && sub = 1 then spillOverlap b pp v
  else if 0x8020 ≤ idx && idx < 0x8030 && sub = 2 then toSigned 32 (rd b idx 3) ≤ toSigned 32 v
  else if 0x8020 ≤ idx && idx < 0x8030 && sub = 3 then toSigned 32 v ≤ toSigned 32 (rd b idx 2)
  else if 0xA201 ≤ idx && idx < 0xA240 then (shadowWrite b pp sub v).2 == .conflict
  else false

/-- The checks of R43 that look at the value, in their order; `tnt` says that a tenant writes while the block is fenced. -/
def writeFault (b : Block) (r : ObjRow) (tnt : Bool) (idx sub v : Nat) : Option Code :=
  if !legalValue b r idx sub v then some .range
  else if tnt || (r.legal != .counter && writeState b idx sub v) then some .state
  else if r.legal != .counter && writeConflict b idx sub v then some .conflict
  else none

/-! ## What a write does -/

/-- A counter is cleared, and with a SAT counter its overflow bit (01 R34). -/
def clearCounter (b : Block) (idx sub : Nat) : Block :=
  let off (b : Block) (s bit : Nat) : Block := wr b idx s (setBit (rd b idx s) bit false)
  let b := wr b idx sub 0
  if idx = 0x1200 && sub = 2 then off b 6 0
  else if idx = 0x1200 && sub = 4 then off b 6 1
  else if 0x2401 ≤ idx && idx < 0x2440 && sub = 7 then off b 6 2
  else if idx = 0x5010 && sub = 0x0B then off b 0x0D 0
  else b

/-- LOG_ENABLE (03 R111, R114). -/
def logEnable (b : Block) (pid v : Nat) : Block :=
  let i := 0x2400 + pid
  let old := rd b i 3
  let b := wr b i 3 v
  if v = 0 then wr b i 6 (setBit (rd b i 6) 0 false)
  else if old = 1 then b
  else
    let b := setPart b pid { part b pid with logPhase := true }
    wr (wr (wr b i 4 0) i 5 0) i 6 (setBit (setBit (rd b i 6) 1 false) 0 true)

/-- ENABLE of a channel (05 Table 5-8). -/
def chanEnable (b : Block) (c v : Nat) : Block :=
  if v = 1 then setChan (wr b (chanIndex c) 3 1) c { freshChan with st := .idle } else chanOff b c

def clearDictWin (b : Block) : Block := { b with dict := { b.dict with dictWin := [] } }

/-- The effect of a write that no check refuses: the object holds its new value from now on (02 R47), with what the
object's chapter adds. -/
def writeEffect (b : Block) (r : ObjRow) (idx sub v : Nat) : Block :=
  let pp := idx % 256
  let set := wr b idx sub v
  if r.legal = .counter then clearCounter b idx sub
  else if idx = 0x1400 && sub = 1 then clearDictWin set
  else if 0x2401 ≤ idx && idx < 0x2440 && sub = 3 then logEnable b pp v
  else if 0x4200 ≤ idx && idx < 0x4400 && sub = 3 then chanEnable b (idx - 0x4200) v
  else if 0x4200 ≤ idx && idx < 0x4400 && sub ≤ 2 then wr (wr set idx 7 0) idx 8 0
  else if idx = 0x5010 then grantCredit set
  else if 0x6101 ≤ idx && idx < 0x6140 && sub = 0x40 then setGroupLimit b pp v
  else if 0x8101 ≤ idx && idx < 0x8140 then
    match stepRing sub with
    | some q => wr (wr set idx (ringSub q 2) 0) idx (ringSub q 3) 0
    | none => if sub = 0x0A then (List.range 8).foldl (fun b q => ringFetch b pp q) set else set
  else if idx = 0x9000 && sub = 2 then faultRise set
  else if 0x9200 ≤ idx && idx < 0x921C && sub ≠ 2 then sourceWritten set pp
  else if 0xA101 ≤ idx && idx < 0xA140 && sub = 1 then mirrorEnableSet set pp (rd b idx 1)
  else if 0xA201 ≤ idx && idx < 0xA240 then (shadowWrite b pp sub v).1
  else if idx = 0xF000 && sub = 1 then injectModeSet set (rd b 0xF000 1)
  else if idx = 0xF000 && sub = 2 then injectLocked set
  else set

/-! ## The persistent image (R73-R78) -/

/-- A persistable object (R73). -/
def persistable (idx sub : Nat) : Bool :=
  match objRow idx sub with
  | some r =>
    r.ty != .blob && r.ty != .cmd && r.legal != .counter && r.fw == .rw
      && ((0x1000 ≤ idx && idx < 0x2000) || (0x8000 ≤ idx && idx < 0xD000))
  | none => false

def crcBit (c : Nat) : Nat := if c % 2 = 1 then (c / 2) ^^^ 0xEDB88320 else c / 2

def crcByte (c x : Nat) : Nat := (List.range 8).foldl (fun c _ => crcBit c) (c ^^^ x)

/-- CRC-32 over `len` bytes (Table 2-13). -/
def crc32 (v len : Nat) : Nat := ((List.range len).foldl (fun c i => crcByte c (byteOf v i)) 0xFFFFFFFF) ^^^ 0xFFFFFFFF

/-- The CRC an image should carry: its own field counts as zero. -/
def imageCrc (c : Bytes) : Nat := crc32 (patch c.val 8 4 0) c.len

def imageMagic : Nat := 0x4D49445A

/-- Entry `i` of an image: index, sub-index, SIZE and VALUE (Table 2-14). -/
def imageEntry (c : Bytes) (i : Nat) : Nat × Nat × Nat × Nat :=
  let o := 16 + 16 * i
  (slice c.val o 2, slice c.val (o + 2) 1, slice c.val (o + 3) 1, slice c.val (o + 8) 8)

def imageCount (c : Bytes) : Nat := slice c.val 6 2

/-- An image of entries in order. -/
def buildImage (b : Block) (es : List (Nat × Nat × Nat)) : Bytes :=
  let size (e : Nat × Nat × Nat) : Nat := ((objRow e.1 e.2.1).map (·.ty.size)).getD 0
  let entry (e : Nat × Nat × Nat) : Nat := e.1 + (e.2.1 <<< 16) + (size e <<< 24) + (e.2.2 <<< 64)
  let c : Bytes := ⟨16 + 16 * es.length,
    imageMagic + (rd b 0x1000 2 <<< 32) + (es.length <<< 48) + (joinValues 16 (es.map entry) <<< 128)⟩
  ⟨c.len, patch c.val 8 4 (imageCrc c)⟩

/-- The offsets at which R76's checks and the reserved bits of R8 fail. R76 names no offset: a wrong length is reported at
ENTRY_COUNT (6), a wrong CRC at CRC (8), an object that is not persistable at the entry's first byte, and the bytes of VALUE
above SIZE are not looked at (DESIGN CHOICE, log 36). -/
def imageFaults (b : Block) (c : Bytes) : List Nat :=
  let nonzero (off n : Nat) : List Nat := (List.range n).filterMap fun i =>
    if byteOf c.val (off + i) = 0 then none else some (off + i)
  let entry (i : Nat) : List Nat :=
    let (idx, sub, size, _) := imageEntry c i
    let o := 16 + 16 * i
    (if persistable idx sub then (if ((objRow idx sub).map (·.ty.size)) == some size then [] else [o + 3]) else [o])
      ++ nonzero (o + 4) 4
  (if slice c.val 0 4 = imageMagic then [] else [0])
    ++ (if slice c.val 5 1 = rd b 0x1000 2 / 256 then [] else [5])
    ++ (if c.len = 16 + 16 * imageCount c then [] else [6])
    ++ (if slice c.val 8 4 = imageCrc c then [] else [8]) ++ nonzero 12 4
    ++ (List.range (min (imageCount c) ((c.len - 16) / 16))).flatMap entry

def minOf (l : List Nat) : Option Nat := l.foldl (fun m x => some (min x (m.getD x))) none

def storeImage (b : Block) (c : Bytes) : Block := { b with dict := { b.dict with image := some c } }

/-- PERSIST_SAVE (R77). -/
def persistSave (b : Block) (acc : Access) (arg : Nat) : Block :=
  commandNow b acc 0x1401 2 arg (fun _ => { noFails with rights := notHostFmFw acc, range := arg != 0 }) fun b =>
    let es := (b.dict.objs.filter fun e => persistable (e.1 / 256) (e.1 % 256)).map fun e =>
      (e.1 / 256, e.1 % 256, e.2.toNat)
    if 4095 < es.length then (b, .resource, 0) else (storeImage b (buildImage b es), .ok, es.length)

/-- RESTORE_DEFAULTS (R78). Whether it counts as a write of each object, for what a write adds, the spec leaves open: it
does for the fault sources (12 R380); the HEAD and TAIL of a partition's step rings are 0 already, every partition being
FREE (DESIGN CHOICE, log 37). -/
def restoreDefaults (b : Block) (acc : Access) (arg : Nat) : Block :=
  commandNow b acc 0x1401 3 arg
    (fun b => { noFails with
      rights := notHostFmFw acc, range := arg != 0, state := pids.any fun p => (part b p).st != .free })
    fun b =>
      let b := { b with dict := { b.dict with
        objs := b.dict.objs.filter fun e => !persistable (e.1 / 256) (e.1 % 256) } }
      (storeImage ((List.range 28).foldl sourceWritten b) (buildImage b []), .ok, 0)

end Sys2Proof.Machine
end

