-- ==== Sys2Proof/Machine/Dict.lean ====
section
/-! DEFINITION. The Dictionary Engine: the checks of an access in their order, scalar reads and writes, commands by their
objects, and BLOB transfers with their validation (02 R38-R60, R66; 00 R3, R4, R8). -/

namespace Sys2Proof.Machine

/-! ## Rights (00 R3, R4; 02 R38, R41) -/

def canRead (r : Right) : Bool := r == .ro || r == .rw

def canWrite (r : Right) : Bool := r == .rw || r == .wo || r == .x

/-- The right of a role on an object for a write: DBG writes in 0xF000-0xFFFF only (00 R4). -/
def writeRight (r : ObjRow) (role : Role) (idx : Nat) : Right := if role == .dbg && idx < 0xF000 then .none else r.right role

/-- A tenant names an object of a partition other than its own (00 R3), or is bound to none (03 R106). -/
def notOwn (b : Block) (acc : Access) (idx : Nat) : Bool :=
  roleOf acc.path == .tnt &&
    (let p := pathPid b acc.path
     p = 0 || (0x4200 ≤ idx && idx < 0x4400 && objPid b idx != p) || (objPid b idx != 0 && objPid b idx != p))

/-- The number of the program that an object of 0x62pp names. -/
def progNumber (idx sub : Nat) : Option Nat :=
  if 0x6201 ≤ idx && idx < 0x6240 then
    if 1 ≤ sub && sub ≤ 64 then some sub else if 0x81 ≤ sub && sub ≤ 0xC0 then some (sub - 0x80) else none
  else none

/-- Program objects above PROG_LIMIT, and those of a sealed partition (09 R302, R307). -/
def progRefused (b : Block) (acc : Access) (idx sub : Nat) (write : Bool) : Bool :=
  match progNumber idx sub with
  | none => false
  | some n =>
    let pid := idx % 256
    progLimit b pid < n || (sub ≤ 64 && isSealed b pid
      && (if write then roleOf acc.path == .host else roleOf acc.path != .tnt))

/-- PROG_UNLOAD of a sealed partition's program is not HOST's (09 R307). -/
def unloadRefused (b : Block) (acc : Access) (idx sub : Nat) : Bool :=
  0x6401 ≤ idx && idx < 0x6440 && sub == 1 && roleOf acc.path == .host && isSealed b (idx % 256)

/-- NOOBJ, NOSUB and RIGHTS, in that order; a request from a virtual function that is bound to no partition is answered
RIGHTS whatever it names (03 R106). -/
def firstChecks (b : Block) (acc : Access) (idx sub : Nat) (write : Bool) : Option Code :=
  let role := roleOf acc.path
  if role == .tnt && pathPid b acc.path == 0 then some .rights
  else if !objKnown b idx then some .noobj
  else if sub = 0 then
    if !write && objects.any (fun r => r.hasIndex idx && canRead (r.right role)) && !notOwn b acc idx then none
    else some .rights
  else match objRow idx sub with
    | none => some .nosub
    | some r =>
      let ok := if write then canWrite (writeRight r role idx) else canRead (r.right role)
      if !ok || notOwn b acc idx || progRefused b acc idx sub write || unloadRefused b acc idx sub
      then some .rights else none

/-- The readiness objects, which are read before the dictionary is ready (R48), and what a recovery in steps 2 and 3
serves besides (14 R435). -/
def readyRead (b : Block) (idx sub : Nat) : Bool :=
  (idx == 0xC000 && (sub == 0 || (objRow idx sub).isSome)) || (idx == 0x1100 && sub == 2) || (idx == 0x9000 && sub == 0x21)
    || (rd b 0x9000 1 == 2 && ((idx == 0x9000 && [1, 0x20, 9, 0x0A].contains sub) || (idx == 0x9002 && [3, 0x20].contains sub)))

def objType (idx sub : Nat) : OType :=
  if sub = 0 then .u8 else ((objRow idx sub).map (·.ty)).getD .u8

/-- The size in bytes of a SIZE code; none: reserved. -/
def sizeOf4 (size : Nat) : Option Nat := if size < 4 then some (2 ^ size) else none

/-! ## READ -/

def opRead (b : Block) (acc : Access) (idx sub size : Nat) : Block :=
  let b := busAccess b
  if !dictReady b && !readyRead b idx sub then answer b acc .busy
  else match firstChecks b acc idx sub false with
    | some c => answer b acc c
    | none =>
      if sizeOf4 size != some (objType idx sub).size then answer b acc .type
      else respond b acc 0 .ok (readValue b (roleOf acc.path) idx sub) none

/-! ## Commands by object -/

/-- A write to a command object is the command (R50). -/
def runCommand (b : Block) (acc : Access) (idx sub : Nat) (v : Word) : Block :=
  let a := v.toNat
  let p := idx % 256
  match idx, sub with
  | 0x1401, 0x02 => persistSave b acc a
  | 0x1401, 0x03 => restoreDefaults b acc a
  | 0x4000, 0x40 => paceResetCmd b acc a
  | 0x5010, 0x20 => creditResyncCmd b acc a
  | 0x7000, 0x40 => spillKeyInstall b acc a
  | 0x7000, 0x41 => linkKeyInstall b acc a
  | 0x7000, 0x42 => linkKeySwitch b acc a
  | 0x7000, 0x43 => spillKeyDestroy b acc a
  | 0x7000, 0x44 => linkKeyDestroy b acc a
  | 0x7000, 0x45 => spillInit b acc a
  | 0x9000, 0x40 => faultLRelease b acc a
  | 0x9000, 0x41 => recoverBlock b acc a
  | 0x9000, 0x42 => unitOut b acc a
  | 0x9000, 0x43 => unitReturn b acc a
  | 0x9000, 0x44 => domainFence b acc a
  | 0x9000, 0x45 => faultWait b acc 0x45 a (notHostFw acc)
  | 0x9000, 0x46 => faultWait b acc 0x46 a (notFmFw acc)
  | 0x9002, 0x40 => skimStartCmd b acc a
  | 0x9002, 0x41 => skimRelease b acc a
  | 0xA000, 0x40 => mirrorStart b acc a
  | 0xA000, 0x41 => mirrorStop b acc a
  | 0xA000, 0x42 => takeover b acc a
  | 0xA000, 0x43 => aliasEnd b acc a
  | 0xC000, 0x40 => holdEnter b acc a
  | 0xC000, 0x41 => keysDone b acc a
  | 0xF000, 0x40 => injectEventCmd b acc a
  | _, _ =>
    match idx / 256, sub with
    | 0x21, 0x01 => create b acc p a
    | 0x21, 0x02 => addEngines b acc p 2 a 0
    | 0x21, 0x03 => addEngines b acc p 3 a 64
    | 0x21, 0x04 => addGranules b acc p a
    | 0x21, 0x05 => addLinkShare b acc p a
    | 0x21, 0x06 => addQp b acc p a
    | 0x21, 0x07 => addKeys b acc p a
    | 0x21, 0x08 => addChannels b acc p a
    | 0x21, 0x09 => addSched b acc p a
    | 0x21, 0x0A => addEnergy b acc p a
    | 0x21, 0x0B => addAttr b acc p a
    | 0x21, 0x0C => addVf b acc p a
    | 0x21, 0x10 => partitionCommit b acc p a
    | 0x21, 0x11 => withdrawCmd b acc p a
    | 0x21, 0x12 => releaseCmd b acc p a
    | 0x21, 0x18 => ctxOpenCmd b acc p a
    | 0x21, 0x19 => ctxCloseCmd b acc p a
    | 0x31, 0x01 => s2RootSet b acc p a
    | 0x31, 0x02 => s1RootSet b acc p a
    | 0x31, 0x03 => s1Invalidate b acc p a
    | 0x42, 0x40 => abortRow b (.command acc (idx - 0x4200) v)
    | 0x42, 0x41 => resumeRow b (.command acc (idx - 0x4200) v)
    | 0x43, 0x40 => abortRow b (.command acc (idx - 0x4200) v)
    | 0x43, 0x41 => resumeRow b (.command acc (idx - 0x4200) v)
    | 0x52, 0x01 => qpInitCmd b acc p a
    | 0x52, 0x02 => qpConnectCmd b acc p a
    | 0x52, 0x03 => qpResetCmd b acc p a
    | 0x52, 0x04 => qpDrainCmd b acc p a
    | 0x52, 0x05 => queryCmd b acc p 5 a
    | 0x52, 0x08 => keyRegCmd b acc p a
    | 0x52, 0x09 => keyRevokeCmd b acc p a
    | 0x52, 0x0A => queryCmd b acc p 0x0A a
    | 0x61, 0x01 => groupArmCmd b acc p a
    | 0x61, 0x02 => groupAbortCmd b acc p a
    | 0x64, 0x01 => progUnloadCmd b acc p a
    | 0x81, 0x01 => queueFlush b acc p a
    | _, _ => b

/-! ## WRITE -/

/-- A scalar write past its right and size (R43, R47). -/
def scalarWrite (b : Block) (acc : Access) (r : ObjRow) (idx sub v : Nat) : Block × Code :=
  match writeFault b r (fencedTnt b acc) idx sub v with
  | some c => (b, c)
  | none => (writeEffect b r idx sub v, .ok)

def opWrite (b : Block) (acc : Access) (idx sub size : Nat) (v : Word) : Block :=
  if dictReady b && objType idx sub == .cmd && (firstChecks b acc idx sub true).isNone && size == 3 then
    runCommand b acc idx sub v
  else
    let b := busAccess b
    if !dictReady b then answer b acc .busy
    else match firstChecks b acc idx sub true, objRow idx sub with
      | some c, _ => answer b acc c
      | none, none => b
      | none, some r =>
        if r.ty == .cmd || sizeOf4 size != some r.ty.size then answer b acc .type
        else
          let (b, c) := scalarWrite b acc r idx sub v.toNat
          answer b acc c

/-- The SIZE code of an object, for the rows that name the object and leave the size to it. -/
def sizeCode (idx sub : Nat) : Nat :=
  match (objType idx sub).size with
  | 1 => 0 | 2 => 1 | 4 => 2 | 8 => 3 | _ => 4

/-- Index `n` of a run of `span` indices; beyond it index 0, which is reserved, so that the access finds no object. -/
def objAt (base n span : Nat) : Nat := if n < span then base + n else 0

/-- A write of an object at its size. -/
def writeObj (b : Block) (acc : Access) (idx sub : Nat) (v : Word) : Block := opWrite b acc idx sub (sizeCode idx sub) v

/-- CMD_DONE and the reserved operation codes: TYPE after NOOBJ and NOSUB (R43, R66). -/
def opReserved (b : Block) (acc : Access) (idx sub op : Nat) : Block :=
  if op < 7 || 16 ≤ op then b
  else
    let b := busAccess b
    if !dictReady b then answer b acc .busy
    else match firstChecks b acc idx sub false with
      | some .noobj => answer b acc .noobj
      | some .nosub => answer b acc .nosub
      | c =>
        answer b acc (if c == some .rights && roleOf acc.path == .tnt && pathPid b acc.path == 0 then .rights else .type)

/-! ## BLOB transfers (R57-R60) -/

def ownerOf (b : Block) (p : Path) : Owner :=
  match p with
  | .host slot => .host slot
  | .tenant vf slot => .tenant vf slot (pidOfVf b vf)
  | .mctp eid _ => .mctp eid
  | .fabric chip _ => .fabric chip
  | .key => .key
  | .reed n => .reed n
  | .debug => .debug

def xfer (b : Block) (idx sub : Nat) : Option Transfer := find? b.dict.xfers (objKey idx sub)

def setXfer (b : Block) (idx sub : Nat) (t : Option Transfer) : Block :=
  { b with dict := { b.dict with xfers := match t with
      | some t => insert b.dict.xfers (objKey idx sub) t
      | none => erase b.dict.xfers (objKey idx sub) } }

def segments (n : Nat) : Nat := (n + 255) / 256

/-- The object validates its content: it has a result object (R60). -/
def validates (idx sub : Nat) : Bool := (objRow idx (sub + 0x80)).isSome

/-- An operation on a BLOB object past the dictionary's readiness, the checks of R43 up to TYPE, and, for a tenant's write
while the block is fenced, STATE. -/
def blobOp (b : Block) (acc : Access) (idx sub : Nat) (write : Bool) (f : Block → Block) : Block :=
  let b := busAccess b
  if !dictReady b && (write || !readyRead b idx sub) then answer b acc .busy
  else match firstChecks b acc idx sub write with
    | some c => answer b acc c
    | none =>
      if objType idx sub != .blob then answer b acc .type
      else f b

/-- A segment, close or abort of the owner, whatever answers it, starts the 100 ms of R59 again. -/
def touchXfer (b : Block) (acc : Access) (idx sub : Nat) : Block :=
  match xfer b idx sub with
  | some t => if t.owner == ownerOf b acc.path then setXfer b idx sub (some { t with last := b.clk.now }) else b
  | none => b

def blobBegin (b : Block) (acc : Access) (idx sub len : Nat) : Block :=
  blobOp b acc idx sub true fun b =>
    let top := ((objRow idx sub).map (·.dflt)).getD 0
    if fencedTnt b acc && (xfer b idx sub).isSome then answer b acc .state
    else match xfer b idx sub with
      | some _ => answer b acc .busy
      | none =>
        if len = 0 || top < len then answer b acc .range
        else if fencedTnt b acc then answer b acc .state
        else answer (setXfer b idx sub (some ⟨ownerOf b acc.path, acc, len, 0, 0, b.clk.now, none⟩)) acc .ok

/-- SEG, END and ABORT, in the order of R43: RANGE as `range` says of an open transfer of the owner's, STATE with no
transfer or for a tenant while the block is fenced, BUSY while it validates or belongs to another. -/
def blobOwned (b : Block) (acc : Access) (idx sub : Nat) (range : Transfer → Bool) (f : Block → Transfer → Block) : Block :=
  blobOp (touchXfer b acc idx sub) acc idx sub true fun b =>
    match xfer b idx sub with
    | none => answer b acc .state
    | some t =>
      let mine := t.validating.isNone && t.owner == ownerOf b acc.path
      if mine && range t then answer b acc .range
      else if fencedTnt b acc then answer b acc .state
      else if !mine then answer b acc .busy
      else f b t

/-- The segment is not the next one, or carries a bit past the length. One beyond the last segment is RANGE too, though
it is the next one (DESIGN CHOICE, log 38). -/
def segBad (n d : Nat) (t : Transfer) : Bool :=
  n ≠ t.nextSeg || segments t.len ≤ n || (t.len - 256 * n < 256 && d >>> (8 * (t.len - 256 * n)) ≠ 0)

def blobSeg (b : Block) (acc : Access) (idx sub n : Nat) (data : Bytes) : Block :=
  let d := data.val % 2 ^ 2048
  blobOwned b acc idx sub (segBad n d) fun b t =>
    answer (setXfer b idx sub (some { t with nextSeg := n + 1, content := t.content + (d <<< (2048 * n)) })) acc .ok

def blobAbort (b : Block) (acc : Access) (idx sub : Nat) : Block :=
  blobOwned b acc idx sub (fun _ => false) fun b _ => answer (setXfer b idx sub none) acc .ok

def blobRead (b : Block) (acc : Access) (idx sub n : Nat) : Block :=
  blobOp b acc idx sub false fun b =>
    let c := blobContent b idx sub
    if segments c.len ≤ n then answer b acc .range
    else respond b acc 0 .ok c.len (some (slice c.val (256 * n) (min 256 (c.len - 256 * n))))

/-! ### Validation -/

/-- Entry `l` of PACE_MAP: it offends at its first byte (05 R163), or with a reserved bit alone at that bit's byte (00 R8). -/
def paceSlotFault (b : Block) (c : Bytes) (l : Nat) : Option Nat :=
  let e := slice c.val (8 * l) 8
  let p := part b (paceOwner e)
  if (paceOwner e ≠ 0 && !isLive b (paceOwner e))
      || (paceSource e = 2 && (paceOwner e = 0 || bits e 0 16 < p.qpBase || p.qpBase + p.qpCount ≤ bits e 0 16)) then
    some (8 * l)
  else if !zeroBits e 17 7 then some (8 * l + 2)
  else ((List.range 4).find? fun k => !zeroBits e (24 + 8 * k) 8).map (8 * l + 3 + ·)

/-- PACE_MAP (05 R163). -/
def paceFault (b : Block) (c : Bytes) : Option Nat := (List.range 256).findSome? (paceSlotFault b c)

/-- The first offending byte of slot `k` of ROUTE_TABLE (06 R187). -/
def routeSlotFault (b : Block) (c : Bytes) (k : Nat) : Option Nat :=
  let e := slice c.val (2 * k) 2
  if 35 < bits e 6 6 then some (2 * k)
  else if !zeroBits e 12 3 || (bitAt e 15 && k / 16 == chipId b) then some (2 * k + 1)
  else none

def routeFault (b : Block) (c : Bytes) : Option Nat := (List.range ((c.len + 1) / 2)).findSome? (routeSlotFault b c)

/-- CREDIT_PEERS: the byte at which the limit of R243 is crossed. -/
def peersFault (b : Block) (c : Bytes) : Option Nat :=
  (List.range c.len).find? fun i => 5120 < popCount (c.val % 2 ^ (8 * (i + 1))) 4096 * sumFloors b

/-- ZONE_MAP (11 R374). -/
def zoneFault (b : Block) (c : Bytes) : Option Nat := (List.range c.len).find? fun i => b.straps.zones ≤ byteOf c.val i

/-- REDIRECT (13 R427): the offending field of an entry. -/
def redirectFault (b : Block) (c : Bytes) : Option Nat :=
  let e (i : Nat) : Nat := slice c.val (4 * i) 4
  (List.range 16).findSome? fun i =>
    if bitAt (e i) 31 && bits (e i) 0 12 = chipId b then some (4 * i)
    else if bitAt (e i) 31 && (bits (e i) 12 12 = chipId b
        || (List.range i).any fun j => bitAt (e j) 31 && bits (e j) 12 12 = bits (e i) 12 12) then some (4 * i + 1)
    else if !zeroBits (e i) 24 7 then some (4 * i + 3)
    else none

/-- The first offending byte of the content of a BLOB that validates. -/
def blobFault (b : Block) (idx sub : Nat) (c : Bytes) : Option Nat :=
  if idx = 0x1401 then minOf (imageFaults b c)
  else if idx = 0x4000 then paceFault b c
  else if idx = 0x5000 then routeFault b c
  else if idx = 0x5010 then peersFault b c
  else if idx = 0x8000 then zoneFault b c
  else if idx = 0xA000 then redirectFault b c
  else if (progNumber idx sub).isSome then programFault c
  else none

/-- New content takes the place of the old, with what the object's chapter adds. -/
def blobCommit (b : Block) (idx sub : Nat) (c : Bytes) : Block :=
  if idx = 0x1401 then storeImage b c
  else if idx = 0x4000 then
    let old := paceEntry b
    let b := wrBlob b idx sub c
    (List.range 256).foldl (fun b l => if paceEntry b l = old l then b else setPace b l (0, false)) b
  else if idx = 0x5010 then
    let old := (rdBlob b 0x5010 0x10).val
    grantCredit (peersChanged (wrBlob b idx sub c) old)
  else if idx = 0x5000 || idx = 0xA000 then retryHeld (wrBlob b idx sub c)
  else wrBlob b idx sub c

/-- BLOB_END (R57, R60): the content is committed, or its validation begins. -/
def blobEnd (b : Block) (acc : Access) (idx sub : Nat) : Block :=
  blobOwned b acc idx sub (fun _ => false) fun b t =>
    if t.nextSeg < segments t.len then answer b acc .state
    else if !validates idx sub then answer (setXfer (blobCommit b idx sub ⟨t.len, t.content⟩) idx sub none) acc .ok
    else if 256 ≤ b.dict.cmds.length then answer b acc .resource
    else
      let b := acceptCmd b acc idx sub 0
      setXfer b idx sub (some { t with validating := some b.dict.cmdSeq })

/-- A validation ends: the transfer is over and its result reads DONE; a PROG_UNLOAD of the program that was accepted
after its BLOB_END then takes effect (R53). -/
def validated (b : Block) (idx sub : Nat) (c : Code) (detail : Nat) : Block :=
  let b := finishCmd (setXfer b idx sub none) idx sub c detail
  if (progNumber idx sub).isSome then unloadWaiting b (idx % 256) else b

/-- A program that has passed validation becomes current once a version place is free (09 R304). -/
def loadProgram (b : Block) (pid n : Nat) (img : Bytes) : Block :=
  if progLimit b pid < n then validated b (0x6200 + pid) n .state 0
  else if placeFree b pid n then validated (makeCurrent b pid n img) (0x6200 + pid) n .ok 0
  else { b with cru := { b.cru with valid := b.cru.valid.filter (· != progKey pid n) ++ [progKey pid n] } }

/-- BLOB_VALIDATION_DONE. -/
def validationDone (b : Block) (idx sub : Nat) : Block :=
  match xfer b idx sub with
  | none => b
  | some t =>
    let c : Bytes := ⟨t.len, t.content⟩
    if t.validating.isNone || b.cru.valid.contains (progKey (idx % 256) sub) && (progNumber idx sub).isSome then b
    else match blobFault b idx sub c with
      | some off =>
        let b := if (progNumber idx sub).isSome then count b 0x6010 5 else b
        validated b idx sub .range off
      | none =>
        if (progNumber idx sub).isSome then loadProgram b (idx % 256) sub c
        else validated (blobCommit b idx sub c) idx sub .ok 0

/-- PROGRAM_MADE_CURRENT. -/
def programMadeCurrent (b : Block) (pid n : Nat) : Block :=
  if !b.cru.valid.contains (progKey pid n) || !(progNumber (0x6200 + pid) n).isSome then b
  else match xfer b (0x6200 + pid) n with
    | none => b
    | some t => loadProgram b pid n ⟨t.len, t.content⟩

/-- BLOB_ABANDON: 100 ms without an arrival from the owner (R59). -/
def blobAbandon (b : Block) (idx sub : Nat) : Block :=
  match xfer b idx sub with
  | some t =>
    if t.validating.isNone && elapsed b t.last (micros 100000) then count (setXfer b idx sub none) 0x1402 6 else b
  | none => b

/-! ## Rows -/

/-- COUNTER_WRITE (01 R34). -/
def execCounterWrite (acc : Access) (index sub size : Nat) (value : Word) (s : State) : Host.Outcome State Fault Refusal :=
  .next { s with dev := opWrite s.dev acc index sub size value }

/-- OP_READ (02 R45). -/
def execOpRead (acc : Access) (index sub size : Nat) (s : State) : Host.Outcome State Fault Refusal :=
  .next { s with dev := opRead s.dev acc index sub size }

/-- OP_WRITE (02 R45, R47). -/
def execOpWrite (acc : Access) (index sub size : Nat) (value : Word) (s : State) : Host.Outcome State Fault Refusal :=
  .next { s with dev := opWrite s.dev acc index sub size value }

/-- BLOB_BEGIN (02 R57). -/
def execBlobBegin (acc : Access) (index sub length : Nat) (s : State) : Host.Outcome State Fault Refusal :=
  .next { s with dev := blobBegin s.dev acc index sub length }

/-- BLOB_SEG (02 R57, R58). -/
def execBlobSeg (acc : Access) (index sub segment : Nat) (data : Bytes) (s : State) : Host.Outcome State Fault Refusal :=
  .next { s with dev := blobSeg s.dev acc index sub segment data }

/-- BLOB_END (02 R57, R60). -/
def execBlobEnd (acc : Access) (index sub : Nat) (s : State) : Host.Outcome State Fault Refusal :=
  .next { s with dev := blobEnd s.dev acc index sub }

/-- BLOB_READ (02 R57). -/
def execBlobRead (acc : Access) (index sub segment : Nat) (s : State) : Host.Outcome State Fault Refusal :=
  .next { s with dev := blobRead s.dev acc index sub segment }

/-- BLOB_ABORT (02 R57). -/
def execBlobAbort (acc : Access) (index sub : Nat) (s : State) : Host.Outcome State Fault Refusal :=
  .next { s with dev := blobAbort s.dev acc index sub }

/-- CMD_DONE and the reserved operations (02 R43, R66). -/
def execCmdDone (acc : Access) (index sub op : Nat) (s : State) : Host.Outcome State Fault Refusal :=
  .next { s with dev := opReserved s.dev acc index sub op }

/-- BLOB_VALIDATION_DONE (02 R57, R60). -/
def execBlobValidationDone (index sub : Nat) (s : State) : Host.Outcome State Fault Refusal :=
  .next { s with dev := validationDone s.dev index sub }

/-- BLOB_ABANDON (02 R59). -/
def execBlobAbandon (index sub : Nat) (s : State) : Host.Outcome State Fault Refusal :=
  .next { s with dev := blobAbandon s.dev index sub }

/-- PROGRAM_MADE_CURRENT (09 R304). -/
def execProgramMadeCurrent (pid prog : Nat) (s : State) : Host.Outcome State Fault Refusal :=
  .next { s with dev := programMadeCurrent s.dev pid prog }

/-- PERSIST_SAVE (02 R77). -/
def execPersistSave (acc : Access) (arg : Word) (s : State) : Host.Outcome State Fault Refusal :=
  .next { s with dev := persistSave s.dev acc arg.toNat }

/-- RESTORE_DEFAULTS (02 R78). -/
def execRestoreDefaults (acc : Access) (arg : Word) (s : State) : Host.Outcome State Fault Refusal :=
  .next { s with dev := restoreDefaults s.dev acc arg.toNat }

/-- FM_CHIP_WRITE (10 R316). -/
def execFmChipWrite (acc : Access) (value : Word) (s : State) : Host.Outcome State Fault Refusal :=
  .next { s with dev := writeObj s.dev acc 0x1400 1 value }

/-- LOG_ENABLE_WRITE (03 R114). -/
def execLogEnableWrite (acc : Access) (pid : Nat) (value : Word) (s : State) : Host.Outcome State Fault Refusal :=
  .next { s with dev := writeObj s.dev acc (objAt 0x2400 pid 64) 3 value }

/-- LADLE_ENABLE_WRITE (05 R174). -/
def execLadleEnableWrite (acc : Access) (c : Nat) (value : Word) (s : State) : Host.Outcome State Fault Refusal :=
  .next { s with dev := writeObj s.dev acc (objAt 0x4200 c 512) 3 value }

/-- LADLE_RING_CONFIG_WRITE (05 R152). -/
def execLadleRingConfigWrite (acc : Access) (c sub : Nat) (value : Word) (s : State) :
    Host.Outcome State Fault Refusal :=
  .next { s with dev := writeObj s.dev acc (objAt 0x4200 c 512) sub value }

/-- TRANSPORT_CONFIG_WRITE (06 R214). -/
def execTransportConfigWrite (acc : Access) (sub : Nat) (value : Word) (s : State) : Host.Outcome State Fault Refusal :=
  .next { s with dev := writeObj s.dev acc 0x5000 sub value }

/-- CREDIT_CONFIG_WRITE (07 R243). -/
def execCreditConfigWrite (acc : Access) (sub : Nat) (value : Word) (s : State) : Host.Outcome State Fault Refusal :=
  .next { s with dev := writeObj s.dev acc 0x5010 sub value }

/-- GROUP_LIMIT_WRITE (08 R249). -/
def execGroupLimitWrite (acc : Access) (pid : Nat) (value : Word) (s : State) : Host.Outcome State Fault Refusal :=
  .next { s with dev := writeObj s.dev acc (objAt 0x6100 pid 64) 0x40 value }

/-- PROG_LIMIT_WRITE (09 R302). -/
def execProgLimitWrite (acc : Access) (pid : Nat) (value : Word) (s : State) : Host.Outcome State Fault Refusal :=
  .next { s with dev := writeObj s.dev acc (objAt 0x6400 pid 64) 0x20 value }

/-- SPILL_RANGE_WRITE (10 R332). -/
def execSpillRangeWrite (acc : Access) (pid : Nat) (value : Word) (s : State) : Host.Outcome State Fault Refusal :=
  .next { s with dev := writeObj s.dev acc (objAt 0x7100 pid 64) 1 value }

/-- IDE_STREAM_WRITE (10 R341). -/
def execIdeStreamWrite (acc : Access) (pid : Nat) (value : Word) (s : State) : Host.Outcome State Fault Refusal :=
  .next { s with dev := writeObj s.dev acc (objAt 0x7100 pid 64) 7 value }

/-- CHANTER_RING_CONFIG_WRITE (11 R374). -/
def execChanterRingConfigWrite (acc : Access) (pid sub : Nat) (value : Word) (s : State) :
    Host.Outcome State Fault Refusal :=
  .next { s with dev := writeObj s.dev acc (objAt 0x8100 pid 64) sub value }

/-- FAULT_SOURCE_CONFIG_WRITE (12 R380). -/
def execFaultSourceConfigWrite (acc : Access) (source sub : Nat) (value : Word) (s : State) :
    Host.Outcome State Fault Refusal :=
  .next { s with dev := writeObj s.dev acc (objAt 0x9200 source 28) sub value }

/-- INJECT_MODE_WRITE (12 R407). -/
def execInjectModeWrite (acc : Access) (value : Word) (s : State) : Host.Outcome State Fault Refusal :=
  .next { s with dev := writeObj s.dev acc 0xF000 1 value }

/-- INJECT_LOCK_WRITE (12 R407). -/
def execInjectLockWrite (acc : Access) (value : Word) (s : State) : Host.Outcome State Fault Refusal :=
  .next { s with dev := writeObj s.dev acc 0xF000 2 value }

/-- MIRROR_ENABLE_WRITE (13 R421). -/
def execMirrorEnableWrite (acc : Access) (pid : Nat) (value : Word) (s : State) : Host.Outcome State Fault Refusal :=
  .next { s with dev := writeObj s.dev acc (objAt 0xA100 pid 64) 1 value }

/-- PARTNER_CHIP_WRITE (13 R430). -/
def execPartnerChipWrite (acc : Access) (sub : Nat) (value : Word) (s : State) : Host.Outcome State Fault Refusal :=
  .next { s with dev := writeObj s.dev acc 0xA000 sub value }

/-- SHADOW_MAPPING_WRITE (13 R422). -/
def execShadowMappingWrite (acc : Access) (pid sub : Nat) (value : Word) (s : State) :
    Host.Outcome State Fault Refusal :=
  .next { s with dev := writeObj s.dev acc (objAt 0xA200 pid 64) sub value }

end Sys2Proof.Machine
end

