-- ==== Sys2Proof/Machine/Paths.lean ====
section
/-! DEFINITION. The paths of an access: requests by operation code, the access records of MCTP and DICT with the responses
kept for them, the MCTP control messages, and the BARs of the functions: dictionary slots, status page, MSI-X tables,
doorbells and the invalidation window (02 R61-R72; 03 R104-R106; 10 R341). -/

namespace Sys2Proof.Machine

/-! ## A request (02 R64, Tables 2-7, 2-9) -/

def reqSeq (w : Nat) : Nat := bits w 0 16

def reqOp (w : Nat) : Nat := bits w 36 4

/-- Performs the access that a request word, a data word and a segment name. The reserved bits of the request word
(REQ[30:28]), of a BLOB_BEGIN's data word (WDATA[63:32]) and of an access record's second byte are ignored (DESIGN CHOICE,
log 39). -/
def performReq (b : Block) (p : Path) (w : Nat) (data : Word) (seg : Nat) : Block :=
  let acc : Access := ⟨p, bitAt w 31, reqSeq w⟩
  let idx := bits w 48 16
  let sub := bits w 40 8
  let n := bits w 16 12
  match reqOp w with
  | 0 => opRead b acc idx sub (bits w 32 4)
  | 1 => opWrite b acc idx sub (bits w 32 4) data
  | 2 => blobBegin b acc idx sub (bits data.toNat 0 32)
  | 3 => blobSeg b acc idx sub n ⟨256, seg⟩
  | 4 => blobEnd b acc idx sub
  | 5 => blobRead b acc idx sub n
  | 6 => blobAbort b acc idx sub
  | op => opReserved b acc idx sub op

/-! ## Remote paths (R68-R72) -/

/-- A request record with KIND, VERSION and length as R69 asks. -/
def recordOk (r : Bytes) : Bool :=
  byteOf r.val 0 == 1 && byteOf r.val 1 == 1 && 24 ≤ r.len
    && r.len == (if reqOp (slice r.val 8 8) = 3 then 280 else 24)

/-- A request of a remote path: a kept response is sent again, else the access is performed. -/
def remoteRequest (b : Block) (p : Path) (r : Bytes) : Block :=
  let w := slice r.val 8 8
  let l : List Kept := match keptKey p with
    | some k => look b.dict.kept [] k
    | none => []
  match l.find? (·.seq == reqSeq w) with
  | some k => sendRecord (count b 0x1402 4) p false (accessRecord 2 k.resp k.data k.seg)
  | none => performReq b p w (BitVec.ofNat 64 (slice r.val 16 8)) (slice r.val 24 256)

/-- MCTP_MESSAGE (R67, R69): before an endpoint ID is assigned no message reaches the bridge (R48). A message of another
type than 0x7E is counted in 0x1402.02 with those whose vendor ID is not 0x2E5B (DESIGN CHOICE, log 40). -/
def mctpMessage (b : Block) (eid tag : Nat) (ic : Bool) (body : Bytes) : Block :=
  let r := bytesSlice body 3 (body.len - 3)
  if rd b 0x1402 1 = 0 then b
  else if ic || slice body.val 0 3 ≠ 0x5B2E7E || !recordOk r then count b 0x1402 2
  else remoteRequest b (.mctp eid tag) r

/-- A response to an MCTP control message, laid out as DSP0236 has it (PRESUMED, log 16): type 0x00, instance, command,
completion code 0, data. -/
def mctpControl (b : Block) (src tag inst cmd : Nat) (data : Bytes) : Block :=
  emit b (.mctp src tag false (bytesAppend ⟨4, ((inst % 32) <<< 8) + (cmd <<< 16)⟩ data))

def setEid (b : Block) (src tag inst eid : Nat) : Block :=
  let b := wr b 0x1402 1 (eid % 256)
  mctpControl b src tag inst 1 ⟨3, (eid % 256) <<< 8⟩

/-- A DICT packet past the checks of R70 and R316; it takes one of the bridge's 8 places until its response is framed
(06 R186). -/
def dictPacket (b : Block) (chip port ctr : Nat) (r : Bytes) : Block :=
  let drop := count b 0x1402 3
  let (hi, map) := look b.dict.dictWin (0, 0) port
  let known := (find? b.dict.dictWin port).isSome
  let old := known && (ctr = hi || (ctr < hi && (64 < hi - ctr || map.testBit (hi - ctr - 1))))
  let next : Nat × Nat :=
    if !known then (ctr, 0)
    else if hi < ctr then (ctr, if ctr - hi ≤ 64 then ((map <<< (ctr - hi)) + 2 ^ (ctr - hi - 1)) % 2 ^ 64 else 0)
    else (hi, map + 2 ^ (hi - ctr - 1))
  if rd b 0x1400 1 = 0xFFFF || chip ≠ rd b 0x1400 1 || !recordOk r || old || 8 ≤ b.dict.places then drop
  else
    let b := { b with dict := { b.dict with
      dictWin := insert b.dict.dictWin port next, places := b.dict.places + 1 } }
    remoteRequest b (.fabric chip port) r

/-! ## MSI-X tables (03 R104) -/

def vectorOf (b : Block) (fn vec : Nat) : Vector := look b.ptb.msix freshVector (fn * 256 + vec)

def vectorNum (v : Vector) : Nat := v.addr.toNat + (v.data.toNat <<< 64) + (v.ctrl.toNat <<< 96)

/-- A write to the table: unmasking a vector that is pending sends its message (PRESUMED PCIe, log 8). -/
def vectorWrite (b : Block) (fn off width v : Nat) : Block :=
  let vec := off / 16
  let old := vectorOf b fn vec
  let n := patch (vectorNum old) (off % 16) (min width (16 - off % 16)) v
  let new : Vector := ⟨BitVec.ofNat 64 n, BitVec.ofNat 32 (n >>> 64), BitVec.ofNat 32 (n >>> 96), old.pend⟩
  let send := old.pend && !new.ctrl.toNat.testBit 0
  let new := if send then { new with pend := false } else new
  let b := { b with ptb := { b.ptb with msix := store b.ptb.msix freshVector (fn * 256 + vec) new } }
  if send then msix b fn vec else b

def pendingBits (b : Block) (fn n : Nat) : Nat :=
  ((List.range n).filter fun v => (vectorOf b fn v).pend).foldl (fun m v => m + 2 ^ v) 0

/-! ## Dictionary slots (02 R61-R63, Table 2-6) -/

/-- The path of a function's slot. -/
def slotPath (fn slot : Nat) : Path := if fn = 0 then .host slot else .tenant fn slot

/-- A write shorter than 8 bytes to REQ: RESP reads TYPE with SEQ 0 (R62). -/
def shortReq (b : Block) (fn slot : Nat) : Block :=
  setSlot b fn slot { slotOf b fn slot with resp := respWord 0 .type 0 }

def slotWrite (b : Block) (fn slot off width : Nat) (v : Word) : Block :=
  let s := slotOf b fn slot
  if off = 0 && width = 8 then performReq b (slotPath fn slot) v.toNat s.wdata s.seg
  else if off < 8 then shortReq b fn slot
  else if off < 0x10 then
    setSlot b fn slot { s with wdata := BitVec.ofNat 64 (patch s.wdata.toNat (off - 8) (min width (16 - off)) v.toNat) }
  else if 0x100 ≤ off then
    setSlot b fn slot { s with seg := patch s.seg (off - 0x100) (min width (0x200 - off)) v.toNat % 2 ^ 2048 }
  else b

/-- What software reads of a slot. -/
def slotNum (s : Slot) : Nat :=
  (s.wdata.toNat <<< 64) + (s.resp.toNat <<< 128) + (s.rdata.toNat <<< 192) + (s.seg <<< 2048)

/-! ## BARs (03 Tables 3-8 to 3-10) -/

/-- The status page; of a function bound to no partition it reads zero (R106). -/
def statusPage (b : Block) (vf : Nat) : Nat :=
  let pid := pidOfVf b vf
  if pid = 0 then 0
  else
    let p := part b pid
    pCode p.st + (look b.ptb.tdisp 0 vf <<< 16) + (p.cause <<< 24) + (ofBool (!partServed b pid) <<< 32)
      + ((b.clk.now % 2 ^ 64) <<< 64)

/-- A read of a BAR. -/
def barRead (b : Block) (fn off width : Nat) : Nat :=
  let within (lo n : Nat) : Bool := lo ≤ off && off < lo + n
  if within 0 (if fn = 0 then 0x8000 else 0x1000) then slice (slotNum (slotOf b fn (off / 512))) (off % 512) width
  else if fn = 0 then
    if within 0x8000 0x1000 then slice (vectorNum (vectorOf b 0 ((off - 0x8000) / 16))) (off % 16) width
    else if within 0x9000 0x20 then slice (pendingBits b 0 256) (off - 0x9000) width
    else if within 0x10000 0x10000 && 0x10 ≤ off % 256 && off % 256 < 0x18 then
      slice (doneWord (invSlot b (off / 256 % 256))) (off % 256 - 0x10) width
    else 0
  else if within 0x1000 0x10 then slice (statusPage b fn) (off - 0x1000) width
  else if within 0x2000 0x400 then slice (vectorNum (vectorOf b fn ((off - 0x2000) / 16))) (off % 16) width
  else if within 0x3000 8 then slice (pendingBits b fn 64) (off - 0x3000) width
  else 0

/-- A doorbell takes effect only as one aligned 8-byte write (R105). -/
def doorbellWrite (b : Block) (vf off width : Nat) (run : Block → Nat → Block) : Block :=
  if off % 8 = 0 && width = 8 then run b (off / 8) else doorbellDiscard b (pidOfVf b vf)

/-- A write to a BAR. -/
def barWrite (b : Block) (fn off width : Nat) (v : Word) : Block :=
  let within (lo n : Nat) : Bool := lo ≤ off && off < lo + n
  if fn = 0 then
    if within 0 0x8000 then slotWrite b 0 (off / 512) (off % 512) width v
    else if within 0x8000 0x1000 then vectorWrite b 0 (off - 0x8000) width v.toNat
    else if within 0x10000 0x10000 then invWrite b (off / 256 % 256) (off % 256) ⟨width, v.toNat⟩
    else b
  else if pidOfVf b fn = 0 then
    if within 0 0x1000 && off % 512 = 0 && width = 8 then slotWrite b fn (off / 512) 0 8 v else count b 0x2000 7
  else if within 0 0x1000 then slotWrite b fn (off / 512) (off % 512) width v
  else if within 0x2000 0x400 then vectorWrite b fn (off - 0x2000) width v.toNat
  else if within 0x4000 0x1000 then doorbellWrite b fn (off - 0x4000) width fun b i => chanDoorbell b fn i v
  else if within 0x5000 0x40 then doorbellWrite b fn (off - 0x5000) width fun b q => stepDoorbell b fn q v
  else if within 0x80000 0x80000 then doorbellWrite b fn (off - 0x80000) width fun b i => qpDoorbell b fn i v
  else b

/-- Is the TLP admitted (R341): while the sealed partition's VF is RUN, only on IDE_STREAM with T set? -/
def tlpAdmitted (b : Block) (fn : Nat) (tbit : Bool) (stream : Nat) : Bool :=
  let pid := pidOfVf b fn
  let s := rd b (0x7100 + pid) 7
  !(isSealed b pid && look b.ptb.tdisp 0 fn == 2) || (tbit && stream == s && s != 0xFF)

/-- A TLP of a function's BAR: function 0 is the physical function. -/
def tlp (b : Block) (fn : Nat) (posted tbit : Bool) (stream off width : Nat) (v : Word) : Block :=
  if !tlpAdmitted b fn tbit stream then
    let b := count b 0x7000 0x14
    if posted then b else emit b (.unsupportedRequest fn)
  else if posted then barWrite b fn off width v
  else emit b (.barData fn ⟨width, barRead b fn off width⟩)

/-- Is the offset in a dictionary window, whose accesses the host bridge answers also in Hold (R49)? -/
def inWindow (fn off : Nat) : Bool := off < if fn = 0 then 0x8000 else 0x1000

def tlpOk (fn off width : Nat) : Bool := fn < 64 && 1 ≤ width && width ≤ 8 && off + width ≤ 2 ^ 20

/-- TLP_RECEIVE: any access to a BAR wakes the block (14 Table 14-6, code 1). -/
def tlpReceive (b : Block) (fn : Nat) (posted tbit : Bool) (stream off width : Nat) (v : Word) : Block :=
  if !tlpOk fn off width then b
  else if inWindow fn off then tlp (wakeBy b 1) fn posted tbit stream off width v
  else wakeEvent b 1 (.tlpReceive fn posted tbit stream off width v) fun b => tlp b fn posted tbit stream off width v

/-- UNBOUND_VF_WRITE (03 R106). -/
def unboundWrite (b : Block) (vf off width : Nat) (v : Word) : Block :=
  if vf = 0 || !tlpOk vf off width || pidOfVf b vf ≠ 0 then b
  else if inWindow vf off then barWrite (wakeBy b 1) vf off width v
  else wakeEvent b 1 (.unboundVfWrite vf off width v) fun b => barWrite b vf off width v

/-- REQ_SHORT_WRITE (02 R62). The row gives the write no T bit and no IDE stream, so that a sealed partition in RUN
discards it (R341). -/
def reqShortWrite (b : Block) (fn slot width : Nat) : Block :=
  if 64 ≤ fn || (if fn = 0 then 64 else 8) ≤ slot || width = 0 || 8 ≤ width then b
  else tlp (wakeBy b 1) fn true false 0xFF (slot * 512) width 0

/-! ## Rows -/

/-- REQ_SHORT_WRITE (02 R62). -/
def execReqShortWrite (fn slot width : Nat) (s : State) : Host.Outcome State Fault Refusal :=
  .next { s with dev := reqShortWrite s.dev fn slot width }

/-- MCTP_MESSAGE (02 R69). -/
def execMctpMessage (eid tag : Nat) (ic : Bool) (body : Bytes) (s : State) : Host.Outcome State Fault Refusal :=
  .next { s with dev := mctpMessage s.dev eid tag ic body }

/-- SET_ENDPOINT_ID (02 R67). -/
def execSetEndpointId (src tag inst eid : Nat) (s : State) : Host.Outcome State Fault Refusal :=
  .next { s with dev := setEid s.dev src tag inst eid }

/-- GET_ENDPOINT_ID (02 R67): the endpoint ID, a simple endpoint, nothing specific to the medium. -/
def execGetEndpointId (src tag inst : Nat) (s : State) : Host.Outcome State Fault Refusal :=
  .next { s with dev := mctpControl s.dev src tag inst 2 ⟨3, rd s.dev 0x1402 1⟩ }

/-- GET_MCTP_VERSION_SUPPORT (02 R67): one version, 1.3. -/
def execGetMctpVersionSupport (src tag inst : Nat) (s : State) : Host.Outcome State Fault Refusal :=
  .next { s with dev := mctpControl s.dev src tag inst 4 ⟨5, 1 + (0x00FFF3F1 <<< 8)⟩ }

/-- GET_MESSAGE_TYPE_SUPPORT (02 R67): one type, 0x7E. -/
def execGetMessageTypeSupport (src tag inst : Nat) (s : State) : Host.Outcome State Fault Refusal :=
  .next { s with dev := mctpControl s.dev src tag inst 5 ⟨2, 0x7E01⟩ }

/-- GET_VENDOR_DEFINED_MESSAGE_SUPPORT (02 R67): the last set, a PCI vendor ID, 0x2E5B. -/
def execGetVendorDefinedMessageSupport (src tag inst : Nat) (s : State) : Host.Outcome State Fault Refusal :=
  .next { s with dev := mctpControl s.dev src tag inst 6 ⟨6, 0xFF + (0x5B2E <<< 16)⟩ }

/-- UNBOUND_VF_WRITE (03 R106). -/
def execUnboundVfWrite (vf offset width : Nat) (value : Word) (s : State) : Host.Outcome State Fault Refusal :=
  .next { s with dev := unboundWrite s.dev vf offset width value }

/-- TLP_RECEIVE (10 R341). -/
def execTlpReceive (vf : Nat) (posted tbit : Bool) (stream offset width : Nat) (value : Word) (s : State) :
    Host.Outcome State Fault Refusal :=
  .next { s with dev := tlpReceive s.dev vf posted tbit stream offset width value }

end Sys2Proof.Machine
end

