-- ==== Sys2Proof/Machine/Receive.lean ====
section
/-! DEFINITION. An arriving frame: checks 1 to 4 of Table 6-13, the Seal, and where each type goes
(06 R179-R186, R197, R210; 10 R315; 12 R393; R443). -/

namespace Sys2Proof.Machine

/-! ## Check 2: the seal (10 R313, R315) -/

def sealAad (iv : Nat) : Bytes := ⟨12, swapBytes iv 12⟩

/-- Does the tag verify under a Link Job Key? -/
def sealOk (k : Nat) (f : Frame) : Bool :=
  gcmTag (linkKey k) f.iv.toNat (sealAad f.iv.toNat) f.body == f.tag.toNat

/-- The keys a frame is tried under, in order: current, next, previous. -/
def linkKeys (b : Block) : List (Bool × Nat) :=
  let some1 (o : Bool) (k : Option Nat) : List (Bool × Nat) := match k with
    | some k => [(o, k)]
    | none => []
  some1 false b.ring.linkCur ++ some1 true b.ring.linkNext ++ some1 true b.ring.linkPrev

/-! ## Check 3: the packet (06 R180-R186) -/

/-- A packet that has passed check 2: header, extension and payload. -/
structure Packet where
  head : Bth
  /-- DST_CHIP is ALIAS_CHIP (13 R426). -/
  aliased : Bool
  ext : Nat
  pay : Bytes
deriving DecidableEq, Repr

/-- Payload bytes the type allows, and PAY_LEN where the type carries it (Tables 6-3, 6-4). -/
def lengthOk (typ ext : Nat) (pay : Bytes) : Bool :=
  let data : Bool := 64 ≤ pay.len && pay.len ≤ 4096
  let x := if typ = tREDUCE then ext >>> 64 else ext
  if typ = tWRITE || typ = tREDUCE || typ = tREADRESP then data && bits x 19 13 == pay.len
  else if typ = tREADREQ then pay.len == 0 && bits ext 19 13 == 0
  else if typ = tDICT then pay.len == 24 || pay.len == 280
  else if typ = tMIRROR then data
  else pay.len == 0

/-- The reserved fields of the extension are zero; a reserved AOP counts as one (R184). -/
def extOk (typ ext : Nat) : Bool :=
  let dxh (x : Nat) (np : Bool) : Bool := zeroBits x 112 4 && zeroBits x 6 13 && (np || zeroBits x 0 6)
  if typ = tWRITE then dxh ext false
  else if typ = tREDUCE then dxh (ext >>> 64) false && zeroBits ext 0 28
  else if typ = tREADREQ then dxh ext true
  else if typ = tREADRESP then dxh ext false && zeroBits ext 116 76
  else if typ = tATOMIC then
    zeroBits ext 176 4 && zeroBits ext 160 12 && zeroBits ext 128 16 && bits ext 172 4 ≤ 2
      && (bits ext 172 4 == 1 || zeroBits ext 0 64)
  else if typ = tATOMICRESP then zeroBits ext 0 64
  else if typ = tNAK then zeroBits ext 0 56
  else if typ = tSEALNAK then zeroBits ext 0 32
  else true

/-- The reserved fields of the BTH are zero (R180, R181). -/
def headOk (n : Nat) : Bool :=
  let t := bits n 124 4
  let queued := !(t == tCREDIT || t == tDICT || t == tMIRROR || t == tSEALNAK)
  bits n 120 4 == 1 && zeroBits n 112 2 && zeroBits n 0 8
    && (creditType t || zeroBits n 118 2)
    && (requestType t || zeroBits n 114 4)
    && (queued || (zeroBits n 32 56 && zeroBits n 8 8))

/-- Check 3 on the plain text. -/
def parsePacket (b : Block) (t : Bytes) : Option Packet :=
  let n := swapBytes (slice t.val 0 16) 16
  match extLen (bits n 124 4) with
  | none => none
  | some e =>
    let h := bthOf n
    let ext := swapBytes (slice t.val 16 e) e
    let pay := bytesSlice t (16 + e) (t.len - 16 - e)
    let own : Bool := h.dst == chipId b
    let ali : Bool := rd b 0xA000 0x11 != 0xFFFF && h.dst == rd b 0xA000 0x11
    if t.len < 16 + e || !headOk n || !(own || ali) || !lengthOk h.typ ext pay || !extOk h.typ ext then none
    else some ⟨h, !own, ext, pay⟩

/-! ## Checks 1 to 3 -/

/-- What checks 1 to 3 come to. `other`: it verified under the next or the previous key. -/
inductive Verdict where
  | noType | noKey | badSeal
  | malformed (other : Bool)
  | packet (other : Bool) (p : Packet)
deriving DecidableEq, Repr

def verdict (b : Block) (f : Frame) : Verdict :=
  if f.etherType.toNat ≠ rd b 0x5000 2 then .noType
  else match linkKeys b with
    | [] => .noKey
    | ks => match ks.find? fun k => sealOk k.2 f with
      | none => .badSeal
      | some k => match parsePacket b (gcmCrypt (linkKey k.2) f.iv.toNat f.body) with
        | none => .malformed k.1
        | some p => .packet k.1 p

/-- A SEAL_NAK with the failed header goes out by the port that received the frame, to the chip and port the header
names, if that port can send it (R210; 12 R398). -/
def sendSealNak (b : Block) (p iv : Nat) : Block :=
  if !portLive b p || b.ring.linkCur.isNone || onlyDict b then b
  else
    let chip := bits iv 84 12
    let h := { bth0 tSEALNAK 0 with src := chipId b, dst := chip }
    let t := { blankTx with chip := chip, body := plain h (iv <<< 32) 16 ⟨0, 0⟩, port := p, rport := bits iv 78 6 }
    setPort b p { port b p with queue := (port b p).queue ++ [t] }

/-! ## Check 4 and what follows -/

/-- A request while the Transport Engine's domain is not in service: the port pipe answers NAK FENCED (R443). The
generation its peer's context has is known to the queue pair alone: it is a free value (log 3). -/
def fencedNak (b : Block) (h : Bth) : Block :=
  let (g, b) := draw b
  let (e, b) := nextEntropy b
  let n := { bth0 tNAK h.psn with src := h.dst, srcQp := h.dstQp, dst := h.src, dstQp := h.srcQp, gen := g % 256
                                  entropy := e }
  enqueue b { blankTx with chip := h.src, psn := h.psn, entropy := e, dstQp := h.srcQp
                           body := plain n (statusCode .fenced <<< 56) 8 ⟨0, 0⟩ }

/-- A packet that has passed check 4. Its payload meets the port pipe's check point: a DICT or MIRROR packet with a flit that
cannot be corrected is dropped there (DESIGN CHOICE, log 30). -/
def deliver (b : Block) (p ctr sender : Nat) (k : Packet) : Block :=
  let h := k.head
  if h.typ = tCREDIT then takeCredit b h.src k.ext
  else if h.typ = tDICT then
    match checkFlits b (uPP p) 1 0 0 ((k.pay.len + 63) / 64) with
    | (b, 0) => dictPacket (busAccess b) h.src sender ctr k.pay
    | (b, _) => b
  else if h.typ = tSEALNAK then takeSealNak b (k.ext >>> 32)
  else if h.typ = tMIRROR then
    match creditArrival b p h.src 3 with
    | (b, false) => b
    | (b, true) =>
      match checkFlits b (uPP p) 1 0 0 ((k.pay.len + 63) / 64) with
      | (b, 0) => freeSlot (mirrorArrival b h.src k.pay)
      | (b, _) => freeSlot b
  else
    let (b, taken) := if creditType h.typ then creditArrival b p h.src h.tc else (b, true)
    let (b, poison) := checkFlits b (uPP p) 1 0 0 ((k.pay.len + 63) / 64)
    if !taken then b
    else if !served b uTPE then (if requestType h.typ then freeSlot (fencedNak b h) else b)
    else pumpEngines (qpArrival b p k.aliased h k.ext k.pay poison)

/-- Bytes of an arriving frame (Table 6-1). -/
def arrivedBytes (f : Frame) : Nat := 14 + (if f.vlan.isSome then 4 else 0) + 12 + f.body.len + 16 + 4

/-- Counts of an arriving frame. -/
def countArrival (b : Block) (p : Nat) (f : Frame) : Block :=
  addTo (count b (0x5100 + p) 3) (0x5100 + p) 5 (arrivedBytes f)

/-- A port pipe receives: its link is up, and its domain is in service, or fenced with the block (then DICT alone). -/
def receives (b : Block) (p : Nat) : Bool :=
  portLive b p && !(port b p).realigning && (served b (uPP p) || (domain b (uPP p)).st == .blockFenced)

/-- An arriving frame: the packet in it says what it is, so that every RX row acts alike and a held frame is kept under
the first of them. In Hold a frame that passes check 4 wakes the block and is held, CREDIT and SEAL_NAK excepted, which
are handled at once; a dictionary access is answered at once too (14 R439, R440; 02 R49). -/
def receive (b : Block) (p : Nat) (f : Frame) : Block :=
  if !receives b p then b
  else
    let n := 0x5100 + p
    let iv := f.iv.toNat
    let other (o : Bool) (b : Block) : Block := if o then count b 0x7000 0x15 else b
    match verdict b f with
    | .noType => count (countArrival b p f) n 0x0A
    | .noKey => count (countArrival b p f) n 0x0B
    | .badSeal => secAlarm (sendSealNak (count (countArrival b p f) n 0x0B) p iv) 1 [] p 0 (uPP p)
    | .malformed o => raiseFree (count (other o (countArrival b p f)) n 9) 10 (uPP p) 0
    | .packet o k =>
      let front : Bool := k.head.typ == tCREDIT || k.head.typ == tSEALNAK
      let now (b : Block) : Block := deliver (other o (countArrival b p f)) p (bits iv 0 78) (bits iv 78 6) k
      if k.head.typ == tDICT then now (wakeBy b 2)
      else if rd b 0x9000 1 != 0 then other o (countArrival b p f)
      else if front then now b
      else wakeEvent b 2 (.rxWrite p f) now

/-! ## Rows -/

/-- RX_WRITE (R197). -/
def execRxWrite (port : Nat) (frame : Frame) (s : State) : Host.Outcome State Fault Refusal :=
  .next { s with dev := receive s.dev port frame }

/-- RX_REDUCE (R197). -/
def execRxReduce (port : Nat) (frame : Frame) (s : State) : Host.Outcome State Fault Refusal :=
  .next { s with dev := receive s.dev port frame }

/-- RX_READ_REQ (R197, R205). -/
def execRxReadReq (port : Nat) (frame : Frame) (s : State) : Host.Outcome State Fault Refusal :=
  .next { s with dev := receive s.dev port frame }

/-- RX_READ_RESP (R206). -/
def execRxReadResp (port : Nat) (frame : Frame) (s : State) : Host.Outcome State Fault Refusal :=
  .next { s with dev := receive s.dev port frame }

/-- RX_ATOMIC (R207). -/
def execRxAtomic (port : Nat) (frame : Frame) (s : State) : Host.Outcome State Fault Refusal :=
  .next { s with dev := receive s.dev port frame }

/-- RX_ATOMIC_RESP (R207). -/
def execRxAtomicResp (port : Nat) (frame : Frame) (s : State) : Host.Outcome State Fault Refusal :=
  .next { s with dev := receive s.dev port frame }

/-- RX_ACK (R201). -/
def execRxAck (port : Nat) (frame : Frame) (s : State) : Host.Outcome State Fault Refusal :=
  .next { s with dev := receive s.dev port frame }

/-- RX_NAK (R209). -/
def execRxNak (port : Nat) (frame : Frame) (s : State) : Host.Outcome State Fault Refusal :=
  .next { s with dev := receive s.dev port frame }

/-- RX_CREDIT (R239). -/
def execRxCredit (port : Nat) (frame : Frame) (s : State) : Host.Outcome State Fault Refusal :=
  .next { s with dev := receive s.dev port frame }

/-- RX_DICT (R186). -/
def execRxDict (port : Nat) (frame : Frame) (s : State) : Host.Outcome State Fault Refusal :=
  .next { s with dev := receive s.dev port frame }

/-- RX_MIRROR (R412). -/
def execRxMirror (port : Nat) (frame : Frame) (s : State) : Host.Outcome State Fault Refusal :=
  .next { s with dev := receive s.dev port frame }

/-- RX_SEAL_NAK (R210). -/
def execRxSealNak (port : Nat) (frame : Frame) (s : State) : Host.Outcome State Fault Refusal :=
  .next { s with dev := receive s.dev port frame }

/-- RX_MALFORMED_FRAME (R197). -/
def execRxMalformedFrame (port : Nat) (frame : Frame) (s : State) : Host.Outcome State Fault Refusal :=
  .next { s with dev := receive s.dev port frame }

end Sys2Proof.Machine
end

