-- ==== Sys2Proof/Machine/Wake.lean ====
section
/-! DEFINITION. The end of a wake, with the events it held, and what one cycle of local time does
(01 R22; 11 R357; 12 R401, R402; 14 R438-R441). -/

namespace Sys2Proof.Machine

/-! ## The wake (R440, R441) -/

/-- A held event is performed as if it had arrived now; a request of a cluster was presented when EQ_READY was high. -/
def replay (b : Block) (i : Instr) : Block :=
  match i with
  | .stepDoorbell vf queue word => stepDoorbell b vf queue word
  | .submission es desc => submission b es desc
  | .read es va beats => atStation b es fun b => engineMem b es 0 va beats 0 0
  | .write es va beats data => atStation b es fun b => engineMem b es 1 va beats data.val 0
  | .fetchAdd es va beats addend => atStation b es fun b => engineMem b es 2 va beats addend.toNat 0
  | .cmpSwap es va beats new compare => atStation b es fun b => engineMem b es 3 va beats new.toNat compare.toNat
  | .swap es va beats value => atStation b es fun b => engineMem b es 4 va beats value.toNat 0
  | .pace es va => atStation b es fun b => engineCtl b es 8 va
  | .commit es => atStation b es fun b => engineCtl b es 9 0
  | .post es va word => atStation b es fun b => enginePost b es va word.toNat
  | .reservedEqOp es op => atStation b es fun b => engineReserved b es op
  | .fcuEvent => fcuEvent b
  | .abort via => abortRow b via
  | .resume via => resumeRow b via
  | .kick vf rel word => chanDoorbell b vf rel word
  | .paceDoorbell vf rel word => chanDoorbell b vf rel word
  | .tdispStateChange vf code => tdispChange b vf code
  | .tlpReceive fn posted tbit stream off width v => tlp b fn posted tbit stream off width v
  | .unboundVfWrite vf off width v => barWrite b vf off width v
  | .sqTail vf rel word => qpDoorbell b vf rel word
  | .cqCons vf rel word => qpDoorbell b vf rel word
  | .cqArm vf rel word => qpDoorbell b vf rel word
  | .linkUpFall p => linkDown b p
  | .linkUpRise p deg => linkUp b p deg
  | .linkDegradedChange p deg => linkDegraded b p deg
  | .invalidationRecord slot offset data => invWrite b slot offset data
  | .doneClear slot width value => doneClear b slot width value.toNat
  | .rxWrite p f => receive b p f
  | _ => b

/-- WAKE_COMPLETE: POWER_STATE is RUN; the credit transitions that waited are made, and the held events performed in
the order they came. -/
def wakeComplete (b : Block) : Block :=
  if rd b 0xC000 6 ≠ 3 then b
  else
    let l := b.held
    let b := wr { b with held := [] } 0xC000 6 0
    let b := grantCredit ((b.tpe.rxCredit.map (·.1)).foldl quietEnd b)
    l.foldl replay b

/-! ## One cycle of local time -/

/-- A cycle passes with nothing commanded: the engines' answers that are due are given, the Ladle has new beat slots, the
invalidations whose tiles are answered finish, the Chanter's accounts and the Drones' windows run, and local time advances
(log 4). -/
def idleBlock (b : Block) : Block :=
  if !b.clk.released then b
  else
    let b := droneTick (chanterTick (pumpInv (ladleCycle (pumpEngines b))))
    let b := if rd b 0xC000 6 = 2 then addTo b 0xC000 8 1 else b
    { b with clk := { b.clk with now := b.clk.now + 1 } }

def idle (s : State) : State := { s with dev := idleBlock s.dev }

/-- WAKE_COMPLETE (R441). -/
def execWakeComplete (s : State) : Host.Outcome State Fault Refusal := .next { s with dev := wakeComplete s.dev }

end Sys2Proof.Machine
end

