-- ==== Sys2Proof/Machine/Boot.lean ====
section
/-! DEFINITION. Reset release and what each reset keeps; the self test, the dictionary's defaults and the persistent image
(02 R75; 12 R394, R397; 14 R431, R432, R435, R436). -/

namespace Sys2Proof.Machine

/-! ## What a reset keeps (Tables 12-8, 14-4) -/

/-- Objects that a root-of-trust reset keeps: the port pipes', EVENT_SEQ with the fault log, SKIM_STATE with the Skim
buffer, and INJECT_LOCK. -/
def keptObj (idx sub : Nat) : Bool :=
  (0x5100 ≤ idx && idx < 0x5124) || (idx == 0x9000 && sub == 6) || (idx == 0x9002 && sub == 3) || (idx == 0xF000 && sub == 2)

/-- ROUTE_TABLE and SKIM_BUFFER. -/
def keptBlob (idx sub : Nat) : Bool := (idx == 0x5000 && sub == 0x10) || (idx == 0x9002 && sub == 0x20)

def filterObjs (m : SMap α) (p : Nat → Nat → Bool) : SMap α := m.filter fun e => p (e.1 / 256) (e.1 % 256)

/-- The port pipes after a reset: link state and transmit counters kept or not; every port is to be realigned. -/
def bootPorts (b : Block) (keep : Bool) : SMap Port :=
  (List.range 36).map fun p =>
    let x := port b p
    (p, if keep then { freshPort with linkUp := x.linkUp, degraded := x.degraded, ctr := x.ctr, realigning := true }
        else { freshPort with realigning := true })

/-! ## Step 1: reset release (R431, R436) -/

/-- The state after power-on, or after a reset by the root of trust with the supplies kept. -/
def bootBlock (b : Block) (keep lock : Bool) (st : Straps) : Block :=
  let r := Block.reset
  let f := b.fcu
  { r with
    clk := ⟨0, true, lock, 0, 0⟩
    straps := st
    dict := { r.dict with
      objs := if keep then filterObjs b.dict.objs keptObj else []
      blobs := if keep then filterObjs b.dict.blobs keptBlob else []
      image := b.dict.image }
    mem := if keep then b.mem else []
    tpe := { r.tpe with ports := bootPorts b keep }
    fcu := if keep then { r.fcu with log := f.log, logged := f.logged, firstFatal := f.firstFatal, lastFence := f.lastFence, qualifying := f.qualifying }
      else r.fcu
    fresh := b.fresh
    out := b.out }

/-- RESET_RELEASE: a dump that runs ends INCOMPLETE; FAULT_L is released. -/
def resetRelease (b : Block) (powerOn lock : Bool) (st : Straps) : Block :=
  let b := if !powerOn && rd b 0x9002 3 = 1 then skimClose b 3 else b
  let b := if rd b 0x9000 3 = 1 then emit b (.faultL false) else b
  let b := bootBlock b (!powerOn) lock st
  lockCheck ((List.range 36).foldl (fun b p => wr b (0x5100 + p) 1 0) b)

/-! ## Whole-block recovery clears the block (R394, R435) -/

/-- Besides what a root-of-trust reset keeps, a recovery keeps its own progress, the FAULT_L level and the results of the
commands on the block and on Skim that are pending. -/
def recoveryKeeps (b : Block) (idx sub : Nat) : Bool :=
  keptObj idx sub || (idx == 0x9000 && (sub == 1 || sub == 3)) || (idx == 0xC000 && (sub == 1 || sub == 2))
    || ((idx == 0x9000 || idx == 0x9002) && 0xC0 ≤ sub && b.dict.cmds.any (·.key == objKey idx (sub - 0x80)))

/-- A command that outlives the recovery. -/
def outlives (c : PendCmd) : Bool := c.key / 256 == 0x9000 || c.key / 256 == 0x9002

/-- Every SRAM but those that hold kept state is written with its reset contents. The DXE and its bridges stay in service:
its slots, kept responses and windows stand. -/
def clearBlock (b : Block) : Block :=
  let b := (b.dict.cmds.filter fun c => !outlives c).foldl (fun b c => finishCmd b (c.key / 256) (c.key % 256) .state 0) b
  let r := Block.reset
  let d := b.dict
  let stepTimes (idx sub : Nat) : Bool := keptBlob idx sub || (idx == 0xC000 && sub == 4)
  { b with
    clk := { b.clk with miReady := 0 }
    tags := r.tags
    dict := { d with
      objs := filterObjs d.objs (recoveryKeeps b), blobs := filterObjs d.blobs stepTimes, xfers := [], taps := [] }
    ptb := { b.ptb with parts := [], owners := [] }
    hub := r.hub
    ladle := r.ladle
    tpe := { r.tpe with ports := b.tpe.ports.map fun e =>
      (e.1, { e.2 with queue := e.2.queue.filter (·.typ == tDICT), deficit := [], qpTurn := [], turn := 0 }) }
    replies := []
    mirror := r.mirror
    ring := r.ring
    ssu := r.ssu
    cru := r.cru
    cha := Chanter.reset
    fcu := { b.fcu with windows := [], standing := [], drones := [], progress := [] }
    held := [] }

/-! ## Step 3: the persistent image (02 R75) -/

/-- IMAGE_STATUS: why an image is ignored; 0: it is applied. -/
def imageStatus (b : Block) (c : Option Bytes) : Nat :=
  match c with
  | none => 1
  | some c =>
    if slice c.val 0 4 ≠ imageMagic then 2
    else if slice c.val 8 4 ≠ imageCrc c then 3
    else if slice c.val 5 1 ≠ rd b 0x1000 2 / 256 then 4
    else 0

/-- An image entry as a write in the FW role, with its outcome. An object that is not persistable is refused RIGHTS, and the
bytes of VALUE above SIZE are dropped (DESIGN CHOICE, log 36). -/
def entryWrite (b : Block) (e : Nat × Nat × Nat × Nat) : Block × Code :=
  let (idx, sub, size, v) := e
  let acc : Access := ⟨.reed 0, false, 0⟩
  match firstChecks b acc idx sub true, objRow idx sub with
  | some c, _ => (b, c)
  | none, none => (b, .nosub)
  | none, some r =>
    if !persistable idx sub then (b, .rights)
    else if size ≠ r.ty.size then (b, .type)
    else scalarWrite b acc r idx sub (v % 2 ^ (8 * size))

def applyEntry (b : Block) (e : Nat × Nat × Nat × Nat) : Block :=
  match entryWrite b e with
  | (b, .ok) => count b 0x1401 5
  | (b, c) =>
    let b := if rd b 0x1401 6 = 0 then wr b 0x1401 7 ((c.num <<< 24) + (e.1 <<< 8) + e.2.1) else b
    count b 0x1401 6

/-- The image the root of trust holds: the one the block stored there last, else the one presented. -/
def useImage (b : Block) (c : Option Bytes) : Block :=
  match b.dict.image, c with
  | none, some c => storeImage b c
  | _, _ => b

/-- Step 3 applies the stored image; one whose length is not what ENTRY_COUNT says is applied up to the shorter of the two
(DESIGN CHOICE, log 36). -/
def imageStep (b : Block) : Block :=
  let st := imageStatus b b.dict.image
  let b := wr b 0x1401 4 st
  match st, b.dict.image with
  | 0, some c => (List.range (min (imageCount c) ((c.len - 16) / 16))).foldl (fun b i => applyEntry b (imageEntry c i)) b
  | _, _ => raiseFree b 6 uDXE 0

/-! ## Step 2: the self test (R432) -/

/-- A unit that Table 12-4 cannot take out of service failed, or every Reed core did. -/
def fatalFailure (failed : List Nat) : Option Nat :=
  match failed.find? fun u => !removable u with
  | some u => some u
  | none => if (List.range 4).all fun n => failed.contains (uReed n) then some (uReed 0) else none

/-- SELF_TEST_REPORT ends step 2; the defaults are loaded and the image applied, and step 4 begins. The source under which
a failure is recorded is not stated: a free value (log 3). -/
def selfTest (b : Block) (failed : List Nat) (image : Option Bytes) : Block :=
  if startupStep b ≠ 2 then b
  else
    let failed := failed.filter (unitPresent b)
    let b := if rd b 0x9000 1 = 2 then clearBlock b else b
    let (s, b) := draw b
    match fatalFailure failed with
    | some u => halt b (s % 28) u
    | none =>
      let b := failed.foldl (fun b u => startupEvent (startupOut b u) (s % 28) u 1) b
      stepDone (imageStep (useImage (stepDone b 2) image)) 3

/-! ## Rows -/

/-- RESET_RELEASE (R431, R436). -/
def execResetRelease (powerOn coreLocked : Bool) (straps : Straps) (s : State) : Host.Outcome State Fault Refusal :=
  .next { s with dev := resetRelease s.dev powerOn coreLocked straps }

/-- SELF_TEST_REPORT (R432; 02 R75). -/
def execSelfTestReport (failed : List Nat) (image : Option Bytes) (s : State) : Host.Outcome State Fault Refusal :=
  .next { s with dev := selfTest s.dev failed image }

end Sys2Proof.Machine
end

