-- ==== Sys2Proof/Machine/Runner.lean ====
section
/-! DEFINITION. The runner programs' instructions: each runs on the bundle next in turn at a Memory Station, as the next
instruction of its program (09 R284, Table 9-5). -/

namespace Sys2Proof.Machine

/-- NOP (R284). -/
def execNop (ms : Nat) (o : RunnerOp) (s : State) : Host.Outcome State Fault Refusal :=
  .next { s with dev := runnerRow s.dev ms 0x00 o false }

/-- FADD (R284). -/
def execFadd (ms : Nat) (o : RunnerOp) (s : State) : Host.Outcome State Fault Refusal :=
  .next { s with dev := runnerRow s.dev ms 0x01 o false }

/-- FSUB (R284). -/
def execFsub (ms : Nat) (o : RunnerOp) (s : State) : Host.Outcome State Fault Refusal :=
  .next { s with dev := runnerRow s.dev ms 0x02 o false }

/-- FMUL (R284). -/
def execFmul (ms : Nat) (o : RunnerOp) (s : State) : Host.Outcome State Fault Refusal :=
  .next { s with dev := runnerRow s.dev ms 0x03 o false }

/-- FFMA (R284). -/
def execFfma (ms : Nat) (o : RunnerOp) (s : State) : Host.Outcome State Fault Refusal :=
  .next { s with dev := runnerRow s.dev ms 0x04 o false }

/-- FNMA (R284). -/
def execFnma (ms : Nat) (o : RunnerOp) (s : State) : Host.Outcome State Fault Refusal :=
  .next { s with dev := runnerRow s.dev ms 0x05 o false }

/-- FMIN (R284). -/
def execFmin (ms : Nat) (o : RunnerOp) (s : State) : Host.Outcome State Fault Refusal :=
  .next { s with dev := runnerRow s.dev ms 0x06 o false }

/-- FMAX (R284). -/
def execFmax (ms : Nat) (o : RunnerOp) (s : State) : Host.Outcome State Fault Refusal :=
  .next { s with dev := runnerRow s.dev ms 0x07 o false }

/-- FABS (R284). -/
def execFabs (ms : Nat) (o : RunnerOp) (s : State) : Host.Outcome State Fault Refusal :=
  .next { s with dev := runnerRow s.dev ms 0x08 o false }

/-- FNEG (R284). -/
def execFneg (ms : Nat) (o : RunnerOp) (s : State) : Host.Outcome State Fault Refusal :=
  .next { s with dev := runnerRow s.dev ms 0x09 o false }

/-- FCLIP (R284). -/
def execFclip (ms : Nat) (o : RunnerOp) (s : State) : Host.Outcome State Fault Refusal :=
  .next { s with dev := runnerRow s.dev ms 0x0A o false }

/-- MOV (R284). -/
def execMov (ms : Nat) (o : RunnerOp) (s : State) : Host.Outcome State Fault Refusal :=
  .next { s with dev := runnerRow s.dev ms 0x0B o false }

/-- IADD (R284). -/
def execIadd (ms : Nat) (o : RunnerOp) (s : State) : Host.Outcome State Fault Refusal :=
  .next { s with dev := runnerRow s.dev ms 0x10 o false }

/-- ISUB (R284). -/
def execIsub (ms : Nat) (o : RunnerOp) (s : State) : Host.Outcome State Fault Refusal :=
  .next { s with dev := runnerRow s.dev ms 0x11 o false }

/-- IMUL (R284). -/
def execImul (ms : Nat) (o : RunnerOp) (s : State) : Host.Outcome State Fault Refusal :=
  .next { s with dev := runnerRow s.dev ms 0x12 o false }

/-- IMIN (R284). -/
def execImin (ms : Nat) (o : RunnerOp) (s : State) : Host.Outcome State Fault Refusal :=
  .next { s with dev := runnerRow s.dev ms 0x13 o false }

/-- IMAX (R284). -/
def execImax (ms : Nat) (o : RunnerOp) (s : State) : Host.Outcome State Fault Refusal :=
  .next { s with dev := runnerRow s.dev ms 0x14 o false }

/-- AND (R284). -/
def execAnd (ms : Nat) (o : RunnerOp) (s : State) : Host.Outcome State Fault Refusal :=
  .next { s with dev := runnerRow s.dev ms 0x15 o false }

/-- OR (R284). -/
def execOr (ms : Nat) (o : RunnerOp) (s : State) : Host.Outcome State Fault Refusal :=
  .next { s with dev := runnerRow s.dev ms 0x16 o false }

/-- XOR (R284). -/
def execXor (ms : Nat) (o : RunnerOp) (s : State) : Host.Outcome State Fault Refusal :=
  .next { s with dev := runnerRow s.dev ms 0x17 o false }

/-- SHL (R284). -/
def execShl (ms : Nat) (o : RunnerOp) (s : State) : Host.Outcome State Fault Refusal :=
  .next { s with dev := runnerRow s.dev ms 0x18 o false }

/-- SHR (R284). -/
def execShr (ms : Nat) (o : RunnerOp) (s : State) : Host.Outcome State Fault Refusal :=
  .next { s with dev := runnerRow s.dev ms 0x19 o false }

/-- SRA (R284). -/
def execSra (ms : Nat) (o : RunnerOp) (s : State) : Host.Outcome State Fault Refusal :=
  .next { s with dev := runnerRow s.dev ms 0x1A o false }

/-- FCMP (R284). -/
def execFcmp (ms : Nat) (o : RunnerOp) (s : State) : Host.Outcome State Fault Refusal :=
  .next { s with dev := runnerRow s.dev ms 0x20 o false }

/-- ICMP (R284). -/
def execIcmp (ms : Nat) (o : RunnerOp) (s : State) : Host.Outcome State Fault Refusal :=
  .next { s with dev := runnerRow s.dev ms 0x21 o false }

/-- SEL (R284). -/
def execSel (ms : Nat) (o : RunnerOp) (s : State) : Host.Outcome State Fault Refusal :=
  .next { s with dev := runnerRow s.dev ms 0x22 o false }

/-- PLOG (R284). -/
def execPlog (ms : Nat) (o : RunnerOp) (s : State) : Host.Outcome State Fault Refusal :=
  .next { s with dev := runnerRow s.dev ms 0x23 o false }

/-- RCP (R284). -/
def execRcp (ms : Nat) (o : RunnerOp) (s : State) : Host.Outcome State Fault Refusal :=
  .next { s with dev := runnerRow s.dev ms 0x28 o false }

/-- RSQRT (R284). -/
def execRsqrt (ms : Nat) (o : RunnerOp) (s : State) : Host.Outcome State Fault Refusal :=
  .next { s with dev := runnerRow s.dev ms 0x29 o false }

/-- SQRT (R284). -/
def execSqrt (ms : Nat) (o : RunnerOp) (s : State) : Host.Outcome State Fault Refusal :=
  .next { s with dev := runnerRow s.dev ms 0x2A o false }

/-- EXP2 (R284). -/
def execExp2 (ms : Nat) (o : RunnerOp) (s : State) : Host.Outcome State Fault Refusal :=
  .next { s with dev := runnerRow s.dev ms 0x2B o false }

/-- LOG2 (R284). -/
def execLog2 (ms : Nat) (o : RunnerOp) (s : State) : Host.Outcome State Fault Refusal :=
  .next { s with dev := runnerRow s.dev ms 0x2C o false }

/-- CVT (R284). -/
def execCvt (ms : Nat) (o : RunnerOp) (s : State) : Host.Outcome State Fault Refusal :=
  .next { s with dev := runnerRow s.dev ms 0x30 o false }

/-- BAMAX (R284). -/
def execBamax (ms : Nat) (o : RunnerOp) (s : State) : Host.Outcome State Fault Refusal :=
  .next { s with dev := runnerRow s.dev ms 0x31 o false }

/-- EXPB (R284). -/
def execExpb (ms : Nat) (o : RunnerOp) (s : State) : Host.Outcome State Fault Refusal :=
  .next { s with dev := runnerRow s.dev ms 0x32 o false }

/-- SCALB (R284). -/
def execScalb (ms : Nat) (o : RunnerOp) (s : State) : Host.Outcome State Fault Refusal :=
  .next { s with dev := runnerRow s.dev ms 0x33 o false }

/-- LD (R296); `poison`: the stream's data return poisoned (R301). -/
def execLd (ms : Nat) (o : RunnerOp) (poison : Bool) (s : State) : Host.Outcome State Fault Refusal :=
  .next { s with dev := runnerRow s.dev ms 0x38 o poison }

/-- ST (R299). -/
def execSt (ms : Nat) (o : RunnerOp) (s : State) : Host.Outcome State Fault Refusal :=
  .next { s with dev := runnerRow s.dev ms 0x39 o false }

/-- SRED (R292). -/
def execSred (ms : Nat) (o : RunnerOp) (s : State) : Host.Outcome State Fault Refusal :=
  .next { s with dev := runnerRow s.dev ms 0x3A o false }

/-- LDS (R293). -/
def execLds (ms : Nat) (o : RunnerOp) (s : State) : Host.Outcome State Fault Refusal :=
  .next { s with dev := runnerRow s.dev ms 0x3B o false }

/-- BAR (R290). -/
def execBar (ms : Nat) (o : RunnerOp) (s : State) : Host.Outcome State Fault Refusal :=
  .next { s with dev := runnerRow s.dev ms 0x3C o false }

end Sys2Proof.Machine
end

