-- ==== Sys2Proof/Machine/Dispatch.lean ====
section
/-! DEFINITION. Which meaning each command has: one arm per row of the opcode table. -/

namespace Sys2Proof.Machine

def exec (i : Instr) (s : State) : Host.Outcome State Fault Refusal :=
  match i with
  | .read es va beats => Sys2Proof.Machine.execRead es va beats s
  | .write es va beats data => Sys2Proof.Machine.execWrite es va beats data s
  | .fetchAdd es va beats addend => Sys2Proof.Machine.execFetchAdd es va beats addend s
  | .cmpSwap es va beats new compare => Sys2Proof.Machine.execCmpSwap es va beats new compare s
  | .swap es va beats value => Sys2Proof.Machine.execSwap es va beats value s
  | .pace es va => Sys2Proof.Machine.execPace es va s
  | .commit es => Sys2Proof.Machine.execCommit es s
  | .post es va word => Sys2Proof.Machine.execPost es va word s
  | .wait es => Sys2Proof.Machine.execWait es s
  | .reservedEqOp es op => Sys2Proof.Machine.execReservedEqOp es op s
  | .memoryReadResponse tag poison err => Sys2Proof.Machine.execMemoryReadResponse tag poison err s
  | .staleResponse tag epoch => Sys2Proof.Machine.execStaleResponse tag epoch s
  | .tagGrant pool => Sys2Proof.Machine.execTagGrant pool s
  | .ucieModuleDown module => Sys2Proof.Machine.execUcieModuleDown module s
  | .diePllLockLoss die => Sys2Proof.Machine.execDiePllLockLoss die s
  | .corePllLockLoss => Sys2Proof.Machine.execCorePllLockLoss s
  | .tapRefresh => Sys2Proof.Machine.execTapRefresh s
  | .counterWrite acc index sub size value => Sys2Proof.Machine.execCounterWrite acc index sub size value s
  | .opRead acc index sub size => Sys2Proof.Machine.execOpRead acc index sub size s
  | .opWrite acc index sub size value => Sys2Proof.Machine.execOpWrite acc index sub size value s
  | .blobBegin acc index sub length => Sys2Proof.Machine.execBlobBegin acc index sub length s
  | .blobSeg acc index sub segment data => Sys2Proof.Machine.execBlobSeg acc index sub segment data s
  | .blobEnd acc index sub => Sys2Proof.Machine.execBlobEnd acc index sub s
  | .blobRead acc index sub segment => Sys2Proof.Machine.execBlobRead acc index sub segment s
  | .blobAbort acc index sub => Sys2Proof.Machine.execBlobAbort acc index sub s
  | .cmdDone acc index sub op => Sys2Proof.Machine.execCmdDone acc index sub op s
  | .blobValidationDone index sub => Sys2Proof.Machine.execBlobValidationDone index sub s
  | .blobAbandon index sub => Sys2Proof.Machine.execBlobAbandon index sub s
  | .reqShortWrite fn slot width => Sys2Proof.Machine.execReqShortWrite fn slot width s
  | .mctpMessage eid tag ic body => Sys2Proof.Machine.execMctpMessage eid tag ic body s
  | .setEndpointId src tag inst eid => Sys2Proof.Machine.execSetEndpointId src tag inst eid s
  | .getEndpointId src tag inst => Sys2Proof.Machine.execGetEndpointId src tag inst s
  | .getMctpVersionSupport src tag inst => Sys2Proof.Machine.execGetMctpVersionSupport src tag inst s
  | .getMessageTypeSupport src tag inst => Sys2Proof.Machine.execGetMessageTypeSupport src tag inst s
  | .getVendorDefinedMessageSupport src tag inst => Sys2Proof.Machine.execGetVendorDefinedMessageSupport src tag inst s
  | .fmChipWrite acc value => Sys2Proof.Machine.execFmChipWrite acc value s
  | .persistSave acc arg => Sys2Proof.Machine.execPersistSave acc arg s
  | .restoreDefaults acc arg => Sys2Proof.Machine.execRestoreDefaults acc arg s
  | .create acc pid arg => Sys2Proof.Machine.execCreate acc pid arg s
  | .addEnginesLo acc pid arg => Sys2Proof.Machine.execAddEnginesLo acc pid arg s
  | .addEnginesHi acc pid arg => Sys2Proof.Machine.execAddEnginesHi acc pid arg s
  | .addGranules acc pid arg => Sys2Proof.Machine.execAddGranules acc pid arg s
  | .addLinkShare acc pid arg => Sys2Proof.Machine.execAddLinkShare acc pid arg s
  | .addQp acc pid arg => Sys2Proof.Machine.execAddQp acc pid arg s
  | .addKeys acc pid arg => Sys2Proof.Machine.execAddKeys acc pid arg s
  | .addChannels acc pid arg => Sys2Proof.Machine.execAddChannels acc pid arg s
  | .addSched acc pid arg => Sys2Proof.Machine.execAddSched acc pid arg s
  | .addEnergy acc pid arg => Sys2Proof.Machine.execAddEnergy acc pid arg s
  | .addAttr acc pid arg => Sys2Proof.Machine.execAddAttr acc pid arg s
  | .addVf acc pid arg => Sys2Proof.Machine.execAddVf acc pid arg s
  | .withdraw acc pid arg => Sys2Proof.Machine.execWithdraw acc pid arg s
  | .withdrawDrainDone pid => Sys2Proof.Machine.execWithdrawDrainDone pid s
  | .withdrawDrainTimeout pid => Sys2Proof.Machine.execWithdrawDrainTimeout pid s
  | .release acc pid arg => Sys2Proof.Machine.execRelease acc pid arg s
  | .releaseComplete pid => Sys2Proof.Machine.execReleaseComplete pid s
  | .granuleScrubDone granule => Sys2Proof.Machine.execGranuleScrubDone granule s
  | .ctxOpen acc pid arg => Sys2Proof.Machine.execCtxOpen acc pid arg s
  | .ctxClose acc pid arg => Sys2Proof.Machine.execCtxClose acc pid arg s
  | .ctxCloseComplete pid cx => Sys2Proof.Machine.execCtxCloseComplete pid cx s
  | .functionLevelReset vf => Sys2Proof.Machine.execFunctionLevelReset vf s
  | .vfEnableClear => Sys2Proof.Machine.execVfEnableClear s
  | .tdispStateChange vf code => Sys2Proof.Machine.execTdispStateChange vf code s
  | .unboundVfWrite vf offset width value => Sys2Proof.Machine.execUnboundVfWrite vf offset width value s
  | .logEnableWrite acc pid value => Sys2Proof.Machine.execLogEnableWrite acc pid value s
  | .tlpReceive vf posted tbit stream offset width value => Sys2Proof.Machine.execTlpReceive vf posted tbit stream offset width value s
  | .walkerGrant => Sys2Proof.Machine.execWalkerGrant s
  | .walkTableReadDone walk ans => Sys2Proof.Machine.execWalkTableReadDone walk ans s
  | .walkTimeout walk => Sys2Proof.Machine.execWalkTimeout walk s
  | .s2RootSet acc pid arg => Sys2Proof.Machine.execS2RootSet acc pid arg s
  | .s1RootSet acc pid arg => Sys2Proof.Machine.execS1RootSet acc pid arg s
  | .s1Invalidate acc pid arg => Sys2Proof.Machine.execS1Invalidate acc pid arg s
  | .invalidationRecord slot offset data => Sys2Proof.Machine.execInvalidationRecord slot offset data s
  | .invalidationComplete slot => Sys2Proof.Machine.execInvalidationComplete slot s
  | .doneClear slot width value => Sys2Proof.Machine.execDoneClear slot width value s
  | .kick vf rel word => Sys2Proof.Machine.execKick vf rel word s
  | .abort via => Sys2Proof.Machine.execAbort via s
  | .resume via => Sys2Proof.Machine.execResume via s
  | .paceDoorbell vf rel word => Sys2Proof.Machine.execPaceDoorbell vf rel word s
  | .descriptorArrival chan ans => Sys2Proof.Machine.execDescriptorArrival chan ans s
  | .burstResponse chan burst ans => Sys2Proof.Machine.execBurstResponse chan burst ans s
  | .channelHalt chan => Sys2Proof.Machine.execChannelHalt chan s
  | .paceRequestTaken line => Sys2Proof.Machine.execPaceRequestTaken line s
  | .readbackResponse chan ans => Sys2Proof.Machine.execReadbackResponse chan ans s
  | .statusWritebackDone chan ans => Sys2Proof.Machine.execStatusWritebackDone chan ans s
  | .ladleEnableWrite acc chan value => Sys2Proof.Machine.execLadleEnableWrite acc chan value s
  | .ladleRingConfigWrite acc chan sub value => Sys2Proof.Machine.execLadleRingConfigWrite acc chan sub value s
  | .paceReset acc arg => Sys2Proof.Machine.execPaceReset acc arg s
  | .packetTransmit port => Sys2Proof.Machine.execPacketTransmit port s
  | .rxWrite port frame => Sys2Proof.Machine.execRxWrite port frame s
  | .rxReduce port frame => Sys2Proof.Machine.execRxReduce port frame s
  | .rxReadReq port frame => Sys2Proof.Machine.execRxReadReq port frame s
  | .rxReadResp port frame => Sys2Proof.Machine.execRxReadResp port frame s
  | .rxAtomic port frame => Sys2Proof.Machine.execRxAtomic port frame s
  | .rxAtomicResp port frame => Sys2Proof.Machine.execRxAtomicResp port frame s
  | .rxAck port frame => Sys2Proof.Machine.execRxAck port frame s
  | .rxNak port frame => Sys2Proof.Machine.execRxNak port frame s
  | .rxCredit port frame => Sys2Proof.Machine.execRxCredit port frame s
  | .rxDict port frame => Sys2Proof.Machine.execRxDict port frame s
  | .rxMirror port frame => Sys2Proof.Machine.execRxMirror port frame s
  | .rxSealNak port frame => Sys2Proof.Machine.execRxSealNak port frame s
  | .placementAck qp psn => Sys2Proof.Machine.execPlacementAck qp psn s
  | .ackDelayExpiry qp => Sys2Proof.Machine.execAckDelayExpiry qp s
  | .retransmissionTimerExpiry qp psn => Sys2Proof.Machine.execRetransmissionTimerExpiry qp psn s
  | .retryLimitExpiry qp psn => Sys2Proof.Machine.execRetryLimitExpiry qp psn s
  | .linkUpFall port => Sys2Proof.Machine.execLinkUpFall port s
  | .linkUpRise port degraded => Sys2Proof.Machine.execLinkUpRise port degraded s
  | .linkDegradedChange port degraded => Sys2Proof.Machine.execLinkDegradedChange port degraded s
  | .transportConfigWrite acc sub value => Sys2Proof.Machine.execTransportConfigWrite acc sub value s
  | .qpInit acc pid arg => Sys2Proof.Machine.execQpInit acc pid arg s
  | .qpConnect acc pid arg => Sys2Proof.Machine.execQpConnect acc pid arg s
  | .qpReset acc pid arg => Sys2Proof.Machine.execQpReset acc pid arg s
  | .qpResetComplete qp => Sys2Proof.Machine.execQpResetComplete qp s
  | .qpDrain acc pid arg => Sys2Proof.Machine.execQpDrain acc pid arg s
  | .qpDrainComplete qp => Sys2Proof.Machine.execQpDrainComplete qp s
  | .qpDrainTimeout qp => Sys2Proof.Machine.execQpDrainTimeout qp s
  | .qpQuery acc pid arg => Sys2Proof.Machine.execQpQuery acc pid arg s
  | .keyReg acc pid arg => Sys2Proof.Machine.execKeyReg acc pid arg s
  | .keyRevoke acc pid arg => Sys2Proof.Machine.execKeyRevoke acc pid arg s
  | .keyRevokeComplete key => Sys2Proof.Machine.execKeyRevokeComplete key s
  | .keyRevokeTimeout key => Sys2Proof.Machine.execKeyRevokeTimeout key s
  | .keyQuery acc pid arg => Sys2Proof.Machine.execKeyQuery acc pid arg s
  | .setupRecordReadDone pid sub ans => Sys2Proof.Machine.execSetupRecordReadDone pid sub ans s
  | .queryWriteDone pid sub ans => Sys2Proof.Machine.execQueryWriteDone pid sub ans s
  | .sqTail vf rel word => Sys2Proof.Machine.execSqTail vf rel word s
  | .cqCons vf rel word => Sys2Proof.Machine.execCqCons vf rel word s
  | .cqArm vf rel word => Sys2Proof.Machine.execCqArm vf rel word s
  | .wqeFetchDone qp ans => Sys2Proof.Machine.execWqeFetchDone qp ans s
  | .wqeWrite qp payload => Sys2Proof.Machine.execWqeWrite qp payload s
  | .wqeReduce qp payload => Sys2Proof.Machine.execWqeReduce qp payload s
  | .wqeRead qp => Sys2Proof.Machine.execWqeRead qp s
  | .wqeFetchAdd qp => Sys2Proof.Machine.execWqeFetchAdd qp s
  | .wqeCmpSwap qp => Sys2Proof.Machine.execWqeCmpSwap qp s
  | .wqeSwap qp => Sys2Proof.Machine.execWqeSwap qp s
  | .wqeNop qp => Sys2Proof.Machine.execWqeNop qp s
  | .localFailure qp st => Sys2Proof.Machine.execLocalFailure qp st s
  | .completionWrite qp => Sys2Proof.Machine.execCompletionWrite qp s
  | .completionWriteFail qp st => Sys2Proof.Machine.execCompletionWriteFail qp st s
  | .creditRefreshTimer => Sys2Proof.Machine.execCreditRefreshTimer s
  | .creditLeaseExpiry chip => Sys2Proof.Machine.execCreditLeaseExpiry chip s
  | .quietPeriodEnd chip => Sys2Proof.Machine.execQuietPeriodEnd chip s
  | .creditIdleExpiry chip => Sys2Proof.Machine.execCreditIdleExpiry chip s
  | .creditResync acc arg => Sys2Proof.Machine.execCreditResync acc arg s
  | .creditConfigWrite acc sub value => Sys2Proof.Machine.execCreditConfigWrite acc sub value s
  | .groupArm acc pid arg => Sys2Proof.Machine.execGroupArm acc pid arg s
  | .groupRecordReadDone pid group ans => Sys2Proof.Machine.execGroupRecordReadDone pid group ans s
  | .groupArmed pid group => Sys2Proof.Machine.execGroupArmed pid group s
  | .groupAbort acc pid arg => Sys2Proof.Machine.execGroupAbort acc pid arg s
  | .groupAbortDone pid group => Sys2Proof.Machine.execGroupAbortDone pid group s
  | .groupLimitWrite acc pid value => Sys2Proof.Machine.execGroupLimitWrite acc pid value s
  | .lineLockGrant ms line => Sys2Proof.Machine.execLineLockGrant ms line s
  | .application ms pid group slot contrib poison => Sys2Proof.Machine.execApplication ms pid group slot contrib poison s
  | .applicationReport pid group slot contrib => Sys2Proof.Machine.execApplicationReport pid group slot contrib s
  | .localSlotReadDone pid group slot ans => Sys2Proof.Machine.execLocalSlotReadDone pid group slot ans s
  | .outputCastDone pid group ans => Sys2Proof.Machine.execOutputCastDone pid group ans s
  | .groupReadbackDone pid group ans => Sys2Proof.Machine.execGroupReadbackDone pid group ans s
  | .streamTableReadDone pid group ans => Sys2Proof.Machine.execStreamTableReadDone pid group ans s
  | .streamBindDone pid group => Sys2Proof.Machine.execStreamBindDone pid group s
  | .phaseDone pid group ms poison => Sys2Proof.Machine.execPhaseDone pid group ms poison s
  | .secondPhaseStart pid group => Sys2Proof.Machine.execSecondPhaseStart pid group s
  | .programMadeCurrent pid prog => Sys2Proof.Machine.execProgramMadeCurrent pid prog s
  | .progUnload acc pid arg => Sys2Proof.Machine.execProgUnload acc pid arg s
  | .progLimitWrite acc pid value => Sys2Proof.Machine.execProgLimitWrite acc pid value s
  | .nop ms o => Sys2Proof.Machine.execNop ms o s
  | .fadd ms o => Sys2Proof.Machine.execFadd ms o s
  | .fsub ms o => Sys2Proof.Machine.execFsub ms o s
  | .fmul ms o => Sys2Proof.Machine.execFmul ms o s
  | .ffma ms o => Sys2Proof.Machine.execFfma ms o s
  | .fnma ms o => Sys2Proof.Machine.execFnma ms o s
  | .fmin ms o => Sys2Proof.Machine.execFmin ms o s
  | .fmax ms o => Sys2Proof.Machine.execFmax ms o s
  | .fabs ms o => Sys2Proof.Machine.execFabs ms o s
  | .fneg ms o => Sys2Proof.Machine.execFneg ms o s
  | .fclip ms o => Sys2Proof.Machine.execFclip ms o s
  | .mov ms o => Sys2Proof.Machine.execMov ms o s
  | .iadd ms o => Sys2Proof.Machine.execIadd ms o s
  | .isub ms o => Sys2Proof.Machine.execIsub ms o s
  | .imul ms o => Sys2Proof.Machine.execImul ms o s
  | .imin ms o => Sys2Proof.Machine.execImin ms o s
  | .imax ms o => Sys2Proof.Machine.execImax ms o s
  | .and ms o => Sys2Proof.Machine.execAnd ms o s
  | .or ms o => Sys2Proof.Machine.execOr ms o s
  | .xor ms o => Sys2Proof.Machine.execXor ms o s
  | .shl ms o => Sys2Proof.Machine.execShl ms o s
  | .shr ms o => Sys2Proof.Machine.execShr ms o s
  | .sra ms o => Sys2Proof.Machine.execSra ms o s
  | .fcmp ms o => Sys2Proof.Machine.execFcmp ms o s
  | .icmp ms o => Sys2Proof.Machine.execIcmp ms o s
  | .sel ms o => Sys2Proof.Machine.execSel ms o s
  | .plog ms o => Sys2Proof.Machine.execPlog ms o s
  | .rcp ms o => Sys2Proof.Machine.execRcp ms o s
  | .rsqrt ms o => Sys2Proof.Machine.execRsqrt ms o s
  | .sqrt ms o => Sys2Proof.Machine.execSqrt ms o s
  | .exp2 ms o => Sys2Proof.Machine.execExp2 ms o s
  | .log2 ms o => Sys2Proof.Machine.execLog2 ms o s
  | .cvt ms o => Sys2Proof.Machine.execCvt ms o s
  | .bamax ms o => Sys2Proof.Machine.execBamax ms o s
  | .expb ms o => Sys2Proof.Machine.execExpb ms o s
  | .scalb ms o => Sys2Proof.Machine.execScalb ms o s
  | .ld ms o poison => Sys2Proof.Machine.execLd ms o poison s
  | .st ms o => Sys2Proof.Machine.execSt ms o s
  | .sred ms o => Sys2Proof.Machine.execSred ms o s
  | .lds ms o => Sys2Proof.Machine.execLds ms o s
  | .bar ms o => Sys2Proof.Machine.execBar ms o s
  | .keyPortWord slot word => Sys2Proof.Machine.execKeyPortWord slot word s
  | .spillKeyInstall acc arg => Sys2Proof.Machine.execSpillKeyInstall acc arg s
  | .linkKeyInstall acc arg => Sys2Proof.Machine.execLinkKeyInstall acc arg s
  | .linkKeySwitch acc arg => Sys2Proof.Machine.execLinkKeySwitch acc arg s
  | .spillKeyDestroy acc arg => Sys2Proof.Machine.execSpillKeyDestroy acc arg s
  | .linkKeyDestroy acc arg => Sys2Proof.Machine.execLinkKeyDestroy acc arg s
  | .linkGraceExpiry => Sys2Proof.Machine.execLinkGraceExpiry s
  | .spillInit acc arg => Sys2Proof.Machine.execSpillInit acc arg s
  | .spillInitComplete => Sys2Proof.Machine.execSpillInitComplete s
  | .spillRead pid cx offset length => Sys2Proof.Machine.execSpillRead pid cx offset length s
  | .spillReadReturn line ans tag => Sys2Proof.Machine.execSpillReadReturn line ans tag s
  | .spillWrite pid cx offset data => Sys2Proof.Machine.execSpillWrite pid cx offset data s
  | .minorCounterOverflow leaf lines => Sys2Proof.Machine.execMinorCounterOverflow leaf lines s
  | .treeNodeFetchReturn level node ans => Sys2Proof.Machine.execTreeNodeFetchReturn level node ans s
  | .nodeEviction level node => Sys2Proof.Machine.execNodeEviction level node s
  | .annealLeafConversion lines => Sys2Proof.Machine.execAnnealLeafConversion lines s
  | .spillUnitResetDone pid => Sys2Proof.Machine.execSpillUnitResetDone pid s
  | .spillRangeWrite acc pid value => Sys2Proof.Machine.execSpillRangeWrite acc pid value s
  | .ideStreamWrite acc pid value => Sys2Proof.Machine.execIdeStreamWrite acc pid value s
  | .stepDoorbell vf queue word => Sys2Proof.Machine.execStepDoorbell vf queue word s
  | .stepDescriptorArrival pid queue desc ranges => Sys2Proof.Machine.execStepDescriptorArrival pid queue desc ranges s
  | .submission es desc => Sys2Proof.Machine.execSubmission es desc s
  | .submissionForward es ranges => Sys2Proof.Machine.execSubmissionForward es ranges s
  | .stepDispatch => Sys2Proof.Machine.execStepDispatch s
  | .killDone es => Sys2Proof.Machine.execKillDone es s
  | .killTimeoutExpiry es => Sys2Proof.Machine.execKillTimeoutExpiry es s
  | .quantumExpiry step => Sys2Proof.Machine.execQuantumExpiry step s
  | .stepTimeoutExpiry step => Sys2Proof.Machine.execStepTimeoutExpiry step s
  | .telemetrySample counts power temps => Sys2Proof.Machine.execTelemetrySample counts power temps s
  | .budgetWindowStart => Sys2Proof.Machine.execBudgetWindowStart s
  | .policyUpdateDone => Sys2Proof.Machine.execPolicyUpdateDone s
  | .queueFlush acc pid arg => Sys2Proof.Machine.execQueueFlush acc pid arg s
  | .chanterRingConfigWrite acc pid sub value => Sys2Proof.Machine.execChanterRingConfigWrite acc pid sub value s
  | .fcuEvent => Sys2Proof.Machine.execFcuEvent s
  | .countWindowExpiry source => Sys2Proof.Machine.execCountWindowExpiry source s
  | .faultSourceConfigWrite acc source sub value => Sys2Proof.Machine.execFaultSourceConfigWrite acc source sub value s
  | .faultLHoldExpiry => Sys2Proof.Machine.execFaultLHoldExpiry s
  | .faultLRelease acc arg => Sys2Proof.Machine.execFaultLRelease acc arg s
  | .faultWaitHost acc arg => Sys2Proof.Machine.execFaultWaitHost acc arg s
  | .faultWaitFm acc arg => Sys2Proof.Machine.execFaultWaitFm acc arg s
  | .domainDrainDone dom => Sys2Proof.Machine.execDomainDrainDone dom s
  | .domainDrainTimeout dom => Sys2Proof.Machine.execDomainDrainTimeout dom s
  | .domainResetDone dom => Sys2Proof.Machine.execDomainResetDone dom s
  | .domainRetrainDone dom => Sys2Proof.Machine.execDomainRetrainDone dom s
  | .unitOut acc arg => Sys2Proof.Machine.execUnitOut acc arg s
  | .unitReturn acc arg => Sys2Proof.Machine.execUnitReturn acc arg s
  | .domainFence acc arg => Sys2Proof.Machine.execDomainFence acc arg s
  | .recoverBlock acc arg => Sys2Proof.Machine.execRecoverBlock acc arg s
  | .wgdScan edges => Sys2Proof.Machine.execWgdScan edges s
  | .droneExpiry drone => Sys2Proof.Machine.execDroneExpiry drone s
  | .skimStart acc arg => Sys2Proof.Machine.execSkimStart acc arg s
  | .skimUnitRecord words => Sys2Proof.Machine.execSkimUnitRecord words s
  | .skimUnitTimeout words => Sys2Proof.Machine.execSkimUnitTimeout words s
  | .skimRelease acc arg => Sys2Proof.Machine.execSkimRelease acc arg s
  | .injectModeWrite acc value => Sys2Proof.Machine.execInjectModeWrite acc value s
  | .injectLockWrite acc value => Sys2Proof.Machine.execInjectLockWrite acc value s
  | .injectEvent acc arg => Sys2Proof.Machine.execInjectEvent acc arg s
  | .mirrorStart acc arg => Sys2Proof.Machine.execMirrorStart acc arg s
  | .mirrorStop acc arg => Sys2Proof.Machine.execMirrorStop acc arg s
  | .mirrorAckTimer => Sys2Proof.Machine.execMirrorAckTimer s
  | .markTimer => Sys2Proof.Machine.execMarkTimer s
  | .qpRecordRefresh qp => Sys2Proof.Machine.execQpRecordRefresh qp s
  | .mirrorRetxExpiry => Sys2Proof.Machine.execMirrorRetxExpiry s
  | .mirrorTimeoutExpiry => Sys2Proof.Machine.execMirrorTimeoutExpiry s
  | .lagThreshold => Sys2Proof.Machine.execLagThreshold s
  | .mirrorEnableWrite acc pid value => Sys2Proof.Machine.execMirrorEnableWrite acc pid value s
  | .partnerChipWrite acc sub value => Sys2Proof.Machine.execPartnerChipWrite acc sub value s
  | .shadowMappingWrite acc pid sub value => Sys2Proof.Machine.execShadowMappingWrite acc pid sub value s
  | .takeover acc arg => Sys2Proof.Machine.execTakeover acc arg s
  | .aliasEnd acc arg => Sys2Proof.Machine.execAliasEnd acc arg s
  | .resetRelease powerOn coreLocked straps => Sys2Proof.Machine.execResetRelease powerOn coreLocked straps s
  | .pllLock core die => Sys2Proof.Machine.execPllLock core die s
  | .startupPllTimeout => Sys2Proof.Machine.execStartupPllTimeout s
  | .selfTestReport failed image => Sys2Proof.Machine.execSelfTestReport failed image s
  | .keysDone acc arg => Sys2Proof.Machine.execKeysDone acc arg s
  | .miReady ms => Sys2Proof.Machine.execMiReady ms s
  | .miReadyTimeout ms => Sys2Proof.Machine.execMiReadyTimeout ms s
  | .miReadyFall ms => Sys2Proof.Machine.execMiReadyFall ms s
  | .portPipeRealigned port => Sys2Proof.Machine.execPortPipeRealigned port s
  | .startupTranslationDone => Sys2Proof.Machine.execStartupTranslationDone s
  | .startupScrubGranuleDone granule => Sys2Proof.Machine.execStartupScrubGranuleDone granule s
  | .holdEnter acc arg => Sys2Proof.Machine.execHoldEnter acc arg s
  | .holdEntryDone => Sys2Proof.Machine.execHoldEntryDone s
  | .wake cause => Sys2Proof.Machine.execWake cause s
  | .wakeComplete => Sys2Proof.Machine.execWakeComplete s
  | .partitionCommit acc pid arg => Sys2Proof.Machine.execPartitionCommit acc pid arg s
  | .hostLinkError link => Sys2Proof.Machine.execHostLinkError link s
  | .firmwareSelfCheckFail core => Sys2Proof.Machine.execFirmwareSelfCheckFail core s
  | .rxMalformedFrame port frame => Sys2Proof.Machine.execRxMalformedFrame port frame s

end Sys2Proof.Machine
end

