-- ==== Sys2Proof/WellFormed.lean ====
section
/-! DEFINITION. Which commands can be sent: each operand within the field that carries it. A sender of the block presents no
other; the meanings are total and do not rest on it. -/

namespace Sys2Proof

/-- What is wrong with an operand. -/
inductive Ill where
  /-- Not a unit number (12 Table 12-2). -/
  | unit
  /-- Not an Engine Station 0-127 or a Memory Station 0-31 (01 Table 1-1). -/
  | station
  /-- Not a 52-bit virtual address (01 Table 1-2). -/
  | address
  /-- Not a 4-bit length in beats of 64 bytes, with as much data (01 R16). -/
  | beats
  /-- Not a 4-bit operation code (01 Table 1-9; 02 Table 2-7). -/
  | opcode
  /-- Not a transaction tag and its 4-bit epoch, or an MCTP tag. -/
  | tag
  /-- Not one of the three pools of tags (01 Table 1-5). -/
  | pool
  /-- Not a UCIe module (01). -/
  | module
  /-- Not a die number (01 R12). -/
  | die
  /-- Not the slot, function, endpoint or Reed core of the path, and a 16-bit sequence number (00 Table 0-2; 02 Table 2-8). -/
  | path
  /-- Not a 16-bit index and an 8-bit sub-index (02 R38). -/
  | object
  /-- Not a 4-bit SIZE field (02 Table 2-7). -/
  | size
  /-- Not a 12-bit segment number (02 Table 2-7). -/
  | segment
  /-- Not a byte string whose number fits its length. -/
  | bytes
  /-- Not a function 0-63, or a virtual function 1-63 (03 R104). -/
  | function
  /-- Not a slot of the window, table or group named. -/
  | slot
  /-- Not an access of 1 to 8 bytes (03 R104). -/
  | width
  /-- Not an MCTP endpoint (02 R67). -/
  | endpoint
  /-- Not an MCTP instance number (02 R67). -/
  | inst
  /-- Not a partition 0-63 (03). -/
  | partition
  /-- Not a granule number (01 R12). -/
  | granule
  /-- Not a context 0-1023 (03). -/
  | context
  /-- Not a doorbell number (03 R105). -/
  | doorbell
  /-- Not the doorbell or the command of a channel (05 R168, R169). -/
  | via
  /-- Not a channel 0-511 (05). -/
  | channel
  /-- Not a line. -/
  | line
  /-- Not a port pipe 0-35 (06 Table 6-1). -/
  | port
  /-- Not a queue pair 0-65535 (07). -/
  | queuePair
  /-- Not a 24-bit PSN (06 Table 6-2). -/
  | psn
  /-- Not a key 0-262143 (07). -/
  | key
  /-- Not a chip number (00). -/
  | chip
  /-- Not a group number (08). -/
  | group
  /-- Not a contributor 0-4095 (08 Table 8-1). -/
  | contributor
  /-- Not a program number (09 R302). -/
  | program
  /-- Not the fields of an instruction word (09 Table 9-4). -/
  | runner
  /-- Not a level of the counter tree (10 R320). -/
  | level
  /-- Not a step queue 0-7 (11 R345). -/
  | queue
  /-- Not a fault source 0-27 (12 Table 12-1). -/
  | source
  /-- Not a wait-for edge between queues (12 R399). -/
  | edge
  /-- Not a Drone (12 R401). -/
  | drone
  /-- Not the straps of 160 stations (01 Table 1-7). -/
  | straps
deriving DecidableEq, Repr

/-- The check `c` is met where `ok` holds. -/
def need (c : Ill) (ok : Bool) : List Ill := if ok then [] else [c]

def Bytes.ok (x : Bytes) : Bool := x.val < 2 ^ (8 * x.len)

def Path.ok : Path → Bool
  | .host slot => slot < 64
  | .tenant vf slot => 1 ≤ vf && vf < 64 && slot < 8
  | .mctp eid tag => eid < 256 && tag < 8
  | .fabric chip port => chip < 4096 && port < 36
  | .key => true
  | .reed n => n < 4
  | .debug => true

def Access.ok (x : Access) : Bool := x.path.ok && x.seq < 65536

def ChannelVia.ok : ChannelVia → Bool
  | .doorbell vf rel _ => 1 ≤ vf && vf < 64 && rel < 512
  | .command acc chan _ => acc.ok && chan < 512

def RunnerOp.ok (o : RunnerOp) : Bool := o.pg < 4 && o.vd < 32 && o.sa < 32 && o.sb < 128 && o.sc < 32

def WaitEdge.ok (e : WaitEdge) : Bool := e.src < 2 ^ 32 && e.dst < 2 ^ 32 && e.pid < 64

def Straps.ok (x : Straps) : Bool := x.dieOf.length == 160 && x.modOf.length == 160 && x.zones ≤ 16

/-- Every check that the command's operands miss. -/
def Instr.ill : Instr → List Ill
  | .read es va beats => need .station (es < 128) ++ need .address (va < 2 ^ 52) ++ need .beats (beats < 16)
  | .write es va beats data =>
    need .station (es < 128) ++ need .address (va < 2 ^ 52) ++ need .beats (beats < 16)
      ++ need .beats (data.len == 64 * beats && data.ok)
  | .fetchAdd es va beats _ => need .station (es < 128) ++ need .address (va < 2 ^ 52) ++ need .beats (beats < 16)
  | .cmpSwap es va beats _ _ => need .station (es < 128) ++ need .address (va < 2 ^ 52) ++ need .beats (beats < 16)
  | .swap es va beats _ => need .station (es < 128) ++ need .address (va < 2 ^ 52) ++ need .beats (beats < 16)
  | .pace es va => need .station (es < 128) ++ need .address (va < 2 ^ 52)
  | .commit es => need .station (es < 128)
  | .post es va _ => need .station (es < 128) ++ need .address (va < 2 ^ 52)
  | .wait es => need .station (es < 128)
  | .reservedEqOp es op => need .station (es < 128) ++ need .opcode (op < 16)
  | .memoryReadResponse tag _ _ => need .tag (tag < 2 ^ 16)
  | .staleResponse tag epoch => need .tag (tag < 2 ^ 16) ++ need .tag (epoch < 16)
  | .tagGrant pool => need .pool (pool < 3)
  | .ucieModuleDown module => need .module (module < 16)
  | .diePllLockLoss die => need .die (die < 16)
  | .corePllLockLoss => []
  | .tapRefresh => []
  | .counterWrite acc index sub size _ =>
    need .path (acc.ok) ++ need .object (index < 65536) ++ need .object (sub < 256) ++ need .size (size < 16)
  | .opRead acc index sub size =>
    need .path (acc.ok) ++ need .object (index < 65536) ++ need .object (sub < 256) ++ need .size (size < 16)
  | .opWrite acc index sub size _ =>
    need .path (acc.ok) ++ need .object (index < 65536) ++ need .object (sub < 256) ++ need .size (size < 16)
  | .blobBegin acc index sub _ => need .path (acc.ok) ++ need .object (index < 65536) ++ need .object (sub < 256)
  | .blobSeg acc index sub segment data =>
    need .path (acc.ok) ++ need .object (index < 65536) ++ need .object (sub < 256)
      ++ need .segment (segment < 4096) ++ need .bytes (data.ok)
  | .blobEnd acc index sub => need .path (acc.ok) ++ need .object (index < 65536) ++ need .object (sub < 256)
  | .blobRead acc index sub segment =>
    need .path (acc.ok) ++ need .object (index < 65536) ++ need .object (sub < 256)
      ++ need .segment (segment < 4096)
  | .blobAbort acc index sub => need .path (acc.ok) ++ need .object (index < 65536) ++ need .object (sub < 256)
  | .cmdDone acc index sub op =>
    need .path (acc.ok) ++ need .object (index < 65536) ++ need .object (sub < 256) ++ need .opcode (op < 16)
  | .blobValidationDone index sub => need .object (index < 65536) ++ need .object (sub < 256)
  | .blobAbandon index sub => need .object (index < 65536) ++ need .object (sub < 256)
  | .reqShortWrite fn slot width =>
    need .function (fn < 64) ++ need .slot (slot < if fn == 0 then 64 else 8)
      ++ need .width (1 ≤ width && width < 8)
  | .mctpMessage eid tag _ body => need .endpoint (eid < 256) ++ need .tag (tag < 8) ++ need .bytes (body.ok)
  | .setEndpointId src tag inst eid =>
    need .endpoint (src < 256) ++ need .tag (tag < 8) ++ need .inst (inst < 32)
      ++ need .endpoint (eid < 256)
  | .getEndpointId src tag inst => need .endpoint (src < 256) ++ need .tag (tag < 8) ++ need .inst (inst < 32)
  | .getMctpVersionSupport src tag inst =>
    need .endpoint (src < 256) ++ need .tag (tag < 8) ++ need .inst (inst < 32)
  | .getMessageTypeSupport src tag inst =>
    need .endpoint (src < 256) ++ need .tag (tag < 8) ++ need .inst (inst < 32)
  | .getVendorDefinedMessageSupport src tag inst =>
    need .endpoint (src < 256) ++ need .tag (tag < 8) ++ need .inst (inst < 32)
  | .fmChipWrite acc _ => need .path (acc.ok)
  | .persistSave acc _ => need .path (acc.ok)
  | .restoreDefaults acc _ => need .path (acc.ok)
  | .create acc pid _ => need .path (acc.ok) ++ need .partition (pid < 64)
  | .addEnginesLo acc pid _ => need .path (acc.ok) ++ need .partition (pid < 64)
  | .addEnginesHi acc pid _ => need .path (acc.ok) ++ need .partition (pid < 64)
  | .addGranules acc pid _ => need .path (acc.ok) ++ need .partition (pid < 64)
  | .addLinkShare acc pid _ => need .path (acc.ok) ++ need .partition (pid < 64)
  | .addQp acc pid _ => need .path (acc.ok) ++ need .partition (pid < 64)
  | .addKeys acc pid _ => need .path (acc.ok) ++ need .partition (pid < 64)
  | .addChannels acc pid _ => need .path (acc.ok) ++ need .partition (pid < 64)
  | .addSched acc pid _ => need .path (acc.ok) ++ need .partition (pid < 64)
  | .addEnergy acc pid _ => need .path (acc.ok) ++ need .partition (pid < 64)
  | .addAttr acc pid _ => need .path (acc.ok) ++ need .partition (pid < 64)
  | .addVf acc pid _ => need .path (acc.ok) ++ need .partition (pid < 64)
  | .withdraw acc pid _ => need .path (acc.ok) ++ need .partition (pid < 64)
  | .withdrawDrainDone pid => need .partition (pid < 64)
  | .withdrawDrainTimeout pid => need .partition (pid < 64)
  | .release acc pid _ => need .path (acc.ok) ++ need .partition (pid < 64)
  | .releaseComplete pid => need .partition (pid < 64)
  | .granuleScrubDone granule => need .granule (granule < 65536)
  | .ctxOpen acc pid _ => need .path (acc.ok) ++ need .partition (pid < 64)
  | .ctxClose acc pid _ => need .path (acc.ok) ++ need .partition (pid < 64)
  | .ctxCloseComplete pid cx => need .partition (pid < 64) ++ need .context (cx < 1024)
  | .functionLevelReset vf => need .function (1 ≤ vf && vf < 64)
  | .vfEnableClear => []
  | .tdispStateChange vf _ => need .function (1 ≤ vf && vf < 64)
  | .unboundVfWrite vf _ width _ => need .function (1 ≤ vf && vf < 64) ++ need .width (1 ≤ width && width ≤ 8)
  | .logEnableWrite acc pid _ => need .path (acc.ok) ++ need .partition (pid < 64)
  | .tlpReceive vf _ _ _ _ width _ => need .function (vf < 64) ++ need .width (1 ≤ width && width ≤ 8)
  | .walkerGrant => []
  | .walkTableReadDone _ ans => need .bytes (ans.data.ok)
  | .walkTimeout _ => []
  | .s2RootSet acc pid _ => need .path (acc.ok) ++ need .partition (pid < 64)
  | .s1RootSet acc pid _ => need .path (acc.ok) ++ need .partition (pid < 64)
  | .s1Invalidate acc pid _ => need .path (acc.ok) ++ need .partition (pid < 64)
  | .invalidationRecord slot _ data => need .slot (slot < 256) ++ need .bytes (data.ok)
  | .invalidationComplete slot => need .slot (slot < 256)
  | .doneClear slot width _ => need .slot (slot < 256) ++ need .width (1 ≤ width && width ≤ 8)
  | .kick vf rel _ => need .function (1 ≤ vf && vf < 64) ++ need .doorbell (rel < 65536)
  | .abort via => need .via (via.ok)
  | .resume via => need .via (via.ok)
  | .paceDoorbell vf rel _ => need .function (1 ≤ vf && vf < 64) ++ need .doorbell (rel < 65536)
  | .descriptorArrival chan ans => need .channel (chan < 512) ++ need .bytes (ans.data.ok)
  | .burstResponse chan _ ans => need .channel (chan < 512) ++ need .bytes (ans.data.ok)
  | .channelHalt chan => need .channel (chan < 512)
  | .paceRequestTaken line => need .line (line < 256)
  | .readbackResponse chan ans => need .channel (chan < 512) ++ need .bytes (ans.data.ok)
  | .statusWritebackDone chan ans => need .channel (chan < 512) ++ need .bytes (ans.data.ok)
  | .ladleEnableWrite acc chan _ => need .path (acc.ok) ++ need .channel (chan < 512)
  | .ladleRingConfigWrite acc chan sub _ =>
    need .path (acc.ok) ++ need .channel (chan < 512) ++ need .object (sub < 256)
  | .paceReset acc _ => need .path (acc.ok)
  | .packetTransmit port => need .port (port < 36)
  | .rxWrite port frame => need .port (port < 36) ++ need .bytes (frame.body.ok)
  | .rxReduce port frame => need .port (port < 36) ++ need .bytes (frame.body.ok)
  | .rxReadReq port frame => need .port (port < 36) ++ need .bytes (frame.body.ok)
  | .rxReadResp port frame => need .port (port < 36) ++ need .bytes (frame.body.ok)
  | .rxAtomic port frame => need .port (port < 36) ++ need .bytes (frame.body.ok)
  | .rxAtomicResp port frame => need .port (port < 36) ++ need .bytes (frame.body.ok)
  | .rxAck port frame => need .port (port < 36) ++ need .bytes (frame.body.ok)
  | .rxNak port frame => need .port (port < 36) ++ need .bytes (frame.body.ok)
  | .rxCredit port frame => need .port (port < 36) ++ need .bytes (frame.body.ok)
  | .rxDict port frame => need .port (port < 36) ++ need .bytes (frame.body.ok)
  | .rxMirror port frame => need .port (port < 36) ++ need .bytes (frame.body.ok)
  | .rxSealNak port frame => need .port (port < 36) ++ need .bytes (frame.body.ok)
  | .placementAck qp psn => need .queuePair (qp < 65536) ++ need .psn (psn < 2 ^ 24)
  | .ackDelayExpiry qp => need .queuePair (qp < 65536)
  | .retransmissionTimerExpiry qp psn => need .queuePair (qp < 65536) ++ need .psn (psn < 2 ^ 24)
  | .retryLimitExpiry qp psn => need .queuePair (qp < 65536) ++ need .psn (psn < 2 ^ 24)
  | .linkUpFall port => need .port (port < 36)
  | .linkUpRise port _ => need .port (port < 36)
  | .linkDegradedChange port _ => need .port (port < 36)
  | .transportConfigWrite acc sub _ => need .path (acc.ok) ++ need .object (sub < 256)
  | .qpInit acc pid _ => need .path (acc.ok) ++ need .partition (pid < 64)
  | .qpConnect acc pid _ => need .path (acc.ok) ++ need .partition (pid < 64)
  | .qpReset acc pid _ => need .path (acc.ok) ++ need .partition (pid < 64)
  | .qpResetComplete qp => need .queuePair (qp < 65536)
  | .qpDrain acc pid _ => need .path (acc.ok) ++ need .partition (pid < 64)
  | .qpDrainComplete qp => need .queuePair (qp < 65536)
  | .qpDrainTimeout qp => need .queuePair (qp < 65536)
  | .qpQuery acc pid _ => need .path (acc.ok) ++ need .partition (pid < 64)
  | .keyReg acc pid _ => need .path (acc.ok) ++ need .partition (pid < 64)
  | .keyRevoke acc pid _ => need .path (acc.ok) ++ need .partition (pid < 64)
  | .keyRevokeComplete key => need .key (key < 262144)
  | .keyRevokeTimeout key => need .key (key < 262144)
  | .keyQuery acc pid _ => need .path (acc.ok) ++ need .partition (pid < 64)
  | .setupRecordReadDone pid sub ans =>
    need .partition (pid < 64) ++ need .object (sub < 256) ++ need .bytes (ans.data.ok)
  | .queryWriteDone pid sub ans => need .partition (pid < 64) ++ need .object (sub < 256) ++ need .bytes (ans.data.ok)
  | .sqTail vf rel _ => need .function (1 ≤ vf && vf < 64) ++ need .doorbell (rel < 65536)
  | .cqCons vf rel _ => need .function (1 ≤ vf && vf < 64) ++ need .doorbell (rel < 65536)
  | .cqArm vf rel _ => need .function (1 ≤ vf && vf < 64) ++ need .doorbell (rel < 65536)
  | .wqeFetchDone qp ans => need .queuePair (qp < 65536) ++ need .bytes (ans.data.ok)
  | .wqeWrite qp payload => need .queuePair (qp < 65536) ++ need .bytes (payload.data.ok)
  | .wqeReduce qp payload => need .queuePair (qp < 65536) ++ need .bytes (payload.data.ok)
  | .wqeRead qp => need .queuePair (qp < 65536)
  | .wqeFetchAdd qp => need .queuePair (qp < 65536)
  | .wqeCmpSwap qp => need .queuePair (qp < 65536)
  | .wqeSwap qp => need .queuePair (qp < 65536)
  | .wqeNop qp => need .queuePair (qp < 65536)
  | .localFailure qp _ => need .queuePair (qp < 65536)
  | .completionWrite qp => need .queuePair (qp < 65536)
  | .completionWriteFail qp _ => need .queuePair (qp < 65536)
  | .creditRefreshTimer => []
  | .creditLeaseExpiry chip => need .chip (chip < 4096)
  | .quietPeriodEnd chip => need .chip (chip < 4096)
  | .creditIdleExpiry chip => need .chip (chip < 4096)
  | .creditResync acc _ => need .path (acc.ok)
  | .creditConfigWrite acc sub _ => need .path (acc.ok) ++ need .object (sub < 256)
  | .groupArm acc pid _ => need .path (acc.ok) ++ need .partition (pid < 64)
  | .groupRecordReadDone pid group ans =>
    need .partition (pid < 64) ++ need .group (group < 65536) ++ need .bytes (ans.data.ok)
  | .groupArmed pid group => need .partition (pid < 64) ++ need .group (group < 65536)
  | .groupAbort acc pid _ => need .path (acc.ok) ++ need .partition (pid < 64)
  | .groupAbortDone pid group => need .partition (pid < 64) ++ need .group (group < 65536)
  | .groupLimitWrite acc pid _ => need .path (acc.ok) ++ need .partition (pid < 64)
  | .lineLockGrant ms line => need .station (ms < 32) ++ need .line (line < 2 ^ 44)
  | .application ms pid group slot contrib _ =>
    need .station (ms < 32) ++ need .partition (pid < 64) ++ need .group (group < 65536)
      ++ need .slot (slot < 2 ^ 23) ++ need .contributor (contrib < 4096)
  | .applicationReport pid group slot contrib =>
    need .partition (pid < 64) ++ need .group (group < 65536) ++ need .slot (slot < 2 ^ 23)
      ++ need .contributor (contrib < 4096)
  | .localSlotReadDone pid group slot ans =>
    need .partition (pid < 64) ++ need .group (group < 65536) ++ need .slot (slot < 2 ^ 23)
      ++ need .bytes (ans.data.ok)
  | .outputCastDone pid group ans =>
    need .partition (pid < 64) ++ need .group (group < 65536) ++ need .bytes (ans.data.ok)
  | .groupReadbackDone pid group ans =>
    need .partition (pid < 64) ++ need .group (group < 65536) ++ need .bytes (ans.data.ok)
  | .streamTableReadDone pid group ans =>
    need .partition (pid < 64) ++ need .group (group < 65536) ++ need .bytes (ans.data.ok)
  | .streamBindDone pid group => need .partition (pid < 64) ++ need .group (group < 65536)
  | .phaseDone pid group ms _ => need .partition (pid < 64) ++ need .group (group < 65536) ++ need .station (ms < 32)
  | .secondPhaseStart pid group => need .partition (pid < 64) ++ need .group (group < 65536)
  | .programMadeCurrent pid prog => need .partition (pid < 64) ++ need .program (prog < 256)
  | .progUnload acc pid _ => need .path (acc.ok) ++ need .partition (pid < 64)
  | .progLimitWrite acc pid _ => need .path (acc.ok) ++ need .partition (pid < 64)
  | .nop ms o => need .station (ms < 32) ++ need .runner (o.ok)
  | .fadd ms o => need .station (ms < 32) ++ need .runner (o.ok)
  | .fsub ms o => need .station (ms < 32) ++ need .runner (o.ok)
  | .fmul ms o => need .station (ms < 32) ++ need .runner (o.ok)
  | .ffma ms o => need .station (ms < 32) ++ need .runner (o.ok)
  | .fnma ms o => need .station (ms < 32) ++ need .runner (o.ok)
  | .fmin ms o => need .station (ms < 32) ++ need .runner (o.ok)
  | .fmax ms o => need .station (ms < 32) ++ need .runner (o.ok)
  | .fabs ms o => need .station (ms < 32) ++ need .runner (o.ok)
  | .fneg ms o => need .station (ms < 32) ++ need .runner (o.ok)
  | .fclip ms o => need .station (ms < 32) ++ need .runner (o.ok)
  | .mov ms o => need .station (ms < 32) ++ need .runner (o.ok)
  | .iadd ms o => need .station (ms < 32) ++ need .runner (o.ok)
  | .isub ms o => need .station (ms < 32) ++ need .runner (o.ok)
  | .imul ms o => need .station (ms < 32) ++ need .runner (o.ok)
  | .imin ms o => need .station (ms < 32) ++ need .runner (o.ok)
  | .imax ms o => need .station (ms < 32) ++ need .runner (o.ok)
  | .and ms o => need .station (ms < 32) ++ need .runner (o.ok)
  | .or ms o => need .station (ms < 32) ++ need .runner (o.ok)
  | .xor ms o => need .station (ms < 32) ++ need .runner (o.ok)
  | .shl ms o => need .station (ms < 32) ++ need .runner (o.ok)
  | .shr ms o => need .station (ms < 32) ++ need .runner (o.ok)
  | .sra ms o => need .station (ms < 32) ++ need .runner (o.ok)
  | .fcmp ms o => need .station (ms < 32) ++ need .runner (o.ok)
  | .icmp ms o => need .station (ms < 32) ++ need .runner (o.ok)
  | .sel ms o => need .station (ms < 32) ++ need .runner (o.ok)
  | .plog ms o => need .station (ms < 32) ++ need .runner (o.ok)
  | .rcp ms o => need .station (ms < 32) ++ need .runner (o.ok)
  | .rsqrt ms o => need .station (ms < 32) ++ need .runner (o.ok)
  | .sqrt ms o => need .station (ms < 32) ++ need .runner (o.ok)
  | .exp2 ms o => need .station (ms < 32) ++ need .runner (o.ok)
  | .log2 ms o => need .station (ms < 32) ++ need .runner (o.ok)
  | .cvt ms o => need .station (ms < 32) ++ need .runner (o.ok)
  | .bamax ms o => need .station (ms < 32) ++ need .runner (o.ok)
  | .expb ms o => need .station (ms < 32) ++ need .runner (o.ok)
  | .scalb ms o => need .station (ms < 32) ++ need .runner (o.ok)
  | .ld ms o _ => need .station (ms < 32) ++ need .runner (o.ok)
  | .st ms o => need .station (ms < 32) ++ need .runner (o.ok)
  | .sred ms o => need .station (ms < 32) ++ need .runner (o.ok)
  | .lds ms o => need .station (ms < 32) ++ need .runner (o.ok)
  | .bar ms o => need .station (ms < 32) ++ need .runner (o.ok)
  | .keyPortWord slot _ => need .slot (slot < 16)
  | .spillKeyInstall acc _ => need .path (acc.ok)
  | .linkKeyInstall acc _ => need .path (acc.ok)
  | .linkKeySwitch acc _ => need .path (acc.ok)
  | .spillKeyDestroy acc _ => need .path (acc.ok)
  | .linkKeyDestroy acc _ => need .path (acc.ok)
  | .linkGraceExpiry => []
  | .spillInit acc _ => need .path (acc.ok)
  | .spillInitComplete => []
  | .spillRead pid cx _ _ => need .partition (pid < 64) ++ need .context (cx < 1024)
  | .spillReadReturn line ans _ => need .line (line < 2 ^ 40) ++ need .bytes (ans.data.ok)
  | .spillWrite pid cx _ data => need .partition (pid < 64) ++ need .context (cx < 1024) ++ need .bytes (data.ok)
  | .minorCounterOverflow _ lines => need .bytes (lines.all fun l => l.data.ok)
  | .treeNodeFetchReturn level _ ans => need .level (level ≤ 10) ++ need .bytes (ans.data.ok)
  | .nodeEviction level _ => need .level (level ≤ 10)
  | .annealLeafConversion lines => need .bytes (lines.all fun l => l.data.ok)
  | .spillUnitResetDone pid => need .partition (pid < 64)
  | .spillRangeWrite acc pid _ => need .path (acc.ok) ++ need .partition (pid < 64)
  | .ideStreamWrite acc pid _ => need .path (acc.ok) ++ need .partition (pid < 64)
  | .stepDoorbell vf queue _ => need .function (1 ≤ vf && vf < 64) ++ need .queue (queue < 8)
  | .stepDescriptorArrival pid queue desc ranges =>
    need .partition (pid < 64) ++ need .queue (queue < 8) ++ need .bytes (desc.data.ok)
      ++ need .bytes (ranges.data.ok)
  | .submission es desc => need .station (es < 128) ++ need .bytes (desc.ok)
  | .submissionForward es ranges => need .station (es < 128) ++ need .bytes (ranges.data.ok)
  | .stepDispatch => []
  | .killDone es => need .station (es < 128)
  | .killTimeoutExpiry es => need .station (es < 128)
  | .quantumExpiry _ => []
  | .stepTimeoutExpiry _ => []
  | .telemetrySample counts _ temps => need .unit (counts.all (·.1 < 128)) ++ need .unit (temps.all (·.1 < 16))
  | .budgetWindowStart => []
  | .policyUpdateDone => []
  | .queueFlush acc pid _ => need .path (acc.ok) ++ need .partition (pid < 64)
  | .chanterRingConfigWrite acc pid sub _ =>
    need .path (acc.ok) ++ need .partition (pid < 64) ++ need .object (sub < 256)
  | .fcuEvent => []
  | .countWindowExpiry source => need .source (source < 28)
  | .faultSourceConfigWrite acc source sub _ =>
    need .path (acc.ok) ++ need .source (source < 28) ++ need .object (sub < 256)
  | .faultLHoldExpiry => []
  | .faultLRelease acc _ => need .path (acc.ok)
  | .faultWaitHost acc _ => need .path (acc.ok)
  | .faultWaitFm acc _ => need .path (acc.ok)
  | .domainDrainDone _ => []
  | .domainDrainTimeout _ => []
  | .domainResetDone _ => []
  | .domainRetrainDone _ => []
  | .unitOut acc _ => need .path (acc.ok)
  | .unitReturn acc _ => need .path (acc.ok)
  | .domainFence acc _ => need .path (acc.ok)
  | .recoverBlock acc _ => need .path (acc.ok)
  | .wgdScan edges => need .edge (edges.all WaitEdge.ok)
  | .droneExpiry drone => need .drone (drone < 9)
  | .skimStart acc _ => need .path (acc.ok)
  | .skimUnitRecord _ => []
  | .skimUnitTimeout _ => []
  | .skimRelease acc _ => need .path (acc.ok)
  | .injectModeWrite acc _ => need .path (acc.ok)
  | .injectLockWrite acc _ => need .path (acc.ok)
  | .injectEvent acc _ => need .path (acc.ok)
  | .mirrorStart acc _ => need .path (acc.ok)
  | .mirrorStop acc _ => need .path (acc.ok)
  | .mirrorAckTimer => []
  | .markTimer => []
  | .qpRecordRefresh qp => need .queuePair (qp < 65536)
  | .mirrorRetxExpiry => []
  | .mirrorTimeoutExpiry => []
  | .lagThreshold => []
  | .mirrorEnableWrite acc pid _ => need .path (acc.ok) ++ need .partition (pid < 64)
  | .partnerChipWrite acc sub _ => need .path (acc.ok) ++ need .object (sub < 256)
  | .shadowMappingWrite acc pid sub _ => need .path (acc.ok) ++ need .partition (pid < 64) ++ need .object (sub < 256)
  | .takeover acc _ => need .path (acc.ok)
  | .aliasEnd acc _ => need .path (acc.ok)
  | .resetRelease _ _ straps => need .straps (straps.ok)
  | .pllLock _ die => need .die (die < 16)
  | .startupPllTimeout => []
  | .selfTestReport failed image => need .unit (failed.all (· < 65536)) ++ need .bytes (image.all Bytes.ok)
  | .keysDone acc _ => need .path (acc.ok)
  | .miReady ms => need .station (ms < 32)
  | .miReadyTimeout ms => need .station (ms < 32)
  | .miReadyFall ms => need .station (ms < 32)
  | .portPipeRealigned port => need .port (port < 36)
  | .startupTranslationDone => []
  | .startupScrubGranuleDone granule => need .granule (granule < 65536)
  | .holdEnter acc _ => need .path (acc.ok)
  | .holdEntryDone => []
  | .wake _ => []
  | .wakeComplete => []
  | .partitionCommit acc pid _ => need .path (acc.ok) ++ need .partition (pid < 64)
  | .hostLinkError _ => []
  | .firmwareSelfCheckFail core => need .unit (core < 4)
  | .rxMalformedFrame port frame => need .port (port < 36) ++ need .bytes (frame.body.ok)

/-- The command is well formed: its operands meet every check. -/
def Instr.wf (i : Instr) : Bool := i.ill.isEmpty

end Sys2Proof
end

