-- ==== Sys2Proof/Safety.lean ====
section
/-! DEFINITION. What a safe run of the block is, and the conditions and outcomes in whose terms statements are made. -/

namespace Sys2Proof.Machine

/-- Package memory is in its canonical form. -/
def State.memOk (s : State) : Prop := Memory.wf s.dev.mem = true

/-- Every command that waits is well formed. -/
def State.queueOk (s : State) : Prop := ∀ i ∈ s.pending, i.wf = true

/-- The outcome is a next state `t`, with `p t`. -/
def Goes (o : Host.Outcome State Fault Refusal) (p : State → Prop) : Prop := ∃ t, o = .next t ∧ p t

/-- The same queue, with the block as given. -/
def State.on (s : State) (b : Block) : State := { s with dev := b }

/-! ## Conditions -/

/-- POWER_STATE is RUN: nothing waits for a wake (14 R436). -/
def awake (b : Block) : Prop := rd b 0xC000 6 = 0

/-- INJECT_MODE is not CHECKBITS: no check point meets an injected error (12 R408). -/
def noInjection (b : Block) : Prop := rd b 0xF000 1 ≠ 1

/-- A command object can take a command: the block is awake and its dictionary ready, the object's result is not PENDING
and fewer than 256 commands are pending (02 R43, R48, R52). -/
def canTake (b : Block) (idx sub : Nat) : Prop :=
  awake b ∧ dictReady b = true ∧ resultState b idx sub ≠ 1 ∧ pendingCmd b idx sub = none ∧ b.dict.cmds.length < 256

/-- The access comes from the host's or the firmware's path (00 R2). -/
def byHost (acc : Access) : Prop := roleOf acc.path = .host ∨ roleOf acc.path = .fw

/-- The access comes from the root of trust's path. -/
def fromRot (acc : Access) : Prop := roleOf acc.path = .rot

/-- The access comes from the host, the firmware or the partition's own tenant, the last while no part of the block is
fenced as a whole (00 R3; 12 R393). -/
def mayCommand (b : Block) (acc : Access) (pid : Nat) : Prop :=
  byHost acc ∨ roleOf acc.path = .tnt ∧ pathPid b acc.path = pid ∧ rd b 0x9000 1 = 0

/-- A partition's number (00 R5). -/
def isPid (pid : Nat) : Prop := 1 ≤ pid ∧ pid < 64

/-- A station takes requests: it is present and out of reset, and EQ_READY is high (01 R20; 04 R131; 11 R347). -/
def stationTakes (b : Block) (es : Nat) : Prop :=
  esPresent b es = true ∧ heldInReset b (uES es) = false ∧ eqReady b es = true

/-- The cluster of an Engine Station runs step `st` and may make requests: the station takes requests, is in service and
under no kill, and the step's partition is in service and its context OPEN (11 R349-R351, R355; 03 R91; 12 R388). -/
def clusterRuns (b : Block) (es : Nat) (st : Step) : Prop :=
  stationTakes b es ∧ served b (uES es) = true ∧ (station b es).killing = false ∧ runsStep b es = some st
    ∧ st.kill = none ∧ fencedAccess b st.ctx = false ∧ ctxOpen b st.pid st.ctx.cx = true

/-- Bytes of an engine request: 8 for an atomic, else 64 a beat. -/
def engineLen (op beats : Nat) : Nat := if 2 ≤ op then 8 else 64 * beats

/-- Is the request aligned as its operation asks? -/
def engineAligned (op va beats : Nat) : Prop := if 2 ≤ op then va % 8 = 0 ∧ beats = 1 else va % 64 = 0

/-- The request a station lists. -/
def engineReq (b : Block) (op va beats data compare : Nat) (st : Step) : EReq :=
  ⟨b.cha.nextReq, op, va, engineLen op beats, data % 2 ^ (8 * engineLen op beats), compare, st.ctx, [], false, false⟩

/-- The request passes its station's checks, no request before it keeps it back, and translation and the guards let it
through as the pieces `segs`, in the state `b` (01 R15, R16; 11 R351; 04 R131, R147). -/
def engineLetThrough (s : State) (es op va beats data compare : Nat) (st : Step) (b : Block) (segs : List Seg) : Prop :=
  let r := engineReq s.dev op va beats data compare st
  1 ≤ beats ∧ beats ≤ 8 ∧ va < 2 ^ 52 ∧ engineAligned op va beats
    ∧ declared st (op != 0) va (engineLen op beats) = true
    ∧ (∀ q ∈ (station s.dev es).reqs, r.after q = false)
    ∧ prepare (addReq s.dev es r).1 (reqAsker es r) r.ctx r.va r.len r.access true = (b, .issued segs)

/-- A write of value `v` to the scalar object `r` passes every check of 02 R43: the block is awake and its dictionary
ready, the object may be written on this path, the value is legal and the object's state and neighbours allow it. -/
def writeTaken (b : Block) (acc : Access) (idx sub v : Nat) (r : ObjRow) : Prop :=
  awake b ∧ dictReady b = true ∧ 0 < sub ∧ objRow idx sub = some r ∧ r.ty ≠ .cmd ∧ r.ty ≠ .blob
    ∧ firstChecks (count b 0x1402 5) acc idx sub true = none
    ∧ writeFault (count b 0x1402 5) r (fencedTnt (count b 0x1402 5) acc) idx sub v = none

/-- An operation on a BLOB object passes the checks of 02 R43 that come before the operation's own. -/
def blobTaken (b : Block) (acc : Access) (idx sub : Nat) (write : Bool) : Prop :=
  awake b ∧ dictReady b = true ∧ firstChecks (count b 0x1402 5) acc idx sub write = none ∧ objType idx sub = .blob
    ∧ (write = true → fencedTnt (count b 0x1402 5) acc = false)

/-- The transfer open on a BLOB object is the caller's and is not being validated (02 R57, R60). -/
def blobMine (b : Block) (acc : Access) (idx sub : Nat) (t : Transfer) : Prop :=
  xfer b idx sub = some t ∧ t.validating = none ∧ t.owner = ownerOf b acc.path

/-- An ADD_* command at subindex `sub` stages into a partition that is BUILDING: its object can take a command, no COMMIT
of the partition is pending, no TDISP state locks its descriptor, and the descriptor is read without an injected error
(03 R81-R83, Table 3-11; 01 R26). -/
def mayStage (b : Block) (acc : Access) (pid sub : Nat) : Prop :=
  byHost acc ∧ isPid pid ∧ canTake b (0x2100 + pid) sub ∧ noInjection b ∧ (part b pid).st = .building
    ∧ tdispLocked b pid = false ∧ resultState b (0x2100 + pid) 0x10 ≠ 1

/-- Doorbell `rel` of function `vf` reaches the Ladle for the partition `pid`: bound, LIVE, in service and admitted, with
the index in its channel range (03 R105, R106; 05 R153). -/
def reachesLadle (b : Block) (vf rel pid : Nat) : Prop :=
  awake b ∧ pidOfVf b vf = pid ∧ pid ≠ 0 ∧ isLive b pid = true ∧ partServed b pid = true ∧ hostAdmitted b pid = true
    ∧ rel < (part b pid).chanCount ∧ served b uLadle = true

/-- A frame that passes checks 1 to 3 as the packet `k` arrives at a port in service of an awake block that is not fenced
(06 R197); `o`: it verified under the next or the previous link key. -/
def arrives (b : Block) (p : Nat) (f : Frame) (o : Bool) (k : Packet) : Prop :=
  receives b p = true ∧ verdict b f = .packet o k ∧ awake b ∧ rd b 0x9000 1 = 0

/-- The block with the frame counted as received. -/
def counted (b : Block) (p : Nat) (f : Frame) (o : Bool) : Block :=
  if o then count (countArrival b p f) 0x7000 0x15 else countArrival b p f

/-- The packet passes check 4, its payload meets no injected error and the Transport Engine is in service: the block is
then `a`. -/
def reachesTpe (b : Block) (p : Nat) (f : Frame) (k : Packet) (a : Block) : Prop :=
  ∃ o, arrives b p f o k ∧ noInjection a ∧ served a uTPE = true
    ∧ (if creditType k.head.typ then creditArrival (counted b p f o) p k.head.src k.head.tc = (a, true)
       else a = counted b p f o)

/-- The packet reaches the Transport Engine and passes checks 5 and 6 for queue pair `i`. -/
def reachesQp (b : Block) (p : Nat) (f : Frame) (k : Packet) (a : Block) (i : Nat) : Prop :=
  reachesTpe b p f k a ∧ dstQp a k.aliased k.head.dstQp = some i ∧ (qp a i).peerIs k.head.src k.head.srcQp = true
    ∧ genOk a (qp a i) k.head.gen = true

/-- A request passes checks 7 to 12 at queue pair `i`, under key `j` (06 R197, R205; 07 Table 7-10). -/
def requestPasses (b : Block) (i : Nat) (r : Req) (j : Nat) : Prop :=
  screen b i r = none ∧ (qp b i).refusing = none ∧ stateStatus b (qp b i) = none ∧ msnOk (qp b i) r = true
    ∧ reqStatus b i r = none ∧ noInjection (acceptReq b i r) ∧ keyCheck (acceptReq b i r) i r = .ok j

/-- The request is accepted and counts on its key. -/
def onKey (b : Block) (i : Nat) (r : Req) (j : Nat) : Block := keyTaken (acceptReq b i r) j

/-- The fields of a header fit their bits, and those its type reserves are zero (06 R180, R181). -/
def Bth.legal (h : Bth) : Prop :=
  h.typ < 16 ∧ h.tc < 4 ∧ h.src < 4096 ∧ h.dst < 4096 ∧ h.srcQp < 65536 ∧ h.dstQp < 65536 ∧ h.psn < 2 ^ 24
    ∧ h.entropy < 65536 ∧ h.gen < 256 ∧ (creditType h.typ = true ∨ h.tc = 0)
    ∧ (requestType h.typ = true ∨ h.ackreq = false ∧ h.rcq = false ∧ h.retx = false ∧ h.fence = false)
    ∧ (h.typ = tCREDIT ∨ h.typ = tDICT ∨ h.typ = tMIRROR ∨ h.typ = tSEALNAK →
        h.srcQp = 0 ∧ h.dstQp = 0 ∧ h.psn = 0 ∧ h.gen = 0)

/-- The credit granted is listed by ascending chip, and its cumulative counters are of 32 bits (07 R240). -/
def creditOk (b : Block) : Prop :=
  risingFrom 0 b.tpe.rxCredit = true ∧ ∀ e ∈ b.tpe.rxCredit, (∀ v ∈ e.2.u, v < 2 ^ 32) ∧ ∀ v ∈ e.2.g, v < 2 ^ 32

/-! ## Outcomes -/

/-- The block once it has accepted a command: the access is counted, the command takes the next command sequence number
and a place among the pending ones, its result reads PENDING and the access is answered PENDING (02 R50, R51). -/
def accepted (b : Block) (acc : Access) (idx sub arg : Nat) : Block := acceptCmd (count b 0x1402 5) acc idx sub arg

/-- A command's result reads DONE with its code and detail under the number the command got (02 Table 2-4, R51). -/
def finishes (s t : State) (idx sub : Nat) (c : Code) (detail : Nat) : Prop :=
  rd t.dev idx (sub + 0x80) = resultWord ((s.dev.dict.cmdSeq + 1) % 65536) 2 c.num detail

/-- A command's result reads PENDING under the number the command got. -/
def pends (s t : State) (idx sub : Nat) : Prop :=
  rd t.dev idx (sub + 0x80) = resultWord ((s.dev.dict.cmdSeq + 1) % 65536) 1 Code.pending.num 0

/-- Nothing changes but the dictionary, the partition table, the interrupts and what is presented at the boundary. -/
def onlyManaged (s t : State) : Prop :=
  t.dev.clk = s.dev.clk ∧ t.dev.straps = s.dev.straps ∧ t.dev.tags = s.dev.tags ∧ t.dev.mem = s.dev.mem
    ∧ t.dev.hub = s.dev.hub ∧ t.dev.ladle = s.dev.ladle ∧ t.dev.tpe = s.dev.tpe ∧ t.dev.replies = s.dev.replies
    ∧ t.dev.mirror = s.dev.mirror ∧ t.dev.ring = s.dev.ring ∧ t.dev.ssu = s.dev.ssu ∧ t.dev.cru = s.dev.cru
    ∧ t.dev.cha = s.dev.cha ∧ t.dev.fcu = s.dev.fcu ∧ t.dev.held = s.dev.held ∧ t.pending = s.pending

/-- An ADD_* command has staged the descriptor `p`, and changed nothing else but the dictionary. -/
def staged (s t : State) (pid sub : Nat) (p : Part) (detail : Nat) : Prop :=
  part t.dev pid = p ∧ finishes s t (0x2100 + pid) sub .ok detail ∧ (∀ q, q ≠ pid → part t.dev q = part s.dev q)
    ∧ (∀ i j, objKey i j ≠ objKey (0x2100 + pid) (sub + 0x80) → objKey i j ≠ objKey 0x1402 5 →
      rd t.dev i j = rd s.dev i j)
    ∧ onlyManaged s t

/-- No byte of package memory changes. -/
def memSame (s t : State) : Prop := ∀ a, readByte t.dev a = readByte s.dev a

end Sys2Proof.Machine
end

