-- ==== Sys2Proof/Certificates/Slice0/Obligations.lean ====
section
/-! DEFINITION. The statements about the block, for the provers. -/

open Sys2Proof Sys2Proof.Machine

/-- For every command c and every state s, a step of s with c at the front of its queue is exec of c on s with the rest
of the queue. (95_what_each_step_holds.md, 00_scope.md) -/
def Obligations.StepTakesTheFrontCommand : Prop :=
  ∀ (c : Instr) (q : List Instr) (s : State), step { s with pending := c :: q } = exec c { s with pending := q }

/-- From every state, for every number n of steps, a run of n steps answers a next state (no fault, no refusal), in
which exactly the first n commands of the queue have been taken, in order, and none has been added; and every
command, on every state, answers a next state whose queue of waiting commands is the one it was given.
(95_what_each_step_holds.md, 12_faults_hangs_recovery.md) -/
def Obligations.BlockNeverStopsAndTakesCommandsInOrder : Prop :=
  (∀ (n : Nat) (s : State), ∃ t : State, Host.Core.run Sys2Proof.core n s = .next t ∧ t.pending = s.pending.drop n)
  ∧ (∀ (i : Instr) (s : State), Goes (exec i s) fun t => t.pending = s.pending)

/-- State.reset's package memory has its canonical form and its queue is empty. With an empty queue a step is the
model's idle step (log 4, the model's choice): before the reset is released nothing changes; afterwards local time
(R22) advances by one cycle and the queue stays empty. (01_block_and_boundary.md, 95_what_each_step_holds.md) -/
def Obligations.ResetIsCanonicalAndAnIdleBlockPassesTime : Prop :=
  State.reset.memOk ∧ State.reset.pending = [] ∧ State.reset.queueOk
  ∧ (∀ s : State, s.pending = [] →
    (s.dev.clk.released = false → step s = .next s)
    ∧ (s.dev.clk.released = true → Goes (step s) fun t => t.pending = []
      ∧ t.dev.clk = { s.dev.clk with now := s.dev.clk.now + 1 }))

/-- From every state whose package memory is in its canonical form (addresses strictly rising, no byte listed that reads
as an unlisted one), a step that answers a next state leaves it so: equal contents of memory stay equal data,
whatever command runs. (01_block_and_boundary.md, 04_translation_guards.md, 95_what_each_step_holds.md) -/
def Obligations.MemoryKeepsItsCanonicalForm : Prop :=
  ∀ s t : State, s.memOk → step s = .next t → t.memOk

/-- A READ, a WRITE, a FETCH_ADD, a CMP_SWAP or a SWAP from a cluster that runs a step, which passes its station's
checks, which no earlier request keeps back, and which translation and the guards let through with its tile in
package memory: the READ goes out as reads of its pieces, its request staying listed as issued; the WRITE, finding a
tag of the memory pool, takes it, writes its pieces and is over, and where the pool has none for it, it waits for
one; the atomic, finding a tag, its line free and its station in service, is done as one read-modify-write and
answers the original value on ED_RDATA. What waited for the request at its station goes on. (Tiles of the host
aperture, the spill window and other chips are served by the host port, the SSU and the transport.)
(01_block_and_boundary.md, 04_translation_guards.md, 11_chanter.md) -/
def Obligations.EngineRequestsReachPackageMemory : Prop :=
  ∀ (s : State) (es va beats : Nat) (st : Step) (b : Block) (segs : List Seg),
    awake s.dev → clusterRuns s.dev es st → noInjection s.dev → segsPlace b segs = .package →
    let tag (b : Block) (r : EReq) := grantTag (setReq b es r) ⟨.mem, st.ctx, [], reqHolder es r.num, []⟩
    let ready (b : Block) (r : EReq) := tagFree b .mem st.ctx.pid = true ∧ issued b (reqHolder es r.num) = false
    (engineLetThrough s es 0 va beats 0 0 st b segs →
      let r := { engineReq s.dev 0 va beats 0 0 st with issued := true, segs := segs }
      exec (.read es va beats) s
        = .next (s.on (release (goRead (setReq b es r) (reqAsker es r) st.ctx segs) es)))
    ∧ (∀ data : Bytes, engineLetThrough s es 1 va beats data.val 0 st b segs →
      let r := { engineReq s.dev 1 va beats data.val 0 st with issued := true, segs := segs }
      (ready b r → exec (.write es va beats data) s
        = .next (s.on (release (dropReq (putPieces (tag b r) (reqAsker es r) st.ctx ⟨r.len, r.data⟩ 0 0 segs) es r.num) es)))
      ∧ (tagFree b .mem st.ctx.pid = false → issued b (reqHolder es r.num) = false →
        exec (.write es va beats data) s
          = .next (s.on (release (waitTag (setReq b es r) ⟨.mem, st.ctx, [], reqHolder es r.num, []⟩) es))))
    ∧ (∀ (op : Nat) (x y : Word), 2 ≤ op → op < 5 → engineLetThrough s es op va beats x.toNat y.toNat st b segs →
      let r := { engineReq s.dev op va beats x.toNat y.toNat st with issued := true, segs := segs }
      ready b r → lockFree b r.pa 1 = true → served b (uMS (stationOf r.pa)) = true →
      let a := atomicAt (tag b r) r.pa (op - 2) x.toNat y.toNat
      let t := s.on (release (emit (dropReq a.1 es r.num) (.edData es ⟨8, a.2⟩)) es)
      (op = 2 → y = 0 → exec (.fetchAdd es va beats x) s = .next t)
      ∧ (op = 3 → exec (.cmpSwap es va beats x y) s = .next t)
      ∧ (op = 4 → y = 0 → exec (.swap es va beats x) s = .next t))

/-- At an Engine Station that takes requests and is in service, a request with a reserved EQ_OP is answered GUARD_FAULT
on EQ_STATUS; every other operation code of Table 1-9 is a request of its own. A READ or WRITE whose EQ_VA is no
multiple of 64, and an atomic whose EQ_VA is no multiple of 8 or whose EQ_LEN is not 1, is answered MISALIGNED, and
nothing else of the block changes, where the cluster's step declares the bytes and its context is served and OPEN;
in every other case (R32 puts other statuses first, among them FENCED of a station out of service) it is refused on
EQ_STATUS too, with MISALIGNED or a status that comes before it. In no case does the request leave the station: its
list of requests, memory, the Hub and the tags are as before. (R16) -/
def Obligations.EngineRefusalsStayAtTheStation : Prop :=
  ∀ (s : State) (es va beats : Nat), awake s.dev → stationTakes s.dev es →
    let refused (st : Status) := s.on (emit s.dev (.eqStatus es st))
    let stays (o : Host.Outcome State Fault Refusal) := Goes o fun t => ∃ st, statusRank st ≤ statusRank .misaligned
      ∧ t.dev.out = s.dev.out ++ [.eqStatus es st] ∧ t.dev.cha = s.dev.cha ∧ t.dev.mem = s.dev.mem
      ∧ t.dev.hub = s.dev.hub ∧ t.dev.tags = s.dev.tags
    (∀ op, reservedOp op = true → served s.dev (uES es) = true → exec (.reservedEqOp es op) s = .next (refused .guardFault))
    ∧ (∀ op, op < 16 → (reservedOp op = true ↔ op ∉ [0, 1, 2, 3, 4, 8, 9, 10, 11]))
    ∧ (∀ st : Step, served s.dev (uES es) = true → runsStep s.dev es = some st → fencedAccess s.dev st.ctx = false →
      ctxOpen s.dev st.pid st.ctx.cx = true → va < 2 ^ 52 →
      (1 ≤ beats → beats ≤ 8 → va % 64 ≠ 0 →
        (declared st false va (64 * beats) = true → exec (.read es va beats) s = .next (refused .misaligned))
        ∧ (declared st true va (64 * beats) = true → ∀ data, exec (.write es va beats data) s = .next (refused .misaligned)))
      ∧ (beats < 16 → (va % 8 ≠ 0 ∨ beats ≠ 1) → declared st true va 8 = true → ∀ x y : Word,
        exec (.fetchAdd es va beats x) s = .next (refused .misaligned)
        ∧ exec (.cmpSwap es va beats x y) s = .next (refused .misaligned)
        ∧ exec (.swap es va beats x) s = .next (refused .misaligned)))
    ∧ (va < 2 ^ 52 →
      (1 ≤ beats → beats ≤ 8 → va % 64 ≠ 0 →
        stays (exec (.read es va beats) s) ∧ ∀ data, stays (exec (.write es va beats data) s))
      ∧ (beats < 16 → (va % 8 ≠ 0 ∨ beats ≠ 1) → ∀ x y : Word, stays (exec (.fetchAdd es va beats x) s)
        ∧ stays (exec (.cmpSwap es va beats x y) s) ∧ stays (exec (.swap es va beats x) s)))

/-- From a cluster that runs a step and has no request outstanding: PACE on a line of its partition whose SOURCE is
ENGINE raises the line's request, and on any other line it is answered GUARD_FAULT and counted in PACE_DROPPED;
COMMIT is forwarded and answered OK. POST rings the doorbell of its step's partition and is answered OK. A WAIT of
an idle cluster whose station takes requests, is in service and under no kill is parked at the station, and nothing
else changes. (05_ladle_dma.md, 11_chanter.md) -/
def Obligations.EngineControlRequests : Prop :=
  ∀ (s : State) (es : Nat) (st : Step), awake s.dev →
    (clusterRuns s.dev es st → (station s.dev es).reqs = [] →
      let listed (op va : Nat) := dropReq (addReq s.dev es ⟨0, op, va, 0, 0, 0, st.ctx, [], false, false⟩).1 es
        s.dev.cha.nextReq
      (∀ va, let e := paceEntry s.dev (va % 256)
        exec (.pace es va) s = .next (s.on (if paceOwner e = st.ctx.pid ∧ paceSource e = 1
          then paceRequest (bindStep (listed 8 va) es) (va % 256)
          else emit (count (listed 8 va) 0x4000 7) (.eqStatus es .guardFault))))
      ∧ exec (.commit es) s = .next (s.on (emit (commitStep (bindStep (listed 9 0) es) es) (.eqStatus es .ok))))
    ∧ (clusterRuns s.dev es st → ∀ (va : Nat) (w : Word),
      exec (.post es va w) s = .next (s.on (emit (qpWord (bindStep s.dev es) st.pid (va % 65536) w.toNat) (.eqStatus es .ok))))
    ∧ (stationTakes s.dev es → served s.dev (uES es) = true → (station s.dev es).killing = false →
      runsStep s.dev es = none →
      exec (.wait es) s = .next (s.on (setStation s.dev es { station s.dev es with waiting := true })))

/-- For every tag and every 4-bit epoch that is not the tag's, the response changes nothing but 0x1300.07, which counts
one more (an ACC counter: it wraps at 64 bits); every other object keeps its value, and so does every unit. A
response that carries the tag's own epoch is none of this: nothing is counted. (R30) -/
def Obligations.StaleResponsesAreCountedAndDiscarded : Prop :=
  ∀ (s : State) (tag epoch : Nat), tag < 65536 → epoch < 16 →
    (epoch ≠ tagEpoch s.dev tag → Goes (exec (.staleResponse tag epoch) s) fun t =>
      rd t.dev 0x1300 7 = (rd s.dev 0x1300 7 + 1) % 2 ^ 64
        ∧ (∀ i j, objKey i j ≠ objKey 0x1300 7 → rd t.dev i j = rd s.dev i j)
        ∧ t = s.on { s.dev with dict := t.dev.dict }
        ∧ t.dev.dict = { s.dev.dict with objs := t.dev.dict.objs })
    ∧ (epoch = tagEpoch s.dev tag → exec (.staleResponse tag epoch) s = .next s)

/-- A memory read response for a tag that an engine's request holds answers that request once all its pieces are there,
with the status and data of its pieces (poison or an error on any beat: POISON). A TAG_GRANT gives the pool's lowest
free tag to the request whose turn it is, which leaves the waiting list and becomes a tag in use, and is issued. A
LINE_LOCK_GRANT gives a free line to the oldest request that waits for it (an atomic of an engine or of a packet, or
a Crucible application), which then goes on; an engine's atomic is then done. (01_block_and_boundary.md,
08_crucibles.md) -/
def Obligations.ResponsesAndGrantsOfTheEngineStations : Prop :=
  (∀ (s : State) (tag poison : Nat) (err : Bool) (u : TagUse) (r : EReq) (b : Block) (st : Status) (d : Nat),
    s.dev.tags.used.find? (·.tag == tag) = some u → u.holder.kind = .engineRead →
    (station s.dev u.holder.a).reqs.find? (·.num == u.holder.b) = some r →
    arrive (draw s.dev).2 (reqHolder u.holder.a u.holder.b) r.segs
      ⟨.ok, ⟨512, (draw s.dev).1 % 2 ^ 4096⟩, err || poison != 0⟩ (if r.op = 1 then 0 else r.len) = some (b, st, d) →
    exec (.memoryReadResponse tag poison err) s = .next (s.on (engineAnswer b u.holder.a r st d)))
  ∧ (∀ (s : State) (pool : Nat) (p : Pool) (w : TagWait), poolOfNum pool = some p → nextWaiter s.dev p = some w →
    let b := setTurn (grantTag { s.dev with tags := { s.dev.tags with waits := s.dev.tags.waits.erase w } } w) p w.pid
    exec (.tagGrant pool) s = .next (s.on (if w.holder.kind = .frame then frameGo b w.holder.a w.holder.b
      else if w.msg.isEmpty then retryAsker b w.holder else b)))
  ∧ (∀ (s : State) (ms : Nat) (w : LockWait), lockNext s.dev ms = some w →
    let b := lockTake s.dev w
    exec (.lineLockGrant ms (lineOf w.pa)) s = .next (s.on (lockServe b w))
    ∧ (∀ es num r, w.who = .engine es num → findReq s.dev es num = some r →
      exec (.lineLockGrant ms (lineOf w.pa)) s = .next (s.on (release (engineAtomic b es r) es))))

/-- R27-R29: where the free tags of a pool cover what is left of the 64-tag reserves of all LIVE partitions, they still
do after the pool's next waiting request has been granted its tag; the tag it takes is one more in use. TAG_GRANT is
that grant, after which a fabric frame that waited for it goes on, and a unit that holds its request itself presents
it. (01_block_and_boundary.md) -/
def Obligations.TagGrantsKeepEveryReserve : Prop :=
  ∀ (s : State) (pool : Nat) (p : Pool) (w : TagWait), poolOfNum pool = some p → nextWaiter s.dev p = some w →
    let reserve (b : Block) := (pids.filter (isLive b)).foldl (fun n q => n + (64 - poolHeld b p q)) 0
    let b := tagGrant s.dev p
    exec (.tagGrant pool) s = .next (s.on (if w.holder.kind = .frame then frameGo b w.holder.a w.holder.b
      else if w.msg.isEmpty then retryAsker b w.holder else b))
    ∧ poolUsed b p = poolUsed s.dev p + 1
    ∧ (reserve s.dev ≤ poolSize p - poolUsed s.dev p → reserve b ≤ poolSize p - poolUsed b p)

/-- After RESET_RELEASE local time is 0, the block is released, the straps are those presented, no partition, context,
tag, channel, queue pair, key, group, step or link or spill key is left, and STARTUP_STEP is 1, or 2 where the JX9
PLL is locked already and no present station waits for its die's PLL. At power-on package memory reads the model's
default everywhere (log 2: zero, the model's choice) and at a reset with the supplies kept every byte of it keeps
its value. (14_startup_hold.md, 01_block_and_boundary.md) -/
def Obligations.ResetReleaseStartsTheBlock : Prop :=
  ∀ (s : State) (powerOn lock : Bool) (st : Straps), Goes (exec (.resetRelease powerOn lock st) s) fun t =>
    t.dev.clk.now = 0 ∧ t.dev.clk.released = true ∧ t.dev.straps = st
      ∧ t.dev.ptb = Block.reset.ptb ∧ t.dev.tags = Block.reset.tags ∧ t.dev.hub = Block.reset.hub
      ∧ t.dev.ladle = Block.reset.ladle ∧ t.dev.tpe.qps = [] ∧ t.dev.tpe.keys = [] ∧ t.dev.ring = Block.reset.ring
      ∧ t.dev.ssu = Block.reset.ssu ∧ t.dev.cru = Block.reset.cru ∧ t.dev.cha = Block.reset.cha
      ∧ t.dev.mirror = Block.reset.mirror ∧ t.dev.held = []
      ∧ startupStep t.dev = (if lock && (unlockedUnits t.dev).isEmpty then 2 else 1)
      ∧ (powerOn = true → ∀ a, readByte t.dev a = 0)
      ∧ (powerOn = false → memSame s t)

/-- Step 1 ends when the last PLL reports lock, or, with the JX9 PLL locked, when 10 ms have passed; without it the
block HALTs (STARTUP_STEP 0xFF, FAULT_L low). Step 2 ends with a self-test report that names no present unit, and
step 3 with it: step 4 follows. KEYS_DONE of the root of trust with a spill key current ends step 4 and asserts
MI_TRAIN at every station that is trained. The last MI_READY ends step 5 and starts the port pipes' realignment; the
last pipe ends step 6; step 7 empties the translation buffers and STARTUP_STEP reads RUNNING. (14_startup_hold.md,
02_object_dictionary.md) -/
def Obligations.StartupAdvancesThroughItsSteps : Prop :=
  (∀ (s : State) (core : Bool) (die : Nat), s.dev.clk.released = true → startupStep s.dev = 1 → core = true ∨ die < 16 →
    let c := if core then { s.dev.clk with coreLock := true }
      else { s.dev.clk with dieLock := s.dev.clk.dieLock ||| BitVec.ofNat 16 (2 ^ die) }
    c.coreLock = true → unlockedUnits { s.dev with clk := c } = [] →
    Goes (exec (.pllLock core die) s) fun t => startupStep t.dev = 2 ∧ memSame s t)
  ∧ (∀ s : State, s.dev.clk.released = true → startupStep s.dev = 1 → micros 10000 ≤ s.dev.clk.now →
    Goes (exec .startupPllTimeout s) fun t =>
      (s.dev.clk.coreLock = true → startupStep t.dev = 2 ∧ ∀ u ∈ unlockedUnits s.dev, (domain t.dev u).st = .out)
      ∧ (s.dev.clk.coreLock = false → startupStep t.dev = 0xFF ∧ rd t.dev 0x9000 3 = 1))
  ∧ (∀ (s : State) (failed : List Nat) (image : Option Bytes), startupStep s.dev = 2 → rd s.dev 0x9000 1 ≠ 2 →
    failed.filter (unitPresent s.dev) = [] →
    Goes (exec (.selfTestReport failed image) s) fun t => startupStep t.dev = 4 ∧ dictReady t.dev = true)
  ∧ (∀ (s : State) (acc : Access), startupStep s.dev = 4 → s.dev.ring.spillCur ≠ none → canTake s.dev 0xC000 0x41 →
    fromRot acc → trained s.dev ≠ [] →
    Goes (exec (.keysDone acc 0) s) fun t => startupStep t.dev = 5 ∧ finishes s t 0xC000 0x41 .ok 0
      ∧ ∀ m ∈ trained s.dev, .miTrain m ∈ t.dev.out)
  ∧ (∀ (s : State) (ms : Nat), startupStep s.dev = 5 → msPresent s.dev ms = true → starts s.dev (uMS ms) = true →
    (domain s.dev (uMS ms)).st ≠ .retraining → (∀ m ∈ trained s.dev, m ≠ ms → ready s.dev m = true) → aligned s.dev ≠ [] →
    Goes (exec (.miReady ms) s) fun t => startupStep t.dev = 6 ∧ ∀ p ∈ aligned s.dev, (port t.dev p).realigning = true)
  ∧ (∀ (s : State) (p : Nat), startupStep s.dev = 6 → p < 36 → starts s.dev (uPP p) = true →
    (domain s.dev (uPP p)).st ≠ .retraining → (port s.dev p).realigning = true →
    let b := portLink (setPort s.dev p { port s.dev p with realigning := false }) p (port s.dev p).linkUp (port s.dev p).degraded
    exec (.portPipeRealigned p) s = .next (s.on (alignCheck b))
      ∧ (startupStep b = 6 → (∀ q ∈ aligned b, (port b q).realigning = false) → startupStep (alignCheck b) = 7))
  ∧ (∀ s : State, startupStep s.dev = 7 → rd s.dev 0x9000 1 ≠ 2 → s.dev.tpe.noPath = [] →
    Goes (exec .startupTranslationDone s) fun t => startupStep t.dev = 8 ∧ t.dev.hub.esTlb = [] ∧ t.dev.hub.shared = []
      ∧ memSame s t)

/-- A Memory Station whose MI_READY has not risen 1.2 s after step 4 is OUT. The start-up scrub of a station that has
reported goes through its granules in ascending order: the granule done is all zero, has owner 0 and is CLEAN, and
no other granule's owner entry and no byte outside it changes; 0x2000.05 counts its 2^30 bytes. With the FCU's queue
able to take them: a UCIe module that stays down queues FSRC 16 for every station on it, a die PLL that loses lock
once step 1 of start-up is over FSRC 15 for every station on the die, the JX9 PLL FSRC 14 for the FCU, a fall of
MI_READY FSRC 18 for its Memory Station, a host-link error FSRC 27 for the DXE and a firmware self check FSRC 26 for
its Reed core; no byte of memory changes. (14_startup_hold.md, 01_block_and_boundary.md,
12_faults_hangs_recovery.md) -/
def Obligations.StationsEndTheirStartupAndFailuresQueueEvents : Prop :=
  (
    (∀ (s : State) (ms : Nat), msPresent s.dev ms = true → (domain s.dev (uMS ms)).st ≠ .retraining →
      startupStep s.dev = 5 → starts s.dev (uMS ms) = true → ready s.dev ms = false →
      elapsed s.dev (stepTime s.dev 4) (micros 1200000) = true →
      Goes (exec (.miReadyTimeout ms) s) fun t => (domain t.dev (uMS ms)).st = .out ∧ memSame s t)
    ∧ (∀ (s : State) (g : Nat), ready s.dev (g / 64) = true → starts s.dev (uMS (g / 64)) = true →
      (owner s.dev g).scrub = .unscrubbed → granuleExists s.dev g = true →
      (∀ x, x / 64 = g / 64 → x < g → granuleExists s.dev x = true → (owner s.dev x).scrub ≠ .unscrubbed) →
      Goes (exec (.startupScrubGranuleDone g) s) fun t =>
        owner t.dev g = ⟨0, false, .clean⟩ ∧ (∀ x, x ≠ g → owner t.dev x = owner s.dev x)
          ∧ (∀ a, readByte t.dev a = if a / 2 ^ 30 = g then 0 else readByte s.dev a)
          ∧ t = s.on (addTo (setOwner (emit (zeroGranule s.dev g) (.memWrite (2 ^ 30 * g) ⟨2 ^ 30, 0⟩ 0)) g
            ⟨0, false, .clean⟩) 0x2000 5 (2 ^ 30))))
  ∧ (
    ∀ s : State,
      let raised (t : State) (fsrc u : Nat) : Prop := ∃ e ∈ t.dev.fcu.queue, e.fsrc = fsrc ∧ e.unit = u ∧ e.injected = false
      (∀ m, s.dev.fcu.queue.length + (stationsOn s.dev s.dev.straps.modOf m).length ≤ 64 →
        Goes (exec (.ucieModuleDown m) s) fun t => memSame s t ∧ ∀ u ∈ stationsOn s.dev s.dev.straps.modOf m, raised t 16 u)
      ∧ (∀ d, d < 16 → pllWatched s.dev = true → s.dev.fcu.queue.length + (stationsOn s.dev s.dev.straps.dieOf d).length ≤ 64 →
        Goes (exec (.diePllLockLoss d) s) fun t => memSame s t ∧ t.dev.clk.dieLock.getLsbD d = false
          ∧ ∀ u ∈ stationsOn s.dev s.dev.straps.dieOf d, raised t 15 u)
      ∧ (s.dev.fcu.queue.length < 64 →
        (pllWatched s.dev = true → Goes (exec .corePllLockLoss s) fun t => memSame s t ∧ t.dev.clk.coreLock = false ∧ raised t 14 uFCU)
        ∧ (∀ m, msPresent s.dev m = true → ready s.dev m = true →
          Goes (exec (.miReadyFall m) s) fun t => memSame s t ∧ ready t.dev m = false ∧ raised t 18 (uMS m))
        ∧ (∀ l, l < 2 → Goes (exec (.hostLinkError l) s) fun t => memSame s t ∧ raised t 27 uDXE)
        ∧ (∀ n, n < 4 → Goes (exec (.firmwareSelfCheckFail n) s) fun t => memSame s t ∧ raised t 26 (uReed n))))

/-- HOLD_ENTER of the host, the fabric manager or the firmware, with no condition of Table 14-5 failing, makes
POWER_STATE ENTERING and stays pending; with one failing it finishes STATE with its code. The end of gating makes it
HOLD, counts the entry and finishes the pending command OK. A wake source in HOLD is recorded as WAKE_CAUSE and
makes it WAKING; the end of the wake makes it RUN again, makes the credit transitions that waited, and performs the
events that were held, in their order. None of these changes memory but the events that the wake releases.
(14_startup_hold.md, 02_object_dictionary.md) -/
def Obligations.HoldIsEnteredAndLeft : Prop :=
  (∀ (s : State) (acc : Access), canTake s.dev 0xC000 0x40 → notHostFmFw acc = false →
    let b := acceptCmd (count s.dev 0x1402 5) acc 0xC000 0x40 0
    (holdFault b = none → Goes (exec (.holdEnter acc 0) s) fun t =>
      rd t.dev 0xC000 6 = 1 ∧ pends s t 0xC000 0x40 ∧ memSame s t)
    ∧ (∀ d, holdFault b = some d → Goes (exec (.holdEnter acc 0) s) fun t =>
      rd t.dev 0xC000 6 = 0 ∧ finishes s t 0xC000 0x40 .state d ∧ memSame s t))
  ∧ (∀ (s : State) (p : PendCmd), rd s.dev 0xC000 6 = 1 → pendingCmd s.dev 0xC000 0x40 = some p → p.cmdSeq < 65536 →
    Goes (exec .holdEntryDone s) fun t => rd t.dev 0xC000 6 = 2 ∧ rd t.dev 0xC000 7 = (rd s.dev 0xC000 7 + 1) % 2 ^ 64
      ∧ rd t.dev 0xC000 0xC0 = resultWord p.cmdSeq 2 Code.ok.num 0 ∧ memSame s t)
  ∧ (∀ (s : State) (c : Nat), rd s.dev 0xC000 6 = 2 → 1 ≤ c → c < 7 →
    Goes (exec (.wake c) s) fun t => rd t.dev 0xC000 6 = 3 ∧ rd t.dev 0xC000 9 = c ∧ memSame s t)
  ∧ (∀ s : State, rd s.dev 0xC000 6 = 3 → s.dev.held = [] → s.dev.tpe.rxCredit = [] →
    Goes (exec .wakeComplete s) fun t => rd t.dev 0xC000 6 = 0 ∧ t.dev.held = [])
  ∧ (∀ s : State, rd s.dev 0xC000 6 = 3 → exec .wakeComplete s = .next (s.on (s.dev.held.foldl replay
    (grantCredit ((s.dev.tpe.rxCredit.map (·.1)).foldl quietEnd (wr { s.dev with held := [] } 0xC000 6 0))))))

/-- A dictionary READ of an awake, ready block, of an object the caller may read, at the object's size, is answered OK
with the object's value, on the caller's own path; it changes nothing but 0x1402.05, which counts the access, and
the answer's place. CMD_DONE and the reserved codes on an existing object are answered TYPE.
(02_object_dictionary.md) -/
def Obligations.ReadsAnswerTheObjectsValue : Prop :=
  ∀ (s : State) (acc : Access) (idx sub : Nat), awake s.dev → dictReady s.dev = true →
    let b := count s.dev 0x1402 5
    (∀ size, firstChecks b acc idx sub false = none → sizeOf4 size = some (objType idx sub).size →
      exec (.opRead acc idx sub size) s
        = .next (s.on (respond b acc 0 .ok (readValue b (roleOf acc.path) idx sub) none)))
    ∧ (∀ op, 7 ≤ op → op < 16 → (roleOf acc.path = .tnt → pathPid b acc.path ≠ 0) →
      firstChecks b acc idx sub false ≠ some .noobj → firstChecks b acc idx sub false ≠ some .nosub →
      exec (.cmdDone acc idx sub op) s = .next (s.on (answer b acc .type)))

/-- For every write of a scalar object (a counter apart) that passes the checks of R43: OP_WRITE, and the row that names
the object where there is one, answers OK with the object's effect. FM_CHIP holds its value and the DICT windows are
empty; LOG_ENABLE from 0 to 1 sets both ring indices to 0, the phase to 1 and clears OVERFLOW; a channel's ENABLE
makes it IDLE or OFF; a channel's or a step queue's ring registers hold their value and HEAD and TAIL are 0; the
transport, credit, group limit, program limit, spill range, IDE stream, fault source, injection mode, mirror and
shadow mapping objects are written, with what a write of theirs starts (credit grants, the partition's copy, the
ports' silence in FACTORY mode or its end); INJECT_LOCK turns FACTORY mode OFF. (02_object_dictionary.md,
03_partitions_contexts.md, 05_ladle_dma.md, 06_fabric_transport.md, 07_queue_pairs_keys.md, 08_crucibles.md,
09_runner_programs.md, 10_sealing.md, 11_chanter.md, 12_faults_hangs_recovery.md, 13_mirror_pair.md) -/
def Obligations.ConfigurationWritesTakeEffect : Prop :=
  ∀ (s : State) (acc : Access) (idx sub : Nat) (v : Word) (r : ObjRow), writeTaken s.dev acc idx sub v.toNat r →
    r.legal ≠ .counter →
    let b := count s.dev 0x1402 5
    let t := s.on (answer (writeEffect b r idx sub v.toNat) acc .ok)
    let holds := rd t.dev idx sub = v.toNat
    exec (.opWrite acc idx sub (sizeCode idx sub) v) s = .next t
    ∧ (idx = 0x1400 → sub = 1 → exec (.fmChipWrite acc v) s = .next t ∧ holds ∧ t.dev.dict.dictWin = [])
    ∧ (∀ pid, isPid pid → idx = 0x2400 + pid → sub = 3 → exec (.logEnableWrite acc pid v) s = .next t ∧ holds
      ∧ (v = 1 → rd s.dev idx 3 ≠ 1 → rd t.dev idx 4 = 0 ∧ rd t.dev idx 5 = 0 ∧ bitAt (rd t.dev idx 6) 1 = false
        ∧ (part t.dev pid).logPhase = true))
    ∧ (∀ c, c < 512 → idx = 0x4200 + c →
      (sub = 3 → exec (.ladleEnableWrite acc c v) s = .next t ∧ (chan t.dev c).st = if v = 1 then .idle else .off)
      ∧ (sub = 1 ∨ sub = 2 → exec (.ladleRingConfigWrite acc c sub v) s = .next t ∧ holds
        ∧ rd t.dev idx 7 = 0 ∧ rd t.dev idx 8 = 0))
    ∧ (idx = 0x5000 → exec (.transportConfigWrite acc sub v) s = .next t ∧ holds)
    ∧ (idx = 0x5010 → exec (.creditConfigWrite acc sub v) s = .next t
      ∧ t = s.on (answer (grantCredit (wr b 0x5010 sub v.toNat)) acc .ok))
    ∧ (∀ pid, isPid pid →
      (idx = 0x6100 + pid → sub = 0x40 → exec (.groupLimitWrite acc pid v) s = .next t ∧ holds)
      ∧ (idx = 0x6400 + pid → sub = 0x20 → exec (.progLimitWrite acc pid v) s = .next t ∧ holds)
      ∧ (idx = 0x7100 + pid → sub = 1 → exec (.spillRangeWrite acc pid v) s = .next t ∧ holds)
      ∧ (idx = 0x7100 + pid → sub = 7 → exec (.ideStreamWrite acc pid v) s = .next t ∧ holds)
      ∧ (idx = 0x8100 + pid → ∀ q, stepRing sub = some q → exec (.chanterRingConfigWrite acc pid sub v) s = .next t ∧ holds
        ∧ rd t.dev idx (ringSub q 2) = 0 ∧ rd t.dev idx (ringSub q 3) = 0)
      ∧ (idx = 0xA100 + pid → sub = 1 → exec (.mirrorEnableWrite acc pid v) s = .next t
        ∧ t = s.on (answer (mirrorEnableSet (wr b idx 1 v.toNat) pid (rd b idx 1)) acc .ok))
      ∧ (idx = 0xA200 + pid → sub ≤ 3 → exec (.shadowMappingWrite acc pid sub v) s = .next t ∧ holds))
    ∧ (∀ src, src < 28 → idx = 0x9200 + src → exec (.faultSourceConfigWrite acc src sub v) s = .next t
      ∧ holds ∧ (sub = 1 → rd t.dev idx 5 = v.toNat) ∧ (sub ≠ 2 → find? t.dev.fcu.windows src = none))
    ∧ (idx = 0xA000 → sub ≤ 2 → exec (.partnerChipWrite acc sub v) s = .next t ∧ holds)
    ∧ (idx = 0xF000 → sub = 1 → exec (.injectModeWrite acc v) s = .next t
      ∧ t = s.on (answer (injectModeSet (wr b 0xF000 1 v.toNat) (rd b 0xF000 1)) acc .ok))
    ∧ (idx = 0xF000 → sub = 2 → exec (.injectLockWrite acc v) s = .next t
      ∧ (rd b 0xF000 1 ≠ 2 → t = s.on (answer (wr b 0xF000 2 v.toNat) acc .ok))
      ∧ (rd b 0xF000 1 = 2 → t = s.on (answer (retryHeld (wr (wr b 0xF000 2 v.toNat) 0xF000 1 0)) acc .ok)))

/-- For every counter object that the caller may write: a write of zero at its size is answered OK and the counter reads
zero, and for each of the four SAT counters its overflow bit reads zero too, so that the next count of the counter
at its top raises FSRC 3 again where the FCU's queue has room. A write of any other value is answered RANGE and, the
count of accesses 0x1402.05 apart, no object changes. (R34) -/
def Obligations.CountersAreClearedByZeroOnly : Prop :=
  (∀ (s : State) (acc : Access) (idx sub : Nat) (r : ObjRow), awake s.dev → dictReady s.dev = true →
    objRow idx sub = some r → r.legal = .counter → r.ty ≠ .cmd → r.ty ≠ .blob → sub ≠ 0 →
    firstChecks (count s.dev 0x1402 5) acc idx sub true = none →
    (fencedTnt (count s.dev 0x1402 5) acc = false →
      Goes (exec (.counterWrite acc idx sub (sizeCode idx sub) 0) s) fun t => rd t.dev idx sub = 0
        ∧ ∀ e ∈ [((0x1200, 2), (0x1200, 6, 0)), ((0x1200, 4), (0x1200, 6, 1)), ((0x5010, 0x0B), (0x5010, 0x0D, 0))]
          ++ (pids.map fun p => ((0x2400 + p, 7), (0x2400 + p, 6, 2))), e.1 = (idx, sub) →
          bitAt (rd t.dev e.2.1 e.2.2.1) e.2.2.2 = false)
    ∧ (∀ v : Word, v ≠ 0 → exec (.counterWrite acc idx sub (sizeCode idx sub) v) s
        = .next (s.on (answer (count s.dev 0x1402 5) acc .range))))
  ∧ (∀ (b : Block) (idx sub w ovIdx ovSub bit unit pid : Nat), rd b idx sub = 2 ^ w - 1 → bitAt (rd b ovIdx ovSub) bit = false →
    b.fcu.queue.length < 64 →
    ∃ e ∈ (countSat b idx sub w ovIdx ovSub bit unit pid).fcu.queue, e.fsrc = 3 ∧ e.unit = unit ∧ e.pid = pid)

/-- In an awake block whose dictionary is not ready a write of any object and a read of any object but the readiness
objects is answered BUSY and changes no object but 0x1402.05. A command on a ready block whose caller, argument and
states pass is answered BUSY while its result reads PENDING, and RESOURCE, where CONFLICT does not come first, while
256 commands are pending, and changes nothing else. (R43, R48, R52.) (02_object_dictionary.md) -/
def Obligations.ResponseCodesFollowReadinessAndTheQueue : Prop :=
  (∀ (s : State) (acc : Access) (idx sub size : Nat) (v : Word), awake s.dev → dictReady s.dev = false →
    exec (.opWrite acc idx sub size v) s = .next (s.on (answer (count s.dev 0x1402 5) acc .busy))
    ∧ (readyRead (count s.dev 0x1402 5) idx sub = false →
      exec (.opRead acc idx sub size) s = .next (s.on (answer (count s.dev 0x1402 5) acc .busy))))
  ∧ (∀ (b : Block) (acc : Access) (idx sub arg : Nat) (fails : Block → CmdFails) (run : Block → Block), awake b →
    dictReady b = true →
    let f := fails (count b 0x1402 5)
    f.rights = false → f.range = false → f.state = false → fencedTnt (count b 0x1402 5) acc = false →
    (resultState b idx sub = 1 → objKey idx (sub + 0x80) ≠ objKey 0x1402 5 →
      command b acc idx sub arg fails run = answer (count b 0x1402 5) acc .busy)
    ∧ (f.busy = false → f.conflict = false → resultState (count b 0x1402 5) idx sub ≠ 1 → 256 ≤ b.dict.cmds.length →
      command b acc idx sub arg fails run = answer (count b 0x1402 5) acc .resource))

/-- BLOB_BEGIN of a legal length on an idle object opens a transfer owned by the caller; the owner's next segment, its
padding zero, is taken into the content; BLOB_END after the last segment commits the content of an object that does
not validate and leaves no transfer, and on one that validates is answered PENDING with the transfer VALIDATING;
BLOB_ABORT leaves no transfer and the old content; 100 ms without an arrival do the same and count 0x1402.06.
BLOB_READ answers the bytes of its segment of the committed content. A validation that finds no fault commits (a
program becomes current when a version place is free) and finishes OK; one that finds a fault keeps the old content
and finishes RANGE with the byte offset, a program's counted in 0x6010.05 too. (02_object_dictionary.md,
09_runner_programs.md) -/
def Obligations.BlobTransfersOpenFillAndClose : Prop :=
  (∀ (s : State) (acc : Access) (idx sub n : Nat) (r : ObjRow), blobTaken s.dev acc idx sub true → objRow idx sub = some r →
    xfer s.dev idx sub = none → 1 ≤ n → n ≤ r.dflt →
    Goes (exec (.blobBegin acc idx sub n) s) fun t =>
      xfer t.dev idx sub = some ⟨ownerOf s.dev acc.path, acc, n, 0, 0, s.dev.clk.now, none⟩)
  ∧ (∀ (s : State) (acc : Access) (idx sub : Nat) (x : Transfer), blobTaken s.dev acc idx sub true →
    blobMine (count s.dev 0x1402 5) acc idx sub x →
    (∀ data : Bytes, x.nextSeg < segments x.len → data.val < 2 ^ (8 * min 256 (x.len - 256 * x.nextSeg)) →
      Goes (exec (.blobSeg acc idx sub x.nextSeg data) s) fun t => xfer t.dev idx sub = some { x with
        nextSeg := x.nextSeg + 1, content := x.content + (data.val <<< (2048 * x.nextSeg)), last := s.dev.clk.now })
    ∧ (segments x.len ≤ x.nextSeg → validates idx sub = false → exec (.blobEnd acc idx sub) s
      = .next (s.on (answer (setXfer (blobCommit (setXfer (count s.dev 0x1402 5) idx sub
        (some { x with last := s.dev.clk.now })) idx sub ⟨x.len, x.content⟩) idx sub none) acc .ok)))
    ∧ (segments x.len ≤ x.nextSeg → validates idx sub = true → s.dev.dict.cmds.length < 256 → sub < 128 →
      Goes (exec (.blobEnd acc idx sub) s) fun t => pends s t idx sub
        ∧ xfer t.dev idx sub = some { x with last := s.dev.clk.now, validating := some ((s.dev.dict.cmdSeq + 1) % 65536) })
    ∧ Goes (exec (.blobAbort acc idx sub) s) fun t => xfer t.dev idx sub = none ∧ t.dev.dict.blobs = s.dev.dict.blobs)
  ∧ (∀ (s : State) (acc : Access) (idx sub n : Nat), blobTaken s.dev acc idx sub false →
    let c := blobContent (count s.dev 0x1402 5) idx sub
    n < segments c.len → exec (.blobRead acc idx sub n) s = .next (s.on (respond (count s.dev 0x1402 5) acc 0 .ok c.len
      (some (slice c.val (256 * n) (min 256 (c.len - 256 * n)))))))
  ∧ (∀ (s : State) (idx sub : Nat) (x : Transfer), xfer s.dev idx sub = some x →
    (x.validating = none → elapsed s.dev x.last (micros 100000) = true →
      exec (.blobAbandon idx sub) s = .next (s.on (count (setXfer s.dev idx sub none) 0x1402 6)))
    ∧ (x.validating ≠ none →
      (progNumber idx sub = none → blobFault s.dev idx sub ⟨x.len, x.content⟩ = none →
        exec (.blobValidationDone idx sub) s
          = .next (s.on (validated (blobCommit s.dev idx sub ⟨x.len, x.content⟩) idx sub .ok 0)))
      ∧ (∀ off, progNumber idx sub = none → blobFault s.dev idx sub ⟨x.len, x.content⟩ = some off →
        exec (.blobValidationDone idx sub) s = .next (s.on (validated s.dev idx sub .range off)))
      ∧ (∀ pid, sub ≤ 64 → idx = 0x6200 + pid → progNumber idx sub = some sub →
        s.dev.cru.valid.contains (progKey (idx % 256) sub) = false →
        exec (.blobValidationDone idx sub) s = .next (s.on (match blobFault s.dev idx sub ⟨x.len, x.content⟩ with
          | some off => validated (count s.dev 0x6010 5) idx sub .range off
          | none => loadProgram s.dev (idx % 256) sub ⟨x.len, x.content⟩)))))
  ∧ (∀ (s : State) (pid n : Nat) (x : Transfer), s.dev.cru.valid.contains (progKey pid n) = true →
    (progNumber (0x6200 + pid) n).isSome = true → xfer s.dev (0x6200 + pid) n = some x → n ≤ progLimit s.dev pid →
    placeFree s.dev pid n = true → exec (.programMadeCurrent pid n) s
      = .next (s.on (validated (makeCurrent s.dev pid n ⟨x.len, x.content⟩) (0x6200 + pid) n .ok 0)))

/-- PERSIST_SAVE of the host, the fabric manager or the firmware stores an image of all persistable objects that differ
from their defaults, if at most 4,095, and finishes OK with their number. RESTORE_DEFAULTS while every partition is
FREE makes every persistable object read its default, stores an image without entries and finishes OK. Neither
changes a byte of memory or a partition. (02_object_dictionary.md) -/
def Obligations.PersistentImageIsSavedAndDefaultsRestored : Prop :=
  (∀ (s : State) (acc : Access), canTake s.dev 0x1401 2 → notHostFmFw acc = false →
    let b := acceptCmd (count s.dev 0x1402 5) acc 0x1401 2 0
    let es := (b.dict.objs.filter fun e => persistable (e.1 / 256) (e.1 % 256)).map fun e =>
      (e.1 / 256, e.1 % 256, e.2.toNat)
    es.length ≤ 4095 → Goes (exec (.persistSave acc 0) s) fun t =>
      t.dev.dict.image = some (buildImage b es) ∧ finishes s t 0x1401 2 .ok es.length ∧ memSame s t
        ∧ ∀ q, part t.dev q = part s.dev q)
  ∧ (∀ (s : State) (acc : Access), canTake s.dev 0x1401 3 → notHostFmFw acc = false →
    (∀ p ∈ pids, (part s.dev p).st = .free) → Goes (exec (.restoreDefaults acc 0) s) fun t =>
      (∀ i j, j < 256 → persistable i j = true → rd t.dev i j = objDefault i j % 2 ^ 64)
        ∧ finishes s t 0x1401 3 .ok 0 ∧ memSame s t ∧ ∀ q, part t.dev q = part s.dev q)

/-- SET_ENDPOINT_ID sets the endpoint ID and is answered with it, and the four queries are answered: the endpoint ID
held, MCTP version 1.3, the message type 0x7E and the vendor 0x2E5B, in the layout of DSP0236 (log 16, the model's:
presumed). Before an endpoint ID is assigned a message has no effect; from then on a dictionary message with a well-
formed request record of a sequence number not kept is performed as the caller's access; one whose sequence number
is kept is answered with the kept response and counted in 0x1402.04; a malformed one, one of another type (log 40,
the model's choice) and one with the integrity check bit set are discarded and counted in 0x1402.02.
(02_object_dictionary.md) -/
def Obligations.ManagementMessagesAreServed : Prop :=
  (∀ (s : State) (src tag inst eid : Nat),
    let reply (cmd : Nat) (d : Bytes) := s.on (emit s.dev (.mctp src tag false
      (bytesAppend ⟨4, ((inst % 32) <<< 8) + (cmd <<< 16)⟩ d)))
    (exec (.setEndpointId src tag inst eid) s = .next (s.on (emit (wr s.dev 0x1402 1 (eid % 256)) (.mctp src tag false
        (bytesAppend ⟨4, ((inst % 32) <<< 8) + (1 <<< 16)⟩ ⟨3, (eid % 256) <<< 8⟩))))
      ∧ rd (wr s.dev 0x1402 1 (eid % 256)) 0x1402 1 = eid % 256)
    ∧ exec (.getEndpointId src tag inst) s = .next (reply 2 ⟨3, rd s.dev 0x1402 1⟩)
    ∧ exec (.getMctpVersionSupport src tag inst) s = .next (reply 4 ⟨5, 1 + (0x00FFF3F1 <<< 8)⟩)
    ∧ exec (.getMessageTypeSupport src tag inst) s = .next (reply 5 ⟨2, 0x7E01⟩)
    ∧ exec (.getVendorDefinedMessageSupport src tag inst) s = .next (reply 6 ⟨6, 0xFF + (0x5B2E <<< 16)⟩))
  ∧ (∀ (s : State) (eid tag : Nat) (ic : Bool) (body : Bytes), rd s.dev 0x1402 1 = 0 →
    exec (.mctpMessage eid tag ic body) s = .next s)
  ∧ (∀ (s : State) (eid tag : Nat) (body : Bytes), rd s.dev 0x1402 1 ≠ 0 →
    let r := bytesSlice body 3 (body.len - 3)
    let w := slice r.val 8 8
    let good := slice body.val 0 3 = 0x5B2E7E ∧ recordOk r = true
    (good → (∀ k ∈ look s.dev.dict.kept [] eid, k.seq ≠ reqSeq w) → exec (.mctpMessage eid tag false body) s
      = .next (s.on (performReq s.dev (.mctp eid tag) w (BitVec.ofNat 64 (slice r.val 16 8)) (slice r.val 24 256))))
    ∧ (good → ∀ k, (look s.dev.dict.kept [] eid).find? (·.seq == reqSeq w) = some k →
      exec (.mctpMessage eid tag false body) s = .next (s.on (emit (count s.dev 0x1402 4)
        (.mctp eid tag false (mctpBody (accessRecord 2 k.resp k.data k.seg))))))
    ∧ (¬ good → exec (.mctpMessage eid tag false body) s = .next (s.on (count s.dev 0x1402 2)))
    ∧ exec (.mctpMessage eid tag true body) s = .next (s.on (count s.dev 0x1402 2)))

/-- A write shorter than 8 bytes to REQ of a slot of the physical function or of a bound function makes that slot's RESP
read TYPE with SEQ 0 and changes nothing else. A write to the BAR of an unbound function is discarded and counted in
0x2000.07, a dictionary request of 8 bytes apart, which is performed as the function's access. The short write
carries no T bit (the row's form), so that a sealed function in RUN discards it and counts it in 0x7000.14. A TLP to
a sealed partition's function in RUN that is not on its IDE stream with T set changes nothing but 0x7000.14: a
posted one is discarded, another is answered Unsupported Request; an admitted one is the write or the read of its
BAR offset. (02_object_dictionary.md, 03_partitions_contexts.md, 10_sealing.md) -/
def Obligations.FunctionAccessesOfTheHost : Prop :=
  (∀ (s : State) (fn slot width : Nat), awake s.dev → fn < 64 → slot < (if fn = 0 then 64 else 8) → 1 ≤ width → width < 8 →
    (fn = 0 ∨ pidOfVf s.dev fn ≠ 0) →
    exec (.reqShortWrite fn slot width) s = .next (s.on (if tlpAdmitted s.dev fn false 0xFF
      then setSlot s.dev fn slot { slotOf s.dev fn slot with resp := respWord 0 .type 0 } else count s.dev 0x7000 0x14)))
  ∧ (∀ (s : State) (vf off width : Nat) (v : Word), awake s.dev → vf ≠ 0 → tlpOk vf off width = true →
    pidOfVf s.dev vf = 0 → (off < 0x1000 → off % 512 = 0 → width ≠ 8) →
    exec (.unboundVfWrite vf off width v) s = .next (s.on (count s.dev 0x2000 7)))
  ∧ (∀ (s : State) (vf slot : Nat) (v : Word), awake s.dev → vf ≠ 0 → vf < 64 → slot < 8 → pidOfVf s.dev vf = 0 →
    exec (.unboundVfWrite vf (512 * slot) 8 v) s = .next (s.on (performReq s.dev (.tenant vf slot) v.toNat
      (slotOf s.dev vf slot).wdata (slotOf s.dev vf slot).seg)))
  ∧ (∀ (s : State) (fn : Nat) (tbit : Bool) (stream off width : Nat) (v : Word), awake s.dev → tlpOk fn off width = true →
    (tlpAdmitted s.dev fn tbit stream = false →
      exec (.tlpReceive fn true tbit stream off width v) s = .next (s.on (count s.dev 0x7000 0x14))
      ∧ exec (.tlpReceive fn false tbit stream off width v) s
        = .next (s.on (emit (count s.dev 0x7000 0x14) (.unsupportedRequest fn))))
    ∧ (tlpAdmitted s.dev fn tbit stream = true →
      exec (.tlpReceive fn true tbit stream off width v) s = .next (s.on (barWrite s.dev fn off width v))
      ∧ exec (.tlpReceive fn false tbit stream off width v) s
        = .next (s.on (emit s.dev (.barData fn ⟨width, barRead s.dev fn off width⟩)))))

/-- On a cycle at which local time is a multiple of 100,000, TAP_REFRESH gives every TAP counter of every sealed
partition its source's value rounded down to a multiple of 1,024 (the signed DEFICIT, 0x81pp.02, too), all in the
one step, and every counter of its queue pairs likewise; on every other cycle it changes nothing. Memory never
changes. (R35) -/
def Obligations.CounterViewsRefreshEveryMillisecond : Prop :=
  ∀ s : State,
    (s.dev.clk.now % 100000 ≠ 0 → exec .tapRefresh s = .next s)
    ∧ (s.dev.clk.now % 100000 = 0 → Goes (exec .tapRefresh s) fun t => memSame s t
      ∧ (∀ pid ∈ pids, isSealed s.dev pid = true → ∀ k ∈ tapKeys s.dev pid, k.1 < 0xA200 →
        look t.dev.dict.taps 0 (objKey k.1 k.2) = if k = (0x8100 + pid, 2)
          then ofSigned 32 (toSigned 32 (value s.dev k.1 k.2) / 1024 * 1024) else value s.dev k.1 k.2 / 1024 * 1024)
      ∧ ∀ e ∈ s.dev.tpe.qps, isSealed s.dev (qpPid s.dev e.1) = true →
        (qp t.dev e.1).taps = (qpCounters (qp s.dev e.1)).map fun n => n / 1024 * 1024)

/-- Table 3-2: in a partition that is BUILDING, with no COMMIT pending, ADD_ENGINES_LO and _HI add the engines whose
bits are set, ADD_GRANULES adds a run of existing granules and answers their total, ADD_LINK_SHARE, ADD_SCHED,
ADD_ENERGY and ADD_VF replace their value, ADD_QP, ADD_KEYS and ADD_CHANNELS replace a range by count and base, and
ADD_ATTR replaces SEALED, FAULT_DOMAIN and HOST_LINK. Each finishes OK; no other partition, no other object than the
command's result and the access counter, and nothing else of the block changes. ADD_SCHED (its cap 0 or at least its
reserve) and ADD_ENERGY do the same to a partition that is LIVE, where no other partition and no byte of memory
changes. (03_partitions_contexts.md, 02_object_dictionary.md) -/
def Obligations.StagingCommandsFillTheDescriptor : Prop :=
  ∀ (s : State) (acc : Access) (pid : Nat) (v : Word),
    let p := part s.dev pid
    let n := v.toNat
    let live (sub : Nat) := byHost acc ∧ isPid pid ∧ canTake s.dev (0x2100 + pid) sub ∧ noInjection s.dev
      ∧ p.st = .live ∧ resultState s.dev (0x2100 + pid) 0x10 ≠ 1
    let retuned (t : State) (sub : Nat) (q : Part) := part t.dev pid = q ∧ finishes s t (0x2100 + pid) sub .ok 0
      ∧ (∀ x, x ≠ pid → part t.dev x = part s.dev x) ∧ memSame s t
    (mayStage s.dev acc pid 2 → (∀ i, n.testBit i = true → esPresent s.dev i = true) →
      Goes (exec (.addEnginesLo acc pid v) s) fun t => staged s t pid 2 { p with engines := p.engines ||| n } 0)
    ∧ (mayStage s.dev acc pid 3 → (∀ i, n.testBit i = true → esPresent s.dev (i + 64) = true) →
      Goes (exec (.addEnginesHi acc pid v) s) fun t => staged s t pid 3 { p with engines := p.engines ||| (n <<< 64) } 0)
    ∧ (mayStage s.dev acc pid 4 → ∀ first many, v = BitVec.ofNat 64 (first + (many <<< 32)) → 1 ≤ many → many ≤ 2048 →
      first < 2048 → (∀ i, i < many → granuleExists s.dev (first + i) = true) →
      Goes (exec (.addGranules acc pid v) s) fun t =>
        let q := { p with granules := p.granules ||| ((2 ^ many - 1) <<< first) }
        staged s t pid 4 q (popCount q.granules 2048))
    ∧ (mayStage s.dev acc pid 5 → n ≤ 256 →
      Goes (exec (.addLinkShare acc pid v) s) fun t => staged s t pid 5 { p with share := n } 0)
    ∧ (∀ base many, v = BitVec.ofNat 64 (base + (many <<< 32)) → base < 2 ^ 32 → many < 2 ^ 32 →
      (mayStage s.dev acc pid 6 → base + many ≤ 65536 →
        Goes (exec (.addQp acc pid v) s) fun t => staged s t pid 6 { p with qpBase := base, qpCount := many } 0)
      ∧ (mayStage s.dev acc pid 7 → base + many ≤ 262144 →
        Goes (exec (.addKeys acc pid v) s) fun t => staged s t pid 7 { p with keyBase := base, keyCount := many } 0)
      ∧ (mayStage s.dev acc pid 8 → base + many ≤ 512 →
        Goes (exec (.addChannels acc pid v) s) fun t => staged s t pid 8 { p with chanBase := base, chanCount := many } 0))
    ∧ (n < 2 ^ 32 → n % 65536 ≠ 0 → bits n 24 8 = 0 ∨ bits n 16 8 ≤ bits n 24 8 →
      (mayStage s.dev acc pid 9 → Goes (exec (.addSched acc pid v) s) fun t => staged s t pid 9 { p with sched := n } 0)
      ∧ (live 9 → Goes (exec (.addSched acc pid v) s) fun t => retuned t 9 { p with sched := n }))
    ∧ (n < 2 ^ 32 →
      (mayStage s.dev acc pid 10 → Goes (exec (.addEnergy acc pid v) s) fun t => staged s t pid 10 { p with energy := n } 0)
      ∧ (live 10 → Goes (exec (.addEnergy acc pid v) s) fun t => retuned t 10 { p with energy := n }))
    ∧ (mayStage s.dev acc pid 11 → ∀ (se link : Bool) (dom : Nat), dom < 64 →
      n = ofBool se + (dom <<< 8) + (ofBool link <<< 24) →
      Goes (exec (.addAttr acc pid v) s) fun t =>
        staged s t pid 11 { p with sealed := se, domain := dom, hostLink := link } 0)
    ∧ (mayStage s.dev acc pid 12 → 1 ≤ n → n < 64 →
      Goes (exec (.addVf acc pid v) s) fun t => staged s t pid 12 { p with vf := n } 0)

/-- CREATE of a FREE partition in a block that runs makes it BUILDING with an empty descriptor and its generations kept,
and finishes OK. COMMIT of a BUILDING partition whose staged resources pass every check of Table 3-3 makes it LIVE,
gives it every granule it staged (IN_USE, sealed as it is), and finishes OK; a failing check leaves every partition
as it was, finishes CONFLICT or STATE with the check's KIND and the holder, stores the index in CONFLICT_INDEX and
counts a conflict. A COMMIT is never partial. (03_partitions_contexts.md, 02_object_dictionary.md, 10_sealing.md) -/
def Obligations.PartitionsAreCreatedAndCommitted : Prop :=
  ∀ (s : State) (acc : Access) (pid : Nat), byHost acc → isPid pid → noInjection s.dev →
    let p := part s.dev pid
    let o := 0x2100 + pid
    (canTake s.dev o 1 → p.st = .free → rd s.dev 0xC000 1 = 8 → Goes (exec (.create acc pid 0) s) fun t =>
      part t.dev pid = { freePart with st := .building, ctxs := p.ctxs } ∧ finishes s t o 1 .ok 0
        ∧ (∀ q, q ≠ pid → part t.dev q = part s.dev q) ∧ memSame s t)
    ∧ (canTake s.dev o 0x10 → p.st = .building →
      (commitFault s.dev pid = none → Goes (exec (.partitionCommit acc pid 0) s) fun t =>
        part t.dev pid = { p with st := .live } ∧ finishes s t o 0x10 .ok 0
          ∧ (∀ q, q ≠ pid → part t.dev q = part s.dev q) ∧ memSame s t
          ∧ ∀ g, g < 2048 → owner t.dev g =
            if p.granules.testBit g then ⟨pid, p.sealed, .inUse⟩ else owner s.dev g)
      ∧ (∀ kind c other i, commitFault s.dev pid = some (kind, c, other, i) →
        Goes (exec (.partitionCommit acc pid 0) s) fun t => finishes s t o 0x10 c ((kind <<< 20) + (other <<< 14))
          ∧ rd t.dev (0x2200 + pid) 0x11 = i % 2 ^ 64
          ∧ rd t.dev 0x2000 6 = (rd s.dev 0x2000 6 + (if c = .conflict then 1 else 0)) % 2 ^ 64
          ∧ (∀ q, part t.dev q = part s.dev q) ∧ (∀ g, owner t.dev g = owner s.dev g) ∧ onlyManaged s t))

/-- WITHDRAW of a LIVE partition is accepted and step 1 of Table 3-5 happens with cause 1; once nothing of it is
outstanding, WITHDRAW_DRAIN_DONE performs the generation step and the hand-back. WITHDRAW_DRAIN_TIMEOUT does nothing
before DRAIN_TIMEOUT has passed; then what is still outstanding is given up WITHDRAWN and counted, the steps end
WITHDRAWN, and the same two steps follow once the completions that the queue pairs given up owe are written. The
scrub of a SCRUBBING granule on a station in service makes it CLEAN and all its bytes zero, and no byte of another
granule changes. RELEASE of a BUILDING partition frees it at once; of a SCRUBBING one it stays pending until every
granule is CLEAN, the spill range is erased and 1 ms has passed since the fence: the partition is then FREE, keeping
only its generations, and the command finishes OK. (03_partitions_contexts.md) -/
def Obligations.PartitionsAreWithdrawnScrubbedAndReleased : Prop :=
  (∀ (s : State) (acc : Access) (pid : Nat), byHost acc → isPid pid → noInjection s.dev →
    let o := 0x2100 + pid
    (canTake s.dev o 0x11 → isLive s.dev pid = true →
      exec (.withdraw acc pid 0) s = .next (s.on (startWithdraw (accepted s.dev acc o 0x11 0) pid 1)))
    ∧ (canTake s.dev o 0x12 → (part s.dev pid).st = .building → Goes (exec (.release acc pid 0) s) fun t =>
      part t.dev pid = { freePart with ctxs := (part s.dev pid).ctxs } ∧ finishes s t o 0x12 .ok 0
        ∧ (∀ q, q ≠ pid → part t.dev q = part s.dev q) ∧ onlyManaged s t)
    ∧ (canTake s.dev o 0x12 → (part s.dev pid).st = .scrubbing → Goes (exec (.release acc pid 0) s) fun t =>
      pends s t o 0x12 ∧ (∀ q, part t.dev q = part s.dev q) ∧ onlyManaged s t))
  ∧ (∀ (s : State) (pid : Nat), (part s.dev pid).st = .withdrawing →
    (outstanding s.dev pid = false →
      exec (.withdrawDrainDone pid) s = .next (s.on (handBack (generation s.dev pid) pid)))
    ∧ (outstanding s.dev pid = true → exec (.withdrawDrainDone pid) s = .next s)
    ∧ (elapsed s.dev (part s.dev pid).wd.fencedAt (micros (part s.dev pid).wd.drain) = false →
      exec (.withdrawDrainTimeout pid) s = .next s)
    ∧ (elapsed s.dev (part s.dev pid).wd.fencedAt (micros (part s.dev pid).wd.drain) = true →
      (qpsOf s.dev pid = [] → owesNow s.dev pid none = true → exec (.withdrawDrainTimeout pid) s = .next s)
      ∧ (qpsOf s.dev pid ≠ [] ∨ owesNow s.dev pid none = false →
        let msgs := ((qpsOf s.dev pid).map (framesOf s.dev)).foldl (· + ·) 0
        let keys := (keysOf s.dev pid).filter fun j => (key s.dev j).st == .revoking
        let g := giveUp s.dev (fun _ c => c.pid == pid) (qpsOf s.dev pid) keys (chansOf s.dev pid) .withdrawn
        let b := addTo (expireSteps g.1 pid .withdrawn) (0x2200 + pid) 0x15 g.2
        let w := (part b pid).wd
        let b := setPart b pid { part b pid with wd := { w with expired := w.expired + g.2 + msgs } }
        exec (.withdrawDrainTimeout pid) s
          = .next (s.on (if owesNow b pid none then b else handBack (generation b pid) pid)))))
  ∧ (∀ (s : State) (g : Nat), (owner s.dev g).scrub = .scrubbing → served s.dev (uMS (g / 64)) = true →
    Goes (exec (.granuleScrubDone g) s) fun t => owner t.dev g = { owner s.dev g with scrub := .clean }
      ∧ (∀ x, x ≠ g → owner t.dev x = owner s.dev x)
      ∧ (∀ a, a / 2 ^ 30 = g → readByte t.dev a = 0) ∧ (∀ a, a / 2 ^ 30 ≠ g → readByte t.dev a = readByte s.dev a)
      ∧ rd t.dev 0x2000 5 = (rd s.dev 0x2000 5 + 2 ^ 30) % 2 ^ 64)
  ∧ (∀ (s : State) (pid : Nat) (c : PendCmd), isPid pid → (part s.dev pid).st = .scrubbing →
    pendingCmd s.dev (0x2100 + pid) 0x12 = some c → elapsed s.dev (part s.dev pid).wd.fencedAt (micros 1000) = true →
    spillPstate s.dev pid = 0 → (∀ g, (part s.dev pid).granules.testBit g = true → (owner s.dev g).scrub = .clean) →
    Goes (exec (.releaseComplete pid) s) fun t =>
      part t.dev pid = { freePart with ctxs := (part s.dev pid).ctxs }
        ∧ rd t.dev (0x2100 + pid) 0x92 = resultWord c.cmdSeq 2 Code.ok.num 0 % 2 ^ 64
        ∧ (∀ q, q ≠ pid → part t.dev q = part s.dev q)
        ∧ (∀ g, g < 2048 → owner t.dev g = if (part s.dev pid).granules.testBit g then ⟨0, false, .clean⟩ else owner s.dev g)
        ∧ onlyManaged s t)

/-- CTX_OPEN of a FREE slot of a LIVE partition makes it OPEN and finishes OK with the slot's generation. CTX_CLOSE of
an OPEN slot is accepted and fences the context (R94, steps 1 to 3). CTX_CLOSE_COMPLETE, once nothing of the context
waits and 1 ms has passed since the fence, performs the generation step of the slot and finishes the command that
names it; before that, unless DRAIN_TIMEOUT has passed, it changes nothing. R108 and R109: a function-level reset
clears the function's dictionary slots, its MSI-X table and its pending notifications, and withdraws a LIVE
partition bound to the function with cause 2; a clear of VF Enable withdraws every LIVE bound partition with cause
3; a new TDISP state is recorded, RUN sends the function's interrupts that waited for it, and for a LIVE sealed
partition CONFIG_UNLOCKED withdraws it with cause 4 and a code of 3 or more with cause 5. With no LIVE partition
concerned, a reset changes no partition and no byte of memory. (03_partitions_contexts.md) -/
def Obligations.ContextsOpenAndCloseAndFunctionsWithdraw : Prop :=
  (
    (∀ (s : State) (acc : Access) (pid : Nat) (v : Word), byHost acc → isPid pid → noInjection s.dev →
      isLive s.dev pid = true → v.toNat < 1024 →
      let o := 0x2100 + pid
      let c := ctxSlot s.dev pid v.toNat
      (canTake s.dev o 0x18 → c.st = .free → Goes (exec (.ctxOpen acc pid v) s) fun t =>
        ctxSlot t.dev pid v.toNat = { c with st := .open } ∧ finishes s t o 0x18 .ok c.gen
          ∧ (∀ x, x ≠ v.toNat → ctxSlot t.dev pid x = ctxSlot s.dev pid x)
          ∧ (∀ q, q ≠ pid → part t.dev q = part s.dev q) ∧ memSame s t)
      ∧ (canTake s.dev o 0x19 → c.st = .open →
        exec (.ctxClose acc pid v) s = .next (s.on (closeCtx (accepted s.dev acc o 0x19 v.toNat) pid v.toNat))))
    ∧ (∀ (s : State) (pid cx : Nat), isLive s.dev pid = true → (ctxSlot s.dev pid cx).st = .closing →
      (ctxSlot s.dev pid cx).byCommand = true →
      (elapsed s.dev (ctxSlot s.dev pid cx).fencedAt (micros 1000) = true → ctxBusy s.dev pid cx = false →
        let b := freeCtxSlot s.dev pid cx
        (∀ c, pendingCmd b (0x2100 + pid) 0x19 = some c → c.arg = cx →
          exec (.ctxCloseComplete pid cx) s = .next (s.on (finishCmd b (0x2100 + pid) 0x19 .ok 0)))
        ∧ ((∀ c, pendingCmd b (0x2100 + pid) 0x19 = some c → c.arg ≠ cx) →
          exec (.ctxCloseComplete pid cx) s = .next (s.on b)))
      ∧ (elapsed s.dev (ctxSlot s.dev pid cx).fencedAt (micros 1000) = false →
        exec (.ctxCloseComplete pid cx) s = .next s)
      ∧ (ctxBusy s.dev pid cx = true → elapsed s.dev (ctxSlot s.dev pid cx).fencedAt (drainTime s.dev pid) = false →
        exec (.ctxCloseComplete pid cx) s = .next s)))
  ∧ (
    (∀ (s : State) (vf : Nat), 1 ≤ vf → vf < 64 →
      let reset := { s.dev with
        dict := { s.dev.dict with
          slots := s.dev.dict.slots.filter fun e => e.1 / 64 ≠ vf
          cmds := s.dev.dict.cmds.map fun c => match c.acc.path with
            | .tenant v _ => if v = vf then { c with acc := { c.acc with notify := false } } else c
            | _ => c }
        ptb := { s.dev.ptb with msix := s.dev.ptb.msix.filter fun e => e.1 / 256 ≠ vf } }
      let pid := pidOfVf reset vf
      (pid ≠ 0 → isLive s.dev pid = true → exec (.functionLevelReset vf) s = .next (s.on (startWithdraw reset pid 2)))
      ∧ (pid = 0 ∨ isLive s.dev pid = false → Goes (exec (.functionLevelReset vf) s) fun t =>
        memSame s t ∧ (∀ q, part t.dev q = part s.dev q) ∧ ∀ fn slot, slot < 64 →
          slotOf t.dev fn slot = if fn = vf then freshSlot else slotOf s.dev fn slot))
    ∧ (∀ s : State,
      let off := { s.dev with ptb := { s.dev.ptb with vfEnable := false } }
      let bound := pids.filter fun p => isLive s.dev p && (part s.dev p).vf != 0
      exec .vfEnableClear s = .next (s.on (bound.foldl (fun b pid => startWithdraw b pid 3) off)))
    ∧ (∀ (s : State) (vf code : Nat), awake s.dev → 1 ≤ vf → vf < 64 → code < 8 → look s.dev.ptb.tdisp 0 vf ≠ code →
      let now := { s.dev with ptb := { s.dev.ptb with tdisp := store s.dev.ptb.tdisp 0 vf code } }
      let pid := pidOfVf now vf
      (pid ≠ 0 → isLive s.dev pid = true → (part s.dev pid).sealed = true →
        (code = 0 → exec (.tdispStateChange vf code) s = .next (s.on (startWithdraw now pid 4)))
        ∧ (3 ≤ code → exec (.tdispStateChange vf code) s = .next (s.on (startWithdraw now pid 5))))
      ∧ (code = 2 → exec (.tdispStateChange vf code) s = .next (s.on (sendPending now vf)))
      ∧ (code ≠ 2 → pid = 0 ∨ isLive s.dev pid = false ∨ (part s.dev pid).sealed = false ∨ code = 1 →
        exec (.tdispStateChange vf code) s = .next (s.on now))))

/-- R126-R132: WALKER_GRANT takes the miss whose turn it is from the waiting list and starts or joins its walk; if
nothing has to be walked any more its asker tries again. A table read of an issued walk that is answered with a
failure or poison ends the walk with a translation fault (the status of the read where it ranks higher), CAUSE 'walk
error', and every asker learns of it; an answer from package memory advances the walk with the 8 bytes of the table.
No answer within WALK_TIMEOUT ends it the same way; before that WALK_TIMEOUT changes nothing.
(04_translation_guards.md) -/
def Obligations.WalksAreGrantedReadAndEnded : Prop :=
  (∀ (s : State) (c : Ctx) (va : Nat) (a : Asker), missNext s.dev = some (c, va, a) →
    let b := miss { s.dev with hub := { s.dev.hub with
      missWait := s.dev.hub.missWait.erase (c, va, a), walkTurn := c.pid } } c va a
    ((∃ w ∈ b.hub.walks, a ∈ w.askers) → exec .walkerGrant s = .next (s.on b))
    ∧ ((∀ w ∈ b.hub.walks, a ∉ w.askers) → exec .walkerGrant s = .next (s.on (retryAsker b a.holder))))
  ∧ (∀ (s : State) (n : Nat) (w : Walk), s.dev.hub.walks.find? (·.num == n) = some w → issued s.dev (walkHolder n) = true →
    (∀ ans : Answer, ans.poison = true ∨ ans.st ≠ .ok →
      let b := memoryUe (settle s.dev (walkHolder n)) (regionOf w.need == .package) w.need w.ctx.pid
      let st := if ans.poison then .poison else ans.st
      exec (.walkTableReadDone n ans) s
        = .next (s.on (retryAll (endWalkFault b w (readStatus st) causeWalkError 0) w.askers)))
    ∧ (∀ data : Bytes, regionOf w.need = .package →
      let b := settle s.dev (walkHolder n)
      let w' := { w with reads := insert w.reads w.need (readMem b w.need 8) }
      let r := walkAdvance (setWalk b w') w'
      exec (.walkTableReadDone n ⟨.ok, data, false⟩) s
        = .next (s.on (if r.2 then retryAll r.1 w'.askers else r.1)))
    ∧ (elapsed s.dev w.since (micros (rd s.dev 0x3000 4)) = true →
      exec (.walkTimeout n) s = .next (s.on (retryAll (endWalkFault s.dev w .xlateFault causeWalkError 0) w.askers)))
    ∧ (elapsed s.dev w.since (micros (rd s.dev 0x3000 4)) = false → exec (.walkTimeout n) s = .next s))

/-- R137, R138, R145: a legal S2_ROOT_SET stores its word, or clears it where VALID is 0, and a legal S1_ROOT_SET its
root for the context; both, and S1_INVALIDATE, drop the cached translations they cover and start overlapping walks
again. Where no walk runs and no tile they cover is in flight, the command has finished OK, no covered translation
is left, and no other root has changed. (04_translation_guards.md, 02_object_dictionary.md) -/
def Obligations.RootsAreSetAndContextsInvalidated : Prop :=
  ∀ (s : State) (acc : Access) (pid : Nat) (v : Word), isPid pid →
    let o := 0x3100 + pid
    let n := v.toNat
    let cx := n % 1024
    let quiet (c : Cover) : Prop := s.dev.hub.walks = [] ∧ s.dev.hub.invCmds = [] ∧ tilesOf s.dev c = []
    let gone (t : State) (c : Cover) : Prop := (∀ e ∈ t.dev.hub.shared, c.entry e = false)
      ∧ ∀ k ∈ t.dev.hub.esTlb, ∀ e ∈ k.2, c.entry e = false
    (byHost acc → canTake s.dev o 1 → ((part s.dev pid).st = .building ∨ (part s.dev pid).st = .live) →
      zeroBits n 44 19 = true →
      (bitAt n 63 = true → isRemote s.dev (bits n 0 44 <<< 12) = false ∧ regionOf (bits n 0 44 <<< 12) = .aperture) →
      let c : Cover := ⟨.partition, pid, 0, 0, 0⟩
      exec (.s2RootSet acc pid v) s = .next (s.on (retryEnded s.dev
        (invalidateFor (wr (accepted s.dev acc o 1 n) o 4 (if bitAt n 63 then n else 0)) o 1 none c)))
      ∧ (quiet c → Goes (exec (.s2RootSet acc pid v) s) fun t => rd t.dev o 4 = (if bitAt n 63 then n else 0)
          ∧ gone t c ∧ finishes s t o 1 .ok 0 ∧ memSame s t ∧ ∀ q, part t.dev q = part s.dev q))
    ∧ (mayCommand s.dev acc pid → canTake s.dev o 2 → isLive s.dev pid = true → ctxOpen s.dev pid cx = true →
      zeroBits n 46 17 = true →
      let c : Cover := ⟨.s1Context, pid, cx, 0, 0⟩
      let root := if bitAt n 63 then some (bits n 10 36) else none
      exec (.s1RootSet acc pid v) s = .next (s.on (retryEnded s.dev
        (invalidateFor (setRoot1 (accepted s.dev acc o 2 n) pid cx root) o 2
          (some (pid, cx, find? (part s.dev pid).s1Roots cx)) c)))
      ∧ (quiet c → Goes (exec (.s1RootSet acc pid v) s) fun t => find? (part t.dev pid).s1Roots cx = root
          ∧ gone t c ∧ finishes s t o 2 .ok 0 ∧ memSame s t
          ∧ (∀ x, x ≠ cx → find? (part t.dev pid).s1Roots x = find? (part s.dev pid).s1Roots x)
          ∧ ∀ q, q ≠ pid → part t.dev q = part s.dev q))
    ∧ (mayCommand s.dev acc pid → canTake s.dev o 3 → isLive s.dev pid = true → ctxOpen s.dev pid cx = true →
      zeroBits n 12 13 = true → (bits n 10 2 = 1 ∨ bits n 10 2 = 2) →
      let c : Cover := ⟨if bits n 10 2 = 1 then .s1Range else .s1Context, pid, cx, bits n 25 27, bits n 52 12 + 1⟩
      exec (.s1Invalidate acc pid v) s = .next (s.on (retryEnded s.dev (invalidateFor (accepted s.dev acc o 3 n) o 3 none c)))
      ∧ (quiet c → Goes (exec (.s1Invalidate acc pid v) s) fun t => gone t c ∧ finishes s t o 3 .ok 0 ∧ memSame s t
          ∧ ∀ q, part t.dev q = part s.dev q))

/-- R139-R143, with step 7 of start-up done (14 Table 14-1): a 16-byte record of a legal scope written to a slot that
holds fewer than 16 drops the translations it covers and is queued with the tiles it waits for; a record of an
illegal form at an empty slot is published at once as REJECTED; a slot that holds 16 discards the record, sets
OVERFLOW and counts 0x3000.0B. The oldest record of a slot, once its tiles have been answered, leaves the queue, its
sequence number is published in the slot's DONE word, 0x3000.09 counts it, and DONE is written to INV_DONE_BASE + 8
x slot where that base is not 0. An 8-byte write of DONE with bit 63 set clears OVERFLOW alone.
(04_translation_guards.md) -/
def Obligations.InvalidationRecordsAreTakenPublishedAndCleared : Prop :=
  ∀ (s : State) (slot : Nat), slot < 256 →
    let x := invSlot s.dev slot
    (awake s.dev → bitAt (rd s.dev 0xC000 2) 7 = true → ∀ r : Nat,
      (x.queue.length < 16 → ∀ c, recCover r = some c →
        let i := invalidate s.dev c
        exec (.invalidationRecord slot 0 ⟨16, r⟩) s = .next (s.on (retryEnded s.dev
          (setInv i.1 slot { x with queue := x.queue ++ [⟨bits r 96 32, false, i.2⟩] }))))
      ∧ (x.queue = [] → recCover r = none → Goes (exec (.invalidationRecord slot 0 ⟨16, r⟩) s) fun t =>
        invSlot t.dev slot = { x with queue := [], seq := bits r 96 32, rejected := true }
          ∧ rd t.dev 0x3000 0x0A = (rd s.dev 0x3000 0x0A + 1) % 2 ^ 64 ∧ memSame s t)
      ∧ (16 ≤ x.queue.length → exec (.invalidationRecord slot 0 ⟨16, r⟩) s
        = .next (s.on (count (setInv s.dev slot { x with overflow := true }) 0x3000 0x0B))))
    ∧ (∀ r rest, x.queue = r :: rest → (∀ k ∈ r.waitOn, tileOut s.dev k = false) → (∀ q ∈ rest.head?, q.rejected = false) →
      let y := { x with queue := rest, seq := r.seq, rejected := r.rejected }
      Goes (exec (.invalidationComplete slot) s) fun t => invSlot t.dev slot = y
        ∧ (∀ k, k ≠ slot → invSlot t.dev k = invSlot s.dev k)
        ∧ rd t.dev 0x3000 9 = (rd s.dev 0x3000 9 + 1) % 2 ^ 64
        ∧ t.dev.out = s.dev.out ++ (if rd s.dev 0x3000 6 = 0 then []
            else [.hostWrite (rd s.dev 0x3000 6 + 8 * slot) ⟨8, doneWord y⟩ false plainVia])
        ∧ memSame s t)
    ∧ (∀ v : Word, awake s.dev → bitAt v.toNat 63 = true → Goes (exec (.doneClear slot 8 v) s) fun t =>
      invSlot t.dev slot = { x with overflow := false } ∧ (∀ k, k ≠ slot → invSlot t.dev k = invSlot s.dev k)
        ∧ t = s.on (setInv s.dev slot { x with overflow := false }))

/-- R153, R154, R168, Table 5-1: a doorbell that reaches the Ladle for a channel that is not OFF: KICK with a TAIL below
the ring size replaces TAIL and makes an IDLE channel whose ring is not empty fetch; ABORT leaves an IDLE channel as
it is and makes a halted one of KIND 1 or 2 IDLE with TAIL = HEAD; RESUME of a halted channel with no ABORT under
way, in a domain in service, repeats what its KIND says. PACE raises the level of a SOFTWARE line of the partition.
A KICK at or above the ring size, a reserved bit, a RESUME of a channel that may not resume (it is not halted, say)
and any of the three at an OFF channel change only DOORBELL_DISCARDS. (05_ladle_dma.md, 03_partitions_contexts.md) -/
def Obligations.ChannelDoorbellsKickAbortResumeAndPace : Prop :=
  ∀ (s : State) (vf rel pid : Nat), reachesLadle s.dev vf rel pid →
    let c := (part s.dev pid).chanBase + rel
    let x := chan s.dev c
    let i := chanIndex c
    let word (cmd low : Nat) : Word := BitVec.ofNat 64 (low + (cmd <<< 62))
    let discarded := s.on (count s.dev (0x2200 + pid) 0x14)
    (x.st ≠ .off →
      (∀ tail, tail < 65536 → tail < ringSize s.dev c →
        exec (.kick vf rel (word 0 tail)) s = .next (s.on (
          if x.st = .idle ∧ rd s.dev i 7 ≠ tail then chanFetch (wr s.dev i 8 tail) c else wr s.dev i 8 tail)))
      ∧ (x.st = .idle → exec (.abort (.doorbell vf rel (word 1 0))) s = .next s)
      ∧ (x.st = .halted → x.phase = .rest → x.haltKind = 1 ∨ x.haltKind = 2 →
        exec (.abort (.doorbell vf rel (word 1 0))) s = .next (s.on (setChan (wr s.dev i 8 (rd s.dev i 7)) c
          { x with st := .idle, phase := .rest, io := [], abort := none, stop := none, rejected := false })))
      ∧ exec (.abort (.doorbell vf rel (word 1 0))) s = .next (s.on (chanAbort s.dev c none))
      ∧ (mayResume s.dev c = true → exec (.resume (.doorbell vf rel (word 2 0))) s = .next (s.on (
          let y := { x with st := .active }
          if x.haltKind = 1 then chanNext (setChan s.dev c y) c
          else if x.haltKind = 2 then chanFetch s.dev c
          else if x.haltKind = 4 then chanWriteback (setChan s.dev c y) c
          else beats (burstStart (setChan s.dev c { y with
            phase := .bursts, next := x.haltBurst, flights := [], io := [], ackTop := 0 }) c))))
      ∧ (mayResume s.dev c = false → exec (.resume (.doorbell vf rel (word 2 0))) s = .next discarded))
    ∧ (∀ line, line < 256 → paceOwner (paceEntry s.dev line) = pid → paceSource (paceEntry s.dev line) = 3 →
      exec (.paceDoorbell vf rel (word 3 (line <<< 16))) s = .next (s.on (paceRequest s.dev line)))
    ∧ (∀ tail, tail < 65536 → x.st = .off ∨ ringSize s.dev c ≤ tail →
      exec (.kick vf rel (word 0 tail)) s = .next discarded)
    ∧ (x.st = .off → exec (.abort (.doorbell vf rel (word 1 0))) s = .next discarded
      ∧ exec (.resume (.doorbell vf rel (word 2 0))) s = .next discarded)
    ∧ (∀ w : Word, zeroBits w.toNat 24 38 = false → exec (.kick vf rel w) s = .next discarded)

/-- R154-R171, for a channel whose domain and Ladle are in service: a fetched descriptor of a LIVE partition, no close
of its ring's context pending, without OWN leaves the channel IDLE and counts; one that fails a check is counted as
rejected and completes with its status and all beats as residue; one that passes starts its bursts. A failed fetch
halts the channel with KIND 2. A burst whose read succeeds is counted and its write starts; one whose write succeeds
leaves the flight and counts on the channel and the Ladle; a failed access leaves the burst failed for CHANNEL_HALT.
The read-back's good answer starts the status write, the status word's good answer the write of the control word
with OWN cleared, and that word's good answer finishes the descriptor. A pacing request lowers the line's level by
one and starts one burst of the chosen waiting channel; PACE_RESET sets a line's level and overflow to 0 and
finishes OK. (05_ladle_dma.md) -/
def Obligations.ChannelsFetchMoveAndCompleteDescriptors : Prop :=
  (∀ (s : State) (c : Nat) (ans : Answer) (b : Block) (d : Nat), (chan s.dev c).phase = .fetch → chanFenced b c = false →
    (chan s.dev c).offAfter = false → isLive b (chanPid b c) = true →
    (arrive s.dev ⟨.chanDesc, c, 0⟩ (chan s.dev c).io ans 64 = some (b, .ok, d) →
      let x := { chan b c with desc := d, next := 0, flights := [], wrote := false, io := [], lastBurst := 0, ackTop := 0,
                               phase := .bursts }
      (dOwn d = false → exec (.descriptorArrival c ans) s
        = .next (s.on (count (setChan b c { x with st := .idle, phase := .rest, stop := none }) (chanIndex c) 0x15)))
      ∧ (dOwn d = true → ∀ st, descStatus b c d = some st → exec (.descriptorArrival c ans) s = .next (s.on
        (chanComplete (count (setChan b c { x with rejected := true }) 0x4000 6) c st
          (dElems d * ((dElem d + 63) / 64)))))
      ∧ (dOwn d = true → descStatus b c d = none → exec (.descriptorArrival c ans) s
        = .next (s.on (chanStep (setChan b c { x with rejected := false }) c))))
    ∧ (∀ st, st ≠ .ok → arrive s.dev ⟨.chanDesc, c, 0⟩ (chan s.dev c).io ans 64 = some (b, st, d) →
      exec (.descriptorArrival c ans) s = .next (s.on (haltAtOnce b c 2 (headVa s.dev c) st false true))))
  ∧ (∀ (s : State) (c n : Nat) (ans : Answer) (b : Block) (d : Nat) (u : Burst), burstOf (chan s.dev c) n = some u →
    let x := chan s.dev c
    let len := dBurstLen x.desc n
    (u.phase = .reading → chanFenced b c = false → arrive s.dev ⟨.chanRead, c, n⟩ u.segs ans len = some (b, .ok, d) →
      exec (.burstResponse c n ans) s = .next (s.on (beats (chanStep (burstWrite (addTo (setChan b c (setBurst (chan b c)
        { u with phase := .wantWrite, data := d, segs := [] })) 0x4000 4 len) c n) c))))
    ∧ (u.phase = .writing → arrive s.dev ⟨.chanWrite, c, n⟩ u.segs ans 0 = some (b, .ok, d) →
      let z := chan b c
      let lenz := dBurstLen z.desc n
      let f := { z with flights := z.flights.filter (·.num != n) }
      let y := if z.ackTop ≤ n then { f with lastBurst := n, ackTop := n + 1 } else f
      exec (.burstResponse c n ans) s
        = .next (s.on (chanStep (addTo (addTo (setChan b c y) (chanIndex c) 0x11 lenz) 0x4000 5 lenz) c)))
    ∧ (∀ st, st ≠ .ok →
      (u.phase = .reading → arrive s.dev ⟨.chanRead, c, n⟩ u.segs ans len = some (b, st, d) →
        exec (.burstResponse c n ans) s = .next (s.on (burstFail b c u st false (dSrcAt x.desc n))))
      ∧ (u.phase = .writing → arrive s.dev ⟨.chanWrite, c, n⟩ u.segs ans 0 = some (b, st, d) →
        exec (.burstResponse c n ans) s = .next (s.on (burstFail b c u st true (dDstAt x.desc n))))))
  ∧ (∀ (s : State) (c : Nat) (ans : Answer) (b : Block) (d : Nat), chanFenced b c = false →
    ((chan s.dev c).phase = .readback → arrive s.dev ⟨.chanReadback, c, 0⟩ (chan s.dev c).io ans 64 = some (b, .ok, d) →
      exec (.readbackResponse c ans) s = .next (s.on (chanWriteback b c)))
    ∧ ((chan s.dev c).phase = .writeback → arrive s.dev ⟨.chanStatus, c, 0⟩ (chan s.dev c).io ans 0 = some (b, .ok, d) →
      exec (.statusWritebackDone c ans) s = .next (s.on (chanControl b c))
      ∧ (let a := setChan b c { chan b c with phase := .control, io := [] }
        ∀ b' segs, startWrite a (chanAsker a c .chanStatus 1) (chanCtx a c (ringCx a c)) (headVa a c)
          ⟨8, setBit (bits (chan b c).desc 0 64) 63 false⟩ 0 4 false = (b', .issued segs) →
        exec (.statusWritebackDone c ans) s = .next (s.on (setChan b' c { chan b' c with io := segs }))))
    ∧ ((chan s.dev c).phase = .control → arrive s.dev ⟨.chanStatus, c, 1⟩ (chan s.dev c).io ans 0 = some (b, .ok, d) →
      exec (.statusWritebackDone c ans) s = .next (s.on (chanFinish b c))))
  ∧ (∀ (s : State) (line n c : Nat) (o : Bool), paceLevel s.dev line = (n + 1, o) → paceChoice s.dev line = some c →
    let b := setPace s.dev line (n, o)
    let b := { b with ladle := { b.ladle with turn := c } }
    exec (.paceRequestTaken line) s = .next (s.on (beats (burstStart (setChan b c { chan b c with st := .active }) c))))
  ∧ (∀ (s : State) (acc : Access) (v : Word), byHost acc → canTake s.dev 0x4000 0x40 → v.toNat < 256 →
    Goes (exec (.paceReset acc v) s) fun t => paceLevel t.dev v.toNat = (0, false) ∧ finishes s t 0x4000 0x40 .ok 0
      ∧ (∀ l, l ≠ v.toNat → paceLevel t.dev l = paceLevel s.dev l) ∧ memSame s t)

/-- R167: with no abort and no close of its ring's context pending, once every burst in flight has been answered, a
channel of a partition and a Ladle in service with a failed burst halts on the failing burst that comes first in
descriptor order: FAIL_VA and FAIL_INFO are that burst's, KIND 0, HALTS counts one more, the channel starts nothing
further and keeps its descriptor; no other channel and no byte of memory changes, HEAD and TAIL stay. While a burst
is unanswered, or none has failed, CHANNEL_HALT changes nothing. (05_ladle_dma.md) -/
def Obligations.ChannelsHaltOnTheFirstFailedBurst : Prop :=
  ∀ (s : State) (c : Nat),
    let x := chan s.dev c
    let i := chanIndex c
    (∀ (u : Burst) (st : Status) (w : Bool) (va : Nat), firstFailed x = some u → u.phase = .failed st w va →
      chanFenced s.dev c = false → allAnswered x = true → x.abort = none → x.offAfter = false → c < 512 →
      Goes (exec (.channelHalt c) s) fun t =>
        chan t.dev c = { x with st := .halted, phase := .rest, flights := [], io := [], haltKind := 0, haltBurst := u.num,
                                stop := none, rejected := false }
          ∧ rd t.dev i 9 = va % 2 ^ 64 ∧ rd t.dev i 0x0A = (statusCode st <<< 24) + (ofBool w <<< 23)
          ∧ rd t.dev i 0x14 = (rd s.dev i 0x14 + 1) % 2 ^ 64
          ∧ (∀ j k, j ≠ i → k < 256 → rd t.dev j k = rd s.dev j k) ∧ rd t.dev i 7 = rd s.dev i 7 ∧ rd t.dev i 8 = rd s.dev i 8
          ∧ (∀ d, d ≠ c → chan t.dev d = chan s.dev d) ∧ memSame s t)
    ∧ (∀ u v, u ∈ x.flights → firstFailed x = some v → burstFailed u = true → v.num ≤ u.num)
    ∧ (firstFailed x = none ∨ allAnswered x = false → exec (.channelHalt c) s = .next s)

/-- R177-R186, R313: for every legal header, extension and payload of a packet addressed to a chip, the frame that a
port of another block seals for it with its current Link Job Key and any counter passes checks 1 to 3 at that chip
if its current Link Job Key is the same and both use one EtherType, and what check 3 reads, header, extension and
payload, is what was sealed: no bit of the encoding, of the seal or of the byte order is dropped.
(06_fabric_transport.md, 10_sealing.md) -/
def Obligations.ASealedPacketOpensToWhatWasSealed : Prop :=
  ∀ (b r : Block) (p ctr k : Nat) (t : Tx) (h : Bth) (ext n : Nat) (pay : Bytes),
    b.ring.linkCur = some k → r.ring.linkCur = some k → rd r 0x5000 2 = rd b 0x5000 2 → rd b 0x5000 2 < 65536 →
    chipId b < 4096 → p < 64 → ctr < 2 ^ 78 → h.legal → h.dst = chipId r → extLen h.typ = some n → ext < 2 ^ (8 * n) →
    pay.val < 2 ^ (8 * pay.len) → lengthOk h.typ ext pay = true → extOk h.typ ext = true → t.body = plain h ext n pay →
    verdict r (sealFrame b p t ctr) = .packet false ⟨h, false, ext, pay⟩

/-- R197, R315: at a port in service, whatever row brings the frame: of another EtherType it counts in 0x51nn.0A;
without a Link Job Key, or under none of the keys, in 0x51nn.0B, and under none of the keys a SEAL_NAK and a
security alarm follow; malformed in 0x51nn.09; each is counted as received, and none changes a byte of memory, a key
or a queue pair. In an awake block that is not fenced a packet that passes is delivered; in a fenced one a packet
other than DICT is counted and dropped. A port that does not receive changes nothing. (06_fabric_transport.md,
10_sealing.md, 12_faults_hangs_recovery.md) -/
def Obligations.ArrivingFramesAreCheckedInOrder : Prop :=
  ∀ row ∈ [Instr.rxWrite, Instr.rxReduce, Instr.rxReadReq, Instr.rxReadResp, Instr.rxAtomic, Instr.rxAtomicResp, Instr.rxAck,
      Instr.rxNak, Instr.rxCredit, Instr.rxDict, Instr.rxMirror, Instr.rxSealNak, Instr.rxMalformedFrame],
    ∀ (s : State) (p : Nat) (f : Frame),
      (receives s.dev p = false → exec (row p f) s = .next s)
      ∧ (receives s.dev p = true →
        (verdict s.dev f = .noType → Goes (exec (row p f) s) fun t => memSame s t ∧ t.dev.tpe = s.dev.tpe
          ∧ rd t.dev (0x5100 + p) 0x0A = (rd s.dev (0x5100 + p) 0x0A + 1) % 2 ^ 64
          ∧ rd t.dev (0x5100 + p) 3 = (rd s.dev (0x5100 + p) 3 + 1) % 2 ^ 64)
        ∧ (verdict s.dev f = .noKey → Goes (exec (row p f) s) fun t => memSame s t ∧ t.dev.tpe = s.dev.tpe
          ∧ rd t.dev (0x5100 + p) 0x0B = (rd s.dev (0x5100 + p) 0x0B + 1) % 2 ^ 64)
        ∧ (verdict s.dev f = .badSeal → exec (row p f) s = .next (s.on (secAlarm (sendSealNak
          (count (countArrival s.dev p f) (0x5100 + p) 0x0B) p f.iv.toNat) 1 [] p 0 (uPP p))))
        ∧ (∀ o, verdict s.dev f = .malformed o → Goes (exec (row p f) s) fun t => memSame s t ∧ t.dev.tpe = s.dev.tpe
          ∧ rd t.dev (0x5100 + p) 9 = (rd s.dev (0x5100 + p) 9 + 1) % 2 ^ 64
          ∧ rd t.dev 0x7000 0x15 = (rd s.dev 0x7000 0x15 + ofBool o) % 2 ^ 64)
        ∧ (∀ o k, verdict s.dev f = .packet o k → awake s.dev →
          (rd s.dev 0x9000 1 = 0 → exec (row p f) s = .next (s.on
            (deliver (counted s.dev p f o) p (bits f.iv.toNat 0 78) (bits f.iv.toNat 78 6) k)))
          ∧ (rd s.dev 0x9000 1 ≠ 0 → k.head.typ ≠ tDICT → exec (row p f) s = .next (s.on (counted s.dev p f o)))))

/-- R193-R208, R231-R234, Table 6-13, where no injected error is met: a request that passes checks 1 to 12 is accepted,
counts on its key and goes on: a WRITE, a READ_REQ and an ATOMIC as a work of the queue pair on the key's region, a
REDUCE to its group. One from a chip or queue pair that this one is not connected to, or under another generation,
frees its slot and is counted (0x51nn.09, 0x22pp.13), and nothing is stored; one that fails the key's checks is
refused with the status of Table 7-10. (06_fabric_transport.md, 07_queue_pairs_keys.md, 08_crucibles.md) -/
def Obligations.FabricRequestsPassChecksFiveToTwelve : Prop :=
  (∀ (s : State) (p : Nat) (f : Frame) (k : Packet) (b : Block) (i : Nat), reachesQp s.dev p f k b i →
    let r := reqOf p k.head k.ext k.pay 0
    (∀ j, requestPasses b i r j →
      let a := onKey b i r j
      let w := workOf a i j r
      let done := State.on s (pumpEngines (workGo (addWork a w) w))
      (k.head.typ = tWRITE → exec (.rxWrite p f) s = .next done)
      ∧ (k.head.typ = tREADREQ → exec (.rxReadReq p f) s = .next done)
      ∧ (k.head.typ = tATOMIC → exec (.rxAtomic p f) s = .next done)
      ∧ (k.head.typ = tREDUCE → exec (.rxReduce p f) s = .next (s.on (pumpEngines (reduceGo a i j r)))))
    ∧ (requestType k.head.typ = true → screen b i r = none → (qp b i).refusing = none → stateStatus b (qp b i) = none →
      msnOk (qp b i) r = true → reqStatus b i r = none → noInjection (acceptReq b i r) →
      ∀ st, keyCheck (acceptReq b i r) i r = .error st →
        exec (.rxWrite p f) s = .next (s.on (pumpEngines (freeSlot
          (refuse (keyNak (acceptReq b i r) (qp b i).pid st) i r.psn r.msn st))))))
  ∧ (∀ (s : State) (p : Nat) (f : Frame) (k : Packet) (b : Block) (i : Nat), reachesTpe s.dev p f k b →
    requestType k.head.typ = true → dstQp b k.aliased k.head.dstQp = some i →
    ((qp b i).peerIs k.head.src k.head.srcQp = false →
      exec (.rxWrite p f) s = .next (s.on (pumpEngines (freeSlot (count b (0x5100 + p) 9)))))
    ∧ ((qp b i).peerIs k.head.src k.head.srcQp = true → genOk b (qp b i) k.head.gen = false →
      exec (.rxWrite p f) s = .next (s.on (pumpEngines (freeSlot (count b (0x2200 + (qp b i).pid) 0x13))))))

/-- An ACK, a NAK, a READ_RESP or an ATOMIC_RESP that passes checks 1 to 6 is taken by its queue pair (R201, R206, R207,
R209). A CREDIT packet gives the limits of its chip: taken class by class where newer under a live lease, else as a
new base, and the lease is renewed (R239). Where no injected error is met, a DICT packet is counted as an access and
served (R186), and a MIRROR packet that takes its slot is applied and frees it (R412); a SEAL_NAK fails the message
whose packet it names (R210). (06_fabric_transport.md, 07_queue_pairs_keys.md, 13_mirror_pair.md,
02_object_dictionary.md) -/
def Obligations.FabricAnswersAndControlPacketsAreTaken : Prop :=
  (∀ (s : State) (p : Nat) (f : Frame) (k : Packet) (b : Block) (i : Nat), reachesQp s.dev p f k b i →
    (k.head.typ = tACK → exec (.rxAck p f) s = .next (s.on (pumpEngines (sqRun (takeAck b i k.head.psn k.ext) i))))
    ∧ (k.head.typ = tNAK → exec (.rxNak p f) s
      = .next (s.on (pumpEngines (sqRun (takeNak b p i k.head.psn (bits k.ext 56 8)) i))))
    ∧ (k.head.typ = tREADRESP → exec (.rxReadResp p f) s
      = .next (s.on (pumpEngines (takeReadResp b p i k.head k.ext k.pay 0))))
    ∧ (k.head.typ = tATOMICRESP → exec (.rxAtomicResp p f) s
      = .next (s.on (pumpEngines (takeAtomicResp b p i k.head.psn (bits k.ext 64 64))))))
  ∧ (∀ (s : State) (p : Nat) (f : Frame) (o : Bool) (k : Packet), arrives s.dev p f o k →
    let b := counted s.dev p f o
    let chip := k.head.src
    let x := txCredit s.dev chip
    let lim (c : Nat) : Nat := bits k.ext (32 * c) 32
    (k.head.typ = tCREDIT → Goes (exec (.rxCredit p f) s) fun t => memSame s t ∧ t = s.on { b with tpe := t.dev.tpe }
      ∧ (∀ c, c ≠ chip → txCredit t.dev c = txCredit s.dev c)
      ∧ (leaseLive s.dev x = true →
        let newer := (List.range 4).map fun c =>
          if (2 ^ 32 + lim c - x.limit.getD c 0) % 2 ^ 32 < 2 ^ 31 then lim c else x.limit.getD c 0
        txCredit t.dev chip = { x with leaseAt := s.dev.clk.now, limit := newer })
      ∧ (leaseLive s.dev x = false → txCredit t.dev chip = ⟨true, (List.range 4).map lim,
          (List.range 4).map fun c => (2 ^ 32 + lim c - floorOf s.dev c) % 2 ^ 32, s.dev.clk.now⟩))
    ∧ (k.head.typ = tDICT → noInjection s.dev → exec (.rxDict p f) s = .next (s.on
      (dictPacket (count b 0x1402 5) chip (bits f.iv.toNat 78 6) (bits f.iv.toNat 0 78) k.pay)))
    ∧ (k.head.typ = tMIRROR → noInjection s.dev → ∀ a, creditArrival b p chip 3 = (a, true) →
      exec (.rxMirror p f) s = .next (s.on (freeSlot (mirrorArrival a chip k.pay))))
    ∧ (k.head.typ = tSEALNAK → exec (.rxSealNak p f) s = .next (s.on (takeSealNak b (k.ext >>> 32)))))

/-- R188-R212, R244: a live port with a Link Job Key sends its oldest control frame first, then the mirror's, then the
data frame of the arbitration, sealed under its next counter; without a key or while not live it sends nothing, and
while only DICT frames go out it sends no other. A WRITE whose bytes are taken is placed, and one whose storing
fails is refused. ACK_DELAY after the first unreported placement an ACK goes out. An unacknowledged PSN whose timer
has run out is retransmitted while retries are left, and after the last one its message completes TIMEOUT and the
queue pair enters ERROR. A link that falls makes its port DOWN unless OUT, counted in LINK_DOWNS, and sends its
frames back to path selection; one that rises makes it UP or DEGRADED and packets held without a path are tried
again. (06_fabric_transport.md, 07_queue_pairs_keys.md, 10_sealing.md, 12_faults_hangs_recovery.md) -/
def Obligations.PacketsAreSentPlacedRetransmittedAndRequeued : Prop :=
  (∀ (s : State) (p : Nat),
    let b := dictOut s.dev
    let x := port b p
    (portLive b p = false ∨ b.ring.linkCur = none → exec (.packetTransmit p) s = .next (s.on b))
    ∧ (portLive b p = true → b.ring.linkCur.isSome = true → served b (uPP p) = true → x.realigning = false →
      let sent (b : Block) : State := s.on (mirrorWaits (noteCredit b) p)
      (onlyDict b = false →
        (∀ t, x.queue.find? (·.prec == 0) = some t →
          exec (.packetTransmit p) s = .next (sent (transmit (setPort b p { x with queue := x.queue.erase t }) p t)))
        ∧ (x.queue.find? (·.prec == 0) = none → ∀ t n, mirrorFrame b p = some (t, n) →
          let a := setPort b p { x with tokens := tokensNow b x - frameBytes b t, tokensAt := b.clk.now }
          exec (.packetTransmit p) s = .next (sent (transmit
            (mirrorSent { a with tpe := { a.tpe with entropy := (a.tpe.entropy + 1) % 65536 } } n) p t)))
        ∧ (x.queue.find? (·.prec == 0) = none → mirrorFrame b p = none → ∀ y t, dataFrame b x = (y, some t) →
          exec (.packetTransmit p) s = .next (sent (transmit
            (setPort b p { y with queue := y.queue.erase t, qpTurn := store y.qpTurn 0 t.pid t.qp }) p t))))
      ∧ (onlyDict b = true → (∀ t ∈ x.queue, t.prec = 0 → t.typ ≠ tDICT) →
        exec (.packetTransmit p) s = .next (sent b))))
  ∧ (∀ (s : State) (i psn : Nat) (w : Work),
    s.dev.tpe.works.find? (fun w => w.qp == i && w.psn == psn && w.kind == .write && w.issued) = some w →
    (segsPlace s.dev w.segs = .host → exec (.placementAck i psn) s
      = .next (s.on (writePlaced (hostPieces s.dev w.ctx.pid 1 w.data 0 w.segs) w)))
    ∧ (segsPlace s.dev w.segs ≠ .host → ∀ b d,
      arrive s.dev (workHolder w) w.segs ⟨.ok, ⟨0, 0⟩, false⟩ 0 = some (b, .ok, d) →
      exec (.placementAck i psn) s = .next (s.on (writePlaced b w)))
    ∧ (segsPlace s.dev w.segs ≠ .host → ∀ b st d, st ≠ .ok →
      arrive s.dev (workHolder w) w.segs ⟨.ok, ⟨0, 0⟩, false⟩ 0 = some (b, st, d) →
      exec (.placementAck i psn) s = .next (s.on (workRefuse b w psn st))))
  ∧ (∀ (s : State) (i : Nat), (qp s.dev i).resetting = false → (qp s.dev i).unreported ≠ 0 →
    rd s.dev 0x5000 5 ≤ 10 * (s.dev.clk.now - (qp s.dev i).unreportedAt) →
    exec (.ackDelayExpiry i) s = .next (s.on (sendAck s.dev i)))
  ∧ (∀ (s : State) (i psn : Nat) (f : Flight) (m : SendMsg), (qp s.dev i).flights.find? (·.psn == psn) = some f →
    msgOfPsn (qp s.dev i) psn = some m → retransmits (qp s.dev i) = true →
    (timerOut s.dev (qp s.dev i) f = false → exec (.retransmissionTimerExpiry i psn) s = .next s
      ∧ exec (.retryLimitExpiry i psn) s = .next s)
    ∧ (timerOut s.dev (qp s.dev i) f = true →
      (f.attempt < (qp s.dev i).retry →
        let n := if wOpcode m.wqe = 3 then readRun (qp s.dev i) m psn 64 else 1
        let b := dropTx s.dev fun t => t.tracked && t.qp == i && t.psn == psn
        let b := if s.dev.tpe.noPath.any fun t => t.tracked && t.qp == i && t.psn == psn then count b 0x5000 8 else b
        let again (g : Flight) : Flight :=
          if psnDiff g.psn psn < n then { g with attempt := f.attempt + 1, since := b.clk.now, running := false } else g
        let b := setQp b i { qp b i with flights := (qp b i).flights.map again }
        exec (.retransmissionTimerExpiry i psn) s = .next (s.on (enqueue b (msgTx b i m psn (f.attempt + 1) n))))
      ∧ ((qp s.dev i).retry ≤ f.attempt → exec (.retryLimitExpiry i psn) s = .next (s.on (advance (qpError
        (raiseFree (finishMsg s.dev i m .timeout 0 0) 23 uTPE (qp s.dev i).pid) i .timeout m.msn) i)))))
  ∧ (∀ (s : State) (p : Nat) (deg : Bool), awake s.dev → p < 36 →
    let was := portState s.dev p
    ((port s.dev p).linkUp = true → exec (.linkUpFall p) s
      = .next (s.on (raiseFree (requeue (portLink s.dev p false false) p) 24 (uPP p) 0)))
    ∧ (s.dev.tpe.noPath.filter (fun t => !t.tracked) = [] → was ≠ 3 → (port s.dev p).realigning = false →
      (Goes (exec (.linkUpRise p deg) s) fun t => portState t.dev p = (if deg then 2 else 1) ∧ (port t.dev p).linkUp = true
        ∧ (∀ q, q < 36 → q ≠ p → portState t.dev q = portState s.dev q) ∧ memSame s t)
      ∧ ((port s.dev p).linkUp = true → Goes (exec (.linkDegradedChange p deg) s) fun t =>
        portState t.dev p = (if deg then 2 else 1) ∧ (port t.dev p).degraded = deg
        ∧ (∀ q, q < 36 → q ≠ p → portState t.dev q = portState s.dev q) ∧ memSame s t))
    ∧ ((port s.dev p).linkUp = false → exec (.linkDegradedChange p deg) s
      = .next (s.on (setPort s.dev p { port s.dev p with degraded := deg })))
    ∧ portState (portLink s.dev p false false) p = (if was = 3 then 3 else 0)
    ∧ rd (portLink s.dev p false false) (0x5100 + p) 0x0E
      = (if was = 0 ∨ was = 3 then rd s.dev (0x5100 + p) 0x0E else (rd s.dev (0x5100 + p) 0x0E + 1) % 2 ^ 64))

/-- R219-R223, R232, R233, where no injected error is met: a legal QP_INIT, QP_CONNECT or KEY_REG of the host or the
firmware with a set-up area and host traffic admitted is accepted and its record is read from the area. The record's
arrival: for QP_INIT of a RESET queue pair in an OPEN context with no offending field the queue pair takes the Init
fields; for QP_CONNECT of one in INIT to another chip it takes the Connect fields and its connection is counted; for
KEY_REG of a FREE key the key is VALID under the next generation. Each finishes OK, one with an offending field
RANGE at its byte, and one whose read fails RESOURCE with the status; then the commands that waited for it run (02
R53). (07_queue_pairs_keys.md, 02_object_dictionary.md) -/
def Obligations.SetupRecordsMakeQueuePairsAndKeys : Prop :=
  (∀ (s : State) (acc : Access) (pid : Nat) (v : Word), byHost acc → isPid pid → isLive s.dev pid = true →
    setupBase s.dev pid ≠ 0 → hostAdmitted s.dev pid = true →
    let o := 0x5200 + pid
    let p := part s.dev pid
    let n := v.toNat
    let reads (sub off len : Nat) := s.on (issue (accepted s.dev acc o sub n) ⟨.host, ⟨pid, 0, 0⟩, [],
      ⟨.setupRecord, pid, sub⟩, [.hostRead 0 ((setupBase s.dev pid + off) % 2 ^ 64) len (viaOf s.dev pid true)]⟩)
    (n < 65536 → n < p.qpCount →
      (canTake s.dev o 1 → (qp s.dev (p.qpBase + n)).st = .reset → qpReserved s.dev (p.qpBase + n) = false →
        exec (.qpInit acc pid v) s = .next (reads 1 (64 * n) 64))
      ∧ (canTake s.dev o 2 → (qp s.dev (p.qpBase + n)).st = .init →
        exec (.qpConnect acc pid v) s = .next (reads 2 (64 * n) 64)))
    ∧ (n < 2 ^ 18 → n < p.keyCount → canTake s.dev o 8 → keyReserved s.dev (p.keyBase + n) = false →
      exec (.keyReg acc pid v) s = .next (reads 8 (0x400000 + 32 * n) 32)))
  ∧ (∀ (s : State) (pid sub : Nat) (c : PendCmd) (r : Nat), pendingCmd s.dev (0x5200 + pid) sub = some c →
    issued s.dev ⟨.setupRecord, pid, sub⟩ = true → r < 2 ^ 512 → noInjection s.dev →
    let b := settle s.dev ⟨.setupRecord, pid, sub⟩
    let o := 0x5200 + pid
    let i := (part b pid).qpBase + c.arg
    let j := (part b pid).keyBase + c.arg
    let arrives := exec (.setupRecordReadDone pid sub ⟨.ok, ⟨64, r⟩, false⟩) s
    let ends (a : Block) (code : Code) (detail : Nat) : State := s.on ((waitingFor a pid c).foldl
      (fun x w => resumeCmd x pid w) (finishCmd a o (c.key % 256) code detail))
    (sub = 1 → isLive b pid = true → (qp b i).st = .reset → qpReserved b i = false → ctxOpen b pid (bits r 48 10) = true →
      (initFault r = none → arrives = .next (ends (noteQp (setQp b i (initQp b pid r (qp b i))) i) .ok 0))
      ∧ (∀ off, initFault r = some off → arrives = .next (ends b .range off)))
    ∧ (sub = 2 → isLive b pid = true → (qp b i).st = .init → (qp b i).resetting = false → ctxOpen b pid (qp b i).cx = true →
      (bits r 308 12 ≠ chipId b → arrives = .next (ends
        (sqRun (count (noteQp (setQp b i (connectQp (qp b i) r)) i) 0x5020 5) i) .ok 0))
      ∧ (bits r 308 12 = chipId b → arrives = .next (ends b .range 38)))
    ∧ (sub = 8 → isLive b pid = true → (key b j).st = .free → keyReserved b j = false → ctxOpen b pid (bits r 32 10) = true →
      (keyFault b pid r = none → arrives = .next (ends (setKey b j (regKey (key b j) pid r)) .ok
        (((key b j).gen + 1) % 256)))
      ∧ (∀ off, keyFault b pid r = some off → arrives = .next (ends b .range off)))
    ∧ (∀ st data, st ≠ .ok → exec (.setupRecordReadDone pid sub ⟨st, data, false⟩) s
      = .next (ends b .resource (statusCode st <<< 16))))

/-- R217, R218: QP_RESET of a queue pair that is neither RESET nor DRAINING is accepted and acts, at once unless a set-
up command of the same queue pair was accepted before it and waits (02 R53), and so does QP_DRAIN of one that runs,
which makes it DRAINING; once its queue, its messages and its completions are gone the queue pair is RESET and the
command finishes OK. Once a DRAINING one's queue is torn down, every message has completed, no completion is due and
every accepted packet is placed, what was placed is acknowledged, it is RESET and the QP_DRAIN finishes OK; after
DRAIN_TIMEOUT what is left is given up. Before these conditions hold the ends change nothing.
(07_queue_pairs_keys.md) -/
def Obligations.QueuePairsAreResetAndDrained : Prop :=
  (∀ (s : State) (acc : Access) (pid : Nat) (v : Word), mayCommand s.dev acc pid → isPid pid → isLive s.dev pid = true →
    v.toNat < 65536 → v.toNat < (part s.dev pid).qpCount →
    let o := 0x5200 + pid
    let i := (part s.dev pid).qpBase + v.toNat
    (canTake s.dev o 3 → (qp s.dev i).st ≠ .reset → (qp s.dev i).st ≠ .draining →
      (setupBefore s.dev pid 3 v.toNat = false → noInjection s.dev →
        exec (.qpReset acc pid v) s = .next (s.on (resetQp (accepted s.dev acc o 3 v.toNat) i)))
      ∧ (setupBefore s.dev pid 3 v.toNat = true →
        exec (.qpReset acc pid v) s = .next (s.on (accepted s.dev acc o 3 v.toNat))))
    ∧ (canTake s.dev o 4 → (qp s.dev i).runs = true → (qp s.dev i).resetting = false →
      (setupBefore s.dev pid 4 v.toNat = false → noInjection s.dev →
        exec (.qpDrain acc pid v) s = .next (s.on (drainQp (accepted s.dev acc o 4 v.toNat) i false)))
      ∧ (setupBefore s.dev pid 4 v.toNat = true →
        exec (.qpDrain acc pid v) s = .next (s.on (accepted s.dev acc o 4 v.toNat)))))
  ∧ (∀ (s : State) (i : Nat),
    let q := qp s.dev i
    (q.resetting = true → q.sqNext = q.sqTail → q.due = [] → q.msgs = [] → unplaced s.dev i = false →
      let b := finishQp (toReset s.dev i) i 3 .ok 0
      exec (.qpResetComplete i) s = .next (s.on (if q.st = .draining then finishQp b i 4 .ok 0 else b)))
    ∧ (q.resetting = false ∨ q.due ≠ [] ∨ unplaced s.dev i = true → exec (.qpResetComplete i) s = .next s)
    ∧ (q.st = .draining → q.resetting = false → q.sqNext = q.sqTail → (∀ m ∈ q.msgs, m.st ≠ none) → q.due = [] →
      unplaced s.dev i = false → exec (.qpDrainComplete i) s = .next (s.on (finishQp
        (toReset (if q.unreported = 0 then s.dev else sendAck s.dev i) i) i 4 .ok 0)))
    ∧ (q.st ≠ .draining ∨ unplaced s.dev i = true ∨ q.due ≠ [] → exec (.qpDrainComplete i) s = .next s)
    ∧ (q.st = .draining → elapsed s.dev q.drainAt (drainTime s.dev q.pid) = true →
      exec (.qpDrainTimeout i) s = .next (s.on (expireQp s.dev i)))
    ∧ (elapsed s.dev q.drainAt (drainTime s.dev q.pid) = false → exec (.qpDrainTimeout i) s = .next s))

/-- R233, R235, R236, R245, where no injected error is met and no set-up command of the same key or queue pair waits (02
R53): KEY_REVOKE of a VALID key makes it REVOKING and stays pending; no other key changes. KEY_REVOKE_COMPLETE of a
REVOKING key on which no request counts makes it FREE, its generation and nothing else kept; while a request counts,
and on a key that is not REVOKING, it changes nothing. After DRAIN_TIMEOUT what still counts is answered
KEY_REVOKED. QP_QUERY and KEY_QUERY of a legal index are accepted and write their record; the write's answer
finishes the command OK, or RESOURCE with the status. (07_queue_pairs_keys.md) -/
def Obligations.KeysAreRevokedAndQueried : Prop :=
  (∀ (s : State) (acc : Access) (pid : Nat) (v : Word), mayCommand s.dev acc pid → isPid pid → isLive s.dev pid = true →
    noInjection s.dev →
    let o := 0x5200 + pid
    let p := part s.dev pid
    (setupBefore s.dev pid 9 v.toNat = false → v.toNat < 2 ^ 18 → v.toNat < p.keyCount → canTake s.dev o 9 → (key s.dev (p.keyBase + v.toNat)).st = .valid →
      Goes (exec (.keyRevoke acc pid v) s) fun t =>
        key t.dev (p.keyBase + v.toNat) = { key s.dev (p.keyBase + v.toNat) with st := .revoking, since := s.dev.clk.now }
          ∧ (∀ j, j ≠ p.keyBase + v.toNat → key t.dev j = key s.dev j) ∧ pends s t o 9 ∧ memSame s t)
    ∧ (setupBefore s.dev pid 5 v.toNat = false → canTake s.dev o 5 → bits v.toNat 16 40 = 0 → bits v.toNat 0 16 < p.qpCount →
      exec (.qpQuery acc pid v) s = .next (s.on (queryWrite (accepted s.dev acc o 5 v.toNat) pid 5)))
    ∧ (setupBefore s.dev pid 0x0A v.toNat = false → canTake s.dev o 0x0A → bits v.toNat 18 38 = 0 → bits v.toNat 0 18 < p.keyCount →
      exec (.keyQuery acc pid v) s = .next (s.on (queryWrite (accepted s.dev acc o 0x0A v.toNat) pid 0x0A))))
  ∧ (∀ (s : State) (j : Nat),
    let k := key s.dev j
    (k.st = .revoking → k.out = 0 → Goes (exec (.keyRevokeComplete j) s) fun t =>
      key t.dev j = { freshKey with gen := k.gen, pid := k.pid } ∧ (∀ x, x ≠ j → key t.dev x = key s.dev x) ∧ memSame s t)
    ∧ (k.st ≠ .revoking ∨ k.out ≠ 0 → exec (.keyRevokeComplete j) s = .next s)
    ∧ (k.st = .revoking → k.out ≠ 0 → elapsed s.dev k.since (drainTime s.dev k.pid) = true →
      exec (.keyRevokeTimeout j) s = .next (s.on (expireKey s.dev j .keyRevoked)))
    ∧ (elapsed s.dev k.since (drainTime s.dev k.pid) = false → exec (.keyRevokeTimeout j) s = .next s))
  ∧ (∀ (s : State) (pid sub : Nat) (ans : Answer), sub = 5 ∨ sub = 0x0A → (pendingCmd s.dev (0x5200 + pid) sub).isSome = true →
    issued s.dev ⟨.queryWrite, pid, sub⟩ = true →
    exec (.queryWriteDone pid sub ans) s = .next (s.on (if ans.st = .ok
      then finishCmd (settleTile s.dev ⟨.queryWrite, pid, sub⟩) (0x5200 + pid) sub .ok 0
      else finishCmd (settleTile s.dev ⟨.queryWrite, pid, sub⟩) (0x5200 + pid) sub .resource (statusCode ans.st <<< 16))))

/-- R224, where no injected error is met: on a queue pair in INIT, READY, TAKEN_OVER or ERROR, SQ_TAIL below the queue's
size replaces the tail and the queue runs; CQ_CONS below the completion queue's size replaces the consumer index and
CQ_ARM arms, both also while DRAINING, and they change nothing else. A tail at or above the size, a consumer index
at or above the size, and a word with a reserved bit change only DOORBELL_DISCARDS. (07_queue_pairs_keys.md,
03_partitions_contexts.md) -/
def Obligations.QueuePairDoorbellsMoveTailConsumerAndArm : Prop :=
  ∀ (s : State) (vf rel pid : Nat), awake s.dev → pidOfVf s.dev vf = pid → pid ≠ 0 → isLive s.dev pid = true →
    partServed s.dev pid = true → hostAdmitted s.dev pid = true → rel < (part s.dev pid).qpCount → served s.dev uTPE = true →
    noInjection s.dev →
    let i := (part s.dev pid).qpBase + rel
    let q := qp s.dev i
    let word (cmd low : Nat) : Word := BitVec.ofNat 64 (low + (cmd <<< 62))
    let live := q.st = .init ∨ q.st = .ready ∨ q.st = .takenOver ∨ q.st = .error
    let discarded := s.on (count s.dev (0x2200 + pid) 0x14)
    (∀ v, v < 65536 →
      (live → v < 2 ^ q.sqLog → exec (.sqTail vf rel (word 0 v)) s = .next (s.on (sqRun (setQp s.dev i { q with sqTail := v }) i)))
      ∧ (live ∨ q.st = .draining → v < 2 ^ q.cqLog →
        exec (.cqCons vf rel (word 1 v)) s = .next (s.on (setQp s.dev i { q with cqCons := v })))
      ∧ (2 ^ q.sqLog ≤ v → exec (.sqTail vf rel (word 0 v)) s = .next discarded)
      ∧ (2 ^ q.cqLog ≤ v → exec (.cqCons vf rel (word 1 v)) s = .next discarded))
    ∧ (live ∨ q.st = .draining → exec (.cqArm vf rel (word 2 0)) s = .next (s.on (setQp s.dev i { q with armed := true })))
    ∧ (∀ w : Word, zeroBits w.toNat 16 46 = false → exec (.sqTail vf rel w) s = .next discarded
      ∧ exec (.cqCons vf rel w) s = .next discarded ∧ exec (.cqArm vf rel w) s = .next discarded)
    ∧ (∀ x : Qp, qp (setQp s.dev i x) i = x ∧ ∀ j, j ≠ i → qp (setQp s.dev i x) j = qp s.dev j)

/-- R225-R230, R444: a fetched WQE that passes the checks of R226 becomes the current one, and a WRITE or REDUCE reads
its payload; a failing check, or a failed fetch, completes it with the status. A READ or an atomic that may start
takes its MSN and PSNs; a WRITE or REDUCE does when its payload is there; a NOP completes OK without one. A failed
read of a WQE or of a payload completes it with the status and the queue pair enters ERROR. The oldest completion
due, its context's generation unchanged, is written at the producer index unless the completion queue is full, and
one whose write fails is dropped and the queue pair enters ERROR. (07_queue_pairs_keys.md, 06_fabric_transport.md) -/
def Obligations.WorkQueueEntriesRunAndComplete : Prop :=
  (∀ (s : State) (i : Nat) (ans : Answer) (b : Block) (st : Status) (w : Nat), (qp s.dev i).fetch = .readWqe →
    arrive s.dev ⟨.wqeFetch, i, 0⟩ (qp s.dev i).io ans 64 = some (b, st, w) → (qp s.dev i).tearing = none →
    (qp b i).tearing = none →
    let b := onQp b i fun q => { q with fetch := .rest, io := [] }
    (st ≠ .ok → exec (.wqeFetchDone i ans) s = .next (s.on (wqeFail b i 0 st)))
    ∧ (st = .ok → ∀ f, wqeStatus b (qp s.dev i) w = some f → exec (.wqeFetchDone i ans) s = .next (s.on (wqeFail b i w f)))
    ∧ (st = .ok → wqeStatus b (qp s.dev i) w = none →
      let b := onQp b i fun q => { q with fetch := .ready, cur := w }
      exec (.wqeFetchDone i ans) s
        = .next (s.on (if wOpcode w = 1 ∨ wOpcode w = 2 then payloadRead b i else b))))
  ∧ (∀ (s : State) (i : Nat) (ans : Answer) (b : Block) (d : Nat),
    let q := qp s.dev i
    (q.fetch = .readPayload → q.copies = [] → mayStartMsg s.dev q q.cur = true →
      arrive s.dev ⟨.wqePayload, i, 0⟩ q.io ans (wBytes q.cur) = some (b, .ok, d) →
      (wOpcode q.cur = 1 → exec (.wqeWrite i ans) s = .next (s.on (wqeStart b i d)))
      ∧ (wOpcode q.cur = 2 → exec (.wqeReduce i ans) s = .next (s.on (wqeStart b i d))))
    ∧ (q.fetch = .ready → mayStartMsg s.dev q q.cur = true →
      let started := s.on (wqeStart s.dev i 0)
      (wOpcode q.cur = 3 → exec (.wqeRead i) s = .next started) ∧ (wOpcode q.cur = 4 → exec (.wqeFetchAdd i) s = .next started)
      ∧ (wOpcode q.cur = 5 → exec (.wqeCmpSwap i) s = .next started) ∧ (wOpcode q.cur = 6 → exec (.wqeSwap i) s = .next started))
    ∧ (q.fetch = .ready → wOpcode q.cur = 7 → q.runs = true → q.resetting = false → (wFence q.cur = false ∨ oldestOpen q = none) →
      exec (.wqeNop i) s = .next (s.on (sqRun (tearWqe s.dev i q.cur .ok) i))))
  ∧ (∀ (s : State) (i : Nat) (st : Status),
    let q := qp s.dev i
    (∀ w ∈ s.dev.tpe.works, w.qp ≠ i ∨ w.kind ≠ .response) →
    (q.fetch = .readWqe → exec (.localFailure i st) s = .next (s.on (wqeFail (onQp (abandon s.dev ⟨.wqeFetch, i, 0⟩ q.io) i
      fun q => { q with fetch := .rest, io := [] }) i 0 st)))
    ∧ (q.fetch = .readPayload → exec (.localFailure i st) s = .next (s.on (wqeFail (onQp (abandon s.dev ⟨.wqePayload, i, 0⟩ q.io) i
      fun q => { q with fetch := .rest, io := [] }) i q.cur st))))
  ∧ (∀ (s : State) (i : Nat) (c : Cqe) (rest : List Cqe), (qp s.dev i).due = c :: rest → cqFull (qp s.dev i) = false →
    let q := qp s.dev i
    (q.isAlias = true ∨ q.ownGen = (ctxSlot s.dev q.pid q.cx).gen) →
    (∀ b segs, writeNow s.dev (qpAsker s.dev i .completion 0) (ctxNow s.dev q.pid q.cx) ((q.cqBase + 32 * q.cqProd) % 2 ^ 52)
        ⟨32, c.entry + (ofBool q.phase <<< 63)⟩ 0 2 = (b, .issued segs) →
      let p := (q.cqProd + 1) % cqSize q
      let b := onQp b i fun x => { x with due := rest, cqProd := p, phase := if p = 0 then !x.phase else x.phase, armed := false }
      exec (.completionWrite i) s = .next (s.on (freeTracker
        (if (q.armed || c.always) && q.vec ≠ 0 then msixPart b q.pid q.vec else b) i c.slot)))
    ∧ (∀ st, st ≠ .ok → exec (.completionWriteFail i st) s = .next (s.on (completionFail s.dev i st))))
  ∧ (∀ (s : State) (i : Nat), (qp s.dev i).due = [] ∨ cqFull (qp s.dev i) = true →
    exec (.completionWrite i) s = .next s ∧ ∀ st, exec (.completionWriteFail i st) s = .next s)

/-- R237-R242: a synchronised sender whose lease has lapsed forfeits its credit, and its queued packets wait for it from
then on; an ACTIVE source idle for CREDIT_IDLE goes QUIET; CREDIT_RESYNC of a credit peer by the fabric manager or
the firmware makes it QUIET and stays pending; before their time the timers change nothing. When QUIET has lasted
its period, the state of a chip that is no peer is dropped. A refresh serves every source whose period has passed.
Granting keeps the credit table in its form (ascending, its counters of 32 bits) and never makes the sum of R237
exceed 6,144 where it did not before. (07_queue_pairs_keys.md, 06_fabric_transport.md) -/
def Obligations.CreditIsGrantedRefreshedAndResynchronised : Prop :=
  (∀ (s : State) (chip : Nat), (txCredit s.dev chip).synced = true →
    (leaseLive s.dev (txCredit s.dev chip) = false → Goes (exec (.creditLeaseExpiry chip) s) fun t =>
      txCredit t.dev chip = { txCredit s.dev chip with synced := false } ∧ (∀ c, c ≠ chip → txCredit t.dev c = txCredit s.dev c)
        ∧ memSame s t ∧ t = s.on (noteCredit (setTxCredit s.dev chip { txCredit s.dev chip with synced := false })))
    ∧ (leaseLive s.dev (txCredit s.dev chip) = true → exec (.creditLeaseExpiry chip) s = .next s))
  ∧ (∀ (s : State) (chip : Nat) (x : RxCredit), find? s.dev.tpe.rxCredit chip = some x →
    (x.st = .active → elapsed s.dev x.arrivedAt (micros (rd s.dev 0x5010 8)) = true → Goes (exec (.creditIdleExpiry chip) s) fun t =>
      find? t.dev.tpe.rxCredit chip = some { x with st := .quiet, entered := s.dev.clk.now } ∧ t = s.on { s.dev with tpe := t.dev.tpe })
    ∧ (x.st ≠ .active ∨ elapsed s.dev x.arrivedAt (micros (rd s.dev 0x5010 8)) = false → exec (.creditIdleExpiry chip) s = .next s)
    ∧ (x.st ≠ .quiet ∨ elapsed s.dev (if x.sent then x.sentAt else x.entered) (quietTime s.dev) = false →
      exec (.quietPeriodEnd chip) s = .next s)
    ∧ (x.st = .quiet → elapsed s.dev (if x.sent then x.sentAt else x.entered) (quietTime s.dev) = true → asleep s.dev = false →
      let b := count s.dev 0x5010 0x0C
      (isPeer s.dev chip = false → exec (.quietPeriodEnd chip) s
        = .next (s.on (grantCredit { b with tpe := { b.tpe with rxCredit := erase b.tpe.rxCredit chip } })))
      ∧ (isPeer s.dev chip = true →
        let fl := (List.range 4).map (floorOf b)
        let g := List.zipWith (fun g f => (g + f) % 2 ^ 32) x.g fl
        let y : RxCredit := { x with st := .base, u := x.g, g := g, t := fl, entered := s.dev.clk.now, arrivedAt := s.dev.clk.now,
                                     seen := [false, false, false, false], refreshed := s.dev.clk.now }
        exec (.quietPeriodEnd chip) s = .next (s.on (finishResync (sendCredit (setRx b chip y) chip) chip .ok)))))
  ∧ (∀ s : State, exec .creditRefreshTimer s = .next (s.on ((s.dev.tpe.rxCredit.map (·.1)).foldl refreshChip s.dev))
    ∧ ((∀ e ∈ s.dev.tpe.rxCredit, ∀ y, find? s.dev.tpe.rxCredit e.1 = some y →
        y.st = .quiet ∨ elapsed s.dev y.refreshed (micros (rd s.dev 0x5010 5)) = false) →
      exec .creditRefreshTimer s = .next s))
  ∧ (∀ (s : State) (acc : Access) (v : Word) (x : RxCredit), canTake s.dev 0x5010 0x20 → notFmFw acc = false → v.toNat < 4096 →
    isPeer s.dev v.toNat = true → find? s.dev.tpe.rxCredit v.toNat = some x → x.st ≠ .quiet →
    Goes (exec (.creditResync acc v) s) fun t => pends s t 0x5010 0x20 ∧ memSame s t
      ∧ find? t.dev.tpe.rxCredit v.toNat = some { x with st := .quiet, entered := s.dev.clk.now })
  ∧ (∀ (b : Block) (rose : List Nat) (n : Nat), creditOk b → poolSum b ≤ 6144 →
    creditOk (grantUnits b rose n).1 ∧ poolSum (grantUnits b rose n).1 ≤ 6144)

/-- R252, R253, R276, R306: GROUP_ARM of a group in IDLE, DONE or ABORTED is accepted, the group is ARMING and its
record is read. A record that passes Table 8-5 becomes the group's, with its programs' current versions; one that
fails, or a failed read, leaves the group in the state it had and finishes with the code and detail of the table.
Arming's end clears the ledger rows, makes the group ARMED, finishes OK and lets the local contributor start, or
ends the group FENCED where a station of its image is fenced or has no lane group. GROUP_ABORT of a live group makes
it ABORTED, stays pending and changes no other group; once no application of the group is left it finishes OK,
writes the record, with ABORTED or the status joined to it since (R277), and raises the vector. PROG_UNLOAD takes
the program's current version away and changes no other program. (08_crucibles.md, 09_runner_programs.md,
02_object_dictionary.md) -/
def Obligations.GroupsAreArmedAndAborted : Prop :=
  (∀ (s : State) (acc : Access) (pid : Nat) (arg : Word), mayCommand s.dev acc pid → isPid pid → arg.toNat < 65536 →
    arg.toNat < groupLimit s.dev pid →
    (canTake s.dev (0x6100 + pid) 1 → (group s.dev pid arg.toNat).live = false →
      let b := onGroup (accepted s.dev acc (0x6100 + pid) 1 arg.toNat) pid arg.toNat
        fun x => { x with prev := x.st, checked := false, io := [], pages := [] }
      exec (.groupArm acc pid arg) s = .next (s.on (recordRead (groupState b pid arg.toNat .arming) pid arg.toNat)))
    ∧ (canTake s.dev (0x6100 + pid) 2 → (group s.dev pid arg.toNat).live = true →
      Goes (exec (.groupAbort acc pid arg) s) fun t =>
        t = s.on (onGroup (stopGroup (accepted s.dev acc (0x6100 + pid) 2 arg.toNat) pid arg.toNat) pid arg.toNat
            fun x => { x with ending := some (.aborted, true) })
          ∧ (group t.dev pid arg.toNat).st = .aborted
          ∧ ∀ p g, groupKey p g ≠ groupKey pid arg.toNat → group t.dev p g = group s.dev p g))
  ∧ (∀ (s : State) (pid g : Nat) (ans : Answer) (b : Block) (st : Status) (r : Nat),
    (group s.dev pid g).unread = true → (group s.dev pid g).io ≠ [] → pendingCmd s.dev (0x6100 + pid) 2 = none →
    arrive s.dev ⟨.groupRecord, groupKey pid g, 0⟩ (group s.dev pid g).io ans 64 = some (b, st, r) →
    let x := group s.dev pid g
    let failed (c : Code) (d : Nat) := s.on (finishCmd (groupState (onGroup b pid g fun x => { x with io := [] }) pid g x.prev)
      (0x6100 + pid) 1 c d)
    (st = .ok → recordCheck b pid r = none →
      exec (.groupRecordReadDone pid g ans) s = .next (s.on (setGroup b pid g { freshGroup with
        st := .arming, prev := x.prev, record := some r, checked := true,
        arr := named b pid (gArrProg r), cmp := named b pid (gCmpProg r), pages := List.replicate (gPages r) none })))
    ∧ (∀ c d, st = .ok → recordCheck b pid r = some (c, d) → exec (.groupRecordReadDone pid g ans) s = .next (failed c d))
    ∧ (st ≠ .ok → exec (.groupRecordReadDone pid g ans) s = .next (failed .resource (statusCode st <<< 16))))
  ∧ (∀ (s : State) (pid g : Nat) (b : Block), (group s.dev pid g).st = .arming → (group s.dev pid g).checked = true →
    clearPages s.dev pid g 0 (gPages (group s.dev pid g).r) = (b, true) →
    let out (ms : Nat) : Prop := served b (uMS ms) = false ∨ lanesLeft b ms = false
    let on (ms : Nat) : Prop := ∃ q ∈ (group b pid g).pages, pageStation q = some ms
    ((∀ ms, on ms → ¬out ms) → exec (.groupArmed pid g) s = .next (s.on (localRead (finishCmd (groupState (onGroup b pid g
      fun x => { x with armedAt := b.clk.now, applied := 0, messages := 0, hits := 0 }) pid g .armed) (0x6100 + pid) 1 .ok 0)
      pid g)))
    ∧ (∀ ms, on ms → out ms → exec (.groupArmed pid g) s = .next (s.on (endGroup b pid g .fenced true))))
  ∧ (∀ (s : State) (pid g : Nat) (c : PendCmd), pendingCmd s.dev (0x6100 + pid) 2 = some c → c.arg = g →
    (∀ a ∈ s.dev.cru.apps, ¬(a.pid = pid ∧ a.group = g)) →
    let a := finishCmd s.dev (0x6100 + pid) 2 .ok 0
    let e := (group a pid g).ending.getD (.aborted, true)
    let a := onGroup a pid g fun x => { x with ending := none }
    let b := if e.2 then failRecord a pid g e.1 else a
    exec (.groupAbortDone pid g) s
      = .next (s.on (if (group b pid g).record.isSome then msixPart b pid (gVec (group b pid g).r) else b)))
  ∧ (∀ (s : State) (acc : Access) (pid : Nat) (arg : Word), mayCommand s.dev acc pid → isPid pid →
    canTake s.dev (0x6400 + pid) 1 → 1 ≤ arg.toNat → arg.toNat < 256 → arg.toNat ≤ progLimit s.dev pid →
    ¬(roleOf acc.path = .host ∧ isSealed s.dev pid = true) →
    Goes (exec (.progUnload acc pid arg) s) fun t => finishes s t (0x6400 + pid) 1 .ok 0
      ∧ program t.dev pid arg.toNat = none ∧ t.dev.cru.groups = s.dev.cru.groups ∧ memSame s t
      ∧ ∀ k p, progKey k p ≠ progKey pid arg.toNat → program t.dev k p = program s.dev k p)

/-- R262-R269, Table 8-8, R260: under its line's lock, an application whose ledger bit is clear, in a group without an
arrival program and while no completion program runs, writes the new accumulator values and the row with its bit
set, and no other byte of memory changes; with an arrival program it applies the program's results; one whose bit is
set already is a ledger hit; poison refuses it. Its report frees the packet and adds its bytes: an ARMED group whose
total is not reached stays ARMED with the bytes added, and one that reaches it completes. A local slot that has been
read is applied like a packet and the next is read; a failed read ends the group. Integer SUM, MAX and MIN and
binary32 MAX and MIN do not depend on the order of contributions. (08_crucibles.md) -/
def Obligations.ContributionsAreAppliedOnce : Prop :=
  (∀ (s : State) (ms pid g slot contrib : Nat) (a : App),
    s.dev.cru.apps.find? (fun a => a.pid == pid && a.group == g && a.slot == slot && a.contrib == contrib
      && a.st == .locked && stationOf a.pa == ms) = some a →
    served s.dev (uMS ms) = true →
    let x := group s.dev pid g
    let r := x.r
    let row := readMem s.dev a.pa (gL r)
    let b := count (unlock s.dev a.pa (appLines s.dev a)) (0x6300 + ms) 1
    let n := slotElems r slot
    let inRow (z : Nat) : Prop := localAddr a.pa ≤ z ∧ z < localAddr a.pa + gL r
    let inData (z : Nat) : Prop := localAddr (a.pa + gL r) ≤ z ∧ z < localAddr (a.pa + gL r) + n * gA r
    let new (xs : List Nat) := applyValues r (readMem b (a.pa + gL r) (n * gA r)) (!gKeep r && row == 0) xs
    (row.testBit contrib = true →
      exec (.application ms pid g slot contrib false) s = .next (s.on (ledgerHit (cacheBit (dropApp b a) a) a)))
    ∧ (row.testBit contrib = false → contrib < gCount r → x.arr = none → (∀ e ∈ s.dev.cru.groups, e.2.running = false) →
      Goes (exec (.application ms pid g slot contrib false) s) fun t =>
        readMem t.dev a.pa (gL r) = row ||| 2 ^ contrib
        ∧ (localAddr a.pa + gBlock r ≤ 2 ^ 44 → readMem t.dev (a.pa + gL r) (n * gA r)
            = new (incoming r slot a.payload.val) % 2 ^ (8 * (n * gA r)))
        ∧ (∀ z, ¬inRow z → ¬inData z → readByte t.dev z = readByte s.dev z)
        ∧ t.dev.cru.apps = s.dev.cru.apps.map (fun y => if y.num = a.num then { a with st := .applied } else y)
        ∧ t.dev.cru.groups = s.dev.cru.groups)
    ∧ (∀ v, row.testBit contrib = false → x.arr = some v →
      let q := arrivalRun (addTo (addTo b 0x6010 6 (progCost v.image.val * n)) (0x6400 + pid) 0x26 n) r v.image.val contrib
        slot 0 (incoming r slot a.payload.val) (n / 32 + 1)
      let val := applyValues r (readMem q.1 (a.pa + gL r) (n * gA r)) (!gKeep r && row == 0) q.2
      exec (.application ms pid g slot contrib false) s = .next (s.on (setApp (present (present q.1
        (.memWrite (a.pa + gL r) ⟨n * gA r, val⟩ 0)) (.memWrite a.pa ⟨gL r, row ||| 2 ^ contrib⟩ 0))
        { a with st := .applied })))
    ∧ (served (memoryUe b true a.pa pid) (uMS ms) = true →
      exec (.application ms pid g slot contrib true) s = .next (s.on (appRefuse (memoryUe b true a.pa pid) a .poison))))
  ∧ (∀ (s : State) (pid g slot contrib : Nat) (a : App), appNamed s.dev pid g slot contrib .applied = some a →
    exec (.applicationReport pid g slot contrib) s
      = .next (s.on (addApplied (placeReduce (cacheBit (dropApp s.dev a) a) a) a)))
  ∧ (∀ (b : Block) (a : App), let x := group b a.pid a.group
    let c := addTo (count b 0x6000 5) (0x6100 + a.pid) 0x45 a.payload.len
    let y := { x with applied := x.applied + a.payload.len }
    x.st = .armed →
      (y.applied ≠ gCount x.r * gContribBytes x.r → addApplied b a = setGroup c a.pid a.group y
        ∧ group (addApplied b a) a.pid a.group = y)
      ∧ (y.applied = gCount x.r * gContribBytes x.r → addApplied b a = completeGroup (setGroup c a.pid a.group y) a.pid a.group))
  ∧ (∀ (s : State) (pid g slot : Nat) (ans : Answer) (b : Block) (st : Status) (d : Nat), (group s.dev pid g).st = .armed →
    (group s.dev pid g).localSlot = slot →
    let r := (group s.dev pid g).r
    arrive s.dev ⟨.localSlot, groupKey pid g, slot⟩ (group s.dev pid g).localIo ans (slotBytes r slot) = some (b, st, d) →
    let c := onGroup b pid g fun x => { x with localIo := [], localSlot := slot + 1 }
    (st = .ok → exec (.localSlotReadDone pid g slot ans) s = .next (s.on (localRead (startApp c ⟨0, pid, g, slot, gCount r - 1,
      ⟨slotBytes r slot, d⟩, false, true, 0, 0, 0, 0, false, 0, 0, noSeg, .xlate⟩) pid g)))
    ∧ (st ≠ .ok → exec (.localSlotReadDone pid g slot ans) s = .next (s.on (endGroup c pid g st true))))
  ∧ (∀ acc op scale a x y, (acc = 2 ∨ acc = 3) ∨ acc = 0 ∧ (op = 1 ∨ op = 2) → a < 2 ^ (8 * accWidth acc) →
    x < 2 ^ (8 * accWidth acc) → y < 2 ^ (8 * accWidth acc) →
    accumulate acc op scale a x = accumulate acc op scale x a
      ∧ accumulate acc op scale (accumulate acc op scale a x) y = accumulate acc op scale (accumulate acc op scale a y) x)

/-- R269-R274, R290-R301: a stream table whose entries are legal leads to binding; once every stream is bound and every
page of the image translated, the first phase starts at every station that holds part of the image. A station runs
its programs, one bundle each in turn, until the named one has run its phase over all its elements, and that one
gives its result; with a BAR the second phase starts with the stations' scalar results joined. The output cast reads
every slot, converts and writes it, and its read-back follows; the read-back's answer leads to the completion
record. A failed read, a bad entry, a failed binding, poison and a failing instruction fail the program, and a
failed write or read-back ends the group. (08_crucibles.md, 09_runner_programs.md) -/
def Obligations.GroupsRunTheirCompletionSteps : Prop :=
  (∀ (s : State) (pid g : Nat) (ans : Answer) (b : Block) (st : Status) (v : Nat), (group s.dev pid g).stage = .table →
    arrive s.dev ⟨.streamTable, groupKey pid g, 0⟩ (group s.dev pid g).io ans 128 = some (b, st, v) →
    let img := jobImg (group s.dev pid g)
    let us := (usedStreams img).map fun n => (⟨n, slice v (16 * n) 16, []⟩ : Bound)
    (st = .ok → (∀ u ∈ us, entryFails img u.num u.entry = none) → exec (.streamTableReadDone pid g ans) s
      = .next (s.on (onGroup b pid g fun x => { x with io := [], stage := .bind, streams := us })))
    ∧ (∀ f, st = .ok → us.findSome? (fun u => entryFails img u.num u.entry) = some f →
      exec (.streamTableReadDone pid g ans) s = .next (s.on (progFail b pid g f)))
    ∧ (st ≠ .ok → exec (.streamTableReadDone pid g ans) s = .next (s.on (progFail b pid g ⟨st, 1, 0⟩))))
  ∧ (∀ (s : State) (pid g : Nat), (group s.dev pid g).stage = .bind → (group s.dev pid g).st = .completing →
    let all := bindAll s.dev pid g (jobImg (group s.dev pid g)) [] (group s.dev pid g).streams
    (∀ b us c, all = (b, some (.ok us)) → imagePages b pid g 0 (gPages (group s.dev pid g).r) = (c, some .ok) →
      let d := onGroup c pid g fun x =>
        let x := { x with stage := .phase1, streams := us, disturbed := [], results := [], scalar := 0 }
        let img := jobImg x
        { x with extents := imageExtents x (progWb img) ++ us.flatMap fun u => streamExtents x.r (usesStream img true u.num) u }
      exec (.streamBindDone pid g) s = .next (s.on (startPhase d pid g 0 (imageStations (group d pid g)))))
    ∧ (∀ b f, all = (b, some (.error f)) → exec (.streamBindDone pid g) s = .next (s.on (progFail b pid g f))))
  ∧ (∀ (s : State) (pid g ms : Nat), (jobOf s.dev pid g ms).isSome = true →
    let b := stationRun s.dev pid g ms (stationFuel s.dev ms)
    (∀ j, jobOf b pid g ms = some j → exec (.phaseDone pid g ms false) s = .next (s.on (jobDone b pid g ms j)))
    ∧ (jobOf b pid g ms = none → exec (.phaseDone pid g ms false) s = .next (s.on b))
    ∧ (∀ j f a, turnJob s.dev ms = some j → jobStep s.dev (group s.dev j.pid j.group) ms j false = (a, .error f) →
      f.st ≠ .poison → stationStep s.dev ms false = progFail a j.pid j.group f)
    ∧ exec (.phaseDone pid g ms true) s
      = .next (s.on (progFail (raiseFree s.dev 19 (uMS ms) pid) pid g ⟨.poison, 4, 0⟩)))
  ∧ (∀ (s : State) (pid g : Nat), (group s.dev pid g).stage = .between →
    let x := group s.dev pid g
    exec (.secondPhaseStart pid g) s = .next (s.on (startPhase (setGroup s.dev pid g
      { x with stage := .phase2, scalar := phaseScalar x }) pid g 1 (imageStations x))))
  ∧ (∀ (s : State) (pid g : Nat) (ans : Answer), (group s.dev pid g).st = .completing →
    let x := group s.dev pid g
    (x.stage = .cast → ans.poison = false → ans.st = .ok → ∀ b c vs e out sat nan f segs,
      imagePages s.dev pid g 0 (gPages x.r) = (b, some .ok) →
      let r := (group b pid g).r
      castRead b (group b pid g) pid 0 [] (gS r) = (c, none, vs) →
      castAll c r 0 vs (⟨0, 0⟩, 0, 0) (slots (gOut r) (gElements r)) = (e, out, sat, nan) →
      writeNow e (groupAsker .castOut pid g 0) (groupCtx e pid r) (gOutVa r) out 0 2 = (f, .issued segs) →
      exec (.outputCastDone pid g ans) s = .next (s.on (afterWrites (onGroup f pid g fun x =>
        { x with saturated := sat, nans := nan, lastVa := some ((gOutVa r + out.len - 64) % 2 ^ 52) }) pid g)))
    ∧ (x.stage = .cast → ans.poison = true ∨ ans.st ≠ .ok → exec (.outputCastDone pid g ans) s
      = .next (s.on (endGroup s.dev pid g (if ans.poison then .poison else ans.st) false)))
    ∧ (x.stage = .readback → ∀ b st v, arrive s.dev ⟨.castOut, groupKey pid g, 1⟩ x.io ans 64 = some (b, st, v) →
      let c := onGroup b pid g fun x => { x with io := [] }
      (st = .ok → exec (.groupReadbackDone pid g ans) s = .next (s.on (finishGroup c pid g)))
      ∧ (st ≠ .ok → exec (.groupReadbackDone pid g ans) s = .next (s.on (endGroup c pid g st false)))))
  ∧ (∀ (b : Block) (pid g : Nat), (group (groupDone b pid g) pid g).st = .done)

/-- R280-R301: for each row of Table 9-5 (NOP FADD FSUB FMUL FFMA FNMA FMIN FMAX FABS FNEG FCLIP MOV IADD ISUB IMUL IMIN
IMAX AND OR XOR SHL SHR SRA FCMP ICMP SEL PLOG RCP RSQRT SQRT EXP2 LOG2 CVT BAMAX EXPB SCALB LD ST SRED LDS BAR)
that names the next instruction of the program whose bundle is in turn at a station: the lane cycles are counted;
inside a phase the bundle, with what the instruction did to its lanes, stays in turn at the next instruction; at the
phase's end the bundle ends, and the turn passes on when another bundle follows; a failing instruction fails the
program; with no bundle in turn nothing changes. Each of the 37 register rows inside a phase completes so, and the
BAR that ends the first phase's last bundle leaves it finished; they act on the bundle's lanes alone; NOP and BAR
change no lane; SRED combines the guarded lanes' values into the station's partials; LDS gives every active lane the
scalar's function; a poisoned LD of a bound stream fails with POISON. (09_runner_programs.md, 08_crucibles.md) -/
def Obligations.ProgramsRunInstructionByInstruction : Prop :=
  let registerRows : List ((Nat → RunnerOp → Instr) × Nat) :=
    [(.nop, 0x00), (.fadd, 0x01), (.fsub, 0x02), (.fmul, 0x03), (.ffma, 0x04), (.fnma, 0x05), (.fmin, 0x06), (.fmax, 0x07),
     (.fabs, 0x08), (.fneg, 0x09), (.fclip, 0x0A), (.mov, 0x0B), (.iadd, 0x10), (.isub, 0x11), (.imul, 0x12), (.imin, 0x13),
     (.imax, 0x14), (.and, 0x15), (.or, 0x16), (.xor, 0x17), (.shl, 0x18), (.shr, 0x19), (.sra, 0x1A), (.fcmp, 0x20),
     (.icmp, 0x21), (.sel, 0x22), (.plog, 0x23), (.rcp, 0x28), (.rsqrt, 0x29), (.sqrt, 0x2A), (.exp2, 0x2B), (.log2, 0x2C),
     (.cvt, 0x30), (.bamax, 0x31), (.expb, 0x32), (.scalb, 0x33), (.bar, 0x3C)]
  let otherRows : List ((Nat → RunnerOp → Instr) × Nat) :=
    [(fun ms o => .ld ms o false, 0x38), (.st, 0x39), (.sred, 0x3A), (.lds, 0x3B)]
  (∀ (s : State) (ms : Nat) (o : RunnerOp) (j : Job),
    let img := jobImg (group s.dev j.pid j.group)
    let rest := (look s.dev.cru.jobs [] ms).filter fun i => !(i.pid == j.pid && i.group == j.group)
    let turn (opc : Nat) : Prop := wordOp (runnerWord opc o) = o ∧ progWord img j.pc = runnerWord opc o
    let after (opc : Nat) := bundleStep (addTo s.dev 0x6010 7 (runnerCost opc * activeCount j)) img opc o j.lanes
    let on (opc : Nat) : State := s.on (setJobs (after opc).1 ms ({ j with lanes := (after opc).2, pc := j.pc + 1 } :: rest))
    turnJob s.dev ms = some j → j.pc + 1 < phaseEnd img j.phase →
      (turn 0x00 → exec (.nop ms o) s = .next (on 0x00)) ∧ (turn 0x01 → exec (.fadd ms o) s = .next (on 0x01))
      ∧ (turn 0x02 → exec (.fsub ms o) s = .next (on 0x02)) ∧ (turn 0x03 → exec (.fmul ms o) s = .next (on 0x03))
      ∧ (turn 0x04 → exec (.ffma ms o) s = .next (on 0x04)) ∧ (turn 0x05 → exec (.fnma ms o) s = .next (on 0x05))
      ∧ (turn 0x06 → exec (.fmin ms o) s = .next (on 0x06)) ∧ (turn 0x07 → exec (.fmax ms o) s = .next (on 0x07))
      ∧ (turn 0x08 → exec (.fabs ms o) s = .next (on 0x08)) ∧ (turn 0x09 → exec (.fneg ms o) s = .next (on 0x09))
      ∧ (turn 0x0A → exec (.fclip ms o) s = .next (on 0x0A)) ∧ (turn 0x0B → exec (.mov ms o) s = .next (on 0x0B))
      ∧ (turn 0x10 → exec (.iadd ms o) s = .next (on 0x10)) ∧ (turn 0x11 → exec (.isub ms o) s = .next (on 0x11))
      ∧ (turn 0x12 → exec (.imul ms o) s = .next (on 0x12)) ∧ (turn 0x13 → exec (.imin ms o) s = .next (on 0x13))
      ∧ (turn 0x14 → exec (.imax ms o) s = .next (on 0x14)) ∧ (turn 0x15 → exec (.and ms o) s = .next (on 0x15))
      ∧ (turn 0x16 → exec (.or ms o) s = .next (on 0x16)) ∧ (turn 0x17 → exec (.xor ms o) s = .next (on 0x17))
      ∧ (turn 0x18 → exec (.shl ms o) s = .next (on 0x18)) ∧ (turn 0x19 → exec (.shr ms o) s = .next (on 0x19))
      ∧ (turn 0x1A → exec (.sra ms o) s = .next (on 0x1A)) ∧ (turn 0x20 → exec (.fcmp ms o) s = .next (on 0x20))
      ∧ (turn 0x21 → exec (.icmp ms o) s = .next (on 0x21)) ∧ (turn 0x22 → exec (.sel ms o) s = .next (on 0x22))
      ∧ (turn 0x23 → exec (.plog ms o) s = .next (on 0x23)) ∧ (turn 0x28 → exec (.rcp ms o) s = .next (on 0x28))
      ∧ (turn 0x29 → exec (.rsqrt ms o) s = .next (on 0x29)) ∧ (turn 0x2A → exec (.sqrt ms o) s = .next (on 0x2A))
      ∧ (turn 0x2B → exec (.exp2 ms o) s = .next (on 0x2B)) ∧ (turn 0x2C → exec (.log2 ms o) s = .next (on 0x2C))
      ∧ (turn 0x30 → exec (.cvt ms o) s = .next (on 0x30)) ∧ (turn 0x31 → exec (.bamax ms o) s = .next (on 0x31))
      ∧ (turn 0x32 → exec (.expb ms o) s = .next (on 0x32)) ∧ (turn 0x33 → exec (.scalb ms o) s = .next (on 0x33))
      ∧ (turn 0x3C → exec (.bar ms o) s = .next (on 0x3C)))
  ∧ (∀ (s : State) (ms : Nat) (o : RunnerOp) (j : Job),
    let x := group s.dev j.pid j.group
    let rest := (look s.dev.cru.jobs [] ms).filter fun i => !(i.pid == j.pid && i.group == j.group)
    let k := nextBundle x ms { j with pc := j.pc + 1 }
    turnJob s.dev ms = some j → j.phase = 0 → progBar (jobImg x) = some j.pc → wordOp (runnerWord 0x3C o) = o →
    progWord (jobImg x) j.pc = runnerWord 0x3C o → k.fin = true →
    exec (.bar ms o) s = .next (s.on (setJobs (addTo s.dev 0x6010 7 (runnerCost 0x3C * activeCount j)) ms (rest ++ [k]))))
  ∧ (∀ row ∈ registerRows ++ otherRows, ∀ (s : State) (ms : Nat) (o : RunnerOp) (j : Job) (c : Block),
    turnJob s.dev ms = some j → wordOp (runnerWord row.2 o) = o →
    let x := group s.dev j.pid j.group
    let img := jobImg x
    let rest := (look s.dev.cru.jobs [] ms).filter fun i => !(i.pid == j.pid && i.group == j.group)
    progWord img j.pc = runnerWord row.2 o →
    let ran := jobRun (addTo s.dev 0x6010 7 (runnerCost row.2 * activeCount j)) x j row.2 o false
    (∀ k, ran = (c, .ok k) → j.pc + 1 < phaseEnd img j.phase →
      exec (row.1 ms o) s = .next (s.on (setJobs c ms ({ k with pc := j.pc + 1 } :: rest))))
    ∧ (∀ k d m, ran = (c, .ok k) → phaseEnd img j.phase ≤ j.pc + 1 →
      bundleEnd c x ms { k with pc := j.pc + 1 } = (d, .ok m) →
      exec (row.1 ms o) s = .next (s.on (setJobs d ms
        (if m.slot = j.slot ∧ m.bundle = j.bundle ∧ m.fin = false then m :: rest else rest ++ [m]))))
    ∧ (∀ f, ran = (c, .error f) → f.st ≠ .poison → exec (row.1 ms o) s = .next (s.on (progFail c j.pid j.group f)))
    ∧ (row.2 = 0x38 → (∃ u ∈ x.streams, u.num = o.sa % 8) → exec (.ld ms o true) s = .next (s.on (progFail
      (raiseFree (addTo s.dev 0x6010 7 (activeCount j)) 19 (uMS ms) j.pid) j.pid j.group ⟨.poison, 4, o.sa % 8⟩))))
  ∧ (∀ row ∈ registerRows ++ otherRows, ∀ (s : State) (ms : Nat) (o : RunnerOp), turnJob s.dev ms = none →
    exec (row.1 ms o) s = .next s)
  ∧ (∀ row ∈ registerRows, ∀ (b : Block) (x : Group) (j : Job) (o : RunnerOp),
    jobRun b x j row.2 o false = ((bundleStep b (jobImg x) row.2 o j.lanes).1,
      .ok { j with lanes := (bundleStep b (jobImg x) row.2 o j.lanes).2 }))
  ∧ (∀ (b : Block) (img : Nat) (o : RunnerOp) (ls : List Lane),
    bundleStep b img 0x00 o ls = (b, ls) ∧ bundleStep b img 0x3C o ls = (b, ls))
  ∧ (∀ (b : Block) (x : Group) (j : Job) (o : RunnerOp),
    (∃ ps, jobRun b x j 0x3A o false = (b, .ok { j with partials := ps }) ∧ ps.length = j.partials.length
      ∧ ((∀ l ∈ j.lanes, l.guarded o = false) → ps = j.partials)
      ∧ ∀ i l, j.lanes = List.replicate i ⟨List.replicate 32 0, 1, false⟩ ++ [l] → l.guarded o = true →
        scalarLane (jobElem x.r j i) < j.partials.length →
        ps = j.partials.set (scalarLane (jobElem x.r j i))
          (scalarCombine o.sc (j.partials.getD (scalarLane (jobElem x.r j i)) 0) (l.reg o.sa)))
    ∧ jobRun b x j 0x3B o false = ((ldsValue b (progScalar (jobImg x)) x.scalar o.sc).1, .ok { j with
        lanes := j.lanes.map fun l => if l.active then l.setReg o.vd (ldsValue b (progScalar (jobImg x)) x.scalar o.sc).2 else l }))

/-- R282-R286, R258: on 32-bit operands IADD, ISUB, IMUL, IMIN, IMAX, AND, OR, XOR, SHL, SHR and SRA give the result of
the 32-bit bit vector operation, and ICMP its signed and unsigned comparisons. Every NaN that FADD, FSUB, FMUL,
FFMA, FNMA, FMIN, FMAX, FABS, FNEG, FCLIP, SQRT, SCALB and the floating CVT codes give is 0x7FC0_0000. Rounding the
value of a binary32 number that is no NaN gives the number back; FCLIP's result lies between minus and plus the
bound; FSUB adds the negated operand; a comparison with a NaN is true for NE and UN alone; EXPB is the binary
exponent, and I2F then F2I gives back an integer of at most 24 bits. A lane that is inactive or whose guard fails
keeps everything; one that runs writes its destination alone, SEL, PLOG and the comparisons as the table has it,
with predicate 0 true whatever is written to it. (09_runner_programs.md, 08_crucibles.md) -/
def Obligations.LanesComputeWhatTheTableSays : Prop :=
  (∀ a b c sc : Nat, a < 2 ^ 32 → b < 2 ^ 32 →
    let x : BitVec 32 := BitVec.ofNat 32 a
    let y : BitVec 32 := BitVec.ofNat 32 b
    aluOp 0x10 a b c sc = some (x + y).toNat ∧ aluOp 0x11 a b c sc = some (x - y).toNat
      ∧ aluOp 0x12 a b c sc = some (x * y).toNat
      ∧ aluOp 0x13 a b c sc = some (if x.slt y then x else y).toNat ∧ aluOp 0x14 a b c sc = some (if x.slt y then y else x).toNat
      ∧ aluOp 0x15 a b c sc = some (x &&& y).toNat ∧ aluOp 0x16 a b c sc = some (x ||| y).toNat
      ∧ aluOp 0x17 a b c sc = some (x ^^^ y).toNat ∧ aluOp 0x18 a b c sc = some (x <<< (b % 32)).toNat
      ∧ aluOp 0x19 a b c sc = some (x >>> (b % 32)).toNat ∧ aluOp 0x1A a b c sc = some (x.sshiftRight (b % 32)).toNat
      ∧ condI 0 a b = (x == y) ∧ condI 1 a b = (x != y) ∧ condI 2 a b = x.slt y ∧ condI 3 a b = x.sle y
      ∧ condI 4 a b = y.slt x ∧ condI 5 a b = y.sle x ∧ condI 6 a b = x.ult y ∧ condI 7 a b = y.ule x)
  ∧ (∀ opc ∈ [0x01, 0x02, 0x03, 0x04, 0x05, 0x06, 0x07, 0x08, 0x09, 0x0A, 0x2A, 0x33], ∀ a b c sc v : Nat,
    a < 2 ^ 32 → b < 2 ^ 32 → c < 2 ^ 32 → aluOp opc a b c sc = some v → v < 2 ^ 32 ∧ (isNan32 v = true → v = nan32))
  ∧ (∀ a sc v : Nat, a < 2 ^ 32 → 3 ≤ sc → aluOp 0x30 a 0 0 sc = some v → isNan32 v = true → v = nan32)
  ∧ (∀ a b : Nat, a < 2 ^ 32 → b < 2 ^ 32 → isNan32 a = false →
    round32 (val32 a) = a ∧ scalB a 0 = a ∧ fNeg (fNeg a) = a ∧ fSub b a = fAdd b (fNeg a)
      ∧ (isNan32 b = false → key32 (fNeg (fAbs b)) ≤ key32 (fClip a b) ∧ key32 (fClip a b) ≤ key32 (fAbs b))
      ∧ (∀ n m e, val32 a = .fin n m e → m ≠ 0 → toSigned 32 (expB a) = e + Nat.log2 m
        ∧ -149 ≤ toSigned 32 (expB a) ∧ toSigned 32 (expB a) ≤ 127))
  ∧ (∀ a b cond : Nat, isNan32 a = true ∨ isNan32 b = true → condF cond a b = (cond == 1 || cond == 6))
  ∧ (∀ a : Nat, a < 2 ^ 24 → cvt 0 (cvt 2 a) = a)
  ∧ (∀ (b : Block) (img opc : Nat) (o : RunnerOp) (l : Lane),
    let x := l.reg o.sa
    let y := if 64 ≤ o.sb then progConst img (o.sb % 64) else l.reg (o.sb % 32)
    (l.active = false ∨ l.pred o.pg = o.pn → laneStep b img opc o l = (b, l))
    ∧ (l.active = true → l.pred o.pg ≠ o.pn → o.sb < 128 →
      (∀ v, aluOp opc x y (l.reg o.sc) o.sc = some v → laneStep b img opc o l = (b, l.setReg o.vd v))
      ∧ laneStep b img 0x22 o l = (b, l.setReg o.vd (if l.pred (o.sc % 4) then x else y))
      ∧ laneStep b img 0x20 o l = (b, l.setPred (o.vd % 4) (condF o.sc x y))
      ∧ laneStep b img 0x21 o l = (b, l.setPred (o.vd % 4) (condI o.sc x y))
      ∧ laneStep b img 0x23 o l
        = (b, l.setPred (o.vd % 4) (predOp (o.sb % 8) (l.pred (o.sa % 4)) (l.pred (o.sc % 4)))))
    ∧ (∀ n v, (l.setPred n v).pred 0 = true ∧ (0 < n → (l.setPred n v).pred n = v)
      ∧ ∀ k, k ≠ n → (l.setPred n v).pred k = l.pred k)
    ∧ (∀ n v, n < l.regs.length → (l.setReg n v).reg n = v ∧ ∀ k, k ≠ n → (l.setReg n v).reg k = l.reg k))

/-- R309, R310, R315: a word of slot 0 or 1 joins its staging register; a ninth is discarded, counted and clears the
register; a word of slots 2 to 15 is discarded and counted. SPILL_KEY_INSTALL of eight staged words makes them the
current spill key when SPILL_STATE is OFF, and the next key, with the Anneal begun and the result pending, when it
is READY. LINK_KEY_INSTALL makes them the current link key where none is held, else the next one; LINK_KEY_SWITCH
moves next to current and current to previous; the destroy commands leave no key of their kind, the spill one also
no root counter, no cached node and no condemned node, and SPILL_STATE OFF. Once LINK_GRACE has passed the previous
key is gone. No command changes another kind's keys. (10_sealing.md, 02_object_dictionary.md) -/
def Obligations.KeysAreStagedInstalledSwitchedAndDestroyed : Prop :=
  (∀ (s : State) (w : BitVec 32),
    (s.dev.ring.stageSpill.length < 8 → exec (.keyPortWord 0 w) s = .next (s.on { s.dev with
      ring := { s.dev.ring with stageSpill := s.dev.ring.stageSpill ++ [w] } }))
    ∧ (s.dev.ring.stageLink.length < 8 → exec (.keyPortWord 1 w) s = .next (s.on { s.dev with
      ring := { s.dev.ring with stageLink := s.dev.ring.stageLink ++ [w] } }))
    ∧ (8 ≤ s.dev.ring.stageSpill.length → exec (.keyPortWord 0 w) s = .next (s.on (count { s.dev with
      ring := { s.dev.ring with stageSpill := [] } } 0x7000 0x13)))
    ∧ (8 ≤ s.dev.ring.stageLink.length → exec (.keyPortWord 1 w) s = .next (s.on (count { s.dev with
      ring := { s.dev.ring with stageLink := [] } } 0x7000 0x13)))
    ∧ ∀ slot, 2 ≤ slot → slot < 16 → exec (.keyPortWord slot w) s = .next (s.on (count s.dev 0x7000 0x13)))
  ∧ (∀ (s : State) (acc : Access), fromRot acc →
    (canTake s.dev 0x7000 0x40 → s.dev.ring.stageSpill.length = 8 →
      let k := stagedKey s.dev.ring.stageSpill
      (spillState s.dev = 0 → Goes (exec (.spillKeyInstall acc 0) s) fun t => finishes s t 0x7000 0x40 .ok 0
        ∧ t.dev.ring = { s.dev.ring with spillCur := some k, fresh := true, stageSpill := [] } ∧ t.dev.ssu = s.dev.ssu)
      ∧ (spillState s.dev = 2 → Goes (exec (.spillKeyInstall acc 0) s) fun t => pends s t 0x7000 0x40
        ∧ t.dev.ring = { s.dev.ring with spillNext := some k } ∧ spillState t.dev = 3 ∧ rd t.dev 0x7000 8 = 0
        ∧ t.dev.ssu = { s.dev.ssu with annealPoisoned := 0, annealAt := s.dev.clk.now }))
    ∧ (canTake s.dev 0x7000 0x41 → s.dev.ring.stageLink.length = 8 →
      let k := stagedKey s.dev.ring.stageLink
      (s.dev.ring.linkCur = none → exec (.linkKeyInstall acc 0) s = .next (s.on (finishCmd (retryHeld (setRingKeys
        (accepted s.dev acc 0x7000 0x41 0) fun r => { r with linkCur := some k, stageLink := [] })) 0x7000 0x41 .ok 0)))
      ∧ (s.dev.ring.linkCur ≠ none → Goes (exec (.linkKeyInstall acc 0) s) fun t => finishes s t 0x7000 0x41 .ok 0
        ∧ t.dev.ring = { s.dev.ring with linkNext := some k, stageLink := [] }))
    ∧ (canTake s.dev 0x7000 0x43 → spillState s.dev = 0 ∨ spillState s.dev = 2 → spillHeld s.dev = false →
      Goes (exec (.spillKeyDestroy acc 0) s) fun t => finishes s t 0x7000 0x43 .ok 0
        ∧ t.dev.ring = { s.dev.ring with spillCur := none, fresh := false, stageSpill := [] } ∧ spillState t.dev = 0
        ∧ t.dev.ssu = { s.dev.ssu with root := List.replicate 8 0, cache := [], condemned := [], retired := [] })
    ∧ (canTake s.dev 0x7000 0x44 → (∀ p, p < 36 → portLive s.dev p = false) →
      Goes (exec (.linkKeyDestroy acc 0) s) fun t => finishes s t 0x7000 0x44 .ok 0
        ∧ t.dev.ring = { s.dev.ring with linkCur := none, linkNext := none, linkPrev := none, stageLink := [] }))
  ∧ (∀ (s : State) (acc : Access) (k : Nat), notFmFw acc = false → canTake s.dev 0x7000 0x42 → s.dev.ring.linkNext = some k →
    Goes (exec (.linkKeySwitch acc 0) s) fun t => finishes s t 0x7000 0x42 .ok 0
      ∧ t.dev.ring = { s.dev.ring with
        linkPrev := s.dev.ring.linkCur, linkCur := some k, linkNext := none, switchAt := s.dev.clk.now, stageLink := [] })
  ∧ (∀ s : State,
    (elapsed s.dev s.dev.ring.switchAt (micros (rd s.dev 0x7000 2)) = true →
      exec .linkGraceExpiry s = .next (s.on { s.dev with ring := { s.dev.ring with linkPrev := none } }))
    ∧ (elapsed s.dev s.dev.ring.switchAt (micros (rd s.dev 0x7000 2)) = false → exec .linkGraceExpiry s = .next s))

/-- R312, its dictionary part: let two states differ only in their keys (the values of the installed and of the staged
keys and the time of the last switch), with the same KEY_STATE word. Then a READ, a BLOB_READ and every refused
operation code, on any path, with any object, answer the same in both: what they leave differs in the keys alone.
(10_sealing.md, 02_object_dictionary.md) -/
def Obligations.DictionaryReadsTellNothingOfAKey : Prop :=
  ∀ (s : State) (r : Keyring), keyStateWord r = keyStateWord s.dev.ring →
    let other (t : State) : State := { t with dev := { t.dev with ring := r } }
    ∀ (acc : Access) (idx sub n : Nat),
      (∃ t, exec (.opRead acc idx sub n) s = .next t ∧ exec (.opRead acc idx sub n) (other s) = .next (other t))
      ∧ (∃ t, exec (.blobRead acc idx sub n) s = .next t ∧ exec (.blobRead acc idx sub n) (other s) = .next (other t))
      ∧ (∃ t, exec (.cmdDone acc idx sub n) s = .next t ∧ exec (.cmdDone acc idx sub n) (other s) = .next (other t))

/-- R317-R325, Table 10-6: what a line's encryption and tag make of any 256 bytes verifies, under the same key, line and
counters, as those bytes (unless its tag is the poison tag), and decryption undoes encryption. A spill access of a
row that passes the checks is queued line by line and moved on; one that fails a check is answered with the check's
status, recorded if it is GUARD_FAULT, and nothing is queued. A line in its turn: with its path not cached, its
nodes are read, together with the line unless the line is written whole; with it cached, an unwritten line reads as
zeros, a line written whole or for the first time is written without being read, under the next minor counter, a
minor counter at its end is put off for the leaf's overflow, and any other line is read with its tag. Both having
come, a line that verifies serves a read with its data and a partial write by merging; the poison tag answers
POISON; another tag is counted, answers SEAL_FAIL, raises SPILL_READ_TAG or SPILL_PARTIAL_TAG, and poisons the line
of a write. A line's answer that no line awaits changes nothing there. (10_sealing.md) -/
def Obligations.SpillLinesAreSealedAndVerified : Prop :=
  (∀ key line major minor data : Nat, data < 2 ^ 2048 →
    cryptLine key line major minor (cryptLine key line major minor data) = data
    ∧ (let c := cryptLine key line major minor data
      (lineTag key line major minor c ≠ poisonTag key line major minor →
        verifyLine key line major minor ⟨.ok, ⟨256, c⟩, false⟩ (BitVec.ofNat 64 (lineTag key line major minor c)) = .good data)
      ∧ ∀ ans, verifyLine key line major minor ans (BitVec.ofNat 64 (poisonTag key line major minor)) = .poisoned))
  ∧ (∀ (s : State) (pid cx off : Nat) (data : Bytes), isPid pid → cx < 1024 → 1 ≤ data.len → data.len ≤ 4096 →
    off + data.len ≤ 2 ^ 42 →
    let h := rowHolder s.dev
    let c := ctxNow s.dev pid cx
    let n := (off + data.len - 1) / 256 - off / 256 + 1
    let lines := (List.range n).map fun k => (⟨s.dev.ssu.nextOp, off / 256 + k, false, false, none⟩ : LineOp)
    let queued (write : Bool) (v : Nat) := { s.dev with ssu := { s.dev.ssu with
      ops := s.dev.ssu.ops ++ [⟨s.dev.ssu.nextOp, h, c, write, off, data.len, v, 0, n, .ok, 0⟩],
      lines := s.dev.ssu.lines ++ lines, nextOp := s.dev.ssu.nextOp + 1 } }
    (spillCheck s.dev pid off data.len = none →
      exec (.spillRead pid cx off data.len) s = .next (s.on (pumpSpill (addTo (addTo (queued false 0) 0x7000 0x0D n) (0x7100 + pid) 3 n)))
      ∧ (noInjection s.dev → exec (.spillWrite pid cx off data) s
        = .next (s.on (pumpSpill (addTo (addTo (queued true data.val) 0x7000 0x0E n) (0x7100 + pid) 4 n)))))
    ∧ (∀ st, spillCheck s.dev pid off data.len = some st →
      let b := if st = .guardFault then guardRecord s.dev uSSU (spillPa s.dev off) c 1 .core 0 else s.dev
      let refused := s.on (putReply b ⟨h, st, ⟨0, 0⟩, false⟩)
      exec (.spillRead pid cx off data.len) s = .next refused ∧ exec (.spillWrite pid cx off data) s = .next refused))
  ∧ (∀ (b : Block) (l : LineOp) (o : SpillOp), opOf b l.op = some o → spillPstate b o.pid ≠ 2 →
    isCondemned b 0 (l.line / 32) = false → b.ssu.lines.find? (·.line == l.line) = some l → l.beyond = false →
    (cached b 0 (l.line / 32) = none →
      let f := fetchPath b (l.line / 32)
      (l.asked = true ∨ o.write = true ∧ wholeLine o l.line = true → lineStep b l = f)
      ∧ (l.asked = false → (o.write = true → wholeLine o l.line = false) → lineStep b l = askLine f l o))
    ∧ (∀ x, cached b 0 (l.line / 32) = some x → noInjection b → (l.asked = true → l.ans ≠ none) →
      (l.asked = false → leafLocked b (l.line / 32) = false) →
      let minor := leafMinor x.val (l.line % 32)
      (o.write = false → minor = 0 → lineStep b l = endLine b l .ok 0)
      ∧ (o.write = true → minor < 4095 → wholeLine o l.line = true ∨ minor = 0 →
        lineStep b l = endLine (putLine b o.pid l.line x (mergeLine o l.line 0) (linePoison o l.line)) l .ok 0)
      ∧ (o.write = true → 4095 ≤ minor →
        lineStep b l = settle (markLine b l { l with asked := false, beyond := true, ans := none }) (lineHolder l))
      ∧ (minor ≠ 0 → (o.write = true → minor < 4095 ∧ wholeLine o l.line = false) →
        (l.ans = none → lineStep b l = askLine b l o) ∧ ∀ a, l.ans = some a → lineStep b l = lineServe b l o x a)))
  ∧ (∀ (b : Block) (l : LineOp) (o : SpillOp) (x : TreeNode) (a : LineAnswer),
    let k := lineKey b l.line
    let res := verifyLine k l.line (leafMajor x.val) (leafMinor x.val (l.line % 32)) ⟨a.st, a.data, a.poison⟩ a.tag
    let own := unitOwner b (unitOf l.line)
    (∀ d, res = .good d → lineServe b l o x a = if o.write
      then endLine (putLine b o.pid l.line x (mergeLine o l.line d) (linePoison o l.line)) l .ok 0 else endLine b l .ok d)
    ∧ (res = .poisoned → lineServe b l o x a = endLine b l .poison 0)
    ∧ (res = .bad → o.write = false →
      lineServe b l o x a = endLine (secAlarm (count b 0x7000 0x0F) 2 [own] 0 0 uSSU) l .sealFail 0)
    ∧ (res = .bad → o.write = true →
      lineServe b l o x a = endLine (secAlarm (writePoison (count b 0x7000 0x0F) o.pid k l.line (leafMajor x.val)
        (leafMinor x.val (l.line % 32))) 3 [own] 0 0 uSSU) l .sealFail 0))
  ∧ (∀ (s : State) (line : Nat) (ans : Answer) (tag : Word),
    let waits (l : LineOp) : Bool := l.line == line && l.asked && !l.beyond && l.ans.isNone
    (∀ l, s.dev.ssu.lines.find? waits = some l → issued s.dev (lineHolder l) = true →
      exec (.spillReadReturn line ans tag) s = .next (s.on (pumpEngines (pumpSpill (markLine (settle s.dev (lineHolder l)) l
        { l with ans := some ⟨line, ans.st, ans.data, tag, ans.poison⟩ })))))
    ∧ (s.dev.ssu.lines.find? waits = none →
      exec (.spillReadReturn line ans tag) s = .next (s.on (pumpEngines s.dev))))

/-- R321, R325, R328, R331-R336: a legal SPILL_INIT makes SPILL_STATE INITIALISING; its end writes every node, zeroes
the root, makes the state READY and finishes. With no error injected: a fetched node enters the cache if its MAC is
that of its parent's counter, else it is condemned. A cached node without cached children, whose leaf no access
uses, leaves the cache; a dirty one is written back first under an advanced counter, unless it was written back
within 1 us. A minor-counter overflow whose lines have all arrived and verify advances MAJOR, sets the written
lines' minor counters to 1 and does the write. The Anneal fetches the path of the leaf at its boundary, locks the
leaf and reads its written lines, and once they are there and its rate allows converts it and moves the boundary
past it; past a condemned leaf it moves once the nodes that end there are cached. The reset of a partition's spill
units, its last leaf done, ends with the range empty and the partition's spill state IDLE. (10_sealing.md) -/
def Obligations.TheCounterTreeIsFetchedEvictedAndAnnealed : Prop :=
  (∀ (s : State) (acc : Access), byHost acc → canTake s.dev 0x7000 0x45 → spillInitRange s.dev = false → spillState s.dev = 0 →
    s.dev.ring.fresh = true → Goes (exec (.spillInit acc 0) s) fun t => pends s t 0x7000 0x45 ∧ spillState t.dev = 1
      ∧ t.dev.ring = s.dev.ring ∧ t.dev.ssu = s.dev.ssu ∧ memSame s t)
  ∧ (∀ s : State,
    (spillState s.dev = 1 → Goes (exec .spillInitComplete s) fun t => spillState t.dev = 2
      ∧ t.dev.ssu = { s.dev.ssu with root := List.replicate 8 0, cache := [], condemned := [], retired := [], wroteAt := [] }
      ∧ t.dev.ring = { s.dev.ring with fresh := false } ∧ pendingCmd t.dev 0x7000 0x45 = none)
    ∧ (spillState s.dev ≠ 1 → exec .spillInitComplete s = .next s))
  ∧ (∀ (s : State) (l n ctr : Nat) (ans : Answer), parentCtr s.dev l n = some ctr → issued s.dev ⟨.treeNode, l, n⟩ = true →
    s.dev.ssu.cache.length < 32768 → noInjection s.dev →
    let c := settle s.dev ⟨.treeNode, l, n⟩
    let b := { c with ssu := { c.ssu with fetching := c.ssu.fetching.filter (· != nodeKeyNum l n) } }
    let v := slice ans.data.val 0 64
    (ans.st = .ok → bits v 0 64 = nodeMac (nodeSpillKey b l n) l n ctr v →
      exec (.treeNodeFetchReturn l n ans) s = .next (s.on (pumpEngines (pumpSpill (setNode b l n ⟨v, false⟩)))))
    ∧ (ans.st ≠ .ok ∨ bits v 0 64 ≠ nodeMac (nodeSpillKey b l n) l n ctr v →
      exec (.treeNodeFetchReturn l n ans) s = .next (s.on (pumpEngines (pumpSpill (condemn b 4 l n))))))
  ∧ (∀ (s : State) (l n : Nat) (x : TreeNode), cached s.dev l n = some x → hasCachedChild s.dev l n = false →
    (l = 0 → ∀ m ∈ s.dev.ssu.lines, m.line / 32 ≠ n) → noInjection s.dev →
    let gone (b : Block) := { b with ssu := { b.ssu with cache := erase b.ssu.cache (nodeKeyNum l n) } }
    (x.dirty = false → exec (.nodeEviction l n) s = .next (s.on (pumpEngines (gone s.dev))))
    ∧ (x.dirty = true → wroteSoon s.dev l n = false →
      exec (.nodeEviction l n) s = .next (s.on (pumpEngines (gone (writeBack s.dev l n x)))))
    ∧ (x.dirty = true → wroteSoon s.dev l n = true → exec (.nodeEviction l n) s = .next (s.on (pumpEngines s.dev))))
  ∧ (∀ (s : State) (leaf : Nat) (ans : List LineAnswer) (l : LineOp) (o : SpillOp) (x : TreeNode),
    s.dev.ssu.lines.find? (fun l => l.beyond && l.asked && l.line / 32 == leaf) = some l → opOf s.dev l.op = some o →
    cached s.dev 0 leaf = some x → issued s.dev ⟨.spillLine, leaf, 2 ^ 34⟩ = true → noInjection s.dev →
    leafMinor x.val (l.line % 32) ≠ 0 →
    let used := writtenLines x
    let b := s.dev
    let k := lineKey b (32 * leaf)
    let major := leafMajor x.val
    ∀ old : Nat → Nat,
    (∀ i ∈ used, ∃ a, answerFor ans (32 * leaf + i) = some a
      ∧ verifyLine k (32 * leaf + i) major (leafMinor x.val i) ⟨a.st, a.data, a.poison⟩ a.tag = .good (old i)) →
    let v := used.foldl (fun v i => setBits v (64 + 12 * i) 12 1) (setBits x.val 456 56 (major + 1))
    let c := count (setNode b 0 leaf { x with val := v, dirty := true }) 0x7000 0x10
    exec (.minorCounterOverflow leaf ans) s = .next (s.on (pumpEngines (pumpSpill (endLine (used.foldl (fun b i =>
      let n := 32 * leaf + i
      if n = l.line then writeLine b o.pid k n (major + 1) 1 (mergeLine o n (old i)) (linePoison o n)
      else writeLine b (unitOwner b (unitOf n)) k n (major + 1) 1 (old i) false) c) l .ok 0)))))
  ∧ (∀ (s : State) (ans : List LineAnswer), spillState s.dev = 3 → served s.dev uSSU = true →
    let f := rd s.dev 0x7000 8
    let want := (missing s.dev f).filter fun e => !isCondemned s.dev e.1 e.2 && (lastNodes s.dev f).any (·.1 ≤ e.1)
    (isCondemned s.dev 0 f = true →
      (want = [] → exec (.annealLeafConversion ans) s = .next (s.on (pumpEngines (annealPass s.dev f))))
      ∧ (want ≠ [] → exec (.annealLeafConversion ans) s = .next (s.on (pumpEngines (fetchNodes s.dev want)))))
    ∧ (isCondemned s.dev 0 f = false → cached s.dev 0 f = none →
      exec (.annealLeafConversion ans) s = .next (s.on (pumpEngines (fetchPath s.dev f))))
    ∧ (∀ x, isCondemned s.dev 0 f = false → cached s.dev 0 f = some x → leafBusy s.dev f = false →
      (∀ l ∈ s.dev.ssu.lines, l.beyond = true → l.line / 32 ≠ f) →
      let n := (writtenLines x).length
      let rate := rd s.dev 0x7000 9
      (n ≠ 0 → s.dev.ssu.annealLock = false → exec (.annealLeafConversion ans) s = .next (s.on (pumpEngines
        (issue { s.dev with ssu := { s.dev.ssu with annealLock := true } }
          ⟨.host, noCtx, [], annealHolder f, leafReads s.dev f x⟩))))
      ∧ (n = 0 ∨ s.dev.ssu.annealLock = true ∧ issued s.dev (annealHolder f) = true
          ∧ (∀ i ∈ writtenLines x, answerFor ans (32 * f + i) ≠ none) →
        elapsed s.dev s.dev.ssu.annealAt ((25600 * n + rate - 1) / rate) = true → noInjection s.dev →
        exec (.annealLeafConversion ans) s = .next (s.on (pumpEngines (annealPass
          (setNode (annealLines (settle s.dev (annealHolder f)) f x ans) 0 f { x with dirty := true }) f))))))
  ∧ (∀ (s : State) (pid : Nat),
    (spillPstate s.dev pid = 3 → 4096 * (spillRange s.dev pid).2 ≤ look s.dev.ssu.resets 0 pid →
      Goes (exec (.spillUnitResetDone pid) s) fun t => spillPstate t.dev pid = 0
        ∧ rd t.dev (0x7100 + pid) 1 = 0 ∧ t.dev.mem = s.dev.mem)
    ∧ (spillPstate s.dev pid ≠ 3 → exec (.spillUnitResetDone pid) s = .next s))

/-- R345-R348: a STEP_DOORBELL whose tail is below the ring size replaces RING_TAIL, clears RING_STATUS and lets the
ring fetch; another word is only counted. A descriptor that arrives, with its range list, moves RING_HEAD on, is
submitted, and the ring fetches again; a failed read leaves its status in RING_STATUS; without room for the step
nothing moves. A SUBMISSION of a station in service, its EQ_READY high, whose cluster runs a step of a partition is
buffered, and one without such a step is counted in 0x8000.13; with EQ_READY low nothing happens. SUBMISSION_FORWARD
submits the oldest where there is room. A submitted step whose context is OPEN and that passes Table 11-3 is queued
last, under the next STEP_SEQ of its partition; one that fails ends at once with the check's status, and one whose
context is not OPEN is counted only. (11_chanter.md, 03_partitions_contexts.md) -/
def Obligations.StepsAreSubmittedCheckedAndQueued : Prop :=
  (∀ (s : State) (vf q pid : Nat) (w : Word) (b : Block), awake s.dev → doorbell s.dev vf q (fun _ => 8) = (b, some pid) →
    (w.toNat < 65536 → w.toNat < stepRingSize b pid q → exec (.stepDoorbell vf q w) s = .next (s.on (ringFetch
      (wr (wr b (0x8100 + pid) (ringSub q 3) w.toNat) (0x8100 + pid) (ringSub q 4) 0) pid q)))
    ∧ (65536 ≤ w.toNat ∨ stepRingSize b pid q ≤ w.toNat →
      exec (.stepDoorbell vf q w) s = .next (s.on (doorbellDiscard b pid))))
  ∧ (∀ (s : State) (pid q : Nat) (desc ranges : Answer) (segs : List Seg) (c : Block) (st : Status) (d : Nat),
    find? s.dev.cha.rings (ringKey pid q) = some segs → segs ≠ [] →
    arrive s.dev ⟨.stepDesc, pid, q⟩ segs desc 64 = some (c, st, d) →
    (st ≠ .ok → exec (.stepDescriptorArrival pid q desc ranges) s
      = .next (s.on (wr (setRing c pid q none) (0x8100 + pid) (ringSub q 4) (statusCode st))))
    ∧ (st = .ok → stepRoom s.dev pid = false →
      exec (.stepDescriptorArrival pid q desc ranges) s = .next (s.on (setRing c pid q none)))
    ∧ (st = .ok → stepRoom s.dev pid = true → ∀ e,
      readRanges s.dev pid d ⟨.stepRanges, pid * 8 + q, 0⟩ ranges = (e, none) →
      exec (.stepDescriptorArrival pid q desc ranges) s = .next (s.on e))
    ∧ (st = .ok → stepRoom s.dev pid = true → ∀ e rst list f st2 d2,
      readRanges s.dev pid d ⟨.stepRanges, pid * 8 + q, 0⟩ ranges = (e, some (rst, list)) →
      arrive e ⟨.stepDesc, pid, q⟩ segs desc 64 = some (f, st2, d2) →
      exec (.stepDescriptorArrival pid q desc ranges) s = .next (s.on (ringFetch (submitStep
        (wr (setRing f pid q none) (0x8100 + pid) (ringSub q 2) ((ringRd f pid q 2 + 1) % stepRingSize f pid q)) pid d rst list)
        pid q))))
  ∧ (∀ (s : State) (es : Nat) (d : Bytes), awake s.dev → stationTakes s.dev es → served s.dev (uES es) = true →
    let now := (station s.dev es).step.bind (stepOf s.dev)
    (∀ x, now = some x → x.started = true → exec (.submission es d) s = .next (s.on (setStation s.dev es
      { station s.dev es with subs := (station s.dev es).subs ++ [⟨x.pid, d.val % 2 ^ 512⟩] })))
    ∧ ((∀ x, now = some x → x.started = false) → exec (.submission es d) s = .next (s.on (count s.dev 0x8000 0x13))))
  ∧ (∀ (s : State) (es : Nat) (d : Bytes), awake s.dev → eqReady s.dev es = false → exec (.submission es d) s = .next s)
  ∧ (∀ (s : State) (es : Nat) (ranges : Answer) (u : Sub) (rest : List Sub) (c : Block) (rst : Status) (list : Nat),
    (station s.dev es).subs = u :: rest → fetchRoom s.dev u.pid = true → served s.dev uChanter = true →
    readRanges s.dev u.pid u.desc ⟨.stepRanges, es, 2⟩ ranges = (c, some (rst, list)) →
    exec (.submissionForward es ranges) s
      = .next (s.on (submitStep (onStationES c es fun x => { x with subs := rest }) u.pid u.desc rst list)))
  ∧ (∀ (s : State) (es : Nat) (ranges : Answer),
    (∀ u, (station s.dev es).subs.head? = some u → fetchRoom s.dev u.pid = false ∨ served s.dev uChanter = false) →
    exec (.submissionForward es ranges) s = .next s)
  ∧ (∀ (b : Block) (pid d : Nat) (rst : Status) (list : Nat),
    let rs := if rst = .ok ∧ sNRanges d ≤ 16 then rangeList d list else []
    let num := b.cha.nextStep
    let c := { b with cha := { b.cha with nextStep := num + 1 } }
    (ctxOpen b pid (sCx d) = false → submitStep b pid d rst list = count b 0x8000 0x13)
    ∧ (ctxOpen b pid (sCx d) = true → stepFault b pid d rst rs = none →
      let t := submitStep b pid d rst list
      (∃ x, t.cha.steps = b.cha.steps ++ [x] ∧ x.num = num ∧ x.pid = pid ∧ x.queue = sQueue d ∧ x.desc = d
        ∧ x.ctx = ctxNow b pid (sCx d) ∧ x.ranges = rs ∧ x.st = .queued ∧ x.kills = 0 ∧ x.seq = look b.cha.seqs 0 pid)
      ∧ look t.cha.seqs 0 pid = (look b.cha.seqs 0 pid + 1) % 2 ^ 32 ∧ t = { b with cha := t.cha })
    ∧ (∀ st, ctxOpen b pid (sCx d) = true → stepFault b pid d rst rs = some st →
      submitStep b pid d rst list = stepResult (if st = .conflict then count c (0x8100 + pid) 0x0C else c) num pid
        (ctxNow b pid (sCx d)) d 0 0 0 st))

/-- R349-R356, R361, R369, R370, R86: a dispatch opportunity starts the steps that may start, counts those only energy
keeps back, chooses until no step is eligible and displaces. Clusters chosen for a step are K different ones, of its
partition's mask, present, in service, idle, waiting, not being killed, below the cap and in no tripped zone. A
dispatched step holds its clusters; if none last ran another partition's step it runs on them at once, else it waits
and those clusters are being killed; no other station changes. A kill counts, marks the step and puts each of its
clusters under KILL_REQ. KILL_DONE of the last cluster waited for starts a dispatched step unless a zone of it is
tripped, and that of the last cluster of a kill charges the run and queues the step again or ends it. A kill that
exceeds KILL_TIMEOUT raises FSRC 17, charges the run and ends the step FENCED. A step past its quantum is marked and
may be displaced; past STEP_TIMEOUT it is killed to end TIMEOUT. QUEUE_FLUSH ends the queue's steps but the bound
one ABORTED. (11_chanter.md, 03_partitions_contexts.md) -/
def Obligations.StepsAreDispatchedKilledAndFlushed : Prop :=
  (∀ s : State,
    (served s.dev uChanter = true →
      exec .stepDispatch s = .next (s.on (displace (choose (noteBudget (startAll s.dev)) 4096))))
    ∧ (served s.dev uChanter = false → exec .stepDispatch s = .next s))
  ∧ (∀ (b : Block) (x : Step) (cs : List Nat), clustersFor b x [] = some cs → cs.length = sK x.desc ∧ cs.Nodup
    ∧ ∀ k ∈ cs, k < 128 ∧ inMask b x.pid k = true ∧ esPresent b k = true ∧ served b (uES k) = true
      ∧ (station b k).waiting = true ∧ (station b k).step = none ∧ (station b k).killing = false
      ∧ capped b x.pid k = false ∧ zoneOf b k ∉ b.cha.tripped)
  ∧ (∀ (b : Block) (x : Step) (cs : List Nat), stepOf b x.num = some x → cs.Nodup →
    let t := dispatch b x cs
    let kills := cs.filter fun k => (station b k).lastPid != x.pid && (station b k).lastPid != 0
    (∀ k ∈ cs, (station t k).step = some x.num) ∧ (∀ k, k ∉ cs → station t k = station b k)
    ∧ (kills = [] → stepOf t x.num = some { x with st := .running, clusters := cs, before := [], since := b.clk.now }
      ∧ ∀ k ∈ cs, (station t k).waiting = false ∧ (station t k).pid = x.pid ∧ (station t k).lastPid = x.pid)
    ∧ (kills ≠ [] → stepOf t x.num = some { x with st := .dispatching, clusters := cs, before := kills }
      ∧ ∀ k ∈ kills, (station t k).killing = true))
  ∧ (∀ (b : Block) (x : Step) (k : KillEnd), stepOf b x.num = some x → x.clusters.Nodup → x.kill = none →
    let t := killStep b x k
    stepOf t x.num = some { x with kill := some k, left := x.clusters }
    ∧ (∀ es ∈ x.clusters, (station t es).killing = true ∧ (station t es).waiting = false
      ∧ (station t es).step = (station b es).step)
    ∧ (∀ es, es ∉ x.clusters → station t es = station b es)
    ∧ rd t 0x8000 0x0E = rd (count b 0x8000 0x0E) 0x8000 0x0E
    ∧ rd t (0x8100 + x.pid) 8 = rd (count (count b 0x8000 0x0E) (0x8100 + x.pid) 8) (0x8100 + x.pid) 8)
  ∧ (∀ (s : State) (es : Nat), (station s.dev es).killing = false → exec (.killDone es) s = .next s)
  ∧ (∀ (s : State) (es : Nat) (x : Step), (station s.dev es).killing = true →
    (station s.dev es).step.bind (stepOf s.dev) = some x →
    let b := setStation s.dev es { station s.dev es with killing := false }
    let y := { x with before := x.before.erase es }
    let c := setStep b y
    (x.kill = none → x.st = .dispatching →
      (y.before = [] → (∀ k ∈ x.clusters, zoneOf s.dev k ∉ s.dev.cha.tripped) →
        exec (.killDone es) s = .next (s.on (startStep c y)))
      ∧ (y.before ≠ [] ∨ (∃ k ∈ x.clusters, zoneOf s.dev k ∈ s.dev.cha.tripped) →
        exec (.killDone es) s = .next (s.on c)))
    ∧ (x.kill ≠ none ∨ x.st ≠ .dispatching →
      let left := { y with left := x.left.erase es }
      let e := setStep (onStationES c es fun y => { y with step := none }) left
      exec (.killDone es) s = .next (s.on (if x.kill.isSome && left.left.isEmpty then killOver e left else e))))
  ∧ (∀ (b : Block) (x : Step),
    let r := endRun (addTo b (0x8100 + x.pid) 9 x.cycles) x
    (∀ st, x.kill = some (.ends st) → killOver b x = endStep r x st)
    ∧ (x.kill = some .again → killOver b x = setStep r { x with
      st := .queued, kills := x.kills + 1, clusters := [], before := [], committed := [], cycles := 0, energy := 0,
      kill := none, left := [], past := false, displaced := false, overrun := 0 }))
  ∧ (∀ (s : State) (es : Nat), (station s.dev es).killing = true →
    (elapsed s.dev (station s.dev es).killAt (micros (rd s.dev 0x8000 4)) = false → exec (.killTimeoutExpiry es) s = .next s)
    ∧ (elapsed s.dev (station s.dev es).killAt (micros (rd s.dev 0x8000 4)) = true →
      let b := raiseFree (setStation s.dev es { station s.dev es with killing := false }) 17 (uES es) (station s.dev es).pid
      ∀ y, (station s.dev es).step.bind (stepOf b) = some y →
      exec (.killTimeoutExpiry es) s = .next (s.on (endStep (y.clusters.foldl (fun b c => onStationES b c
        fun z => if z.killing then z else { z with step := none })
        (endRun (addTo b (0x8100 + y.pid) 9 y.cycles) y)) y .fenced))))
  ∧ (∀ (s : State) (num : Nat) (x : Step), stepOf s.dev num = some x → x.started = true →
    (x.past = false → elapsed s.dev x.since (micros (rd s.dev 0x8000 2)) = true →
      exec (.quantumExpiry num) s = .next (s.on (displace (setStep s.dev { x with past := true }))))
    ∧ (x.past = true ∨ elapsed s.dev x.since (micros (rd s.dev 0x8000 2)) = false → exec (.quantumExpiry num) s = .next s)
    ∧ (elapsed s.dev x.since (micros (rd s.dev 0x8000 3)) = true →
      exec (.stepTimeoutExpiry num) s = .next (s.on (killStep s.dev x (.ends .timeout))))
    ∧ (elapsed s.dev x.since (micros (rd s.dev 0x8000 3)) = false → exec (.stepTimeoutExpiry num) s = .next s))
  ∧ (∀ (s : State) (acc : Access) (pid : Nat) (arg : Word), mayCommand s.dev acc pid → isPid pid →
    canTake s.dev (0x8100 + pid) 1 → arg.toNat < 8 → isLive s.dev pid = true →
    let b := accepted s.dev acc (0x8100 + pid) 1 arg.toNat
    exec (.queueFlush acc pid arg) s = .next (s.on (flushCheck (stopSteps
      { b with cha := { b.cha with flushed := erase b.cha.flushed pid } }
      (fun x => x.pid == pid && x.queue == arg.toNat && x.st != .bound) .aborted) pid)))

/-- R357-R371: a telemetry sample takes the counts of the stations present, the power reading and the zones'
temperatures, and writes BUDGET_LEFT. At a multiple of 100 us, once, out of Hold, a window starts: the accounts are
kept for its update with the overrun committed and the values that stand from it on, the LIVE partitions' accounts
are mirrored, and the accounts start anew. POLICY_UPDATE_DONE finishes the oldest update due, if any: every LIVE
partition gets its deficit and its guarantee debt, the budgets and the values in force are set, and an update later
than 20 us is counted; no step and no station changes. The package budget is PWR_LIMIT less the power that the
engines do not use. On every cluster, whatever reserves, weights and caps the partitions have, what they are
entitled to of its contended cycles is, summed, at most those cycles, and for each partition at least its reserve's
part. A partition's new deficit never exceeds DEFICIT_LIMIT in magnitude. (11_chanter.md, 14_startup_hold.md) -/
def Obligations.AccountsBudgetsAndEntitlementsOfAWindow : Prop :=
  (∀ (s : State) (counts : List (Nat × BitVec 32)) (power : BitVec 32) (temps : List (Nat × BitVec 16)),
    let a := counts.foldl (fun b e => if esPresent b e.1 then sampleCluster b e.1 e.2 else b) s.dev
    let b := startAll (temps.foldl (fun b e => sampleZone b e.1 e.2) (samplePower a power))
    exec (.telemetrySample counts power temps) s = .next (s.on (wr b 0x8000 0x0C (match freeEnergy b .package with
      | some f => ofSigned 32 (toMicro f)
      | none => 0))))
  ∧ (∀ s : State,
    (s.dev.clk.now % 10000 = 0 → s.dev.cha.windowAt ≠ s.dev.clk.now → asleep s.dev = false →
      Goes (exec .budgetWindowStart s) fun t => t.dev.cha = { s.dev.cha with
        windowAt := s.dev.clk.now, now := Window.fresh, counted := [], overDue := [],
        past := s.dev.cha.past ++ [⟨s.dev.clk.now, s.dev.cha.now, s.dev.cha.overDue,
          (pids.filter (isLive s.dev)).map fun p => (p, ((part s.dev p).sched, (part s.dev p).energy))⟩] }
        ∧ t.dev.mem = s.dev.mem
        ∧ t.dev.mirror = ((pids.filter (isLive s.dev)).foldl
          (fun b p => mirrorNote b 7 p 0 ⟨64, acctBody b p⟩) s.dev).mirror)
    ∧ (s.dev.clk.now % 10000 ≠ 0 ∨ s.dev.cha.windowAt = s.dev.clk.now ∨ asleep s.dev = true →
      exec .budgetWindowStart s = .next s))
  ∧ (∀ s : State, (s.dev.cha.past = [] → exec .policyUpdateDone s = .next s)
    ∧ (∀ x rest, s.dev.cha.past = x :: rest →
      let ks := bitList s.dev.straps.esMask.toNat 128
      let ent := ks.map fun k => (k, entitled s.dev x.win k)
      Goes (exec .policyUpdateDone s) fun t => t.dev.cha.past = rest ∧ t.dev.cha.inForce = x.set
        ∧ t.dev.cha.steps = s.dev.cha.steps ∧ t.dev.cha.stations = s.dev.cha.stations ∧ t.dev.mem = s.dev.mem
        ∧ (∀ p ∈ pids, isLive s.dev p = true → look t.dev.cha.deficit 0 p = newDeficit s.dev x.win x.excess ent p
          ∧ rd t.dev (0x8100 + p) 4
            = rd (addTo s.dev (0x8100 + p) 4 (newDebt s.dev x.win ks p)) (0x8100 + p) 4)
        ∧ rd t.dev 0x8000 0x11 = if x.since + 2000 < s.dev.clk.now then rd (count s.dev 0x8000 0x11) 0x8000 0x11
          else rd s.dev 0x8000 0x11))
  ∧ (∀ (b : Block) (w : Window),
    let all : Int := if w.power.2 = 0 then 0 else w.power.1 / (w.power.2 : Int)
    let rest : Int := all - ((w.energy.map (·.2)).sum : Nat)
    (setBudgets b w).cha.pkgBudget = if rd b 0x8000 9 = 0 then none
      else some (10000 * ((65536 * rd b 0x8000 9 : Nat) - rest).toNat))
  ∧ (∀ (b : Block) (w : Window) (k : Nat),
    ((entitled b w k).map (·.2)).sum ≤ look w.contended 0 k
    ∧ ∀ e ∈ entitled b w k, isPid e.1 ∧ look w.backlogged 0 (acctKey e.1 k) ≠ 0
      ∧ (((pids.filter fun p => look w.backlogged 0 (acctKey p k) != 0).map (reserve b)).sum ≤ 256 →
        reserve b e.1 * look w.contended 0 k / 256 ≤ e.2))
  ∧ (∀ (b : Block) (w : Window) (excess : SMap Nat) (ent : List (Nat × List (Nat × Nat))) (p : Nat),
    -(rd b 0x8000 6 : Int) ≤ newDeficit b w excess ent p ∧ newDeficit b w excess ent p ≤ (rd b 0x8000 6 : Int))

/-- R375-R385, R409: FCU_EVENT takes the oldest queued event, moves a held one in, and counts, records and reacts to it.
A record carries its fields where Table 12-3 has them, takes the next SEQ and the next of the 256 log places,
changes no other place, and leaves its SEQ in the source's LAST_SEQ; an event whose count completes COUNT_N in its
window raises CURRENT by one and closes the window, any other only counts, the first opening the window; with
COUNT_N 0 or CURRENT at FENCE or above nothing is counted. A window that has lasted COUNT_WINDOW closes. FAULT_L
rises once 2 us have passed, start-up is done and, where a release is asked for, it has come; FAULT_L_RELEASE
finishes OK. FAULT_WAIT_HOST and _FM finish at once with the latest qualifying SEQ where it is newer, and stay
pending where there is none. INJECT_EVENT in FACTORY raises the event it names, marked as injected, and finishes at
once only if the event found no place. (12_faults_hangs_recovery.md, 02_object_dictionary.md) -/
def Obligations.FaultEventsAreRecordedCountedAndReactedTo : Prop :=
  (∀ (s : State) (e : Event) (rest : List Event), awake s.dev → noInjection s.dev → s.dev.fcu.queue = e :: rest →
    exec .fcuEvent s = .next (s.on (takeEvent { s.dev with fcu := { s.dev.fcu with
      queue := rest ++ s.dev.fcu.held.take 1, held := s.dev.fcu.held.drop 1 } } e)))
  ∧ (∀ s : State, s.dev.fcu.queue = [] → exec .fcuEvent s = .next s)
  ∧ (∀ (b : Block) (e : Event) (applied target : Nat) (promoted : Bool), e.fsrc < 28 →
    let t := logEvent b e applied target promoted
    let q := (rd b 0x9000 6 + 1) % 2 ^ 32
    find? t.fcu.log (b.fcu.logged % 256)
      = some (faultNum b.clk.now q (if isSealed b e.pid then 0 else e.addr) applied target e promoted)
    ∧ (∀ k, k ≠ b.fcu.logged % 256 → find? t.fcu.log k = find? b.fcu.log k) ∧ t.fcu.logged = b.fcu.logged + 1
    ∧ rd t 0x9000 6 = q ∧ rd t (0x9200 + e.fsrc) 8 = q ∧ t.mem = b.mem)
  ∧ (∀ (now seq addr applied target : Nat) (e : Event) (promoted : Bool), now < 2 ^ 64 → seq < 2 ^ 32 → applied < 8 →
    target < 16 → e.unit < 2 ^ 16 → e.pid < 64 → e.fsrc < 2 ^ 9 →
    let r := faultNum now seq addr applied target e promoted
    r < 2 ^ 256 ∧ bits r 192 64 = now ∧ bits r 160 32 = seq ∧ bits r 104 56 = addr % 2 ^ 56 ∧ bits r 72 32 = e.detail % 2 ^ 32
      ∧ bits r 56 16 = e.unit ∧ bits r 50 6 = e.pid ∧ bits r 41 9 = e.fsrc ∧ bits r 38 3 = applied
      ∧ bitAt r 37 = promoted ∧ bitAt r 36 = e.injected ∧ bits r 32 4 = target ∧ bits r 0 32 = 0)
  ∧ (∀ (b : Block) (src n t k : Nat), n = rd b (0x9200 + src) 3 → n ≠ 0 → currentSeverity b src < 3 →
    find? b.fcu.windows src = some (t, k) → elapsed b t (micros (rd b (0x9200 + src) 4)) = false →
    (k + 1 < n → countEvent b src = ({ b with fcu := { b.fcu with windows := insert b.fcu.windows src (t, k + 1) } }, false))
    ∧ (n ≤ k + 1 → (countEvent b src).2 = true ∧ rd (countEvent b src).1 (0x9200 + src) 5 = currentSeverity b src + 1
      ∧ find? (countEvent b src).1.fcu.windows src = none))
  ∧ (∀ (b : Block) (src : Nat), 1 < rd b (0x9200 + src) 3 → currentSeverity b src < 3 → find? b.fcu.windows src = none →
    countEvent b src = ({ b with fcu := { b.fcu with windows := insert b.fcu.windows src (b.clk.now, 1) } }, false))
  ∧ (∀ (b : Block) (src : Nat), rd b (0x9200 + src) 3 = 0 ∨ 3 ≤ currentSeverity b src → countEvent b src = (b, false))
  ∧ (∀ (s : State) (src t k : Nat), find? s.dev.fcu.windows src = some (t, k) →
    (elapsed s.dev t (micros (rd s.dev (0x9200 + src) 4)) = true → exec (.countWindowExpiry src) s = .next (s.on { s.dev with
      fcu := { s.dev.fcu with windows := erase s.dev.fcu.windows src } }))
    ∧ (elapsed s.dev t (micros (rd s.dev (0x9200 + src) 4)) = false → exec (.countWindowExpiry src) s = .next s))
  ∧ (∀ s : State, let due := rd s.dev 0x9000 3 = 1 ∧ elapsed s.dev s.dev.fcu.faultAt 200 = true ∧ rd s.dev 0xC000 1 ≠ 0xFF
      ∧ (rd s.dev 0x9000 2 = 0 ∨ s.dev.fcu.faultReleased = true)
    (due → exec .faultLHoldExpiry s = .next (s.on (emit (wr s.dev 0x9000 3 0) (.faultL false))))
    ∧ (¬due → exec .faultLHoldExpiry s = .next s))
  ∧ (∀ (s : State) (acc : Access), notHostFmFw acc = false → canTake s.dev 0x9000 0x40 →
    exec (.faultLRelease acc 0) s = .next (s.on (finishCmd (faultRise { accepted s.dev acc 0x9000 0x40 0 with
      fcu := { s.dev.fcu with faultReleased := true } }) 0x9000 0x40 .ok 0)))
  ∧ (∀ (s : State) (acc : Access) (arg : Word), arg.toNat < 2 ^ 32 →
    (byHost acc → canTake s.dev 0x9000 0x45 →
      (s.dev.fcu.qualifying = none → exec (.faultWaitHost acc arg) s = .next (s.on (accepted s.dev acc 0x9000 0x45 arg.toNat)))
      ∧ ∀ q, s.dev.fcu.qualifying = some q → 1 ≤ (2 ^ 32 + q - arg.toNat) % 2 ^ 32 →
        (2 ^ 32 + q - arg.toNat) % 2 ^ 32 < 2 ^ 31 →
        Goes (exec (.faultWaitHost acc arg) s) fun t => finishes s t 0x9000 0x45 .ok (q % 2 ^ 24))
    ∧ (notFmFw acc = false → canTake s.dev 0x9000 0x46 →
      (s.dev.fcu.qualifying = none → exec (.faultWaitFm acc arg) s = .next (s.on (accepted s.dev acc 0x9000 0x46 arg.toNat)))
      ∧ ∀ q, s.dev.fcu.qualifying = some q → 1 ≤ (2 ^ 32 + q - arg.toNat) % 2 ^ 32 →
        (2 ^ 32 + q - arg.toNat) % 2 ^ 32 < 2 ^ 31 →
        Goes (exec (.faultWaitFm acc arg) s) fun t => finishes s t 0x9000 0x46 .ok (q % 2 ^ 24)))
  ∧ (∀ (s : State) (acc : Access) (fsrc pid unit detail : Nat) (arg : Word), byHost acc ∨ roleOf acc.path = .dbg →
    canTake s.dev 0xF000 0x40 → rd s.dev 0xF000 1 = 2 → fsrc < 28 → pid < 64 → unit < 65536 → detail < 65536 →
    unitPresent s.dev unit = true → arg.toNat = fsrc + (pid <<< 20) + (unit <<< 32) + (detail <<< 48) →
    let b := raiseEvent (count (accepted s.dev acc 0xF000 0x40 arg.toNat) 0xF000 6) ⟨fsrc, unit, pid, 0, detail, true⟩
    exec (.injectEvent acc arg) s = .next (s.on (
      if b.fcu.queue.length + b.fcu.held.length = s.dev.fcu.queue.length + s.dev.fcu.held.length
      then finishCmd b 0xF000 0x40 .ok 0 else b)))

/-- R387-R395, R445, Table 12-5: UNIT_OUT of a removable unit in service (not the last Reed core) fences its domain on
its way out; UNIT_RETURN of a unit that is OUT starts its reset; DOMAIN_FENCE of a partition domain in service
fences it; RECOVER_BLOCK of a fenced block starts its recovery; each stays pending. A fenced domain with nothing
outstanding, or at its drain timeout with what is outstanding answered FENCED, waits for the dump its fence
triggered, goes OUT, or starts its reset. A reset that is done, with the station's lock, brings the domain back,
port pipes and Memory Stations after they have retrained; a domain that comes back is IN_SERVICE, unless it is a
removable unit that met a DEGRADE while it recovered: that one is OUT. In the recovery of the block the drain ends
with nothing outstanding, or with all answered FENCED at its timeout. Drain, reset and retraining rows of a domain
in another state change nothing. (12_faults_hangs_recovery.md, 02_object_dictionary.md, 14_startup_hold.md) -/
def Obligations.DomainsAreFencedDrainedResetAndReturned : Prop :=
  (∀ (s : State) (acc : Access) (arg : Word), notHostFmFw acc = false →
    let u := arg.toNat
    (canTake s.dev 0x9000 0x42 → badUnit s.dev u = false → unitState s.dev u = .inService →
      (isReed u = true → 2 ≤ reedsIn s.dev) →
      exec (.unitOut acc arg) s = .next (s.on (fenceDomain (accepted s.dev acc 0x9000 0x42 u) u true true false)))
    ∧ (canTake s.dev 0x9000 0x43 → badUnit s.dev u = false → unitState s.dev u = .out →
      let b := accepted s.dev acc 0x9000 0x43 u
      exec (.unitReturn acc arg) s
        = .next (s.on (dumpOver (startReset (if isPP u then setPortState b (u - 0x100) 0 else b) u))))
    ∧ (canTake s.dev 0x9000 0x44 → 1 ≤ u → u < 64 → served s.dev (domKey u) = true →
      exec (.domainFence acc arg) s
        = .next (s.on (fenceDomain (accepted s.dev acc 0x9000 0x44 u) (domKey u) false true false)))
    ∧ (canTake s.dev 0x9000 0x41 → rd s.dev 0x9000 1 = 1 → Goes (exec (.recoverBlock acc 0) s) fun t =>
      pends s t 0x9000 0x41 ∧ rd t.dev 0x9000 1 = 2 ∧ rd t.dev 0xC000 1 = 8
        ∧ t.dev.fcu = { s.dev.fcu with blockDrain := some (s.dev.clk.now, rd s.dev 0x9000 4) } ∧ memSame s t))
  ∧ (∀ (b : Block) (key : Nat) (toOut byCommand dump : Bool), (key < 0x10000 ∧ ¬isES key ∧ ¬isMS key ∧ ¬isLane key ∧ ¬isPP key) →
    fenceDomain b key toOut byCommand dump
      = setDomain b key ⟨.fencing, toOut, byCommand, dump, false, b.clk.now, rd b 0x9000 4, false⟩)
  ∧ (∀ (s : State) (key : Nat), (domain s.dev key).st = .fencing →
    let d := domain s.dev key
    (domBusy s.dev key = false →
      (d.dump = true → rd s.dev 0x9002 3 = 1 →
        exec (.domainDrainDone key) s = .next (s.on (setDomain s.dev key { d with st := .dumping })))
      ∧ (d.dump = false ∨ rd s.dev 0x9002 3 ≠ 1 → exec (.domainDrainDone key) s = .next (s.on (dumpOver (
        if d.toOut && !(d.dump && d.byCommand) then goOut s.dev key else startReset s.dev key)))))
    ∧ (domBusy s.dev key = true → exec (.domainDrainDone key) s = .next s)
    ∧ (elapsed s.dev d.since (micros d.drain) = true →
      exec (.domainDrainTimeout key) s = .next (s.on (dumpOver (drained (expireDomain s.dev key) key))))
    ∧ (elapsed s.dev d.since (micros d.drain) = false → exec (.domainDrainTimeout key) s = .next s)
    ∧ exec (.domainResetDone key) s = .next s ∧ exec (.domainRetrainDone key) s = .next s)
  ∧ (∀ (s : State) (key : Nat),
    ((domain s.dev key).st = .resetting → heldInReset s.dev key = true → exec (.domainResetDone key) s = .next s)
    ∧ ((domain s.dev key).st = .resetting → heldInReset s.dev key = false →
      (isPP key = true → exec (.domainResetDone key) s
        = .next (s.on (setDomain s.dev key { domain s.dev key with st := .retraining })))
      ∧ (isPP key = false → isMS key = true → exec (.domainResetDone key) s = .next (s.on
        (emit (setDomain s.dev key { domain s.dev key with st := .retraining }) (.miTrain (key - 0x300)))))
      ∧ (isPP key = false → isMS key = false → exec (.domainResetDone key) s = .next (s.on (comeBack s.dev key))))
    ∧ ((domain s.dev key).st = .retraining → exec (.domainRetrainDone key) s = .next (s.on (comeBack s.dev key)))
    ∧ ((domain s.dev key).st = .inService ∨ (domain s.dev key).st = .out ∨ (domain s.dev key).st = .dumping →
      exec (.domainDrainDone key) s = .next s
      ∧ exec (.domainDrainTimeout key) s = .next s ∧ exec (.domainResetDone key) s = .next s
      ∧ exec (.domainRetrainDone key) s = .next s))
  ∧ (∀ (s : State) (key : Nat), (domain s.dev key).st = .blockFenced →
    exec (.domainDrainDone key) s = .next (s.on (recoveryNext s.dev))
    ∧ ∀ t us, s.dev.fcu.blockDrain = some (t, us) →
      (elapsed s.dev t (micros us) = true → exec (.domainDrainTimeout key) s = .next (s.on (recoveryNext (expireBlock s.dev))))
      ∧ (elapsed s.dev t (micros us) = false → exec (.domainDrainTimeout key) s = .next s))
  ∧ (∀ (b : Block) (key : Nat),
    ((domain b key).degraded = true → removable key = true → (domain (comeBack b key) key).st = .out)
    ∧ ((domain b key).degraded = false ∨ removable key = false → (domain (comeBack b key) key).st = .inService)
    ∧ (domain (goOut b key) key).st = .out ∧ (domain (startReset b key) key).st = .resetting)

/-- R399-R406: every simple cycle of the waits-for relation is found, by its members, and in every cycle found each
member waits for a member. A scan at a multiple of 64 us keeps the cycles with the number of scans they have stood,
counts itself, and reports one cycle, of those whose count has reached SCANS the one whose head has waited longest.
A Drone whose window has passed while it is armed is counted and raises FSRC 22, and D7 ends the dump INCOMPLETE;
one that is not armed, or whose window still runs, only looks at its counter. SKIM_START with the buffer free starts
a dump of every present unit, joins one that runs, and finishes where the buffer is held; each unit's record, or its
timeout after 50 us, is appended and the next is asked; after the last the dump is COMPLETE, and a record for which
there is no room ends it INCOMPLETE. SKIM_RELEASE empties the buffer. (12_faults_hangs_recovery.md) -/
def Obligations.HangsAreFoundAndDumpsAreTaken : Prop :=
  (∀ (es : List WaitEdge) (a : Nat) (l : List Nat), (∀ x ∈ l, a < x) → l.Nodup →
    (∀ i, i ≤ l.length → ∃ e ∈ es, e.src = (a :: l).getD i 0 ∧ e.dst = (l ++ [a]).getD i 0) →
    ∃ ms ∈ cycles es, ms.Perm (a :: l))
  ∧ (∀ (es : List WaitEdge) (ms : List Nat), ms ∈ cycles es → ms ≠ [] ∧ ∀ m ∈ ms, ∃ e ∈ es, e.src = m ∧ e.dst ∈ ms)
  ∧ (∀ (s : State) (edges : List WaitEdge), s.dev.clk.now % 6400 = 0 → served s.dev uWGD = true → asleep s.dev = false →
    let es := edges.filter (6400 ≤ ·.age)
    let found := (cycles es).map fun ms =>
      (⟨ms, ((s.dev.fcu.standing.find? (·.members == ms)).map (·.scans)).getD 0 + 1⟩ : Standing)
    let b := count { s.dev with fcu := { s.dev.fcu with standing := found } } 0x9001 3
    let age (x : Standing) : Nat := ((longest es x.members).map (·.age)).getD 0
    ((∀ x ∈ found, x.scans < rd s.dev 0x9001 2) → exec (.wgdScan edges) s = .next (s.on b))
    ∧ ((∃ x ∈ found, rd s.dev 0x9001 2 ≤ x.scans) → ∃ x ∈ found, rd s.dev 0x9001 2 ≤ x.scans
      ∧ (∀ y ∈ found, rd s.dev 0x9001 2 ≤ y.scans → age y ≤ age x)
      ∧ exec (.wgdScan edges) s = .next (s.on (reportHang b es x.members))))
  ∧ (∀ (s : State) (edges : List WaitEdge), s.dev.clk.now % 6400 ≠ 0 ∨ served s.dev uWGD = false ∨ asleep s.dev = true →
    exec (.wgdScan edges) s = .next s)
  ∧ (∀ (s : State) (n : Nat), n < 9 →
    let b := droneLook s.dev n
    let d := look b.fcu.drones freshDrone n
    let due := d.armed = true ∧ elapsed b d.start (micros (rd b (0x9010 + n) 2)) = true
    let c := raiseFree (count { b with fcu := { b.fcu with
      drones := store b.fcu.drones freshDrone n { d with start := b.clk.now } } } (0x9010 + n) 4) 22 (droneUnit n) 0
    (due → exec (.droneExpiry n) s = .next (s.on (if n = 7 then skimEnd c 3 else c)))
    ∧ (¬due → exec (.droneExpiry n) s = .next (s.on b)))
  ∧ (∀ (s : State) (acc : Access), notHostFmFw acc = false →
    (canTake s.dev 0x9002 0x40 →
      (skimFree s.dev = true → Goes (exec (.skimStart acc 0) s) fun t => pends s t 0x9002 0x40 ∧ rd t.dev 0x9002 3 = 1
        ∧ t.dev.fcu = { s.dev.fcu with skim := ⟨skimUnits s.dev, ⟨0, 0⟩, s.dev.clk.now, s.dev.clk.now, 0, 0, 0⟩ })
      ∧ (rd s.dev 0x9002 3 = 1 → exec (.skimStart acc 0) s = .next (s.on (accepted s.dev acc 0x9002 0x40 0)))
      ∧ (rd s.dev 0x9002 3 ≠ 1 → skimFree s.dev = false → Goes (exec (.skimStart acc 0) s) fun t =>
        finishes s t 0x9002 0x40 .ok 0 ∧ t.dev.fcu = s.dev.fcu))
    ∧ (canTake s.dev 0x9002 0x41 → rd s.dev 0x9002 3 ≠ 1 → Goes (exec (.skimRelease acc 0) s) fun t =>
      finishes s t 0x9002 0x41 .ok 0 ∧ rd t.dev 0x9002 3 = 0 ∧ rdBlob t.dev 0x9002 0x20 = ⟨0, 0⟩ ∧ t.dev.fcu = s.dev.fcu))
  ∧ (∀ (s : State) (words : List (BitVec 32)) (u : Nat) (rest : List Nat), rd s.dev 0x9002 3 = 1 →
    s.dev.fcu.skim.left = u :: rest →
    let k := s.dev.fcu.skim
    let r (res : Nat) := skimRecord s.dev u k.asked res (words.take 1024)
    let next (res : Nat) := progressed { s.dev with fcu := { s.dev.fcu with skim := { k with
      left := rest, body := bytesAppend k.body (r res), asked := s.dev.clk.now, units := k.units + 1,
      noResp := k.noResp + res } } } uSkim
    (64 + k.body.len + (r 0).len ≤ 2 ^ 20 →
      exec (.skimUnitRecord words) s = .next (s.on (if rest = [] then skimEnd (next 0) 2 else next 0)))
    ∧ (64 + k.body.len + (r 1).len ≤ 2 ^ 20 → elapsed s.dev k.asked (micros 50) = true →
      exec (.skimUnitTimeout words) s = .next (s.on (if rest = [] then skimEnd (count (next 1) 0x9002 5) 2
        else count (next 1) 0x9002 5)))
    ∧ (2 ^ 20 < 64 + k.body.len + (r 0).len → ∃ body, exec (.skimUnitRecord words) s
      = .next (s.on (skimEnd { s.dev with fcu := { s.dev.fcu with skim := { k with body := body } } } 3)))
    ∧ (elapsed s.dev k.asked (micros 50) = false → exec (.skimUnitTimeout words) s = .next s))
  ∧ (∀ (s : State) (words : List (BitVec 32)), rd s.dev 0x9002 3 ≠ 1 →
    exec (.skimUnitRecord words) s = .next s ∧ exec (.skimUnitTimeout words) s = .next s)

/-- R412-R428: with the Mirror Unit in service MIRROR_START in OFF or BROKEN is accepted and a full copy of every
mirrored partition begins; MIRROR_STOP makes the state OFF, keeps nothing of this chip's records and finishes OK.
The timers act once their time has passed and change nothing before: an ACK of the latest record applied 2 us after
the first, a MARK 16 us after the last record, the unacknowledged records sent again after MIRROR_RETX, BROKEN and
FSRC 25 after MIRROR_TIMEOUT; a lag of 20 us or more makes SYNCED LAGGING and one below 10 us SYNCED again; a queue
pair whose state differs from its last record is noted. A fenced Mirror Unit's timers do nothing. A record is
applied only in its turn, its MSEQ then being the last applied: any other is counted and changes nothing else. A
record that is emitted takes the next MSEQ and never takes the replay buffer past 4 MiB: without room its object is
marked; a queue pair's record not yet sent is replaced in its place. TAKEOVER of a partner not yet taken runs Table
13-6 and finishes with the number of queue pairs taken; ALIAS_END resets them. (13_mirror_pair.md,
06_fabric_transport.md, 02_object_dictionary.md) -/
def Obligations.TheMirrorCopiesAcknowledgesAndTakesOver : Prop :=
  (∀ (s : State) (acc : Access), notFmFw acc = false →
    (canTake s.dev 0xA000 0x40 → mirrorState s.dev = 0 ∨ mirrorState s.dev = 4 → served s.dev uMirror = true →
      exec (.mirrorStart acc 0) s = .next (s.on (startCopy (accepted s.dev acc 0xA000 0x40 0))))
    ∧ (canTake s.dev 0xA000 0x41 → Goes (exec (.mirrorStop acc 0) s) fun t => finishes s t 0xA000 0x41 .ok 0
      ∧ mirrorState t.dev = 0 ∧ t.dev.mirror = (clearMirror s.dev).mirror ∧ memSame s t)
    ∧ (canTake s.dev 0xA000 0x42 → rd s.dev 0xA000 1 ≠ 0xFFFF → rd s.dev 0xA000 0x11 = 0xFFFF →
      let r := takeoverRun (accepted s.dev acc 0xA000 0x42 0)
      exec (.takeover acc 0) s = .next (s.on (finishCmd r.1 0xA000 0x42 .ok r.2)))
    ∧ (canTake s.dev 0xA000 0x43 → rd s.dev 0xA000 0x11 ≠ 0xFFFF →
      let b := accepted s.dev acc 0xA000 0x43 0
      exec (.aliasEnd acc 0) s = .next (s.on (aliasDone ((s.dev.tpe.qps.filter fun e =>
        e.2.isAlias && e.2.st != .reset && e.2.st != .draining && !e.2.resetting).foldl (fun b e => resetQp b e.1) b)))))
  ∧ (∀ s : State,
    (served s.dev uMirror = true → s.dev.mirror.applied ≠ 0 → elapsed s.dev s.dev.mirror.appliedAt 200 = true → Goes (exec .mirrorAckTimer s) fun t =>
      t.dev.mirror.applied = 0 ∧ (∃ r, r ∈ t.dev.mirror.queue ∧ r.kind = 0x0F ∧ r.body = ⟨16, rd s.dev 0xA000 0x0A⟩)
        ∧ t = s.on { s.dev with mirror := t.dev.mirror })
    ∧ (served s.dev uMirror = false ∨ s.dev.mirror.applied = 0 ∨ elapsed s.dev s.dev.mirror.appliedAt 200 = false → exec .mirrorAckTimer s = .next s)
    ∧ (mirrorRuns s.dev = true → asleep s.dev = false → elapsed s.dev s.dev.mirror.recordAt 1600 = true →
      exec .markTimer s = .next (s.on (emitRec s.dev 8 0 0 false ⟨16, s.dev.clk.now % 2 ^ 64⟩)))
    ∧ (mirrorRuns s.dev = false ∨ asleep s.dev = true ∨ elapsed s.dev s.dev.mirror.recordAt 1600 = false →
      exec .markTimer s = .next s)
    ∧ (∀ i, ((qp s.dev i).mirrored ≠ qpRecord (qp s.dev i) → exec (.qpRecordRefresh i) s = .next (s.on (noteQp s.dev i)))
      ∧ ((qp s.dev i).mirrored = qpRecord (qp s.dev i) → exec (.qpRecordRefresh i) s = .next s))
    ∧ (let m := s.dev.mirror
      let due := mirrorRuns s.dev = true ∧ m.replay ≠ [] ∧ elapsed s.dev (max m.ackAt m.sentAt) (micros (rd s.dev 0xA000 4)) = true
      (due → Goes (exec .mirrorRetxExpiry s) fun t => t.dev.mirror = { m with queue := m.replay ++ m.queue, replay := [] }
        ∧ rd t.dev 0xA000 0x0C = rd (addTo s.dev 0xA000 0x0C m.replay.length) 0xA000 0x0C ∧ memSame s t)
      ∧ (¬due → exec .mirrorRetxExpiry s = .next s))
    ∧ (let due := mirrorRuns s.dev = true ∧ unacked s.dev ≠ [] ∧ elapsed s.dev s.dev.mirror.ackAt (micros (rd s.dev 0xA000 5)) = true
      (due → exec .mirrorTimeoutExpiry s = .next (s.on (raiseFree (finishCmd (wr { s.dev with mirror := { s.dev.mirror with
        queue := s.dev.mirror.queue.filter (·.kind == 0x0F), replay := unacked s.dev } } 0xA000 6 4) 0xA000 0x40 .state 0)
        25 uMirror 0)))
      ∧ (¬due → exec .mirrorTimeoutExpiry s = .next s))
    ∧ (served s.dev uMirror = true → mirrorState s.dev = 2 → 2000 ≤ lag s.dev →
      exec .lagThreshold s = .next (s.on (raiseFree (count (wr s.dev 0xA000 6 3) 0xA000 0x0F) 25 uMirror 0)))
    ∧ (served s.dev uMirror = true → mirrorState s.dev = 3 → lag s.dev < 1000 → exec .lagThreshold s = .next (s.on (wr s.dev 0xA000 6 2)))
    ∧ (served s.dev uMirror = false ∨ 1000 ≤ lag s.dev ∧ lag s.dev < 2000 → exec .lagThreshold s = .next s))
  ∧ (∀ (b : Block) (r : MRec), (2 ^ 32 + r.mseq - rd b 0xA000 0x0A) % 2 ^ 32 ≠ 1 → applyRecord b r = count b 0xA000 0x0E)
  ∧ (∀ (b : Block) (r : MRec), (2 ^ 32 + r.mseq - rd b 0xA000 0x0A) % 2 ^ 32 = 1 → r.mseq < 2 ^ 32 →
    rd (applyRecord b r) 0xA000 0x0A = r.mseq)
  ∧ (∀ (b : Block) (kind pid index : Nat) (sync : Bool) (body : Bytes), replayBytes b.mirror ≤ 4194304 →
    (∀ x ∈ b.mirror.queue, kind = 4 → x.kind = 4 → x.index = index → x.sent = true) →
    let t := emitRec b kind pid index sync body
    replayBytes t.mirror ≤ 4194304
    ∧ (replayBytes b.mirror + 16 + body.len ≤ 4194304 → t.mirror.mseq = (b.mirror.mseq + 1) % 2 ^ 32
      ∧ ∃ r, t.mirror.queue = b.mirror.queue ++ [r] ∧ r.mseq = t.mirror.mseq ∧ r.body = body ∧ r.kind = kind)
    ∧ (4194304 < replayBytes b.mirror + 16 + body.len → t.mirror.queue = b.mirror.queue ∧ t.mirror.mseq = b.mirror.mseq
      ∧ ∃ x ∈ t.mirror.marks, x.kind = kind + (if sync then 256 else 0) ∧ x.pid = pid ∧ x.index = index))
  ∧ (∀ (b : Block) (pid index : Nat) (sync : Bool) (body : Bytes) (x : MRec), x ∈ b.mirror.queue → x.kind = 4 →
    x.index = index → x.sent = false → { x with body := body } ∈ (emitRec b 4 pid index sync body).mirror.queue
      ∧ (emitRec b 4 pid index sync body).mirror.mseq = b.mirror.mseq)
end

