-- ==== Sys2Proof/Laws/Maps.lean ====
section
/-! SUPPORT. The laws of sparse arrays: what a lookup finds after each operation, and that each keeps the canonical form. -/

namespace Sys2Proof.Machine

variable {α : Type}

@[simp] theorem find?_nil (k : Nat) : find? ([] : SMap α) k = none := rfl

@[simp] theorem look_nil (d : α) (k : Nat) : look ([] : SMap α) d k = d := rfl

/-- A lookup below the first number finds nothing. -/
theorem find?_below {n k : Nat} {m : SMap α} (h : risingFrom n m = true) (hk : k < n) : find? m k = none := by
  induction m generalizing n with
  | nil => rfl
  | cons e m ih =>
    simp only [risingFrom, Bool.and_eq_true, decide_eq_true_eq] at h
    have hne : e.1 ≠ k := by omega
    simp only [find?, if_neg hne]
    exact ih h.2 (by omega)

@[simp] theorem find?_insert_self (m : SMap α) (k : Nat) (v : α) : find? (insert m k v) k = some v := by
  induction m with
  | nil => simp [insert, find?]
  | cons e m ih =>
    unfold insert
    split
    · simp [find?]
    · split
      · simp [find?]
      · next h => simp [find?, h, ih]

theorem find?_insert_other {k j : Nat} (m : SMap α) (v : α) (h : j ≠ k) : find? (insert m k v) j = find? m j := by
  induction m with
  | nil => simp [insert, find?, Ne.symm h]
  | cons e m ih =>
    unfold insert
    split
    · simp [find?, Ne.symm h]
    · split
      · next hk => subst hk; simp [find?, Ne.symm h]
      · simp only [find?]; split
        · rfl
        · exact ih

theorem find?_erase_other {k j : Nat} (m : SMap α) (h : j ≠ k) : find? (erase m k) j = find? m j := by
  induction m with
  | nil => rfl
  | cons e m ih =>
    unfold erase
    split
    · next hk => subst hk; simp [find?, Ne.symm h, ih]
    · simp only [find?]; split
      · rfl
      · exact ih

@[simp] theorem find?_erase_self (m : SMap α) (k : Nat) : find? (erase m k) k = none := by
  induction m with
  | nil => rfl
  | cons e m ih =>
    unfold erase
    split
    · exact ih
    · next hk => simp only [find?, if_neg hk]; exact ih

/-- What storing does: a value equal to the default is taken out, another one is put in its place. -/
theorem store_eq [DecidableEq α] (m : SMap α) (d v : α) (k : Nat) :
    store m d k v = if v = d then erase m k else insert m k v := by
  cases m <;> rfl

/-- What a stored number reads as in another place. -/
@[simp] theorem look_store_other [DecidableEq α] {k j : Nat} (m : SMap α) (d d' v : α) (h : j ≠ k) :
    look (store m d k v) d' j = look m d' j := by
  rw [store_eq]; unfold look
  split
  · rw [find?_erase_other m h]
  · rw [find?_insert_other m v h]

/-- What is stored is read back. -/
@[simp] theorem look_store_self [DecidableEq α] (m : SMap α) (d v : α) (k : Nat) : look (store m d k v) d k = v := by
  rw [store_eq]; unfold look
  split
  · next e => rw [find?_erase_self, e]; rfl
  · rw [find?_insert_self]; rfl

theorem risingFrom_weaken {n n' : Nat} {m : SMap α} (h : risingFrom n m = true) (hn : n' ≤ n) :
    risingFrom n' m = true := by
  cases m with
  | nil => rfl
  | cons e m =>
    simp only [risingFrom, Bool.and_eq_true, decide_eq_true_eq] at h ⊢
    exact ⟨by omega, h.2⟩

theorem risingFrom_insert {n k : Nat} {m : SMap α} (v : α) (h : risingFrom n m = true) (hk : n ≤ k) :
    risingFrom n (insert m k v) = true := by
  induction m generalizing n with
  | nil => simp [insert, risingFrom, hk]
  | cons e m ih =>
    simp only [risingFrom, Bool.and_eq_true, decide_eq_true_eq] at h
    unfold insert
    split
    · next hlt => simp [risingFrom, hk, h.2]; omega
    · split
      · next heq => subst heq; simp [risingFrom, hk, h.2]
      · next hlt hne =>
        simp only [risingFrom, Bool.and_eq_true, decide_eq_true_eq]
        exact ⟨h.1, ih h.2 (by omega)⟩

theorem risingFrom_erase {n k : Nat} {m : SMap α} (h : risingFrom n m = true) : risingFrom n (erase m k) = true := by
  induction m generalizing n with
  | nil => rfl
  | cons e m ih =>
    simp only [risingFrom, Bool.and_eq_true, decide_eq_true_eq] at h
    unfold erase
    split
    · exact risingFrom_weaken (ih h.2) (by omega)
    · simp only [risingFrom, Bool.and_eq_true, decide_eq_true_eq]
      exact ⟨h.1, ih h.2⟩

theorem mem_insert {k : Nat} {v : α} {m : SMap α} {e : Nat × α} (h : e ∈ insert m k v) : e = (k, v) ∨ e ∈ m := by
  induction m with
  | nil => simpa [insert] using h
  | cons x m ih =>
    unfold insert at h
    split at h
    · simpa using h
    · split at h
      · rcases List.mem_cons.mp h with h | h
        · exact .inl h
        · exact .inr (List.mem_cons_of_mem _ h)
      · rcases List.mem_cons.mp h with h | h
        · exact .inr (h ▸ List.mem_cons_self ..)
        · exact (ih h).imp_right (List.mem_cons_of_mem _)

theorem mem_erase {k : Nat} {m : SMap α} {e : Nat × α} (h : e ∈ erase m k) : e ∈ m := by
  induction m with
  | nil => simp [erase] at h
  | cons x m ih =>
    unfold erase at h
    split at h
    · exact List.mem_cons_of_mem _ (ih h)
    · rcases List.mem_cons.mp h with h | h
      · exact h ▸ List.mem_cons_self ..
      · exact List.mem_cons_of_mem _ (ih h)

/-- Storing keeps the canonical form. -/
theorem canonical_store [DecidableEq α] {d : α} {m : SMap α} (k : Nat) (v : α) (h : canonical d m = true) :
    canonical d (store m d k v) = true := by
  unfold canonical at h ⊢
  simp only [Bool.and_eq_true, List.all_eq_true, decide_eq_true_eq] at h ⊢
  rw [store_eq]
  split
  · exact ⟨risingFrom_erase h.1, fun e he => h.2 e (mem_erase he)⟩
  · next hv =>
    refine ⟨risingFrom_insert v h.1 (Nat.zero_le k), fun e he => ?_⟩
    rcases mem_insert he with rfl | he
    · exact hv
    · exact h.2 e he

theorem risingFrom_filter {n : Nat} {m : SMap α} (p : Nat × α → Bool) (h : risingFrom n m = true) :
    risingFrom n (m.filter p) = true := by
  induction m generalizing n with
  | nil => rfl
  | cons e m ih =>
    simp only [risingFrom, Bool.and_eq_true, decide_eq_true_eq] at h
    rw [List.filter_cons]
    split
    · simp only [risingFrom, Bool.and_eq_true, decide_eq_true_eq]
      exact ⟨h.1, ih h.2⟩
    · exact ih (risingFrom_weaken h.2 (by omega))

/-- Leaving entries out keeps the canonical form. -/
theorem canonical_filter [DecidableEq α] {d : α} {m : SMap α} (p : Nat × α → Bool) (h : canonical d m = true) :
    canonical d (m.filter p) = true := by
  unfold canonical at h ⊢
  simp only [Bool.and_eq_true, List.all_eq_true, decide_eq_true_eq] at h ⊢
  exact ⟨risingFrom_filter p h.1, fun e he => h.2 e (List.mem_filter.mp he).1⟩

end Sys2Proof.Machine
end

