-- ==== Sys2Proof/Laws/State.lean ====
section
/-! SUPPORT. What each named update of the block leaves as it was, field by field, and what is read back. -/

namespace Sys2Proof.Machine


@[simp] theorem setStation_clk (b : Block) (es : Nat) (x : Station) : (setStation b es x).clk = b.clk := (rfl)
@[simp] theorem setStation_straps (b : Block) (es : Nat) (x : Station) : (setStation b es x).straps = b.straps := (rfl)
@[simp] theorem setStation_tags (b : Block) (es : Nat) (x : Station) : (setStation b es x).tags = b.tags := (rfl)
@[simp] theorem setStation_dict (b : Block) (es : Nat) (x : Station) : (setStation b es x).dict = b.dict := (rfl)
@[simp] theorem setStation_ptb (b : Block) (es : Nat) (x : Station) : (setStation b es x).ptb = b.ptb := (rfl)
@[simp] theorem setStation_mem (b : Block) (es : Nat) (x : Station) : (setStation b es x).mem = b.mem := (rfl)
@[simp] theorem setStation_hub (b : Block) (es : Nat) (x : Station) : (setStation b es x).hub = b.hub := (rfl)
@[simp] theorem setStation_ladle (b : Block) (es : Nat) (x : Station) : (setStation b es x).ladle = b.ladle := (rfl)
@[simp] theorem setStation_tpe (b : Block) (es : Nat) (x : Station) : (setStation b es x).tpe = b.tpe := (rfl)
@[simp] theorem setStation_replies (b : Block) (es : Nat) (x : Station) : (setStation b es x).replies = b.replies := (rfl)
@[simp] theorem setStation_mirror (b : Block) (es : Nat) (x : Station) : (setStation b es x).mirror = b.mirror := (rfl)
@[simp] theorem setStation_ring (b : Block) (es : Nat) (x : Station) : (setStation b es x).ring = b.ring := (rfl)
@[simp] theorem setStation_ssu (b : Block) (es : Nat) (x : Station) : (setStation b es x).ssu = b.ssu := (rfl)
@[simp] theorem setStation_cru (b : Block) (es : Nat) (x : Station) : (setStation b es x).cru = b.cru := (rfl)
@[simp] theorem setStation_fcu (b : Block) (es : Nat) (x : Station) : (setStation b es x).fcu = b.fcu := (rfl)
@[simp] theorem setStation_held (b : Block) (es : Nat) (x : Station) : (setStation b es x).held = b.held := (rfl)
@[simp] theorem setStation_fresh (b : Block) (es : Nat) (x : Station) : (setStation b es x).fresh = b.fresh := (rfl)
@[simp] theorem setStation_out (b : Block) (es : Nat) (x : Station) : (setStation b es x).out = b.out := (rfl)

@[simp] theorem setStep_clk (b : Block) (s : Step) : (setStep b s).clk = b.clk := (rfl)
@[simp] theorem setStep_straps (b : Block) (s : Step) : (setStep b s).straps = b.straps := (rfl)
@[simp] theorem setStep_tags (b : Block) (s : Step) : (setStep b s).tags = b.tags := (rfl)
@[simp] theorem setStep_dict (b : Block) (s : Step) : (setStep b s).dict = b.dict := (rfl)
@[simp] theorem setStep_ptb (b : Block) (s : Step) : (setStep b s).ptb = b.ptb := (rfl)
@[simp] theorem setStep_mem (b : Block) (s : Step) : (setStep b s).mem = b.mem := (rfl)
@[simp] theorem setStep_hub (b : Block) (s : Step) : (setStep b s).hub = b.hub := (rfl)
@[simp] theorem setStep_ladle (b : Block) (s : Step) : (setStep b s).ladle = b.ladle := (rfl)
@[simp] theorem setStep_tpe (b : Block) (s : Step) : (setStep b s).tpe = b.tpe := (rfl)
@[simp] theorem setStep_replies (b : Block) (s : Step) : (setStep b s).replies = b.replies := (rfl)
@[simp] theorem setStep_mirror (b : Block) (s : Step) : (setStep b s).mirror = b.mirror := (rfl)
@[simp] theorem setStep_ring (b : Block) (s : Step) : (setStep b s).ring = b.ring := (rfl)
@[simp] theorem setStep_ssu (b : Block) (s : Step) : (setStep b s).ssu = b.ssu := (rfl)
@[simp] theorem setStep_cru (b : Block) (s : Step) : (setStep b s).cru = b.cru := (rfl)
@[simp] theorem setStep_fcu (b : Block) (s : Step) : (setStep b s).fcu = b.fcu := (rfl)
@[simp] theorem setStep_held (b : Block) (s : Step) : (setStep b s).held = b.held := (rfl)
@[simp] theorem setStep_fresh (b : Block) (s : Step) : (setStep b s).fresh = b.fresh := (rfl)
@[simp] theorem setStep_out (b : Block) (s : Step) : (setStep b s).out = b.out := (rfl)

@[simp] theorem dropStep_clk (b : Block) (num : Nat) : (dropStep b num).clk = b.clk := (rfl)
@[simp] theorem dropStep_straps (b : Block) (num : Nat) : (dropStep b num).straps = b.straps := (rfl)
@[simp] theorem dropStep_tags (b : Block) (num : Nat) : (dropStep b num).tags = b.tags := (rfl)
@[simp] theorem dropStep_dict (b : Block) (num : Nat) : (dropStep b num).dict = b.dict := (rfl)
@[simp] theorem dropStep_ptb (b : Block) (num : Nat) : (dropStep b num).ptb = b.ptb := (rfl)
@[simp] theorem dropStep_mem (b : Block) (num : Nat) : (dropStep b num).mem = b.mem := (rfl)
@[simp] theorem dropStep_hub (b : Block) (num : Nat) : (dropStep b num).hub = b.hub := (rfl)
@[simp] theorem dropStep_ladle (b : Block) (num : Nat) : (dropStep b num).ladle = b.ladle := (rfl)
@[simp] theorem dropStep_tpe (b : Block) (num : Nat) : (dropStep b num).tpe = b.tpe := (rfl)
@[simp] theorem dropStep_replies (b : Block) (num : Nat) : (dropStep b num).replies = b.replies := (rfl)
@[simp] theorem dropStep_mirror (b : Block) (num : Nat) : (dropStep b num).mirror = b.mirror := (rfl)
@[simp] theorem dropStep_ring (b : Block) (num : Nat) : (dropStep b num).ring = b.ring := (rfl)
@[simp] theorem dropStep_ssu (b : Block) (num : Nat) : (dropStep b num).ssu = b.ssu := (rfl)
@[simp] theorem dropStep_cru (b : Block) (num : Nat) : (dropStep b num).cru = b.cru := (rfl)
@[simp] theorem dropStep_fcu (b : Block) (num : Nat) : (dropStep b num).fcu = b.fcu := (rfl)
@[simp] theorem dropStep_held (b : Block) (num : Nat) : (dropStep b num).held = b.held := (rfl)
@[simp] theorem dropStep_fresh (b : Block) (num : Nat) : (dropStep b num).fresh = b.fresh := (rfl)
@[simp] theorem dropStep_out (b : Block) (num : Nat) : (dropStep b num).out = b.out := (rfl)

@[simp] theorem setSlot_clk (b : Block) (fn slot : Nat) (s : Slot) : (setSlot b fn slot s).clk = b.clk := (rfl)
@[simp] theorem setSlot_straps (b : Block) (fn slot : Nat) (s : Slot) : (setSlot b fn slot s).straps = b.straps := (rfl)
@[simp] theorem setSlot_tags (b : Block) (fn slot : Nat) (s : Slot) : (setSlot b fn slot s).tags = b.tags := (rfl)
@[simp] theorem setSlot_ptb (b : Block) (fn slot : Nat) (s : Slot) : (setSlot b fn slot s).ptb = b.ptb := (rfl)
@[simp] theorem setSlot_mem (b : Block) (fn slot : Nat) (s : Slot) : (setSlot b fn slot s).mem = b.mem := (rfl)
@[simp] theorem setSlot_hub (b : Block) (fn slot : Nat) (s : Slot) : (setSlot b fn slot s).hub = b.hub := (rfl)
@[simp] theorem setSlot_ladle (b : Block) (fn slot : Nat) (s : Slot) : (setSlot b fn slot s).ladle = b.ladle := (rfl)
@[simp] theorem setSlot_tpe (b : Block) (fn slot : Nat) (s : Slot) : (setSlot b fn slot s).tpe = b.tpe := (rfl)
@[simp] theorem setSlot_replies (b : Block) (fn slot : Nat) (s : Slot) : (setSlot b fn slot s).replies = b.replies := (rfl)
@[simp] theorem setSlot_mirror (b : Block) (fn slot : Nat) (s : Slot) : (setSlot b fn slot s).mirror = b.mirror := (rfl)
@[simp] theorem setSlot_ring (b : Block) (fn slot : Nat) (s : Slot) : (setSlot b fn slot s).ring = b.ring := (rfl)
@[simp] theorem setSlot_ssu (b : Block) (fn slot : Nat) (s : Slot) : (setSlot b fn slot s).ssu = b.ssu := (rfl)
@[simp] theorem setSlot_cru (b : Block) (fn slot : Nat) (s : Slot) : (setSlot b fn slot s).cru = b.cru := (rfl)
@[simp] theorem setSlot_cha (b : Block) (fn slot : Nat) (s : Slot) : (setSlot b fn slot s).cha = b.cha := (rfl)
@[simp] theorem setSlot_fcu (b : Block) (fn slot : Nat) (s : Slot) : (setSlot b fn slot s).fcu = b.fcu := (rfl)
@[simp] theorem setSlot_held (b : Block) (fn slot : Nat) (s : Slot) : (setSlot b fn slot s).held = b.held := (rfl)
@[simp] theorem setSlot_fresh (b : Block) (fn slot : Nat) (s : Slot) : (setSlot b fn slot s).fresh = b.fresh := (rfl)
@[simp] theorem setSlot_out (b : Block) (fn slot : Nat) (s : Slot) : (setSlot b fn slot s).out = b.out := (rfl)

@[simp] theorem keepResponse_clk (b : Block) (k : Nat) (r : Kept) : (keepResponse b k r).clk = b.clk := (rfl)
@[simp] theorem keepResponse_straps (b : Block) (k : Nat) (r : Kept) : (keepResponse b k r).straps = b.straps := (rfl)
@[simp] theorem keepResponse_tags (b : Block) (k : Nat) (r : Kept) : (keepResponse b k r).tags = b.tags := (rfl)
@[simp] theorem keepResponse_ptb (b : Block) (k : Nat) (r : Kept) : (keepResponse b k r).ptb = b.ptb := (rfl)
@[simp] theorem keepResponse_mem (b : Block) (k : Nat) (r : Kept) : (keepResponse b k r).mem = b.mem := (rfl)
@[simp] theorem keepResponse_hub (b : Block) (k : Nat) (r : Kept) : (keepResponse b k r).hub = b.hub := (rfl)
@[simp] theorem keepResponse_ladle (b : Block) (k : Nat) (r : Kept) : (keepResponse b k r).ladle = b.ladle := (rfl)
@[simp] theorem keepResponse_tpe (b : Block) (k : Nat) (r : Kept) : (keepResponse b k r).tpe = b.tpe := (rfl)
@[simp] theorem keepResponse_replies (b : Block) (k : Nat) (r : Kept) : (keepResponse b k r).replies = b.replies := (rfl)
@[simp] theorem keepResponse_mirror (b : Block) (k : Nat) (r : Kept) : (keepResponse b k r).mirror = b.mirror := (rfl)
@[simp] theorem keepResponse_ring (b : Block) (k : Nat) (r : Kept) : (keepResponse b k r).ring = b.ring := (rfl)
@[simp] theorem keepResponse_ssu (b : Block) (k : Nat) (r : Kept) : (keepResponse b k r).ssu = b.ssu := (rfl)
@[simp] theorem keepResponse_cru (b : Block) (k : Nat) (r : Kept) : (keepResponse b k r).cru = b.cru := (rfl)
@[simp] theorem keepResponse_cha (b : Block) (k : Nat) (r : Kept) : (keepResponse b k r).cha = b.cha := (rfl)
@[simp] theorem keepResponse_fcu (b : Block) (k : Nat) (r : Kept) : (keepResponse b k r).fcu = b.fcu := (rfl)
@[simp] theorem keepResponse_held (b : Block) (k : Nat) (r : Kept) : (keepResponse b k r).held = b.held := (rfl)
@[simp] theorem keepResponse_fresh (b : Block) (k : Nat) (r : Kept) : (keepResponse b k r).fresh = b.fresh := (rfl)
@[simp] theorem keepResponse_out (b : Block) (k : Nat) (r : Kept) : (keepResponse b k r).out = b.out := (rfl)

@[simp] theorem lock_clk (b : Block) (pa n : Nat) : (lock b pa n).clk = b.clk := (rfl)
@[simp] theorem lock_straps (b : Block) (pa n : Nat) : (lock b pa n).straps = b.straps := (rfl)
@[simp] theorem lock_tags (b : Block) (pa n : Nat) : (lock b pa n).tags = b.tags := (rfl)
@[simp] theorem lock_dict (b : Block) (pa n : Nat) : (lock b pa n).dict = b.dict := (rfl)
@[simp] theorem lock_ptb (b : Block) (pa n : Nat) : (lock b pa n).ptb = b.ptb := (rfl)
@[simp] theorem lock_mem (b : Block) (pa n : Nat) : (lock b pa n).mem = b.mem := (rfl)
@[simp] theorem lock_hub (b : Block) (pa n : Nat) : (lock b pa n).hub = b.hub := (rfl)
@[simp] theorem lock_ladle (b : Block) (pa n : Nat) : (lock b pa n).ladle = b.ladle := (rfl)
@[simp] theorem lock_tpe (b : Block) (pa n : Nat) : (lock b pa n).tpe = b.tpe := (rfl)
@[simp] theorem lock_replies (b : Block) (pa n : Nat) : (lock b pa n).replies = b.replies := (rfl)
@[simp] theorem lock_mirror (b : Block) (pa n : Nat) : (lock b pa n).mirror = b.mirror := (rfl)
@[simp] theorem lock_ring (b : Block) (pa n : Nat) : (lock b pa n).ring = b.ring := (rfl)
@[simp] theorem lock_ssu (b : Block) (pa n : Nat) : (lock b pa n).ssu = b.ssu := (rfl)
@[simp] theorem lock_cha (b : Block) (pa n : Nat) : (lock b pa n).cha = b.cha := (rfl)
@[simp] theorem lock_fcu (b : Block) (pa n : Nat) : (lock b pa n).fcu = b.fcu := (rfl)
@[simp] theorem lock_held (b : Block) (pa n : Nat) : (lock b pa n).held = b.held := (rfl)
@[simp] theorem lock_fresh (b : Block) (pa n : Nat) : (lock b pa n).fresh = b.fresh := (rfl)
@[simp] theorem lock_out (b : Block) (pa n : Nat) : (lock b pa n).out = b.out := (rfl)

@[simp] theorem unlock_clk (b : Block) (pa n : Nat) : (unlock b pa n).clk = b.clk := (rfl)
@[simp] theorem unlock_straps (b : Block) (pa n : Nat) : (unlock b pa n).straps = b.straps := (rfl)
@[simp] theorem unlock_tags (b : Block) (pa n : Nat) : (unlock b pa n).tags = b.tags := (rfl)
@[simp] theorem unlock_dict (b : Block) (pa n : Nat) : (unlock b pa n).dict = b.dict := (rfl)
@[simp] theorem unlock_ptb (b : Block) (pa n : Nat) : (unlock b pa n).ptb = b.ptb := (rfl)
@[simp] theorem unlock_mem (b : Block) (pa n : Nat) : (unlock b pa n).mem = b.mem := (rfl)
@[simp] theorem unlock_hub (b : Block) (pa n : Nat) : (unlock b pa n).hub = b.hub := (rfl)
@[simp] theorem unlock_ladle (b : Block) (pa n : Nat) : (unlock b pa n).ladle = b.ladle := (rfl)
@[simp] theorem unlock_tpe (b : Block) (pa n : Nat) : (unlock b pa n).tpe = b.tpe := (rfl)
@[simp] theorem unlock_replies (b : Block) (pa n : Nat) : (unlock b pa n).replies = b.replies := (rfl)
@[simp] theorem unlock_mirror (b : Block) (pa n : Nat) : (unlock b pa n).mirror = b.mirror := (rfl)
@[simp] theorem unlock_ring (b : Block) (pa n : Nat) : (unlock b pa n).ring = b.ring := (rfl)
@[simp] theorem unlock_ssu (b : Block) (pa n : Nat) : (unlock b pa n).ssu = b.ssu := (rfl)
@[simp] theorem unlock_cha (b : Block) (pa n : Nat) : (unlock b pa n).cha = b.cha := (rfl)
@[simp] theorem unlock_fcu (b : Block) (pa n : Nat) : (unlock b pa n).fcu = b.fcu := (rfl)
@[simp] theorem unlock_held (b : Block) (pa n : Nat) : (unlock b pa n).held = b.held := (rfl)
@[simp] theorem unlock_fresh (b : Block) (pa n : Nat) : (unlock b pa n).fresh = b.fresh := (rfl)
@[simp] theorem unlock_out (b : Block) (pa n : Nat) : (unlock b pa n).out = b.out := (rfl)

@[simp] theorem lockForget_clk (b : Block) (who : LockWho) : (lockForget b who).clk = b.clk := (rfl)
@[simp] theorem lockForget_straps (b : Block) (who : LockWho) : (lockForget b who).straps = b.straps := (rfl)
@[simp] theorem lockForget_tags (b : Block) (who : LockWho) : (lockForget b who).tags = b.tags := (rfl)
@[simp] theorem lockForget_dict (b : Block) (who : LockWho) : (lockForget b who).dict = b.dict := (rfl)
@[simp] theorem lockForget_ptb (b : Block) (who : LockWho) : (lockForget b who).ptb = b.ptb := (rfl)
@[simp] theorem lockForget_mem (b : Block) (who : LockWho) : (lockForget b who).mem = b.mem := (rfl)
@[simp] theorem lockForget_hub (b : Block) (who : LockWho) : (lockForget b who).hub = b.hub := (rfl)
@[simp] theorem lockForget_ladle (b : Block) (who : LockWho) : (lockForget b who).ladle = b.ladle := (rfl)
@[simp] theorem lockForget_tpe (b : Block) (who : LockWho) : (lockForget b who).tpe = b.tpe := (rfl)
@[simp] theorem lockForget_replies (b : Block) (who : LockWho) : (lockForget b who).replies = b.replies := (rfl)
@[simp] theorem lockForget_mirror (b : Block) (who : LockWho) : (lockForget b who).mirror = b.mirror := (rfl)
@[simp] theorem lockForget_ring (b : Block) (who : LockWho) : (lockForget b who).ring = b.ring := (rfl)
@[simp] theorem lockForget_ssu (b : Block) (who : LockWho) : (lockForget b who).ssu = b.ssu := (rfl)
@[simp] theorem lockForget_cha (b : Block) (who : LockWho) : (lockForget b who).cha = b.cha := (rfl)
@[simp] theorem lockForget_fcu (b : Block) (who : LockWho) : (lockForget b who).fcu = b.fcu := (rfl)
@[simp] theorem lockForget_held (b : Block) (who : LockWho) : (lockForget b who).held = b.held := (rfl)
@[simp] theorem lockForget_fresh (b : Block) (who : LockWho) : (lockForget b who).fresh = b.fresh := (rfl)
@[simp] theorem lockForget_out (b : Block) (who : LockWho) : (lockForget b who).out = b.out := (rfl)

@[simp] theorem setApp_clk (b : Block) (a : App) : (setApp b a).clk = b.clk := (rfl)
@[simp] theorem setApp_straps (b : Block) (a : App) : (setApp b a).straps = b.straps := (rfl)
@[simp] theorem setApp_tags (b : Block) (a : App) : (setApp b a).tags = b.tags := (rfl)
@[simp] theorem setApp_dict (b : Block) (a : App) : (setApp b a).dict = b.dict := (rfl)
@[simp] theorem setApp_ptb (b : Block) (a : App) : (setApp b a).ptb = b.ptb := (rfl)
@[simp] theorem setApp_mem (b : Block) (a : App) : (setApp b a).mem = b.mem := (rfl)
@[simp] theorem setApp_hub (b : Block) (a : App) : (setApp b a).hub = b.hub := (rfl)
@[simp] theorem setApp_ladle (b : Block) (a : App) : (setApp b a).ladle = b.ladle := (rfl)
@[simp] theorem setApp_tpe (b : Block) (a : App) : (setApp b a).tpe = b.tpe := (rfl)
@[simp] theorem setApp_replies (b : Block) (a : App) : (setApp b a).replies = b.replies := (rfl)
@[simp] theorem setApp_mirror (b : Block) (a : App) : (setApp b a).mirror = b.mirror := (rfl)
@[simp] theorem setApp_ring (b : Block) (a : App) : (setApp b a).ring = b.ring := (rfl)
@[simp] theorem setApp_ssu (b : Block) (a : App) : (setApp b a).ssu = b.ssu := (rfl)
@[simp] theorem setApp_cha (b : Block) (a : App) : (setApp b a).cha = b.cha := (rfl)
@[simp] theorem setApp_fcu (b : Block) (a : App) : (setApp b a).fcu = b.fcu := (rfl)
@[simp] theorem setApp_held (b : Block) (a : App) : (setApp b a).held = b.held := (rfl)
@[simp] theorem setApp_fresh (b : Block) (a : App) : (setApp b a).fresh = b.fresh := (rfl)
@[simp] theorem setApp_out (b : Block) (a : App) : (setApp b a).out = b.out := (rfl)

@[simp] theorem setJobs_clk (b : Block) (ms : Nat) (l : List Job) : (setJobs b ms l).clk = b.clk := (rfl)
@[simp] theorem setJobs_straps (b : Block) (ms : Nat) (l : List Job) : (setJobs b ms l).straps = b.straps := (rfl)
@[simp] theorem setJobs_tags (b : Block) (ms : Nat) (l : List Job) : (setJobs b ms l).tags = b.tags := (rfl)
@[simp] theorem setJobs_dict (b : Block) (ms : Nat) (l : List Job) : (setJobs b ms l).dict = b.dict := (rfl)
@[simp] theorem setJobs_ptb (b : Block) (ms : Nat) (l : List Job) : (setJobs b ms l).ptb = b.ptb := (rfl)
@[simp] theorem setJobs_mem (b : Block) (ms : Nat) (l : List Job) : (setJobs b ms l).mem = b.mem := (rfl)
@[simp] theorem setJobs_hub (b : Block) (ms : Nat) (l : List Job) : (setJobs b ms l).hub = b.hub := (rfl)
@[simp] theorem setJobs_ladle (b : Block) (ms : Nat) (l : List Job) : (setJobs b ms l).ladle = b.ladle := (rfl)
@[simp] theorem setJobs_tpe (b : Block) (ms : Nat) (l : List Job) : (setJobs b ms l).tpe = b.tpe := (rfl)
@[simp] theorem setJobs_replies (b : Block) (ms : Nat) (l : List Job) : (setJobs b ms l).replies = b.replies := (rfl)
@[simp] theorem setJobs_mirror (b : Block) (ms : Nat) (l : List Job) : (setJobs b ms l).mirror = b.mirror := (rfl)
@[simp] theorem setJobs_ring (b : Block) (ms : Nat) (l : List Job) : (setJobs b ms l).ring = b.ring := (rfl)
@[simp] theorem setJobs_ssu (b : Block) (ms : Nat) (l : List Job) : (setJobs b ms l).ssu = b.ssu := (rfl)
@[simp] theorem setJobs_cha (b : Block) (ms : Nat) (l : List Job) : (setJobs b ms l).cha = b.cha := (rfl)
@[simp] theorem setJobs_fcu (b : Block) (ms : Nat) (l : List Job) : (setJobs b ms l).fcu = b.fcu := (rfl)
@[simp] theorem setJobs_held (b : Block) (ms : Nat) (l : List Job) : (setJobs b ms l).held = b.held := (rfl)
@[simp] theorem setJobs_fresh (b : Block) (ms : Nat) (l : List Job) : (setJobs b ms l).fresh = b.fresh := (rfl)
@[simp] theorem setJobs_out (b : Block) (ms : Nat) (l : List Job) : (setJobs b ms l).out = b.out := (rfl)

@[simp] theorem setXfer_clk (b : Block) (idx sub : Nat) (t : Option Transfer) : (setXfer b idx sub t).clk = b.clk := (rfl)
@[simp] theorem setXfer_straps (b : Block) (idx sub : Nat) (t : Option Transfer) : (setXfer b idx sub t).straps = b.straps := (rfl)
@[simp] theorem setXfer_tags (b : Block) (idx sub : Nat) (t : Option Transfer) : (setXfer b idx sub t).tags = b.tags := (rfl)
@[simp] theorem setXfer_ptb (b : Block) (idx sub : Nat) (t : Option Transfer) : (setXfer b idx sub t).ptb = b.ptb := (rfl)
@[simp] theorem setXfer_mem (b : Block) (idx sub : Nat) (t : Option Transfer) : (setXfer b idx sub t).mem = b.mem := (rfl)
@[simp] theorem setXfer_hub (b : Block) (idx sub : Nat) (t : Option Transfer) : (setXfer b idx sub t).hub = b.hub := (rfl)
@[simp] theorem setXfer_ladle (b : Block) (idx sub : Nat) (t : Option Transfer) : (setXfer b idx sub t).ladle = b.ladle := (rfl)
@[simp] theorem setXfer_tpe (b : Block) (idx sub : Nat) (t : Option Transfer) : (setXfer b idx sub t).tpe = b.tpe := (rfl)
@[simp] theorem setXfer_replies (b : Block) (idx sub : Nat) (t : Option Transfer) : (setXfer b idx sub t).replies = b.replies := (rfl)
@[simp] theorem setXfer_mirror (b : Block) (idx sub : Nat) (t : Option Transfer) : (setXfer b idx sub t).mirror = b.mirror := (rfl)
@[simp] theorem setXfer_ring (b : Block) (idx sub : Nat) (t : Option Transfer) : (setXfer b idx sub t).ring = b.ring := (rfl)
@[simp] theorem setXfer_ssu (b : Block) (idx sub : Nat) (t : Option Transfer) : (setXfer b idx sub t).ssu = b.ssu := (rfl)
@[simp] theorem setXfer_cru (b : Block) (idx sub : Nat) (t : Option Transfer) : (setXfer b idx sub t).cru = b.cru := (rfl)
@[simp] theorem setXfer_cha (b : Block) (idx sub : Nat) (t : Option Transfer) : (setXfer b idx sub t).cha = b.cha := (rfl)
@[simp] theorem setXfer_fcu (b : Block) (idx sub : Nat) (t : Option Transfer) : (setXfer b idx sub t).fcu = b.fcu := (rfl)
@[simp] theorem setXfer_held (b : Block) (idx sub : Nat) (t : Option Transfer) : (setXfer b idx sub t).held = b.held := (rfl)
@[simp] theorem setXfer_fresh (b : Block) (idx sub : Nat) (t : Option Transfer) : (setXfer b idx sub t).fresh = b.fresh := (rfl)
@[simp] theorem setXfer_out (b : Block) (idx sub : Nat) (t : Option Transfer) : (setXfer b idx sub t).out = b.out := (rfl)

@[simp] theorem setQp_clk (b : Block) (i : Nat) (q : Qp) : (setQp b i q).clk = b.clk := (rfl)
@[simp] theorem setQp_straps (b : Block) (i : Nat) (q : Qp) : (setQp b i q).straps = b.straps := (rfl)
@[simp] theorem setQp_tags (b : Block) (i : Nat) (q : Qp) : (setQp b i q).tags = b.tags := (rfl)
@[simp] theorem setQp_dict (b : Block) (i : Nat) (q : Qp) : (setQp b i q).dict = b.dict := (rfl)
@[simp] theorem setQp_ptb (b : Block) (i : Nat) (q : Qp) : (setQp b i q).ptb = b.ptb := (rfl)
@[simp] theorem setQp_mem (b : Block) (i : Nat) (q : Qp) : (setQp b i q).mem = b.mem := (rfl)
@[simp] theorem setQp_hub (b : Block) (i : Nat) (q : Qp) : (setQp b i q).hub = b.hub := (rfl)
@[simp] theorem setQp_ladle (b : Block) (i : Nat) (q : Qp) : (setQp b i q).ladle = b.ladle := (rfl)
@[simp] theorem setQp_replies (b : Block) (i : Nat) (q : Qp) : (setQp b i q).replies = b.replies := (rfl)
@[simp] theorem setQp_mirror (b : Block) (i : Nat) (q : Qp) : (setQp b i q).mirror = b.mirror := (rfl)
@[simp] theorem setQp_ring (b : Block) (i : Nat) (q : Qp) : (setQp b i q).ring = b.ring := (rfl)
@[simp] theorem setQp_ssu (b : Block) (i : Nat) (q : Qp) : (setQp b i q).ssu = b.ssu := (rfl)
@[simp] theorem setQp_cru (b : Block) (i : Nat) (q : Qp) : (setQp b i q).cru = b.cru := (rfl)
@[simp] theorem setQp_cha (b : Block) (i : Nat) (q : Qp) : (setQp b i q).cha = b.cha := (rfl)
@[simp] theorem setQp_fcu (b : Block) (i : Nat) (q : Qp) : (setQp b i q).fcu = b.fcu := (rfl)
@[simp] theorem setQp_held (b : Block) (i : Nat) (q : Qp) : (setQp b i q).held = b.held := (rfl)
@[simp] theorem setQp_fresh (b : Block) (i : Nat) (q : Qp) : (setQp b i q).fresh = b.fresh := (rfl)
@[simp] theorem setQp_out (b : Block) (i : Nat) (q : Qp) : (setQp b i q).out = b.out := (rfl)

@[simp] theorem putKey_clk (b : Block) (i : Nat) (k : Key) : (putKey b i k).clk = b.clk := (rfl)
@[simp] theorem putKey_straps (b : Block) (i : Nat) (k : Key) : (putKey b i k).straps = b.straps := (rfl)
@[simp] theorem putKey_tags (b : Block) (i : Nat) (k : Key) : (putKey b i k).tags = b.tags := (rfl)
@[simp] theorem putKey_dict (b : Block) (i : Nat) (k : Key) : (putKey b i k).dict = b.dict := (rfl)
@[simp] theorem putKey_ptb (b : Block) (i : Nat) (k : Key) : (putKey b i k).ptb = b.ptb := (rfl)
@[simp] theorem putKey_mem (b : Block) (i : Nat) (k : Key) : (putKey b i k).mem = b.mem := (rfl)
@[simp] theorem putKey_hub (b : Block) (i : Nat) (k : Key) : (putKey b i k).hub = b.hub := (rfl)
@[simp] theorem putKey_ladle (b : Block) (i : Nat) (k : Key) : (putKey b i k).ladle = b.ladle := (rfl)
@[simp] theorem putKey_replies (b : Block) (i : Nat) (k : Key) : (putKey b i k).replies = b.replies := (rfl)
@[simp] theorem putKey_mirror (b : Block) (i : Nat) (k : Key) : (putKey b i k).mirror = b.mirror := (rfl)
@[simp] theorem putKey_ring (b : Block) (i : Nat) (k : Key) : (putKey b i k).ring = b.ring := (rfl)
@[simp] theorem putKey_ssu (b : Block) (i : Nat) (k : Key) : (putKey b i k).ssu = b.ssu := (rfl)
@[simp] theorem putKey_cru (b : Block) (i : Nat) (k : Key) : (putKey b i k).cru = b.cru := (rfl)
@[simp] theorem putKey_cha (b : Block) (i : Nat) (k : Key) : (putKey b i k).cha = b.cha := (rfl)
@[simp] theorem putKey_fcu (b : Block) (i : Nat) (k : Key) : (putKey b i k).fcu = b.fcu := (rfl)
@[simp] theorem putKey_held (b : Block) (i : Nat) (k : Key) : (putKey b i k).held = b.held := (rfl)
@[simp] theorem putKey_fresh (b : Block) (i : Nat) (k : Key) : (putKey b i k).fresh = b.fresh := (rfl)
@[simp] theorem putKey_out (b : Block) (i : Nat) (k : Key) : (putKey b i k).out = b.out := (rfl)

@[simp] theorem setPort_clk (b : Block) (p : Nat) (x : Port) : (setPort b p x).clk = b.clk := (rfl)
@[simp] theorem setPort_straps (b : Block) (p : Nat) (x : Port) : (setPort b p x).straps = b.straps := (rfl)
@[simp] theorem setPort_tags (b : Block) (p : Nat) (x : Port) : (setPort b p x).tags = b.tags := (rfl)
@[simp] theorem setPort_dict (b : Block) (p : Nat) (x : Port) : (setPort b p x).dict = b.dict := (rfl)
@[simp] theorem setPort_ptb (b : Block) (p : Nat) (x : Port) : (setPort b p x).ptb = b.ptb := (rfl)
@[simp] theorem setPort_mem (b : Block) (p : Nat) (x : Port) : (setPort b p x).mem = b.mem := (rfl)
@[simp] theorem setPort_hub (b : Block) (p : Nat) (x : Port) : (setPort b p x).hub = b.hub := (rfl)
@[simp] theorem setPort_ladle (b : Block) (p : Nat) (x : Port) : (setPort b p x).ladle = b.ladle := (rfl)
@[simp] theorem setPort_replies (b : Block) (p : Nat) (x : Port) : (setPort b p x).replies = b.replies := (rfl)
@[simp] theorem setPort_mirror (b : Block) (p : Nat) (x : Port) : (setPort b p x).mirror = b.mirror := (rfl)
@[simp] theorem setPort_ring (b : Block) (p : Nat) (x : Port) : (setPort b p x).ring = b.ring := (rfl)
@[simp] theorem setPort_ssu (b : Block) (p : Nat) (x : Port) : (setPort b p x).ssu = b.ssu := (rfl)
@[simp] theorem setPort_cru (b : Block) (p : Nat) (x : Port) : (setPort b p x).cru = b.cru := (rfl)
@[simp] theorem setPort_cha (b : Block) (p : Nat) (x : Port) : (setPort b p x).cha = b.cha := (rfl)
@[simp] theorem setPort_fcu (b : Block) (p : Nat) (x : Port) : (setPort b p x).fcu = b.fcu := (rfl)
@[simp] theorem setPort_held (b : Block) (p : Nat) (x : Port) : (setPort b p x).held = b.held := (rfl)
@[simp] theorem setPort_fresh (b : Block) (p : Nat) (x : Port) : (setPort b p x).fresh = b.fresh := (rfl)
@[simp] theorem setPort_out (b : Block) (p : Nat) (x : Port) : (setPort b p x).out = b.out := (rfl)

@[simp] theorem setTxCredit_clk (b : Block) (chip : Nat) (x : TxCredit) : (setTxCredit b chip x).clk = b.clk := (rfl)
@[simp] theorem setTxCredit_straps (b : Block) (chip : Nat) (x : TxCredit) : (setTxCredit b chip x).straps = b.straps := (rfl)
@[simp] theorem setTxCredit_tags (b : Block) (chip : Nat) (x : TxCredit) : (setTxCredit b chip x).tags = b.tags := (rfl)
@[simp] theorem setTxCredit_dict (b : Block) (chip : Nat) (x : TxCredit) : (setTxCredit b chip x).dict = b.dict := (rfl)
@[simp] theorem setTxCredit_ptb (b : Block) (chip : Nat) (x : TxCredit) : (setTxCredit b chip x).ptb = b.ptb := (rfl)
@[simp] theorem setTxCredit_mem (b : Block) (chip : Nat) (x : TxCredit) : (setTxCredit b chip x).mem = b.mem := (rfl)
@[simp] theorem setTxCredit_hub (b : Block) (chip : Nat) (x : TxCredit) : (setTxCredit b chip x).hub = b.hub := (rfl)
@[simp] theorem setTxCredit_ladle (b : Block) (chip : Nat) (x : TxCredit) : (setTxCredit b chip x).ladle = b.ladle := (rfl)
@[simp] theorem setTxCredit_replies (b : Block) (chip : Nat) (x : TxCredit) : (setTxCredit b chip x).replies = b.replies := (rfl)
@[simp] theorem setTxCredit_mirror (b : Block) (chip : Nat) (x : TxCredit) : (setTxCredit b chip x).mirror = b.mirror := (rfl)
@[simp] theorem setTxCredit_ring (b : Block) (chip : Nat) (x : TxCredit) : (setTxCredit b chip x).ring = b.ring := (rfl)
@[simp] theorem setTxCredit_ssu (b : Block) (chip : Nat) (x : TxCredit) : (setTxCredit b chip x).ssu = b.ssu := (rfl)
@[simp] theorem setTxCredit_cru (b : Block) (chip : Nat) (x : TxCredit) : (setTxCredit b chip x).cru = b.cru := (rfl)
@[simp] theorem setTxCredit_cha (b : Block) (chip : Nat) (x : TxCredit) : (setTxCredit b chip x).cha = b.cha := (rfl)
@[simp] theorem setTxCredit_fcu (b : Block) (chip : Nat) (x : TxCredit) : (setTxCredit b chip x).fcu = b.fcu := (rfl)
@[simp] theorem setTxCredit_held (b : Block) (chip : Nat) (x : TxCredit) : (setTxCredit b chip x).held = b.held := (rfl)
@[simp] theorem setTxCredit_fresh (b : Block) (chip : Nat) (x : TxCredit) : (setTxCredit b chip x).fresh = b.fresh := (rfl)
@[simp] theorem setTxCredit_out (b : Block) (chip : Nat) (x : TxCredit) : (setTxCredit b chip x).out = b.out := (rfl)

@[simp] theorem dropTx_clk (b : Block) (p : Tx → Bool) : (dropTx b p).clk = b.clk := (rfl)
@[simp] theorem dropTx_straps (b : Block) (p : Tx → Bool) : (dropTx b p).straps = b.straps := (rfl)
@[simp] theorem dropTx_tags (b : Block) (p : Tx → Bool) : (dropTx b p).tags = b.tags := (rfl)
@[simp] theorem dropTx_dict (b : Block) (p : Tx → Bool) : (dropTx b p).dict = b.dict := (rfl)
@[simp] theorem dropTx_ptb (b : Block) (p : Tx → Bool) : (dropTx b p).ptb = b.ptb := (rfl)
@[simp] theorem dropTx_mem (b : Block) (p : Tx → Bool) : (dropTx b p).mem = b.mem := (rfl)
@[simp] theorem dropTx_hub (b : Block) (p : Tx → Bool) : (dropTx b p).hub = b.hub := (rfl)
@[simp] theorem dropTx_ladle (b : Block) (p : Tx → Bool) : (dropTx b p).ladle = b.ladle := (rfl)
@[simp] theorem dropTx_replies (b : Block) (p : Tx → Bool) : (dropTx b p).replies = b.replies := (rfl)
@[simp] theorem dropTx_mirror (b : Block) (p : Tx → Bool) : (dropTx b p).mirror = b.mirror := (rfl)
@[simp] theorem dropTx_ring (b : Block) (p : Tx → Bool) : (dropTx b p).ring = b.ring := (rfl)
@[simp] theorem dropTx_ssu (b : Block) (p : Tx → Bool) : (dropTx b p).ssu = b.ssu := (rfl)
@[simp] theorem dropTx_cru (b : Block) (p : Tx → Bool) : (dropTx b p).cru = b.cru := (rfl)
@[simp] theorem dropTx_cha (b : Block) (p : Tx → Bool) : (dropTx b p).cha = b.cha := (rfl)
@[simp] theorem dropTx_fcu (b : Block) (p : Tx → Bool) : (dropTx b p).fcu = b.fcu := (rfl)
@[simp] theorem dropTx_held (b : Block) (p : Tx → Bool) : (dropTx b p).held = b.held := (rfl)
@[simp] theorem dropTx_fresh (b : Block) (p : Tx → Bool) : (dropTx b p).fresh = b.fresh := (rfl)
@[simp] theorem dropTx_out (b : Block) (p : Tx → Bool) : (dropTx b p).out = b.out := (rfl)

@[simp] theorem setRx_clk (b : Block) (chip : Nat) (x : RxCredit) : (setRx b chip x).clk = b.clk := (rfl)
@[simp] theorem setRx_straps (b : Block) (chip : Nat) (x : RxCredit) : (setRx b chip x).straps = b.straps := (rfl)
@[simp] theorem setRx_tags (b : Block) (chip : Nat) (x : RxCredit) : (setRx b chip x).tags = b.tags := (rfl)
@[simp] theorem setRx_dict (b : Block) (chip : Nat) (x : RxCredit) : (setRx b chip x).dict = b.dict := (rfl)
@[simp] theorem setRx_ptb (b : Block) (chip : Nat) (x : RxCredit) : (setRx b chip x).ptb = b.ptb := (rfl)
@[simp] theorem setRx_mem (b : Block) (chip : Nat) (x : RxCredit) : (setRx b chip x).mem = b.mem := (rfl)
@[simp] theorem setRx_hub (b : Block) (chip : Nat) (x : RxCredit) : (setRx b chip x).hub = b.hub := (rfl)
@[simp] theorem setRx_ladle (b : Block) (chip : Nat) (x : RxCredit) : (setRx b chip x).ladle = b.ladle := (rfl)
@[simp] theorem setRx_replies (b : Block) (chip : Nat) (x : RxCredit) : (setRx b chip x).replies = b.replies := (rfl)
@[simp] theorem setRx_mirror (b : Block) (chip : Nat) (x : RxCredit) : (setRx b chip x).mirror = b.mirror := (rfl)
@[simp] theorem setRx_ring (b : Block) (chip : Nat) (x : RxCredit) : (setRx b chip x).ring = b.ring := (rfl)
@[simp] theorem setRx_ssu (b : Block) (chip : Nat) (x : RxCredit) : (setRx b chip x).ssu = b.ssu := (rfl)
@[simp] theorem setRx_cru (b : Block) (chip : Nat) (x : RxCredit) : (setRx b chip x).cru = b.cru := (rfl)
@[simp] theorem setRx_cha (b : Block) (chip : Nat) (x : RxCredit) : (setRx b chip x).cha = b.cha := (rfl)
@[simp] theorem setRx_fcu (b : Block) (chip : Nat) (x : RxCredit) : (setRx b chip x).fcu = b.fcu := (rfl)
@[simp] theorem setRx_held (b : Block) (chip : Nat) (x : RxCredit) : (setRx b chip x).held = b.held := (rfl)
@[simp] theorem setRx_fresh (b : Block) (chip : Nat) (x : RxCredit) : (setRx b chip x).fresh = b.fresh := (rfl)
@[simp] theorem setRx_out (b : Block) (chip : Nat) (x : RxCredit) : (setRx b chip x).out = b.out := (rfl)

@[simp] theorem setGroup_clk (b : Block) (pid g : Nat) (x : Group) : (setGroup b pid g x).clk = b.clk := (rfl)
@[simp] theorem setGroup_straps (b : Block) (pid g : Nat) (x : Group) : (setGroup b pid g x).straps = b.straps := (rfl)
@[simp] theorem setGroup_tags (b : Block) (pid g : Nat) (x : Group) : (setGroup b pid g x).tags = b.tags := (rfl)
@[simp] theorem setGroup_dict (b : Block) (pid g : Nat) (x : Group) : (setGroup b pid g x).dict = b.dict := (rfl)
@[simp] theorem setGroup_ptb (b : Block) (pid g : Nat) (x : Group) : (setGroup b pid g x).ptb = b.ptb := (rfl)
@[simp] theorem setGroup_mem (b : Block) (pid g : Nat) (x : Group) : (setGroup b pid g x).mem = b.mem := (rfl)
@[simp] theorem setGroup_hub (b : Block) (pid g : Nat) (x : Group) : (setGroup b pid g x).hub = b.hub := (rfl)
@[simp] theorem setGroup_ladle (b : Block) (pid g : Nat) (x : Group) : (setGroup b pid g x).ladle = b.ladle := (rfl)
@[simp] theorem setGroup_tpe (b : Block) (pid g : Nat) (x : Group) : (setGroup b pid g x).tpe = b.tpe := (rfl)
@[simp] theorem setGroup_replies (b : Block) (pid g : Nat) (x : Group) : (setGroup b pid g x).replies = b.replies := (rfl)
@[simp] theorem setGroup_mirror (b : Block) (pid g : Nat) (x : Group) : (setGroup b pid g x).mirror = b.mirror := (rfl)
@[simp] theorem setGroup_ring (b : Block) (pid g : Nat) (x : Group) : (setGroup b pid g x).ring = b.ring := (rfl)
@[simp] theorem setGroup_ssu (b : Block) (pid g : Nat) (x : Group) : (setGroup b pid g x).ssu = b.ssu := (rfl)
@[simp] theorem setGroup_cha (b : Block) (pid g : Nat) (x : Group) : (setGroup b pid g x).cha = b.cha := (rfl)
@[simp] theorem setGroup_fcu (b : Block) (pid g : Nat) (x : Group) : (setGroup b pid g x).fcu = b.fcu := (rfl)
@[simp] theorem setGroup_held (b : Block) (pid g : Nat) (x : Group) : (setGroup b pid g x).held = b.held := (rfl)
@[simp] theorem setGroup_fresh (b : Block) (pid g : Nat) (x : Group) : (setGroup b pid g x).fresh = b.fresh := (rfl)
@[simp] theorem setGroup_out (b : Block) (pid g : Nat) (x : Group) : (setGroup b pid g x).out = b.out := (rfl)

@[simp] theorem dropJobs_clk (b : Block) (pid g : Nat) : (dropJobs b pid g).clk = b.clk := (rfl)
@[simp] theorem dropJobs_straps (b : Block) (pid g : Nat) : (dropJobs b pid g).straps = b.straps := (rfl)
@[simp] theorem dropJobs_tags (b : Block) (pid g : Nat) : (dropJobs b pid g).tags = b.tags := (rfl)
@[simp] theorem dropJobs_dict (b : Block) (pid g : Nat) : (dropJobs b pid g).dict = b.dict := (rfl)
@[simp] theorem dropJobs_ptb (b : Block) (pid g : Nat) : (dropJobs b pid g).ptb = b.ptb := (rfl)
@[simp] theorem dropJobs_mem (b : Block) (pid g : Nat) : (dropJobs b pid g).mem = b.mem := (rfl)
@[simp] theorem dropJobs_hub (b : Block) (pid g : Nat) : (dropJobs b pid g).hub = b.hub := (rfl)
@[simp] theorem dropJobs_ladle (b : Block) (pid g : Nat) : (dropJobs b pid g).ladle = b.ladle := (rfl)
@[simp] theorem dropJobs_tpe (b : Block) (pid g : Nat) : (dropJobs b pid g).tpe = b.tpe := (rfl)
@[simp] theorem dropJobs_replies (b : Block) (pid g : Nat) : (dropJobs b pid g).replies = b.replies := (rfl)
@[simp] theorem dropJobs_mirror (b : Block) (pid g : Nat) : (dropJobs b pid g).mirror = b.mirror := (rfl)
@[simp] theorem dropJobs_ring (b : Block) (pid g : Nat) : (dropJobs b pid g).ring = b.ring := (rfl)
@[simp] theorem dropJobs_ssu (b : Block) (pid g : Nat) : (dropJobs b pid g).ssu = b.ssu := (rfl)
@[simp] theorem dropJobs_cha (b : Block) (pid g : Nat) : (dropJobs b pid g).cha = b.cha := (rfl)
@[simp] theorem dropJobs_fcu (b : Block) (pid g : Nat) : (dropJobs b pid g).fcu = b.fcu := (rfl)
@[simp] theorem dropJobs_held (b : Block) (pid g : Nat) : (dropJobs b pid g).held = b.held := (rfl)
@[simp] theorem dropJobs_fresh (b : Block) (pid g : Nat) : (dropJobs b pid g).fresh = b.fresh := (rfl)
@[simp] theorem dropJobs_out (b : Block) (pid g : Nat) : (dropJobs b pid g).out = b.out := (rfl)

@[simp] theorem setChan_clk (b : Block) (c : Nat) (x : Chan) : (setChan b c x).clk = b.clk := (rfl)
@[simp] theorem setChan_straps (b : Block) (c : Nat) (x : Chan) : (setChan b c x).straps = b.straps := (rfl)
@[simp] theorem setChan_tags (b : Block) (c : Nat) (x : Chan) : (setChan b c x).tags = b.tags := (rfl)
@[simp] theorem setChan_dict (b : Block) (c : Nat) (x : Chan) : (setChan b c x).dict = b.dict := (rfl)
@[simp] theorem setChan_ptb (b : Block) (c : Nat) (x : Chan) : (setChan b c x).ptb = b.ptb := (rfl)
@[simp] theorem setChan_mem (b : Block) (c : Nat) (x : Chan) : (setChan b c x).mem = b.mem := (rfl)
@[simp] theorem setChan_hub (b : Block) (c : Nat) (x : Chan) : (setChan b c x).hub = b.hub := (rfl)
@[simp] theorem setChan_tpe (b : Block) (c : Nat) (x : Chan) : (setChan b c x).tpe = b.tpe := (rfl)
@[simp] theorem setChan_replies (b : Block) (c : Nat) (x : Chan) : (setChan b c x).replies = b.replies := (rfl)
@[simp] theorem setChan_mirror (b : Block) (c : Nat) (x : Chan) : (setChan b c x).mirror = b.mirror := (rfl)
@[simp] theorem setChan_ring (b : Block) (c : Nat) (x : Chan) : (setChan b c x).ring = b.ring := (rfl)
@[simp] theorem setChan_ssu (b : Block) (c : Nat) (x : Chan) : (setChan b c x).ssu = b.ssu := (rfl)
@[simp] theorem setChan_cru (b : Block) (c : Nat) (x : Chan) : (setChan b c x).cru = b.cru := (rfl)
@[simp] theorem setChan_cha (b : Block) (c : Nat) (x : Chan) : (setChan b c x).cha = b.cha := (rfl)
@[simp] theorem setChan_fcu (b : Block) (c : Nat) (x : Chan) : (setChan b c x).fcu = b.fcu := (rfl)
@[simp] theorem setChan_held (b : Block) (c : Nat) (x : Chan) : (setChan b c x).held = b.held := (rfl)
@[simp] theorem setChan_fresh (b : Block) (c : Nat) (x : Chan) : (setChan b c x).fresh = b.fresh := (rfl)
@[simp] theorem setChan_out (b : Block) (c : Nat) (x : Chan) : (setChan b c x).out = b.out := (rfl)

@[simp] theorem wr_clk (b : Block) (idx sub v : Nat) : (wr b idx sub v).clk = b.clk := (rfl)
@[simp] theorem wr_straps (b : Block) (idx sub v : Nat) : (wr b idx sub v).straps = b.straps := (rfl)
@[simp] theorem wr_tags (b : Block) (idx sub v : Nat) : (wr b idx sub v).tags = b.tags := (rfl)
@[simp] theorem wr_ptb (b : Block) (idx sub v : Nat) : (wr b idx sub v).ptb = b.ptb := (rfl)
@[simp] theorem wr_mem (b : Block) (idx sub v : Nat) : (wr b idx sub v).mem = b.mem := (rfl)
@[simp] theorem wr_hub (b : Block) (idx sub v : Nat) : (wr b idx sub v).hub = b.hub := (rfl)
@[simp] theorem wr_ladle (b : Block) (idx sub v : Nat) : (wr b idx sub v).ladle = b.ladle := (rfl)
@[simp] theorem wr_tpe (b : Block) (idx sub v : Nat) : (wr b idx sub v).tpe = b.tpe := (rfl)
@[simp] theorem wr_replies (b : Block) (idx sub v : Nat) : (wr b idx sub v).replies = b.replies := (rfl)
@[simp] theorem wr_mirror (b : Block) (idx sub v : Nat) : (wr b idx sub v).mirror = b.mirror := (rfl)
@[simp] theorem wr_ring (b : Block) (idx sub v : Nat) : (wr b idx sub v).ring = b.ring := (rfl)
@[simp] theorem wr_ssu (b : Block) (idx sub v : Nat) : (wr b idx sub v).ssu = b.ssu := (rfl)
@[simp] theorem wr_cru (b : Block) (idx sub v : Nat) : (wr b idx sub v).cru = b.cru := (rfl)
@[simp] theorem wr_cha (b : Block) (idx sub v : Nat) : (wr b idx sub v).cha = b.cha := (rfl)
@[simp] theorem wr_fcu (b : Block) (idx sub v : Nat) : (wr b idx sub v).fcu = b.fcu := (rfl)
@[simp] theorem wr_held (b : Block) (idx sub v : Nat) : (wr b idx sub v).held = b.held := (rfl)
@[simp] theorem wr_fresh (b : Block) (idx sub v : Nat) : (wr b idx sub v).fresh = b.fresh := (rfl)
@[simp] theorem wr_out (b : Block) (idx sub v : Nat) : (wr b idx sub v).out = b.out := (rfl)

@[simp] theorem wrBlob_clk (b : Block) (idx sub : Nat) (c : Bytes) : (wrBlob b idx sub c).clk = b.clk := (rfl)
@[simp] theorem wrBlob_straps (b : Block) (idx sub : Nat) (c : Bytes) : (wrBlob b idx sub c).straps = b.straps := (rfl)
@[simp] theorem wrBlob_tags (b : Block) (idx sub : Nat) (c : Bytes) : (wrBlob b idx sub c).tags = b.tags := (rfl)
@[simp] theorem wrBlob_ptb (b : Block) (idx sub : Nat) (c : Bytes) : (wrBlob b idx sub c).ptb = b.ptb := (rfl)
@[simp] theorem wrBlob_mem (b : Block) (idx sub : Nat) (c : Bytes) : (wrBlob b idx sub c).mem = b.mem := (rfl)
@[simp] theorem wrBlob_hub (b : Block) (idx sub : Nat) (c : Bytes) : (wrBlob b idx sub c).hub = b.hub := (rfl)
@[simp] theorem wrBlob_ladle (b : Block) (idx sub : Nat) (c : Bytes) : (wrBlob b idx sub c).ladle = b.ladle := (rfl)
@[simp] theorem wrBlob_tpe (b : Block) (idx sub : Nat) (c : Bytes) : (wrBlob b idx sub c).tpe = b.tpe := (rfl)
@[simp] theorem wrBlob_replies (b : Block) (idx sub : Nat) (c : Bytes) : (wrBlob b idx sub c).replies = b.replies := (rfl)
@[simp] theorem wrBlob_mirror (b : Block) (idx sub : Nat) (c : Bytes) : (wrBlob b idx sub c).mirror = b.mirror := (rfl)
@[simp] theorem wrBlob_ring (b : Block) (idx sub : Nat) (c : Bytes) : (wrBlob b idx sub c).ring = b.ring := (rfl)
@[simp] theorem wrBlob_ssu (b : Block) (idx sub : Nat) (c : Bytes) : (wrBlob b idx sub c).ssu = b.ssu := (rfl)
@[simp] theorem wrBlob_cru (b : Block) (idx sub : Nat) (c : Bytes) : (wrBlob b idx sub c).cru = b.cru := (rfl)
@[simp] theorem wrBlob_cha (b : Block) (idx sub : Nat) (c : Bytes) : (wrBlob b idx sub c).cha = b.cha := (rfl)
@[simp] theorem wrBlob_fcu (b : Block) (idx sub : Nat) (c : Bytes) : (wrBlob b idx sub c).fcu = b.fcu := (rfl)
@[simp] theorem wrBlob_held (b : Block) (idx sub : Nat) (c : Bytes) : (wrBlob b idx sub c).held = b.held := (rfl)
@[simp] theorem wrBlob_fresh (b : Block) (idx sub : Nat) (c : Bytes) : (wrBlob b idx sub c).fresh = b.fresh := (rfl)
@[simp] theorem wrBlob_out (b : Block) (idx sub : Nat) (c : Bytes) : (wrBlob b idx sub c).out = b.out := (rfl)

@[simp] theorem emit_clk (b : Block) (o : Out) : (emit b o).clk = b.clk := (rfl)
@[simp] theorem emit_straps (b : Block) (o : Out) : (emit b o).straps = b.straps := (rfl)
@[simp] theorem emit_tags (b : Block) (o : Out) : (emit b o).tags = b.tags := (rfl)
@[simp] theorem emit_dict (b : Block) (o : Out) : (emit b o).dict = b.dict := (rfl)
@[simp] theorem emit_ptb (b : Block) (o : Out) : (emit b o).ptb = b.ptb := (rfl)
@[simp] theorem emit_mem (b : Block) (o : Out) : (emit b o).mem = b.mem := (rfl)
@[simp] theorem emit_hub (b : Block) (o : Out) : (emit b o).hub = b.hub := (rfl)
@[simp] theorem emit_ladle (b : Block) (o : Out) : (emit b o).ladle = b.ladle := (rfl)
@[simp] theorem emit_tpe (b : Block) (o : Out) : (emit b o).tpe = b.tpe := (rfl)
@[simp] theorem emit_replies (b : Block) (o : Out) : (emit b o).replies = b.replies := (rfl)
@[simp] theorem emit_mirror (b : Block) (o : Out) : (emit b o).mirror = b.mirror := (rfl)
@[simp] theorem emit_ring (b : Block) (o : Out) : (emit b o).ring = b.ring := (rfl)
@[simp] theorem emit_ssu (b : Block) (o : Out) : (emit b o).ssu = b.ssu := (rfl)
@[simp] theorem emit_cru (b : Block) (o : Out) : (emit b o).cru = b.cru := (rfl)
@[simp] theorem emit_cha (b : Block) (o : Out) : (emit b o).cha = b.cha := (rfl)
@[simp] theorem emit_fcu (b : Block) (o : Out) : (emit b o).fcu = b.fcu := (rfl)
@[simp] theorem emit_held (b : Block) (o : Out) : (emit b o).held = b.held := (rfl)
@[simp] theorem emit_fresh (b : Block) (o : Out) : (emit b o).fresh = b.fresh := (rfl)

@[simp] theorem setPart_clk (b : Block) (pid : Nat) (p : Part) : (setPart b pid p).clk = b.clk := (rfl)
@[simp] theorem setPart_straps (b : Block) (pid : Nat) (p : Part) : (setPart b pid p).straps = b.straps := (rfl)
@[simp] theorem setPart_tags (b : Block) (pid : Nat) (p : Part) : (setPart b pid p).tags = b.tags := (rfl)
@[simp] theorem setPart_dict (b : Block) (pid : Nat) (p : Part) : (setPart b pid p).dict = b.dict := (rfl)
@[simp] theorem setPart_mem (b : Block) (pid : Nat) (p : Part) : (setPart b pid p).mem = b.mem := (rfl)
@[simp] theorem setPart_hub (b : Block) (pid : Nat) (p : Part) : (setPart b pid p).hub = b.hub := (rfl)
@[simp] theorem setPart_ladle (b : Block) (pid : Nat) (p : Part) : (setPart b pid p).ladle = b.ladle := (rfl)
@[simp] theorem setPart_tpe (b : Block) (pid : Nat) (p : Part) : (setPart b pid p).tpe = b.tpe := (rfl)
@[simp] theorem setPart_replies (b : Block) (pid : Nat) (p : Part) : (setPart b pid p).replies = b.replies := (rfl)
@[simp] theorem setPart_mirror (b : Block) (pid : Nat) (p : Part) : (setPart b pid p).mirror = b.mirror := (rfl)
@[simp] theorem setPart_ring (b : Block) (pid : Nat) (p : Part) : (setPart b pid p).ring = b.ring := (rfl)
@[simp] theorem setPart_ssu (b : Block) (pid : Nat) (p : Part) : (setPart b pid p).ssu = b.ssu := (rfl)
@[simp] theorem setPart_cru (b : Block) (pid : Nat) (p : Part) : (setPart b pid p).cru = b.cru := (rfl)
@[simp] theorem setPart_cha (b : Block) (pid : Nat) (p : Part) : (setPart b pid p).cha = b.cha := (rfl)
@[simp] theorem setPart_fcu (b : Block) (pid : Nat) (p : Part) : (setPart b pid p).fcu = b.fcu := (rfl)
@[simp] theorem setPart_held (b : Block) (pid : Nat) (p : Part) : (setPart b pid p).held = b.held := (rfl)
@[simp] theorem setPart_fresh (b : Block) (pid : Nat) (p : Part) : (setPart b pid p).fresh = b.fresh := (rfl)
@[simp] theorem setPart_out (b : Block) (pid : Nat) (p : Part) : (setPart b pid p).out = b.out := (rfl)

@[simp] theorem setDomain_clk (b : Block) (k : Nat) (d : Domain) : (setDomain b k d).clk = b.clk := (rfl)
@[simp] theorem setDomain_straps (b : Block) (k : Nat) (d : Domain) : (setDomain b k d).straps = b.straps := (rfl)
@[simp] theorem setDomain_tags (b : Block) (k : Nat) (d : Domain) : (setDomain b k d).tags = b.tags := (rfl)
@[simp] theorem setDomain_dict (b : Block) (k : Nat) (d : Domain) : (setDomain b k d).dict = b.dict := (rfl)
@[simp] theorem setDomain_ptb (b : Block) (k : Nat) (d : Domain) : (setDomain b k d).ptb = b.ptb := (rfl)
@[simp] theorem setDomain_mem (b : Block) (k : Nat) (d : Domain) : (setDomain b k d).mem = b.mem := (rfl)
@[simp] theorem setDomain_hub (b : Block) (k : Nat) (d : Domain) : (setDomain b k d).hub = b.hub := (rfl)
@[simp] theorem setDomain_ladle (b : Block) (k : Nat) (d : Domain) : (setDomain b k d).ladle = b.ladle := (rfl)
@[simp] theorem setDomain_tpe (b : Block) (k : Nat) (d : Domain) : (setDomain b k d).tpe = b.tpe := (rfl)
@[simp] theorem setDomain_replies (b : Block) (k : Nat) (d : Domain) : (setDomain b k d).replies = b.replies := (rfl)
@[simp] theorem setDomain_mirror (b : Block) (k : Nat) (d : Domain) : (setDomain b k d).mirror = b.mirror := (rfl)
@[simp] theorem setDomain_ring (b : Block) (k : Nat) (d : Domain) : (setDomain b k d).ring = b.ring := (rfl)
@[simp] theorem setDomain_ssu (b : Block) (k : Nat) (d : Domain) : (setDomain b k d).ssu = b.ssu := (rfl)
@[simp] theorem setDomain_cru (b : Block) (k : Nat) (d : Domain) : (setDomain b k d).cru = b.cru := (rfl)
@[simp] theorem setDomain_cha (b : Block) (k : Nat) (d : Domain) : (setDomain b k d).cha = b.cha := (rfl)
@[simp] theorem setDomain_held (b : Block) (k : Nat) (d : Domain) : (setDomain b k d).held = b.held := (rfl)
@[simp] theorem setDomain_fresh (b : Block) (k : Nat) (d : Domain) : (setDomain b k d).fresh = b.fresh := (rfl)
@[simp] theorem setDomain_out (b : Block) (k : Nat) (d : Domain) : (setDomain b k d).out = b.out := (rfl)

@[simp] theorem setOwner_clk (b : Block) (g : Nat) (e : OwnerEntry) : (setOwner b g e).clk = b.clk := (rfl)
@[simp] theorem setOwner_straps (b : Block) (g : Nat) (e : OwnerEntry) : (setOwner b g e).straps = b.straps := (rfl)
@[simp] theorem setOwner_tags (b : Block) (g : Nat) (e : OwnerEntry) : (setOwner b g e).tags = b.tags := (rfl)
@[simp] theorem setOwner_dict (b : Block) (g : Nat) (e : OwnerEntry) : (setOwner b g e).dict = b.dict := (rfl)
@[simp] theorem setOwner_mem (b : Block) (g : Nat) (e : OwnerEntry) : (setOwner b g e).mem = b.mem := (rfl)
@[simp] theorem setOwner_hub (b : Block) (g : Nat) (e : OwnerEntry) : (setOwner b g e).hub = b.hub := (rfl)
@[simp] theorem setOwner_ladle (b : Block) (g : Nat) (e : OwnerEntry) : (setOwner b g e).ladle = b.ladle := (rfl)
@[simp] theorem setOwner_tpe (b : Block) (g : Nat) (e : OwnerEntry) : (setOwner b g e).tpe = b.tpe := (rfl)
@[simp] theorem setOwner_replies (b : Block) (g : Nat) (e : OwnerEntry) : (setOwner b g e).replies = b.replies := (rfl)
@[simp] theorem setOwner_mirror (b : Block) (g : Nat) (e : OwnerEntry) : (setOwner b g e).mirror = b.mirror := (rfl)
@[simp] theorem setOwner_ring (b : Block) (g : Nat) (e : OwnerEntry) : (setOwner b g e).ring = b.ring := (rfl)
@[simp] theorem setOwner_ssu (b : Block) (g : Nat) (e : OwnerEntry) : (setOwner b g e).ssu = b.ssu := (rfl)
@[simp] theorem setOwner_cru (b : Block) (g : Nat) (e : OwnerEntry) : (setOwner b g e).cru = b.cru := (rfl)
@[simp] theorem setOwner_cha (b : Block) (g : Nat) (e : OwnerEntry) : (setOwner b g e).cha = b.cha := (rfl)
@[simp] theorem setOwner_fcu (b : Block) (g : Nat) (e : OwnerEntry) : (setOwner b g e).fcu = b.fcu := (rfl)
@[simp] theorem setOwner_held (b : Block) (g : Nat) (e : OwnerEntry) : (setOwner b g e).held = b.held := (rfl)
@[simp] theorem setOwner_fresh (b : Block) (g : Nat) (e : OwnerEntry) : (setOwner b g e).fresh = b.fresh := (rfl)
@[simp] theorem setOwner_out (b : Block) (g : Nat) (e : OwnerEntry) : (setOwner b g e).out = b.out := (rfl)

@[simp] theorem writeByte_clk (b : Block) (a : Nat) (v : BitVec 8) : (writeByte b a v).clk = b.clk := (rfl)
@[simp] theorem writeByte_straps (b : Block) (a : Nat) (v : BitVec 8) : (writeByte b a v).straps = b.straps := (rfl)
@[simp] theorem writeByte_tags (b : Block) (a : Nat) (v : BitVec 8) : (writeByte b a v).tags = b.tags := (rfl)
@[simp] theorem writeByte_dict (b : Block) (a : Nat) (v : BitVec 8) : (writeByte b a v).dict = b.dict := (rfl)
@[simp] theorem writeByte_ptb (b : Block) (a : Nat) (v : BitVec 8) : (writeByte b a v).ptb = b.ptb := (rfl)
@[simp] theorem writeByte_hub (b : Block) (a : Nat) (v : BitVec 8) : (writeByte b a v).hub = b.hub := (rfl)
@[simp] theorem writeByte_ladle (b : Block) (a : Nat) (v : BitVec 8) : (writeByte b a v).ladle = b.ladle := (rfl)
@[simp] theorem writeByte_tpe (b : Block) (a : Nat) (v : BitVec 8) : (writeByte b a v).tpe = b.tpe := (rfl)
@[simp] theorem writeByte_replies (b : Block) (a : Nat) (v : BitVec 8) : (writeByte b a v).replies = b.replies := (rfl)
@[simp] theorem writeByte_mirror (b : Block) (a : Nat) (v : BitVec 8) : (writeByte b a v).mirror = b.mirror := (rfl)
@[simp] theorem writeByte_ring (b : Block) (a : Nat) (v : BitVec 8) : (writeByte b a v).ring = b.ring := (rfl)
@[simp] theorem writeByte_ssu (b : Block) (a : Nat) (v : BitVec 8) : (writeByte b a v).ssu = b.ssu := (rfl)
@[simp] theorem writeByte_cru (b : Block) (a : Nat) (v : BitVec 8) : (writeByte b a v).cru = b.cru := (rfl)
@[simp] theorem writeByte_cha (b : Block) (a : Nat) (v : BitVec 8) : (writeByte b a v).cha = b.cha := (rfl)
@[simp] theorem writeByte_fcu (b : Block) (a : Nat) (v : BitVec 8) : (writeByte b a v).fcu = b.fcu := (rfl)
@[simp] theorem writeByte_held (b : Block) (a : Nat) (v : BitVec 8) : (writeByte b a v).held = b.held := (rfl)
@[simp] theorem writeByte_fresh (b : Block) (a : Nat) (v : BitVec 8) : (writeByte b a v).fresh = b.fresh := (rfl)
@[simp] theorem writeByte_out (b : Block) (a : Nat) (v : BitVec 8) : (writeByte b a v).out = b.out := (rfl)

@[simp] theorem setPace_clk (b : Block) (l : Nat) (v : Nat × Bool) : (setPace b l v).clk = b.clk := (rfl)
@[simp] theorem setPace_straps (b : Block) (l : Nat) (v : Nat × Bool) : (setPace b l v).straps = b.straps := (rfl)
@[simp] theorem setPace_tags (b : Block) (l : Nat) (v : Nat × Bool) : (setPace b l v).tags = b.tags := (rfl)
@[simp] theorem setPace_dict (b : Block) (l : Nat) (v : Nat × Bool) : (setPace b l v).dict = b.dict := (rfl)
@[simp] theorem setPace_ptb (b : Block) (l : Nat) (v : Nat × Bool) : (setPace b l v).ptb = b.ptb := (rfl)
@[simp] theorem setPace_mem (b : Block) (l : Nat) (v : Nat × Bool) : (setPace b l v).mem = b.mem := (rfl)
@[simp] theorem setPace_hub (b : Block) (l : Nat) (v : Nat × Bool) : (setPace b l v).hub = b.hub := (rfl)
@[simp] theorem setPace_tpe (b : Block) (l : Nat) (v : Nat × Bool) : (setPace b l v).tpe = b.tpe := (rfl)
@[simp] theorem setPace_replies (b : Block) (l : Nat) (v : Nat × Bool) : (setPace b l v).replies = b.replies := (rfl)
@[simp] theorem setPace_mirror (b : Block) (l : Nat) (v : Nat × Bool) : (setPace b l v).mirror = b.mirror := (rfl)
@[simp] theorem setPace_ring (b : Block) (l : Nat) (v : Nat × Bool) : (setPace b l v).ring = b.ring := (rfl)
@[simp] theorem setPace_ssu (b : Block) (l : Nat) (v : Nat × Bool) : (setPace b l v).ssu = b.ssu := (rfl)
@[simp] theorem setPace_cru (b : Block) (l : Nat) (v : Nat × Bool) : (setPace b l v).cru = b.cru := (rfl)
@[simp] theorem setPace_cha (b : Block) (l : Nat) (v : Nat × Bool) : (setPace b l v).cha = b.cha := (rfl)
@[simp] theorem setPace_fcu (b : Block) (l : Nat) (v : Nat × Bool) : (setPace b l v).fcu = b.fcu := (rfl)
@[simp] theorem setPace_held (b : Block) (l : Nat) (v : Nat × Bool) : (setPace b l v).held = b.held := (rfl)
@[simp] theorem setPace_fresh (b : Block) (l : Nat) (v : Nat × Bool) : (setPace b l v).fresh = b.fresh := (rfl)
@[simp] theorem setPace_out (b : Block) (l : Nat) (v : Nat × Bool) : (setPace b l v).out = b.out := (rfl)

@[simp] theorem zeroGranule_clk (b : Block) (g : Nat) : (zeroGranule b g).clk = b.clk := (rfl)
@[simp] theorem zeroGranule_straps (b : Block) (g : Nat) : (zeroGranule b g).straps = b.straps := (rfl)
@[simp] theorem zeroGranule_tags (b : Block) (g : Nat) : (zeroGranule b g).tags = b.tags := (rfl)
@[simp] theorem zeroGranule_dict (b : Block) (g : Nat) : (zeroGranule b g).dict = b.dict := (rfl)
@[simp] theorem zeroGranule_ptb (b : Block) (g : Nat) : (zeroGranule b g).ptb = b.ptb := (rfl)
@[simp] theorem zeroGranule_hub (b : Block) (g : Nat) : (zeroGranule b g).hub = b.hub := (rfl)
@[simp] theorem zeroGranule_ladle (b : Block) (g : Nat) : (zeroGranule b g).ladle = b.ladle := (rfl)
@[simp] theorem zeroGranule_tpe (b : Block) (g : Nat) : (zeroGranule b g).tpe = b.tpe := (rfl)
@[simp] theorem zeroGranule_replies (b : Block) (g : Nat) : (zeroGranule b g).replies = b.replies := (rfl)
@[simp] theorem zeroGranule_mirror (b : Block) (g : Nat) : (zeroGranule b g).mirror = b.mirror := (rfl)
@[simp] theorem zeroGranule_ring (b : Block) (g : Nat) : (zeroGranule b g).ring = b.ring := (rfl)
@[simp] theorem zeroGranule_ssu (b : Block) (g : Nat) : (zeroGranule b g).ssu = b.ssu := (rfl)
@[simp] theorem zeroGranule_cru (b : Block) (g : Nat) : (zeroGranule b g).cru = b.cru := (rfl)
@[simp] theorem zeroGranule_cha (b : Block) (g : Nat) : (zeroGranule b g).cha = b.cha := (rfl)
@[simp] theorem zeroGranule_fcu (b : Block) (g : Nat) : (zeroGranule b g).fcu = b.fcu := (rfl)
@[simp] theorem zeroGranule_held (b : Block) (g : Nat) : (zeroGranule b g).held = b.held := (rfl)
@[simp] theorem zeroGranule_fresh (b : Block) (g : Nat) : (zeroGranule b g).fresh = b.fresh := (rfl)
@[simp] theorem zeroGranule_out (b : Block) (g : Nat) : (zeroGranule b g).out = b.out := (rfl)

@[simp] theorem setShadow_clk (b : Block) (pp : Nat) (s : Shadow) : (setShadow b pp s).clk = b.clk := (rfl)
@[simp] theorem setShadow_straps (b : Block) (pp : Nat) (s : Shadow) : (setShadow b pp s).straps = b.straps := (rfl)
@[simp] theorem setShadow_tags (b : Block) (pp : Nat) (s : Shadow) : (setShadow b pp s).tags = b.tags := (rfl)
@[simp] theorem setShadow_dict (b : Block) (pp : Nat) (s : Shadow) : (setShadow b pp s).dict = b.dict := (rfl)
@[simp] theorem setShadow_ptb (b : Block) (pp : Nat) (s : Shadow) : (setShadow b pp s).ptb = b.ptb := (rfl)
@[simp] theorem setShadow_mem (b : Block) (pp : Nat) (s : Shadow) : (setShadow b pp s).mem = b.mem := (rfl)
@[simp] theorem setShadow_hub (b : Block) (pp : Nat) (s : Shadow) : (setShadow b pp s).hub = b.hub := (rfl)
@[simp] theorem setShadow_ladle (b : Block) (pp : Nat) (s : Shadow) : (setShadow b pp s).ladle = b.ladle := (rfl)
@[simp] theorem setShadow_tpe (b : Block) (pp : Nat) (s : Shadow) : (setShadow b pp s).tpe = b.tpe := (rfl)
@[simp] theorem setShadow_replies (b : Block) (pp : Nat) (s : Shadow) : (setShadow b pp s).replies = b.replies := (rfl)
@[simp] theorem setShadow_ring (b : Block) (pp : Nat) (s : Shadow) : (setShadow b pp s).ring = b.ring := (rfl)
@[simp] theorem setShadow_ssu (b : Block) (pp : Nat) (s : Shadow) : (setShadow b pp s).ssu = b.ssu := (rfl)
@[simp] theorem setShadow_cru (b : Block) (pp : Nat) (s : Shadow) : (setShadow b pp s).cru = b.cru := (rfl)
@[simp] theorem setShadow_cha (b : Block) (pp : Nat) (s : Shadow) : (setShadow b pp s).cha = b.cha := (rfl)
@[simp] theorem setShadow_fcu (b : Block) (pp : Nat) (s : Shadow) : (setShadow b pp s).fcu = b.fcu := (rfl)
@[simp] theorem setShadow_held (b : Block) (pp : Nat) (s : Shadow) : (setShadow b pp s).held = b.held := (rfl)
@[simp] theorem setShadow_fresh (b : Block) (pp : Nat) (s : Shadow) : (setShadow b pp s).fresh = b.fresh := (rfl)
@[simp] theorem setShadow_out (b : Block) (pp : Nat) (s : Shadow) : (setShadow b pp s).out = b.out := (rfl)

@[simp] theorem dropReply_clk (b : Block) (h : Holder) : (dropReply b h).clk = b.clk := (rfl)
@[simp] theorem dropReply_straps (b : Block) (h : Holder) : (dropReply b h).straps = b.straps := (rfl)
@[simp] theorem dropReply_tags (b : Block) (h : Holder) : (dropReply b h).tags = b.tags := (rfl)
@[simp] theorem dropReply_dict (b : Block) (h : Holder) : (dropReply b h).dict = b.dict := (rfl)
@[simp] theorem dropReply_ptb (b : Block) (h : Holder) : (dropReply b h).ptb = b.ptb := (rfl)
@[simp] theorem dropReply_mem (b : Block) (h : Holder) : (dropReply b h).mem = b.mem := (rfl)
@[simp] theorem dropReply_hub (b : Block) (h : Holder) : (dropReply b h).hub = b.hub := (rfl)
@[simp] theorem dropReply_ladle (b : Block) (h : Holder) : (dropReply b h).ladle = b.ladle := (rfl)
@[simp] theorem dropReply_tpe (b : Block) (h : Holder) : (dropReply b h).tpe = b.tpe := (rfl)
@[simp] theorem dropReply_mirror (b : Block) (h : Holder) : (dropReply b h).mirror = b.mirror := (rfl)
@[simp] theorem dropReply_ring (b : Block) (h : Holder) : (dropReply b h).ring = b.ring := (rfl)
@[simp] theorem dropReply_ssu (b : Block) (h : Holder) : (dropReply b h).ssu = b.ssu := (rfl)
@[simp] theorem dropReply_cru (b : Block) (h : Holder) : (dropReply b h).cru = b.cru := (rfl)
@[simp] theorem dropReply_cha (b : Block) (h : Holder) : (dropReply b h).cha = b.cha := (rfl)
@[simp] theorem dropReply_fcu (b : Block) (h : Holder) : (dropReply b h).fcu = b.fcu := (rfl)
@[simp] theorem dropReply_held (b : Block) (h : Holder) : (dropReply b h).held = b.held := (rfl)
@[simp] theorem dropReply_fresh (b : Block) (h : Holder) : (dropReply b h).fresh = b.fresh := (rfl)
@[simp] theorem dropReply_out (b : Block) (h : Holder) : (dropReply b h).out = b.out := (rfl)

@[simp] theorem setRingKeys_clk (b : Block) (f : Keyring → Keyring) : (setRingKeys b f).clk = b.clk := (rfl)
@[simp] theorem setRingKeys_straps (b : Block) (f : Keyring → Keyring) : (setRingKeys b f).straps = b.straps := (rfl)
@[simp] theorem setRingKeys_tags (b : Block) (f : Keyring → Keyring) : (setRingKeys b f).tags = b.tags := (rfl)
@[simp] theorem setRingKeys_dict (b : Block) (f : Keyring → Keyring) : (setRingKeys b f).dict = b.dict := (rfl)
@[simp] theorem setRingKeys_ptb (b : Block) (f : Keyring → Keyring) : (setRingKeys b f).ptb = b.ptb := (rfl)
@[simp] theorem setRingKeys_mem (b : Block) (f : Keyring → Keyring) : (setRingKeys b f).mem = b.mem := (rfl)
@[simp] theorem setRingKeys_hub (b : Block) (f : Keyring → Keyring) : (setRingKeys b f).hub = b.hub := (rfl)
@[simp] theorem setRingKeys_ladle (b : Block) (f : Keyring → Keyring) : (setRingKeys b f).ladle = b.ladle := (rfl)
@[simp] theorem setRingKeys_tpe (b : Block) (f : Keyring → Keyring) : (setRingKeys b f).tpe = b.tpe := (rfl)
@[simp] theorem setRingKeys_replies (b : Block) (f : Keyring → Keyring) : (setRingKeys b f).replies = b.replies := (rfl)
@[simp] theorem setRingKeys_mirror (b : Block) (f : Keyring → Keyring) : (setRingKeys b f).mirror = b.mirror := (rfl)
@[simp] theorem setRingKeys_ssu (b : Block) (f : Keyring → Keyring) : (setRingKeys b f).ssu = b.ssu := (rfl)
@[simp] theorem setRingKeys_cru (b : Block) (f : Keyring → Keyring) : (setRingKeys b f).cru = b.cru := (rfl)
@[simp] theorem setRingKeys_cha (b : Block) (f : Keyring → Keyring) : (setRingKeys b f).cha = b.cha := (rfl)
@[simp] theorem setRingKeys_fcu (b : Block) (f : Keyring → Keyring) : (setRingKeys b f).fcu = b.fcu := (rfl)
@[simp] theorem setRingKeys_held (b : Block) (f : Keyring → Keyring) : (setRingKeys b f).held = b.held := (rfl)
@[simp] theorem setRingKeys_fresh (b : Block) (f : Keyring → Keyring) : (setRingKeys b f).fresh = b.fresh := (rfl)
@[simp] theorem setRingKeys_out (b : Block) (f : Keyring → Keyring) : (setRingKeys b f).out = b.out := (rfl)

@[simp] theorem setNode_clk (b : Block) (l n : Nat) (x : TreeNode) : (setNode b l n x).clk = b.clk := (rfl)
@[simp] theorem setNode_straps (b : Block) (l n : Nat) (x : TreeNode) : (setNode b l n x).straps = b.straps := (rfl)
@[simp] theorem setNode_tags (b : Block) (l n : Nat) (x : TreeNode) : (setNode b l n x).tags = b.tags := (rfl)
@[simp] theorem setNode_dict (b : Block) (l n : Nat) (x : TreeNode) : (setNode b l n x).dict = b.dict := (rfl)
@[simp] theorem setNode_ptb (b : Block) (l n : Nat) (x : TreeNode) : (setNode b l n x).ptb = b.ptb := (rfl)
@[simp] theorem setNode_mem (b : Block) (l n : Nat) (x : TreeNode) : (setNode b l n x).mem = b.mem := (rfl)
@[simp] theorem setNode_hub (b : Block) (l n : Nat) (x : TreeNode) : (setNode b l n x).hub = b.hub := (rfl)
@[simp] theorem setNode_ladle (b : Block) (l n : Nat) (x : TreeNode) : (setNode b l n x).ladle = b.ladle := (rfl)
@[simp] theorem setNode_tpe (b : Block) (l n : Nat) (x : TreeNode) : (setNode b l n x).tpe = b.tpe := (rfl)
@[simp] theorem setNode_replies (b : Block) (l n : Nat) (x : TreeNode) : (setNode b l n x).replies = b.replies := (rfl)
@[simp] theorem setNode_mirror (b : Block) (l n : Nat) (x : TreeNode) : (setNode b l n x).mirror = b.mirror := (rfl)
@[simp] theorem setNode_ring (b : Block) (l n : Nat) (x : TreeNode) : (setNode b l n x).ring = b.ring := (rfl)
@[simp] theorem setNode_cru (b : Block) (l n : Nat) (x : TreeNode) : (setNode b l n x).cru = b.cru := (rfl)
@[simp] theorem setNode_cha (b : Block) (l n : Nat) (x : TreeNode) : (setNode b l n x).cha = b.cha := (rfl)
@[simp] theorem setNode_fcu (b : Block) (l n : Nat) (x : TreeNode) : (setNode b l n x).fcu = b.fcu := (rfl)
@[simp] theorem setNode_held (b : Block) (l n : Nat) (x : TreeNode) : (setNode b l n x).held = b.held := (rfl)
@[simp] theorem setNode_fresh (b : Block) (l n : Nat) (x : TreeNode) : (setNode b l n x).fresh = b.fresh := (rfl)
@[simp] theorem setNode_out (b : Block) (l n : Nat) (x : TreeNode) : (setNode b l n x).out = b.out := (rfl)

@[simp] theorem setOp_clk (b : Block) (o : SpillOp) : (setOp b o).clk = b.clk := (rfl)
@[simp] theorem setOp_straps (b : Block) (o : SpillOp) : (setOp b o).straps = b.straps := (rfl)
@[simp] theorem setOp_tags (b : Block) (o : SpillOp) : (setOp b o).tags = b.tags := (rfl)
@[simp] theorem setOp_dict (b : Block) (o : SpillOp) : (setOp b o).dict = b.dict := (rfl)
@[simp] theorem setOp_ptb (b : Block) (o : SpillOp) : (setOp b o).ptb = b.ptb := (rfl)
@[simp] theorem setOp_mem (b : Block) (o : SpillOp) : (setOp b o).mem = b.mem := (rfl)
@[simp] theorem setOp_hub (b : Block) (o : SpillOp) : (setOp b o).hub = b.hub := (rfl)
@[simp] theorem setOp_ladle (b : Block) (o : SpillOp) : (setOp b o).ladle = b.ladle := (rfl)
@[simp] theorem setOp_tpe (b : Block) (o : SpillOp) : (setOp b o).tpe = b.tpe := (rfl)
@[simp] theorem setOp_replies (b : Block) (o : SpillOp) : (setOp b o).replies = b.replies := (rfl)
@[simp] theorem setOp_mirror (b : Block) (o : SpillOp) : (setOp b o).mirror = b.mirror := (rfl)
@[simp] theorem setOp_ring (b : Block) (o : SpillOp) : (setOp b o).ring = b.ring := (rfl)
@[simp] theorem setOp_cru (b : Block) (o : SpillOp) : (setOp b o).cru = b.cru := (rfl)
@[simp] theorem setOp_cha (b : Block) (o : SpillOp) : (setOp b o).cha = b.cha := (rfl)
@[simp] theorem setOp_fcu (b : Block) (o : SpillOp) : (setOp b o).fcu = b.fcu := (rfl)
@[simp] theorem setOp_held (b : Block) (o : SpillOp) : (setOp b o).held = b.held := (rfl)
@[simp] theorem setOp_fresh (b : Block) (o : SpillOp) : (setOp b o).fresh = b.fresh := (rfl)
@[simp] theorem setOp_out (b : Block) (o : SpillOp) : (setOp b o).out = b.out := (rfl)

@[simp] theorem markLine_clk (b : Block) (l l' : LineOp) : (markLine b l l').clk = b.clk := (rfl)
@[simp] theorem markLine_straps (b : Block) (l l' : LineOp) : (markLine b l l').straps = b.straps := (rfl)
@[simp] theorem markLine_tags (b : Block) (l l' : LineOp) : (markLine b l l').tags = b.tags := (rfl)
@[simp] theorem markLine_dict (b : Block) (l l' : LineOp) : (markLine b l l').dict = b.dict := (rfl)
@[simp] theorem markLine_ptb (b : Block) (l l' : LineOp) : (markLine b l l').ptb = b.ptb := (rfl)
@[simp] theorem markLine_mem (b : Block) (l l' : LineOp) : (markLine b l l').mem = b.mem := (rfl)
@[simp] theorem markLine_hub (b : Block) (l l' : LineOp) : (markLine b l l').hub = b.hub := (rfl)
@[simp] theorem markLine_ladle (b : Block) (l l' : LineOp) : (markLine b l l').ladle = b.ladle := (rfl)
@[simp] theorem markLine_tpe (b : Block) (l l' : LineOp) : (markLine b l l').tpe = b.tpe := (rfl)
@[simp] theorem markLine_replies (b : Block) (l l' : LineOp) : (markLine b l l').replies = b.replies := (rfl)
@[simp] theorem markLine_mirror (b : Block) (l l' : LineOp) : (markLine b l l').mirror = b.mirror := (rfl)
@[simp] theorem markLine_ring (b : Block) (l l' : LineOp) : (markLine b l l').ring = b.ring := (rfl)
@[simp] theorem markLine_cru (b : Block) (l l' : LineOp) : (markLine b l l').cru = b.cru := (rfl)
@[simp] theorem markLine_cha (b : Block) (l l' : LineOp) : (markLine b l l').cha = b.cha := (rfl)
@[simp] theorem markLine_fcu (b : Block) (l l' : LineOp) : (markLine b l l').fcu = b.fcu := (rfl)
@[simp] theorem markLine_held (b : Block) (l l' : LineOp) : (markLine b l l').held = b.held := (rfl)
@[simp] theorem markLine_fresh (b : Block) (l l' : LineOp) : (markLine b l l').fresh = b.fresh := (rfl)
@[simp] theorem markLine_out (b : Block) (l l' : LineOp) : (markLine b l l').out = b.out := (rfl)

@[simp] theorem dropTag_clk (b : Block) (tag : Nat) : (dropTag b tag).clk = b.clk := (rfl)
@[simp] theorem dropTag_straps (b : Block) (tag : Nat) : (dropTag b tag).straps = b.straps := (rfl)
@[simp] theorem dropTag_dict (b : Block) (tag : Nat) : (dropTag b tag).dict = b.dict := (rfl)
@[simp] theorem dropTag_ptb (b : Block) (tag : Nat) : (dropTag b tag).ptb = b.ptb := (rfl)
@[simp] theorem dropTag_mem (b : Block) (tag : Nat) : (dropTag b tag).mem = b.mem := (rfl)
@[simp] theorem dropTag_hub (b : Block) (tag : Nat) : (dropTag b tag).hub = b.hub := (rfl)
@[simp] theorem dropTag_ladle (b : Block) (tag : Nat) : (dropTag b tag).ladle = b.ladle := (rfl)
@[simp] theorem dropTag_tpe (b : Block) (tag : Nat) : (dropTag b tag).tpe = b.tpe := (rfl)
@[simp] theorem dropTag_replies (b : Block) (tag : Nat) : (dropTag b tag).replies = b.replies := (rfl)
@[simp] theorem dropTag_mirror (b : Block) (tag : Nat) : (dropTag b tag).mirror = b.mirror := (rfl)
@[simp] theorem dropTag_ring (b : Block) (tag : Nat) : (dropTag b tag).ring = b.ring := (rfl)
@[simp] theorem dropTag_ssu (b : Block) (tag : Nat) : (dropTag b tag).ssu = b.ssu := (rfl)
@[simp] theorem dropTag_cru (b : Block) (tag : Nat) : (dropTag b tag).cru = b.cru := (rfl)
@[simp] theorem dropTag_cha (b : Block) (tag : Nat) : (dropTag b tag).cha = b.cha := (rfl)
@[simp] theorem dropTag_fcu (b : Block) (tag : Nat) : (dropTag b tag).fcu = b.fcu := (rfl)
@[simp] theorem dropTag_held (b : Block) (tag : Nat) : (dropTag b tag).held = b.held := (rfl)
@[simp] theorem dropTag_fresh (b : Block) (tag : Nat) : (dropTag b tag).fresh = b.fresh := (rfl)
@[simp] theorem dropTag_out (b : Block) (tag : Nat) : (dropTag b tag).out = b.out := (rfl)

@[simp] theorem setWork_clk (b : Block) (w : Work) : (setWork b w).clk = b.clk := (rfl)
@[simp] theorem setWork_straps (b : Block) (w : Work) : (setWork b w).straps = b.straps := (rfl)
@[simp] theorem setWork_tags (b : Block) (w : Work) : (setWork b w).tags = b.tags := (rfl)
@[simp] theorem setWork_dict (b : Block) (w : Work) : (setWork b w).dict = b.dict := (rfl)
@[simp] theorem setWork_ptb (b : Block) (w : Work) : (setWork b w).ptb = b.ptb := (rfl)
@[simp] theorem setWork_mem (b : Block) (w : Work) : (setWork b w).mem = b.mem := (rfl)
@[simp] theorem setWork_hub (b : Block) (w : Work) : (setWork b w).hub = b.hub := (rfl)
@[simp] theorem setWork_ladle (b : Block) (w : Work) : (setWork b w).ladle = b.ladle := (rfl)
@[simp] theorem setWork_replies (b : Block) (w : Work) : (setWork b w).replies = b.replies := (rfl)
@[simp] theorem setWork_mirror (b : Block) (w : Work) : (setWork b w).mirror = b.mirror := (rfl)
@[simp] theorem setWork_ring (b : Block) (w : Work) : (setWork b w).ring = b.ring := (rfl)
@[simp] theorem setWork_ssu (b : Block) (w : Work) : (setWork b w).ssu = b.ssu := (rfl)
@[simp] theorem setWork_cru (b : Block) (w : Work) : (setWork b w).cru = b.cru := (rfl)
@[simp] theorem setWork_cha (b : Block) (w : Work) : (setWork b w).cha = b.cha := (rfl)
@[simp] theorem setWork_fcu (b : Block) (w : Work) : (setWork b w).fcu = b.fcu := (rfl)
@[simp] theorem setWork_held (b : Block) (w : Work) : (setWork b w).held = b.held := (rfl)
@[simp] theorem setWork_fresh (b : Block) (w : Work) : (setWork b w).fresh = b.fresh := (rfl)
@[simp] theorem setWork_out (b : Block) (w : Work) : (setWork b w).out = b.out := (rfl)

@[simp] theorem addWork_clk (b : Block) (w : Work) : (addWork b w).clk = b.clk := (rfl)
@[simp] theorem addWork_straps (b : Block) (w : Work) : (addWork b w).straps = b.straps := (rfl)
@[simp] theorem addWork_tags (b : Block) (w : Work) : (addWork b w).tags = b.tags := (rfl)
@[simp] theorem addWork_dict (b : Block) (w : Work) : (addWork b w).dict = b.dict := (rfl)
@[simp] theorem addWork_ptb (b : Block) (w : Work) : (addWork b w).ptb = b.ptb := (rfl)
@[simp] theorem addWork_mem (b : Block) (w : Work) : (addWork b w).mem = b.mem := (rfl)
@[simp] theorem addWork_hub (b : Block) (w : Work) : (addWork b w).hub = b.hub := (rfl)
@[simp] theorem addWork_ladle (b : Block) (w : Work) : (addWork b w).ladle = b.ladle := (rfl)
@[simp] theorem addWork_replies (b : Block) (w : Work) : (addWork b w).replies = b.replies := (rfl)
@[simp] theorem addWork_mirror (b : Block) (w : Work) : (addWork b w).mirror = b.mirror := (rfl)
@[simp] theorem addWork_ring (b : Block) (w : Work) : (addWork b w).ring = b.ring := (rfl)
@[simp] theorem addWork_ssu (b : Block) (w : Work) : (addWork b w).ssu = b.ssu := (rfl)
@[simp] theorem addWork_cru (b : Block) (w : Work) : (addWork b w).cru = b.cru := (rfl)
@[simp] theorem addWork_cha (b : Block) (w : Work) : (addWork b w).cha = b.cha := (rfl)
@[simp] theorem addWork_fcu (b : Block) (w : Work) : (addWork b w).fcu = b.fcu := (rfl)
@[simp] theorem addWork_held (b : Block) (w : Work) : (addWork b w).held = b.held := (rfl)
@[simp] theorem addWork_fresh (b : Block) (w : Work) : (addWork b w).fresh = b.fresh := (rfl)
@[simp] theorem addWork_out (b : Block) (w : Work) : (addWork b w).out = b.out := (rfl)

@[simp] theorem setInv_clk (b : Block) (s : Nat) (x : InvSlot) : (setInv b s x).clk = b.clk := (rfl)
@[simp] theorem setInv_straps (b : Block) (s : Nat) (x : InvSlot) : (setInv b s x).straps = b.straps := (rfl)
@[simp] theorem setInv_tags (b : Block) (s : Nat) (x : InvSlot) : (setInv b s x).tags = b.tags := (rfl)
@[simp] theorem setInv_dict (b : Block) (s : Nat) (x : InvSlot) : (setInv b s x).dict = b.dict := (rfl)
@[simp] theorem setInv_ptb (b : Block) (s : Nat) (x : InvSlot) : (setInv b s x).ptb = b.ptb := (rfl)
@[simp] theorem setInv_mem (b : Block) (s : Nat) (x : InvSlot) : (setInv b s x).mem = b.mem := (rfl)
@[simp] theorem setInv_ladle (b : Block) (s : Nat) (x : InvSlot) : (setInv b s x).ladle = b.ladle := (rfl)
@[simp] theorem setInv_tpe (b : Block) (s : Nat) (x : InvSlot) : (setInv b s x).tpe = b.tpe := (rfl)
@[simp] theorem setInv_replies (b : Block) (s : Nat) (x : InvSlot) : (setInv b s x).replies = b.replies := (rfl)
@[simp] theorem setInv_mirror (b : Block) (s : Nat) (x : InvSlot) : (setInv b s x).mirror = b.mirror := (rfl)
@[simp] theorem setInv_ring (b : Block) (s : Nat) (x : InvSlot) : (setInv b s x).ring = b.ring := (rfl)
@[simp] theorem setInv_ssu (b : Block) (s : Nat) (x : InvSlot) : (setInv b s x).ssu = b.ssu := (rfl)
@[simp] theorem setInv_cru (b : Block) (s : Nat) (x : InvSlot) : (setInv b s x).cru = b.cru := (rfl)
@[simp] theorem setInv_cha (b : Block) (s : Nat) (x : InvSlot) : (setInv b s x).cha = b.cha := (rfl)
@[simp] theorem setInv_fcu (b : Block) (s : Nat) (x : InvSlot) : (setInv b s x).fcu = b.fcu := (rfl)
@[simp] theorem setInv_held (b : Block) (s : Nat) (x : InvSlot) : (setInv b s x).held = b.held := (rfl)
@[simp] theorem setInv_fresh (b : Block) (s : Nat) (x : InvSlot) : (setInv b s x).fresh = b.fresh := (rfl)
@[simp] theorem setInv_out (b : Block) (s : Nat) (x : InvSlot) : (setInv b s x).out = b.out := (rfl)

@[simp] theorem clearDictWin_clk (b : Block) : (clearDictWin b).clk = b.clk := (rfl)
@[simp] theorem clearDictWin_straps (b : Block) : (clearDictWin b).straps = b.straps := (rfl)
@[simp] theorem clearDictWin_tags (b : Block) : (clearDictWin b).tags = b.tags := (rfl)
@[simp] theorem clearDictWin_ptb (b : Block) : (clearDictWin b).ptb = b.ptb := (rfl)
@[simp] theorem clearDictWin_mem (b : Block) : (clearDictWin b).mem = b.mem := (rfl)
@[simp] theorem clearDictWin_hub (b : Block) : (clearDictWin b).hub = b.hub := (rfl)
@[simp] theorem clearDictWin_ladle (b : Block) : (clearDictWin b).ladle = b.ladle := (rfl)
@[simp] theorem clearDictWin_tpe (b : Block) : (clearDictWin b).tpe = b.tpe := (rfl)
@[simp] theorem clearDictWin_replies (b : Block) : (clearDictWin b).replies = b.replies := (rfl)
@[simp] theorem clearDictWin_mirror (b : Block) : (clearDictWin b).mirror = b.mirror := (rfl)
@[simp] theorem clearDictWin_ring (b : Block) : (clearDictWin b).ring = b.ring := (rfl)
@[simp] theorem clearDictWin_ssu (b : Block) : (clearDictWin b).ssu = b.ssu := (rfl)
@[simp] theorem clearDictWin_cru (b : Block) : (clearDictWin b).cru = b.cru := (rfl)
@[simp] theorem clearDictWin_cha (b : Block) : (clearDictWin b).cha = b.cha := (rfl)
@[simp] theorem clearDictWin_fcu (b : Block) : (clearDictWin b).fcu = b.fcu := (rfl)
@[simp] theorem clearDictWin_held (b : Block) : (clearDictWin b).held = b.held := (rfl)
@[simp] theorem clearDictWin_fresh (b : Block) : (clearDictWin b).fresh = b.fresh := (rfl)
@[simp] theorem clearDictWin_out (b : Block) : (clearDictWin b).out = b.out := (rfl)

@[simp] theorem storeImage_clk (b : Block) (c : Bytes) : (storeImage b c).clk = b.clk := (rfl)
@[simp] theorem storeImage_straps (b : Block) (c : Bytes) : (storeImage b c).straps = b.straps := (rfl)
@[simp] theorem storeImage_tags (b : Block) (c : Bytes) : (storeImage b c).tags = b.tags := (rfl)
@[simp] theorem storeImage_ptb (b : Block) (c : Bytes) : (storeImage b c).ptb = b.ptb := (rfl)
@[simp] theorem storeImage_mem (b : Block) (c : Bytes) : (storeImage b c).mem = b.mem := (rfl)
@[simp] theorem storeImage_hub (b : Block) (c : Bytes) : (storeImage b c).hub = b.hub := (rfl)
@[simp] theorem storeImage_ladle (b : Block) (c : Bytes) : (storeImage b c).ladle = b.ladle := (rfl)
@[simp] theorem storeImage_tpe (b : Block) (c : Bytes) : (storeImage b c).tpe = b.tpe := (rfl)
@[simp] theorem storeImage_replies (b : Block) (c : Bytes) : (storeImage b c).replies = b.replies := (rfl)
@[simp] theorem storeImage_mirror (b : Block) (c : Bytes) : (storeImage b c).mirror = b.mirror := (rfl)
@[simp] theorem storeImage_ring (b : Block) (c : Bytes) : (storeImage b c).ring = b.ring := (rfl)
@[simp] theorem storeImage_ssu (b : Block) (c : Bytes) : (storeImage b c).ssu = b.ssu := (rfl)
@[simp] theorem storeImage_cru (b : Block) (c : Bytes) : (storeImage b c).cru = b.cru := (rfl)
@[simp] theorem storeImage_cha (b : Block) (c : Bytes) : (storeImage b c).cha = b.cha := (rfl)
@[simp] theorem storeImage_fcu (b : Block) (c : Bytes) : (storeImage b c).fcu = b.fcu := (rfl)
@[simp] theorem storeImage_held (b : Block) (c : Bytes) : (storeImage b c).held = b.held := (rfl)
@[simp] theorem storeImage_fresh (b : Block) (c : Bytes) : (storeImage b c).fresh = b.fresh := (rfl)
@[simp] theorem storeImage_out (b : Block) (c : Bytes) : (storeImage b c).out = b.out := (rfl)

@[simp] theorem setWalk_clk (b : Block) (w : Walk) : (setWalk b w).clk = b.clk := (rfl)
@[simp] theorem setWalk_straps (b : Block) (w : Walk) : (setWalk b w).straps = b.straps := (rfl)
@[simp] theorem setWalk_tags (b : Block) (w : Walk) : (setWalk b w).tags = b.tags := (rfl)
@[simp] theorem setWalk_dict (b : Block) (w : Walk) : (setWalk b w).dict = b.dict := (rfl)
@[simp] theorem setWalk_ptb (b : Block) (w : Walk) : (setWalk b w).ptb = b.ptb := (rfl)
@[simp] theorem setWalk_mem (b : Block) (w : Walk) : (setWalk b w).mem = b.mem := (rfl)
@[simp] theorem setWalk_ladle (b : Block) (w : Walk) : (setWalk b w).ladle = b.ladle := (rfl)
@[simp] theorem setWalk_tpe (b : Block) (w : Walk) : (setWalk b w).tpe = b.tpe := (rfl)
@[simp] theorem setWalk_replies (b : Block) (w : Walk) : (setWalk b w).replies = b.replies := (rfl)
@[simp] theorem setWalk_mirror (b : Block) (w : Walk) : (setWalk b w).mirror = b.mirror := (rfl)
@[simp] theorem setWalk_ring (b : Block) (w : Walk) : (setWalk b w).ring = b.ring := (rfl)
@[simp] theorem setWalk_ssu (b : Block) (w : Walk) : (setWalk b w).ssu = b.ssu := (rfl)
@[simp] theorem setWalk_cru (b : Block) (w : Walk) : (setWalk b w).cru = b.cru := (rfl)
@[simp] theorem setWalk_cha (b : Block) (w : Walk) : (setWalk b w).cha = b.cha := (rfl)
@[simp] theorem setWalk_fcu (b : Block) (w : Walk) : (setWalk b w).fcu = b.fcu := (rfl)
@[simp] theorem setWalk_held (b : Block) (w : Walk) : (setWalk b w).held = b.held := (rfl)
@[simp] theorem setWalk_fresh (b : Block) (w : Walk) : (setWalk b w).fresh = b.fresh := (rfl)
@[simp] theorem setWalk_out (b : Block) (w : Walk) : (setWalk b w).out = b.out := (rfl)

@[simp] theorem dropWalk_clk (b : Block) (num : Nat) : (dropWalk b num).clk = b.clk := (rfl)
@[simp] theorem dropWalk_straps (b : Block) (num : Nat) : (dropWalk b num).straps = b.straps := (rfl)
@[simp] theorem dropWalk_tags (b : Block) (num : Nat) : (dropWalk b num).tags = b.tags := (rfl)
@[simp] theorem dropWalk_dict (b : Block) (num : Nat) : (dropWalk b num).dict = b.dict := (rfl)
@[simp] theorem dropWalk_ptb (b : Block) (num : Nat) : (dropWalk b num).ptb = b.ptb := (rfl)
@[simp] theorem dropWalk_mem (b : Block) (num : Nat) : (dropWalk b num).mem = b.mem := (rfl)
@[simp] theorem dropWalk_ladle (b : Block) (num : Nat) : (dropWalk b num).ladle = b.ladle := (rfl)
@[simp] theorem dropWalk_tpe (b : Block) (num : Nat) : (dropWalk b num).tpe = b.tpe := (rfl)
@[simp] theorem dropWalk_replies (b : Block) (num : Nat) : (dropWalk b num).replies = b.replies := (rfl)
@[simp] theorem dropWalk_mirror (b : Block) (num : Nat) : (dropWalk b num).mirror = b.mirror := (rfl)
@[simp] theorem dropWalk_ring (b : Block) (num : Nat) : (dropWalk b num).ring = b.ring := (rfl)
@[simp] theorem dropWalk_ssu (b : Block) (num : Nat) : (dropWalk b num).ssu = b.ssu := (rfl)
@[simp] theorem dropWalk_cru (b : Block) (num : Nat) : (dropWalk b num).cru = b.cru := (rfl)
@[simp] theorem dropWalk_cha (b : Block) (num : Nat) : (dropWalk b num).cha = b.cha := (rfl)
@[simp] theorem dropWalk_fcu (b : Block) (num : Nat) : (dropWalk b num).fcu = b.fcu := (rfl)
@[simp] theorem dropWalk_held (b : Block) (num : Nat) : (dropWalk b num).held = b.held := (rfl)
@[simp] theorem dropWalk_fresh (b : Block) (num : Nat) : (dropWalk b num).fresh = b.fresh := (rfl)
@[simp] theorem dropWalk_out (b : Block) (num : Nat) : (dropWalk b num).out = b.out := (rfl)

@[simp] theorem progressedBy_clk (b : Block) (unit n : Nat) : (progressedBy b unit n).clk = b.clk := (rfl)
@[simp] theorem progressedBy_straps (b : Block) (unit n : Nat) : (progressedBy b unit n).straps = b.straps := (rfl)
@[simp] theorem progressedBy_tags (b : Block) (unit n : Nat) : (progressedBy b unit n).tags = b.tags := (rfl)
@[simp] theorem progressedBy_dict (b : Block) (unit n : Nat) : (progressedBy b unit n).dict = b.dict := (rfl)
@[simp] theorem progressedBy_ptb (b : Block) (unit n : Nat) : (progressedBy b unit n).ptb = b.ptb := (rfl)
@[simp] theorem progressedBy_mem (b : Block) (unit n : Nat) : (progressedBy b unit n).mem = b.mem := (rfl)
@[simp] theorem progressedBy_hub (b : Block) (unit n : Nat) : (progressedBy b unit n).hub = b.hub := (rfl)
@[simp] theorem progressedBy_ladle (b : Block) (unit n : Nat) : (progressedBy b unit n).ladle = b.ladle := (rfl)
@[simp] theorem progressedBy_tpe (b : Block) (unit n : Nat) : (progressedBy b unit n).tpe = b.tpe := (rfl)
@[simp] theorem progressedBy_replies (b : Block) (unit n : Nat) : (progressedBy b unit n).replies = b.replies := (rfl)
@[simp] theorem progressedBy_mirror (b : Block) (unit n : Nat) : (progressedBy b unit n).mirror = b.mirror := (rfl)
@[simp] theorem progressedBy_ring (b : Block) (unit n : Nat) : (progressedBy b unit n).ring = b.ring := (rfl)
@[simp] theorem progressedBy_ssu (b : Block) (unit n : Nat) : (progressedBy b unit n).ssu = b.ssu := (rfl)
@[simp] theorem progressedBy_cru (b : Block) (unit n : Nat) : (progressedBy b unit n).cru = b.cru := (rfl)
@[simp] theorem progressedBy_cha (b : Block) (unit n : Nat) : (progressedBy b unit n).cha = b.cha := (rfl)
@[simp] theorem progressedBy_held (b : Block) (unit n : Nat) : (progressedBy b unit n).held = b.held := (rfl)
@[simp] theorem progressedBy_fresh (b : Block) (unit n : Nat) : (progressedBy b unit n).fresh = b.fresh := (rfl)
@[simp] theorem progressedBy_out (b : Block) (unit n : Nat) : (progressedBy b unit n).out = b.out := (rfl)

/-! ## What the accessors read after an update of another unit -/

@[simp] theorem rd_setStation (b : Block) (es : Nat) (x : Station) (i s : Nat) : rd (setStation b es x) i s = rd b i s := (rfl)
@[simp] theorem rdBlob_setStation (b : Block) (es : Nat) (x : Station) (i s : Nat) : rdBlob (setStation b es x) i s = rdBlob b i s := (rfl)
@[simp] theorem part_setStation (b : Block) (es : Nat) (x : Station) (q : Nat) : part (setStation b es x) q = part b q := (rfl)
@[simp] theorem owner_setStation (b : Block) (es : Nat) (x : Station) (q : Nat) : owner (setStation b es x) q = owner b q := (rfl)
@[simp] theorem domain_setStation (b : Block) (es : Nat) (x : Station) (q : Nat) : domain (setStation b es x) q = domain b q := (rfl)
@[simp] theorem qp_setStation (b : Block) (es : Nat) (x : Station) (q : Nat) : qp (setStation b es x) q = qp b q := (rfl)
@[simp] theorem key_setStation (b : Block) (es : Nat) (x : Station) (q : Nat) : key (setStation b es x) q = key b q := (rfl)
@[simp] theorem port_setStation (b : Block) (es : Nat) (x : Station) (q : Nat) : port (setStation b es x) q = port b q := (rfl)
@[simp] theorem chan_setStation (b : Block) (es : Nat) (x : Station) (q : Nat) : chan (setStation b es x) q = chan b q := (rfl)
@[simp] theorem group_setStation (b : Block) (es : Nat) (x : Station) (q r : Nat) : group (setStation b es x) q r = group b q r := (rfl)
@[simp] theorem readByte_setStation (b : Block) (es : Nat) (x : Station) (q : Nat) : readByte (setStation b es x) q = readByte b q := (rfl)

@[simp] theorem rd_setStep (b : Block) (s : Step) (i s' : Nat) : rd (setStep b s) i s' = rd b i s' := (rfl)
@[simp] theorem rdBlob_setStep (b : Block) (s : Step) (i s' : Nat) : rdBlob (setStep b s) i s' = rdBlob b i s' := (rfl)
@[simp] theorem part_setStep (b : Block) (s : Step) (q : Nat) : part (setStep b s) q = part b q := (rfl)
@[simp] theorem owner_setStep (b : Block) (s : Step) (q : Nat) : owner (setStep b s) q = owner b q := (rfl)
@[simp] theorem domain_setStep (b : Block) (s : Step) (q : Nat) : domain (setStep b s) q = domain b q := (rfl)
@[simp] theorem qp_setStep (b : Block) (s : Step) (q : Nat) : qp (setStep b s) q = qp b q := (rfl)
@[simp] theorem key_setStep (b : Block) (s : Step) (q : Nat) : key (setStep b s) q = key b q := (rfl)
@[simp] theorem port_setStep (b : Block) (s : Step) (q : Nat) : port (setStep b s) q = port b q := (rfl)
@[simp] theorem chan_setStep (b : Block) (s : Step) (q : Nat) : chan (setStep b s) q = chan b q := (rfl)
@[simp] theorem group_setStep (b : Block) (s : Step) (q r : Nat) : group (setStep b s) q r = group b q r := (rfl)
@[simp] theorem readByte_setStep (b : Block) (s : Step) (q : Nat) : readByte (setStep b s) q = readByte b q := (rfl)

@[simp] theorem part_setSlot (b : Block) (fn slot : Nat) (s : Slot) (q : Nat) : part (setSlot b fn slot s) q = part b q := (rfl)
@[simp] theorem owner_setSlot (b : Block) (fn slot : Nat) (s : Slot) (q : Nat) : owner (setSlot b fn slot s) q = owner b q := (rfl)
@[simp] theorem domain_setSlot (b : Block) (fn slot : Nat) (s : Slot) (q : Nat) : domain (setSlot b fn slot s) q = domain b q := (rfl)
@[simp] theorem qp_setSlot (b : Block) (fn slot : Nat) (s : Slot) (q : Nat) : qp (setSlot b fn slot s) q = qp b q := (rfl)
@[simp] theorem key_setSlot (b : Block) (fn slot : Nat) (s : Slot) (q : Nat) : key (setSlot b fn slot s) q = key b q := (rfl)
@[simp] theorem port_setSlot (b : Block) (fn slot : Nat) (s : Slot) (q : Nat) : port (setSlot b fn slot s) q = port b q := (rfl)
@[simp] theorem chan_setSlot (b : Block) (fn slot : Nat) (s : Slot) (q : Nat) : chan (setSlot b fn slot s) q = chan b q := (rfl)
@[simp] theorem station_setSlot (b : Block) (fn slot : Nat) (s : Slot) (q : Nat) : station (setSlot b fn slot s) q = station b q := (rfl)
@[simp] theorem group_setSlot (b : Block) (fn slot : Nat) (s : Slot) (q r : Nat) : group (setSlot b fn slot s) q r = group b q r := (rfl)
@[simp] theorem readByte_setSlot (b : Block) (fn slot : Nat) (s : Slot) (q : Nat) : readByte (setSlot b fn slot s) q = readByte b q := (rfl)

@[simp] theorem part_keepResponse (b : Block) (k : Nat) (r : Kept) (q : Nat) : part (keepResponse b k r) q = part b q := (rfl)
@[simp] theorem owner_keepResponse (b : Block) (k : Nat) (r : Kept) (q : Nat) : owner (keepResponse b k r) q = owner b q := (rfl)
@[simp] theorem domain_keepResponse (b : Block) (k : Nat) (r : Kept) (q : Nat) : domain (keepResponse b k r) q = domain b q := (rfl)
@[simp] theorem qp_keepResponse (b : Block) (k : Nat) (r : Kept) (q : Nat) : qp (keepResponse b k r) q = qp b q := (rfl)
@[simp] theorem key_keepResponse (b : Block) (k : Nat) (r : Kept) (q : Nat) : key (keepResponse b k r) q = key b q := (rfl)
@[simp] theorem port_keepResponse (b : Block) (k : Nat) (r : Kept) (q : Nat) : port (keepResponse b k r) q = port b q := (rfl)
@[simp] theorem chan_keepResponse (b : Block) (k : Nat) (r : Kept) (q : Nat) : chan (keepResponse b k r) q = chan b q := (rfl)
@[simp] theorem station_keepResponse (b : Block) (k : Nat) (r : Kept) (q : Nat) : station (keepResponse b k r) q = station b q := (rfl)
@[simp] theorem group_keepResponse (b : Block) (k : Nat) (r : Kept) (q r' : Nat) : group (keepResponse b k r) q r' = group b q r' := (rfl)
@[simp] theorem readByte_keepResponse (b : Block) (k : Nat) (r : Kept) (q : Nat) : readByte (keepResponse b k r) q = readByte b q := (rfl)

@[simp] theorem rd_setQp (b : Block) (i : Nat) (q : Qp) (i' s : Nat) : rd (setQp b i q) i' s = rd b i' s := (rfl)
@[simp] theorem rdBlob_setQp (b : Block) (i : Nat) (q : Qp) (i' s : Nat) : rdBlob (setQp b i q) i' s = rdBlob b i' s := (rfl)
@[simp] theorem part_setQp (b : Block) (i : Nat) (q : Qp) (q' : Nat) : part (setQp b i q) q' = part b q' := (rfl)
@[simp] theorem owner_setQp (b : Block) (i : Nat) (q : Qp) (q' : Nat) : owner (setQp b i q) q' = owner b q' := (rfl)
@[simp] theorem domain_setQp (b : Block) (i : Nat) (q : Qp) (q' : Nat) : domain (setQp b i q) q' = domain b q' := (rfl)
@[simp] theorem chan_setQp (b : Block) (i : Nat) (q : Qp) (q' : Nat) : chan (setQp b i q) q' = chan b q' := (rfl)
@[simp] theorem station_setQp (b : Block) (i : Nat) (q : Qp) (q' : Nat) : station (setQp b i q) q' = station b q' := (rfl)
@[simp] theorem group_setQp (b : Block) (i : Nat) (q : Qp) (q' r : Nat) : group (setQp b i q) q' r = group b q' r := (rfl)
@[simp] theorem readByte_setQp (b : Block) (i : Nat) (q : Qp) (q' : Nat) : readByte (setQp b i q) q' = readByte b q' := (rfl)

@[simp] theorem rd_putKey (b : Block) (i : Nat) (k : Key) (i' s : Nat) : rd (putKey b i k) i' s = rd b i' s := (rfl)
@[simp] theorem rdBlob_putKey (b : Block) (i : Nat) (k : Key) (i' s : Nat) : rdBlob (putKey b i k) i' s = rdBlob b i' s := (rfl)
@[simp] theorem part_putKey (b : Block) (i : Nat) (k : Key) (q : Nat) : part (putKey b i k) q = part b q := (rfl)
@[simp] theorem owner_putKey (b : Block) (i : Nat) (k : Key) (q : Nat) : owner (putKey b i k) q = owner b q := (rfl)
@[simp] theorem domain_putKey (b : Block) (i : Nat) (k : Key) (q : Nat) : domain (putKey b i k) q = domain b q := (rfl)
@[simp] theorem chan_putKey (b : Block) (i : Nat) (k : Key) (q : Nat) : chan (putKey b i k) q = chan b q := (rfl)
@[simp] theorem station_putKey (b : Block) (i : Nat) (k : Key) (q : Nat) : station (putKey b i k) q = station b q := (rfl)
@[simp] theorem group_putKey (b : Block) (i : Nat) (k : Key) (q r : Nat) : group (putKey b i k) q r = group b q r := (rfl)
@[simp] theorem readByte_putKey (b : Block) (i : Nat) (k : Key) (q : Nat) : readByte (putKey b i k) q = readByte b q := (rfl)

@[simp] theorem rd_setPort (b : Block) (p : Nat) (x : Port) (i s : Nat) : rd (setPort b p x) i s = rd b i s := (rfl)
@[simp] theorem rdBlob_setPort (b : Block) (p : Nat) (x : Port) (i s : Nat) : rdBlob (setPort b p x) i s = rdBlob b i s := (rfl)
@[simp] theorem part_setPort (b : Block) (p : Nat) (x : Port) (q : Nat) : part (setPort b p x) q = part b q := (rfl)
@[simp] theorem owner_setPort (b : Block) (p : Nat) (x : Port) (q : Nat) : owner (setPort b p x) q = owner b q := (rfl)
@[simp] theorem domain_setPort (b : Block) (p : Nat) (x : Port) (q : Nat) : domain (setPort b p x) q = domain b q := (rfl)
@[simp] theorem chan_setPort (b : Block) (p : Nat) (x : Port) (q : Nat) : chan (setPort b p x) q = chan b q := (rfl)
@[simp] theorem station_setPort (b : Block) (p : Nat) (x : Port) (q : Nat) : station (setPort b p x) q = station b q := (rfl)
@[simp] theorem group_setPort (b : Block) (p : Nat) (x : Port) (q r : Nat) : group (setPort b p x) q r = group b q r := (rfl)
@[simp] theorem readByte_setPort (b : Block) (p : Nat) (x : Port) (q : Nat) : readByte (setPort b p x) q = readByte b q := (rfl)

@[simp] theorem rd_setGroup (b : Block) (pid g : Nat) (x : Group) (i s : Nat) : rd (setGroup b pid g x) i s = rd b i s := (rfl)
@[simp] theorem rdBlob_setGroup (b : Block) (pid g : Nat) (x : Group) (i s : Nat) : rdBlob (setGroup b pid g x) i s = rdBlob b i s := (rfl)
@[simp] theorem part_setGroup (b : Block) (pid g : Nat) (x : Group) (q : Nat) : part (setGroup b pid g x) q = part b q := (rfl)
@[simp] theorem owner_setGroup (b : Block) (pid g : Nat) (x : Group) (q : Nat) : owner (setGroup b pid g x) q = owner b q := (rfl)
@[simp] theorem domain_setGroup (b : Block) (pid g : Nat) (x : Group) (q : Nat) : domain (setGroup b pid g x) q = domain b q := (rfl)
@[simp] theorem qp_setGroup (b : Block) (pid g : Nat) (x : Group) (q : Nat) : qp (setGroup b pid g x) q = qp b q := (rfl)
@[simp] theorem key_setGroup (b : Block) (pid g : Nat) (x : Group) (q : Nat) : key (setGroup b pid g x) q = key b q := (rfl)
@[simp] theorem port_setGroup (b : Block) (pid g : Nat) (x : Group) (q : Nat) : port (setGroup b pid g x) q = port b q := (rfl)
@[simp] theorem chan_setGroup (b : Block) (pid g : Nat) (x : Group) (q : Nat) : chan (setGroup b pid g x) q = chan b q := (rfl)
@[simp] theorem station_setGroup (b : Block) (pid g : Nat) (x : Group) (q : Nat) : station (setGroup b pid g x) q = station b q := (rfl)
@[simp] theorem readByte_setGroup (b : Block) (pid g : Nat) (x : Group) (q : Nat) : readByte (setGroup b pid g x) q = readByte b q := (rfl)

@[simp] theorem rd_setChan (b : Block) (c : Nat) (x : Chan) (i s : Nat) : rd (setChan b c x) i s = rd b i s := (rfl)
@[simp] theorem rdBlob_setChan (b : Block) (c : Nat) (x : Chan) (i s : Nat) : rdBlob (setChan b c x) i s = rdBlob b i s := (rfl)
@[simp] theorem part_setChan (b : Block) (c : Nat) (x : Chan) (q : Nat) : part (setChan b c x) q = part b q := (rfl)
@[simp] theorem owner_setChan (b : Block) (c : Nat) (x : Chan) (q : Nat) : owner (setChan b c x) q = owner b q := (rfl)
@[simp] theorem domain_setChan (b : Block) (c : Nat) (x : Chan) (q : Nat) : domain (setChan b c x) q = domain b q := (rfl)
@[simp] theorem qp_setChan (b : Block) (c : Nat) (x : Chan) (q : Nat) : qp (setChan b c x) q = qp b q := (rfl)
@[simp] theorem key_setChan (b : Block) (c : Nat) (x : Chan) (q : Nat) : key (setChan b c x) q = key b q := (rfl)
@[simp] theorem port_setChan (b : Block) (c : Nat) (x : Chan) (q : Nat) : port (setChan b c x) q = port b q := (rfl)
@[simp] theorem station_setChan (b : Block) (c : Nat) (x : Chan) (q : Nat) : station (setChan b c x) q = station b q := (rfl)
@[simp] theorem group_setChan (b : Block) (c : Nat) (x : Chan) (q r : Nat) : group (setChan b c x) q r = group b q r := (rfl)
@[simp] theorem readByte_setChan (b : Block) (c : Nat) (x : Chan) (q : Nat) : readByte (setChan b c x) q = readByte b q := (rfl)

@[simp] theorem part_wr (b : Block) (idx sub v : Nat) (q : Nat) : part (wr b idx sub v) q = part b q := (rfl)
@[simp] theorem owner_wr (b : Block) (idx sub v : Nat) (q : Nat) : owner (wr b idx sub v) q = owner b q := (rfl)
@[simp] theorem domain_wr (b : Block) (idx sub v : Nat) (q : Nat) : domain (wr b idx sub v) q = domain b q := (rfl)
@[simp] theorem qp_wr (b : Block) (idx sub v : Nat) (q : Nat) : qp (wr b idx sub v) q = qp b q := (rfl)
@[simp] theorem key_wr (b : Block) (idx sub v : Nat) (q : Nat) : key (wr b idx sub v) q = key b q := (rfl)
@[simp] theorem port_wr (b : Block) (idx sub v : Nat) (q : Nat) : port (wr b idx sub v) q = port b q := (rfl)
@[simp] theorem chan_wr (b : Block) (idx sub v : Nat) (q : Nat) : chan (wr b idx sub v) q = chan b q := (rfl)
@[simp] theorem station_wr (b : Block) (idx sub v : Nat) (q : Nat) : station (wr b idx sub v) q = station b q := (rfl)
@[simp] theorem group_wr (b : Block) (idx sub v : Nat) (q r : Nat) : group (wr b idx sub v) q r = group b q r := (rfl)
@[simp] theorem readByte_wr (b : Block) (idx sub v : Nat) (q : Nat) : readByte (wr b idx sub v) q = readByte b q := (rfl)

@[simp] theorem part_wrBlob (b : Block) (idx sub : Nat) (c : Bytes) (q : Nat) : part (wrBlob b idx sub c) q = part b q := (rfl)
@[simp] theorem owner_wrBlob (b : Block) (idx sub : Nat) (c : Bytes) (q : Nat) : owner (wrBlob b idx sub c) q = owner b q := (rfl)
@[simp] theorem domain_wrBlob (b : Block) (idx sub : Nat) (c : Bytes) (q : Nat) : domain (wrBlob b idx sub c) q = domain b q := (rfl)
@[simp] theorem qp_wrBlob (b : Block) (idx sub : Nat) (c : Bytes) (q : Nat) : qp (wrBlob b idx sub c) q = qp b q := (rfl)
@[simp] theorem key_wrBlob (b : Block) (idx sub : Nat) (c : Bytes) (q : Nat) : key (wrBlob b idx sub c) q = key b q := (rfl)
@[simp] theorem port_wrBlob (b : Block) (idx sub : Nat) (c : Bytes) (q : Nat) : port (wrBlob b idx sub c) q = port b q := (rfl)
@[simp] theorem chan_wrBlob (b : Block) (idx sub : Nat) (c : Bytes) (q : Nat) : chan (wrBlob b idx sub c) q = chan b q := (rfl)
@[simp] theorem station_wrBlob (b : Block) (idx sub : Nat) (c : Bytes) (q : Nat) : station (wrBlob b idx sub c) q = station b q := (rfl)
@[simp] theorem group_wrBlob (b : Block) (idx sub : Nat) (c : Bytes) (q r : Nat) : group (wrBlob b idx sub c) q r = group b q r := (rfl)
@[simp] theorem readByte_wrBlob (b : Block) (idx sub : Nat) (c : Bytes) (q : Nat) : readByte (wrBlob b idx sub c) q = readByte b q := (rfl)

@[simp] theorem rd_emit (b : Block) (o : Out) (i s : Nat) : rd (emit b o) i s = rd b i s := (rfl)
@[simp] theorem rdBlob_emit (b : Block) (o : Out) (i s : Nat) : rdBlob (emit b o) i s = rdBlob b i s := (rfl)
@[simp] theorem part_emit (b : Block) (o : Out) (q : Nat) : part (emit b o) q = part b q := (rfl)
@[simp] theorem owner_emit (b : Block) (o : Out) (q : Nat) : owner (emit b o) q = owner b q := (rfl)
@[simp] theorem domain_emit (b : Block) (o : Out) (q : Nat) : domain (emit b o) q = domain b q := (rfl)
@[simp] theorem qp_emit (b : Block) (o : Out) (q : Nat) : qp (emit b o) q = qp b q := (rfl)
@[simp] theorem key_emit (b : Block) (o : Out) (q : Nat) : key (emit b o) q = key b q := (rfl)
@[simp] theorem port_emit (b : Block) (o : Out) (q : Nat) : port (emit b o) q = port b q := (rfl)
@[simp] theorem chan_emit (b : Block) (o : Out) (q : Nat) : chan (emit b o) q = chan b q := (rfl)
@[simp] theorem station_emit (b : Block) (o : Out) (q : Nat) : station (emit b o) q = station b q := (rfl)
@[simp] theorem group_emit (b : Block) (o : Out) (q r : Nat) : group (emit b o) q r = group b q r := (rfl)
@[simp] theorem readByte_emit (b : Block) (o : Out) (q : Nat) : readByte (emit b o) q = readByte b q := (rfl)

@[simp] theorem rd_setPart (b : Block) (pid : Nat) (p : Part) (i s : Nat) : rd (setPart b pid p) i s = rd b i s := (rfl)
@[simp] theorem rdBlob_setPart (b : Block) (pid : Nat) (p : Part) (i s : Nat) : rdBlob (setPart b pid p) i s = rdBlob b i s := (rfl)
@[simp] theorem domain_setPart (b : Block) (pid : Nat) (p : Part) (q : Nat) : domain (setPart b pid p) q = domain b q := (rfl)
@[simp] theorem qp_setPart (b : Block) (pid : Nat) (p : Part) (q : Nat) : qp (setPart b pid p) q = qp b q := (rfl)
@[simp] theorem key_setPart (b : Block) (pid : Nat) (p : Part) (q : Nat) : key (setPart b pid p) q = key b q := (rfl)
@[simp] theorem port_setPart (b : Block) (pid : Nat) (p : Part) (q : Nat) : port (setPart b pid p) q = port b q := (rfl)
@[simp] theorem chan_setPart (b : Block) (pid : Nat) (p : Part) (q : Nat) : chan (setPart b pid p) q = chan b q := (rfl)
@[simp] theorem station_setPart (b : Block) (pid : Nat) (p : Part) (q : Nat) : station (setPart b pid p) q = station b q := (rfl)
@[simp] theorem group_setPart (b : Block) (pid : Nat) (p : Part) (q r : Nat) : group (setPart b pid p) q r = group b q r := (rfl)
@[simp] theorem readByte_setPart (b : Block) (pid : Nat) (p : Part) (q : Nat) : readByte (setPart b pid p) q = readByte b q := (rfl)

@[simp] theorem rd_setDomain (b : Block) (k : Nat) (d : Domain) (i s : Nat) : rd (setDomain b k d) i s = rd b i s := (rfl)
@[simp] theorem rdBlob_setDomain (b : Block) (k : Nat) (d : Domain) (i s : Nat) : rdBlob (setDomain b k d) i s = rdBlob b i s := (rfl)
@[simp] theorem part_setDomain (b : Block) (k : Nat) (d : Domain) (q : Nat) : part (setDomain b k d) q = part b q := (rfl)
@[simp] theorem owner_setDomain (b : Block) (k : Nat) (d : Domain) (q : Nat) : owner (setDomain b k d) q = owner b q := (rfl)
@[simp] theorem qp_setDomain (b : Block) (k : Nat) (d : Domain) (q : Nat) : qp (setDomain b k d) q = qp b q := (rfl)
@[simp] theorem key_setDomain (b : Block) (k : Nat) (d : Domain) (q : Nat) : key (setDomain b k d) q = key b q := (rfl)
@[simp] theorem port_setDomain (b : Block) (k : Nat) (d : Domain) (q : Nat) : port (setDomain b k d) q = port b q := (rfl)
@[simp] theorem chan_setDomain (b : Block) (k : Nat) (d : Domain) (q : Nat) : chan (setDomain b k d) q = chan b q := (rfl)
@[simp] theorem station_setDomain (b : Block) (k : Nat) (d : Domain) (q : Nat) : station (setDomain b k d) q = station b q := (rfl)
@[simp] theorem group_setDomain (b : Block) (k : Nat) (d : Domain) (q r : Nat) : group (setDomain b k d) q r = group b q r := (rfl)
@[simp] theorem readByte_setDomain (b : Block) (k : Nat) (d : Domain) (q : Nat) : readByte (setDomain b k d) q = readByte b q := (rfl)

@[simp] theorem rd_setOwner (b : Block) (g : Nat) (e : OwnerEntry) (i s : Nat) : rd (setOwner b g e) i s = rd b i s := (rfl)
@[simp] theorem rdBlob_setOwner (b : Block) (g : Nat) (e : OwnerEntry) (i s : Nat) : rdBlob (setOwner b g e) i s = rdBlob b i s := (rfl)
@[simp] theorem domain_setOwner (b : Block) (g : Nat) (e : OwnerEntry) (q : Nat) : domain (setOwner b g e) q = domain b q := (rfl)
@[simp] theorem qp_setOwner (b : Block) (g : Nat) (e : OwnerEntry) (q : Nat) : qp (setOwner b g e) q = qp b q := (rfl)
@[simp] theorem key_setOwner (b : Block) (g : Nat) (e : OwnerEntry) (q : Nat) : key (setOwner b g e) q = key b q := (rfl)
@[simp] theorem port_setOwner (b : Block) (g : Nat) (e : OwnerEntry) (q : Nat) : port (setOwner b g e) q = port b q := (rfl)
@[simp] theorem chan_setOwner (b : Block) (g : Nat) (e : OwnerEntry) (q : Nat) : chan (setOwner b g e) q = chan b q := (rfl)
@[simp] theorem station_setOwner (b : Block) (g : Nat) (e : OwnerEntry) (q : Nat) : station (setOwner b g e) q = station b q := (rfl)
@[simp] theorem group_setOwner (b : Block) (g : Nat) (e : OwnerEntry) (q r : Nat) : group (setOwner b g e) q r = group b q r := (rfl)
@[simp] theorem readByte_setOwner (b : Block) (g : Nat) (e : OwnerEntry) (q : Nat) : readByte (setOwner b g e) q = readByte b q := (rfl)

@[simp] theorem rd_writeByte (b : Block) (a : Nat) (v : BitVec 8) (i s : Nat) : rd (writeByte b a v) i s = rd b i s := (rfl)
@[simp] theorem rdBlob_writeByte (b : Block) (a : Nat) (v : BitVec 8) (i s : Nat) : rdBlob (writeByte b a v) i s = rdBlob b i s := (rfl)
@[simp] theorem part_writeByte (b : Block) (a : Nat) (v : BitVec 8) (q : Nat) : part (writeByte b a v) q = part b q := (rfl)
@[simp] theorem owner_writeByte (b : Block) (a : Nat) (v : BitVec 8) (q : Nat) : owner (writeByte b a v) q = owner b q := (rfl)
@[simp] theorem domain_writeByte (b : Block) (a : Nat) (v : BitVec 8) (q : Nat) : domain (writeByte b a v) q = domain b q := (rfl)
@[simp] theorem qp_writeByte (b : Block) (a : Nat) (v : BitVec 8) (q : Nat) : qp (writeByte b a v) q = qp b q := (rfl)
@[simp] theorem key_writeByte (b : Block) (a : Nat) (v : BitVec 8) (q : Nat) : key (writeByte b a v) q = key b q := (rfl)
@[simp] theorem port_writeByte (b : Block) (a : Nat) (v : BitVec 8) (q : Nat) : port (writeByte b a v) q = port b q := (rfl)
@[simp] theorem chan_writeByte (b : Block) (a : Nat) (v : BitVec 8) (q : Nat) : chan (writeByte b a v) q = chan b q := (rfl)
@[simp] theorem station_writeByte (b : Block) (a : Nat) (v : BitVec 8) (q : Nat) : station (writeByte b a v) q = station b q := (rfl)
@[simp] theorem group_writeByte (b : Block) (a : Nat) (v : BitVec 8) (q r : Nat) : group (writeByte b a v) q r = group b q r := (rfl)

@[simp] theorem rd_dropTag (b : Block) (tag : Nat) (i s : Nat) : rd (dropTag b tag) i s = rd b i s := (rfl)
@[simp] theorem rdBlob_dropTag (b : Block) (tag : Nat) (i s : Nat) : rdBlob (dropTag b tag) i s = rdBlob b i s := (rfl)
@[simp] theorem part_dropTag (b : Block) (tag : Nat) (q : Nat) : part (dropTag b tag) q = part b q := (rfl)
@[simp] theorem owner_dropTag (b : Block) (tag : Nat) (q : Nat) : owner (dropTag b tag) q = owner b q := (rfl)
@[simp] theorem domain_dropTag (b : Block) (tag : Nat) (q : Nat) : domain (dropTag b tag) q = domain b q := (rfl)
@[simp] theorem qp_dropTag (b : Block) (tag : Nat) (q : Nat) : qp (dropTag b tag) q = qp b q := (rfl)
@[simp] theorem key_dropTag (b : Block) (tag : Nat) (q : Nat) : key (dropTag b tag) q = key b q := (rfl)
@[simp] theorem port_dropTag (b : Block) (tag : Nat) (q : Nat) : port (dropTag b tag) q = port b q := (rfl)
@[simp] theorem chan_dropTag (b : Block) (tag : Nat) (q : Nat) : chan (dropTag b tag) q = chan b q := (rfl)
@[simp] theorem station_dropTag (b : Block) (tag : Nat) (q : Nat) : station (dropTag b tag) q = station b q := (rfl)
@[simp] theorem group_dropTag (b : Block) (tag : Nat) (q r : Nat) : group (dropTag b tag) q r = group b q r := (rfl)
@[simp] theorem readByte_dropTag (b : Block) (tag : Nat) (q : Nat) : readByte (dropTag b tag) q = readByte b q := (rfl)

/-! ## What is read back -/

@[simp] theorem rd_wr_self (b : Block) (i s v : Nat) : rd (wr b i s v) i s = v % 2 ^ 64 := by
  simp [rd, wr]

theorem objKey_ne {i s j t : Nat} (h : j ≠ i ∨ t ≠ s) (hs : s < 256) (ht : t < 256) : objKey j t ≠ objKey i s := by
  unfold objKey; omega

/-- An object keeps its value while another is written. -/
theorem rd_wr_other (b : Block) {i s j t : Nat} (v : Nat) (h : objKey j t ≠ objKey i s) :
    rd (wr b i s v) j t = rd b j t := by
  simp [rd, wr, h]

@[simp] theorem part_setPart_self (b : Block) (pid : Nat) (p : Part) : part (setPart b pid p) pid = p := by
  simp [part, setPart]

theorem part_setPart_other (b : Block) {pid q : Nat} (p : Part) (h : q ≠ pid) : part (setPart b pid p) q = part b q := by
  simp [part, setPart, h]

@[simp] theorem owner_setOwner_self (b : Block) (g : Nat) (e : OwnerEntry) : owner (setOwner b g e) g = e := by
  simp [owner, setOwner]

theorem owner_setOwner_other (b : Block) {g q : Nat} (e : OwnerEntry) (h : q ≠ g) : owner (setOwner b g e) q = owner b q := by
  simp [owner, setOwner, h]

@[simp] theorem domain_setDomain_self (b : Block) (k : Nat) (d : Domain) : domain (setDomain b k d) k = d := by
  simp [domain, setDomain]

theorem domain_setDomain_other (b : Block) {k q : Nat} (d : Domain) (h : q ≠ k) :
    domain (setDomain b k d) q = domain b q := by
  simp [domain, setDomain, h]

@[simp] theorem qp_setQp_self (b : Block) (i : Nat) (q : Qp) : qp (setQp b i q) i = q := by
  simp [qp, setQp]

theorem qp_setQp_other (b : Block) {i j : Nat} (q : Qp) (h : j ≠ i) : qp (setQp b i q) j = qp b j := by
  simp [qp, setQp, h]

@[simp] theorem key_putKey_self (b : Block) (i : Nat) (k : Key) : key (putKey b i k) i = k := by
  simp [key, putKey]

theorem key_putKey_other (b : Block) {i j : Nat} (k : Key) (h : j ≠ i) : key (putKey b i k) j = key b j := by
  simp [key, putKey, h]

@[simp] theorem port_setPort_self (b : Block) (p : Nat) (x : Port) : port (setPort b p x) p = x := by
  simp [port, setPort]

@[simp] theorem chan_setChan_self (b : Block) (c : Nat) (x : Chan) : chan (setChan b c x) c = x := by
  simp [chan, setChan]

@[simp] theorem station_setStation_self (b : Block) (es : Nat) (x : Station) : station (setStation b es x) es = x := by
  simp [station, setStation]

@[simp] theorem slotOf_setSlot_self (b : Block) (fn slot : Nat) (s : Slot) : slotOf (setSlot b fn slot s) fn slot = s := by
  simp [slotOf, setSlot]

@[simp] theorem group_setGroup_self (b : Block) (pid g : Nat) (x : Group) : group (setGroup b pid g x) pid g = x := by
  simp [group, setGroup]

end Sys2Proof.Machine
end

