-- ==== Sys2Proof/Laws/Command.lean ====
section
/-! SUPPORT. What the operations every command shares leave as it was, and what each does: counters, events, answers,
acceptance and the end of a command. -/

namespace Sys2Proof.Machine


@[simp] theorem addTo_clk (b : Block) (i s n : Nat) : (addTo b i s n).clk = b.clk := (rfl)
@[simp] theorem addTo_straps (b : Block) (i s n : Nat) : (addTo b i s n).straps = b.straps := (rfl)
@[simp] theorem addTo_tags (b : Block) (i s n : Nat) : (addTo b i s n).tags = b.tags := (rfl)
@[simp] theorem addTo_ptb (b : Block) (i s n : Nat) : (addTo b i s n).ptb = b.ptb := (rfl)
@[simp] theorem addTo_mem (b : Block) (i s n : Nat) : (addTo b i s n).mem = b.mem := (rfl)
@[simp] theorem addTo_hub (b : Block) (i s n : Nat) : (addTo b i s n).hub = b.hub := (rfl)
@[simp] theorem addTo_ladle (b : Block) (i s n : Nat) : (addTo b i s n).ladle = b.ladle := (rfl)
@[simp] theorem addTo_tpe (b : Block) (i s n : Nat) : (addTo b i s n).tpe = b.tpe := (rfl)
@[simp] theorem addTo_replies (b : Block) (i s n : Nat) : (addTo b i s n).replies = b.replies := (rfl)
@[simp] theorem addTo_mirror (b : Block) (i s n : Nat) : (addTo b i s n).mirror = b.mirror := (rfl)
@[simp] theorem addTo_ring (b : Block) (i s n : Nat) : (addTo b i s n).ring = b.ring := (rfl)
@[simp] theorem addTo_ssu (b : Block) (i s n : Nat) : (addTo b i s n).ssu = b.ssu := (rfl)
@[simp] theorem addTo_cru (b : Block) (i s n : Nat) : (addTo b i s n).cru = b.cru := (rfl)
@[simp] theorem addTo_cha (b : Block) (i s n : Nat) : (addTo b i s n).cha = b.cha := (rfl)
@[simp] theorem addTo_fcu (b : Block) (i s n : Nat) : (addTo b i s n).fcu = b.fcu := (rfl)
@[simp] theorem addTo_held (b : Block) (i s n : Nat) : (addTo b i s n).held = b.held := (rfl)
@[simp] theorem addTo_fresh (b : Block) (i s n : Nat) : (addTo b i s n).fresh = b.fresh := (rfl)
@[simp] theorem addTo_out (b : Block) (i s n : Nat) : (addTo b i s n).out = b.out := (rfl)

@[simp] theorem count_clk (b : Block) (i s : Nat) : (count b i s).clk = b.clk := (rfl)
@[simp] theorem count_straps (b : Block) (i s : Nat) : (count b i s).straps = b.straps := (rfl)
@[simp] theorem count_tags (b : Block) (i s : Nat) : (count b i s).tags = b.tags := (rfl)
@[simp] theorem count_ptb (b : Block) (i s : Nat) : (count b i s).ptb = b.ptb := (rfl)
@[simp] theorem count_mem (b : Block) (i s : Nat) : (count b i s).mem = b.mem := (rfl)
@[simp] theorem count_hub (b : Block) (i s : Nat) : (count b i s).hub = b.hub := (rfl)
@[simp] theorem count_ladle (b : Block) (i s : Nat) : (count b i s).ladle = b.ladle := (rfl)
@[simp] theorem count_tpe (b : Block) (i s : Nat) : (count b i s).tpe = b.tpe := (rfl)
@[simp] theorem count_replies (b : Block) (i s : Nat) : (count b i s).replies = b.replies := (rfl)
@[simp] theorem count_mirror (b : Block) (i s : Nat) : (count b i s).mirror = b.mirror := (rfl)
@[simp] theorem count_ring (b : Block) (i s : Nat) : (count b i s).ring = b.ring := (rfl)
@[simp] theorem count_ssu (b : Block) (i s : Nat) : (count b i s).ssu = b.ssu := (rfl)
@[simp] theorem count_cru (b : Block) (i s : Nat) : (count b i s).cru = b.cru := (rfl)
@[simp] theorem count_cha (b : Block) (i s : Nat) : (count b i s).cha = b.cha := (rfl)
@[simp] theorem count_fcu (b : Block) (i s : Nat) : (count b i s).fcu = b.fcu := (rfl)
@[simp] theorem count_held (b : Block) (i s : Nat) : (count b i s).held = b.held := (rfl)
@[simp] theorem count_fresh (b : Block) (i s : Nat) : (count b i s).fresh = b.fresh := (rfl)
@[simp] theorem count_out (b : Block) (i s : Nat) : (count b i s).out = b.out := (rfl)

@[simp] theorem draw_clk (b : Block) : ((draw b).2).clk = b.clk := (rfl)
@[simp] theorem draw_straps (b : Block) : ((draw b).2).straps = b.straps := (rfl)
@[simp] theorem draw_tags (b : Block) : ((draw b).2).tags = b.tags := (rfl)
@[simp] theorem draw_dict (b : Block) : ((draw b).2).dict = b.dict := (rfl)
@[simp] theorem draw_ptb (b : Block) : ((draw b).2).ptb = b.ptb := (rfl)
@[simp] theorem draw_mem (b : Block) : ((draw b).2).mem = b.mem := (rfl)
@[simp] theorem draw_hub (b : Block) : ((draw b).2).hub = b.hub := (rfl)
@[simp] theorem draw_ladle (b : Block) : ((draw b).2).ladle = b.ladle := (rfl)
@[simp] theorem draw_tpe (b : Block) : ((draw b).2).tpe = b.tpe := (rfl)
@[simp] theorem draw_replies (b : Block) : ((draw b).2).replies = b.replies := (rfl)
@[simp] theorem draw_mirror (b : Block) : ((draw b).2).mirror = b.mirror := (rfl)
@[simp] theorem draw_ring (b : Block) : ((draw b).2).ring = b.ring := (rfl)
@[simp] theorem draw_ssu (b : Block) : ((draw b).2).ssu = b.ssu := (rfl)
@[simp] theorem draw_cru (b : Block) : ((draw b).2).cru = b.cru := (rfl)
@[simp] theorem draw_cha (b : Block) : ((draw b).2).cha = b.cha := (rfl)
@[simp] theorem draw_fcu (b : Block) : ((draw b).2).fcu = b.fcu := (rfl)
@[simp] theorem draw_held (b : Block) : ((draw b).2).held = b.held := (rfl)
@[simp] theorem draw_out (b : Block) : ((draw b).2).out = b.out := (rfl)

@[simp] theorem raiseEvent_clk (b : Block) (e : Event) : (raiseEvent b e).clk = b.clk := by unfold raiseEvent; (repeat' split) <;> simp
@[simp] theorem raiseEvent_straps (b : Block) (e : Event) : (raiseEvent b e).straps = b.straps := by unfold raiseEvent; (repeat' split) <;> simp
@[simp] theorem raiseEvent_tags (b : Block) (e : Event) : (raiseEvent b e).tags = b.tags := by unfold raiseEvent; (repeat' split) <;> simp
@[simp] theorem raiseEvent_ptb (b : Block) (e : Event) : (raiseEvent b e).ptb = b.ptb := by unfold raiseEvent; (repeat' split) <;> simp
@[simp] theorem raiseEvent_mem (b : Block) (e : Event) : (raiseEvent b e).mem = b.mem := by unfold raiseEvent; (repeat' split) <;> simp
@[simp] theorem raiseEvent_hub (b : Block) (e : Event) : (raiseEvent b e).hub = b.hub := by unfold raiseEvent; (repeat' split) <;> simp
@[simp] theorem raiseEvent_ladle (b : Block) (e : Event) : (raiseEvent b e).ladle = b.ladle := by unfold raiseEvent; (repeat' split) <;> simp
@[simp] theorem raiseEvent_tpe (b : Block) (e : Event) : (raiseEvent b e).tpe = b.tpe := by unfold raiseEvent; (repeat' split) <;> simp
@[simp] theorem raiseEvent_replies (b : Block) (e : Event) : (raiseEvent b e).replies = b.replies := by unfold raiseEvent; (repeat' split) <;> simp
@[simp] theorem raiseEvent_mirror (b : Block) (e : Event) : (raiseEvent b e).mirror = b.mirror := by unfold raiseEvent; (repeat' split) <;> simp
@[simp] theorem raiseEvent_ring (b : Block) (e : Event) : (raiseEvent b e).ring = b.ring := by unfold raiseEvent; (repeat' split) <;> simp
@[simp] theorem raiseEvent_ssu (b : Block) (e : Event) : (raiseEvent b e).ssu = b.ssu := by unfold raiseEvent; (repeat' split) <;> simp
@[simp] theorem raiseEvent_cru (b : Block) (e : Event) : (raiseEvent b e).cru = b.cru := by unfold raiseEvent; (repeat' split) <;> simp
@[simp] theorem raiseEvent_cha (b : Block) (e : Event) : (raiseEvent b e).cha = b.cha := by unfold raiseEvent; (repeat' split) <;> simp
@[simp] theorem raiseEvent_held (b : Block) (e : Event) : (raiseEvent b e).held = b.held := by unfold raiseEvent; (repeat' split) <;> simp
@[simp] theorem raiseEvent_fresh (b : Block) (e : Event) : (raiseEvent b e).fresh = b.fresh := by unfold raiseEvent; (repeat' split) <;> simp
@[simp] theorem raiseEvent_out (b : Block) (e : Event) : (raiseEvent b e).out = b.out := by unfold raiseEvent; (repeat' split) <;> simp

@[simp] theorem raise_clk (b : Block) (f u p a d : Nat) : (raise b f u p a d).clk = b.clk := by simp [raise]
@[simp] theorem raise_straps (b : Block) (f u p a d : Nat) : (raise b f u p a d).straps = b.straps := by simp [raise]
@[simp] theorem raise_tags (b : Block) (f u p a d : Nat) : (raise b f u p a d).tags = b.tags := by simp [raise]
@[simp] theorem raise_ptb (b : Block) (f u p a d : Nat) : (raise b f u p a d).ptb = b.ptb := by simp [raise]
@[simp] theorem raise_mem (b : Block) (f u p a d : Nat) : (raise b f u p a d).mem = b.mem := by simp [raise]
@[simp] theorem raise_hub (b : Block) (f u p a d : Nat) : (raise b f u p a d).hub = b.hub := by simp [raise]
@[simp] theorem raise_ladle (b : Block) (f u p a d : Nat) : (raise b f u p a d).ladle = b.ladle := by simp [raise]
@[simp] theorem raise_tpe (b : Block) (f u p a d : Nat) : (raise b f u p a d).tpe = b.tpe := by simp [raise]
@[simp] theorem raise_replies (b : Block) (f u p a d : Nat) : (raise b f u p a d).replies = b.replies := by simp [raise]
@[simp] theorem raise_mirror (b : Block) (f u p a d : Nat) : (raise b f u p a d).mirror = b.mirror := by simp [raise]
@[simp] theorem raise_ring (b : Block) (f u p a d : Nat) : (raise b f u p a d).ring = b.ring := by simp [raise]
@[simp] theorem raise_ssu (b : Block) (f u p a d : Nat) : (raise b f u p a d).ssu = b.ssu := by simp [raise]
@[simp] theorem raise_cru (b : Block) (f u p a d : Nat) : (raise b f u p a d).cru = b.cru := by simp [raise]
@[simp] theorem raise_cha (b : Block) (f u p a d : Nat) : (raise b f u p a d).cha = b.cha := by simp [raise]
@[simp] theorem raise_held (b : Block) (f u p a d : Nat) : (raise b f u p a d).held = b.held := by simp [raise]
@[simp] theorem raise_fresh (b : Block) (f u p a d : Nat) : (raise b f u p a d).fresh = b.fresh := by simp [raise]
@[simp] theorem raise_out (b : Block) (f u p a d : Nat) : (raise b f u p a d).out = b.out := by simp [raise]

@[simp] theorem raiseFree_clk (b : Block) (f u p : Nat) : (raiseFree b f u p).clk = b.clk := by simp [raiseFree]
@[simp] theorem raiseFree_straps (b : Block) (f u p : Nat) : (raiseFree b f u p).straps = b.straps := by simp [raiseFree]
@[simp] theorem raiseFree_tags (b : Block) (f u p : Nat) : (raiseFree b f u p).tags = b.tags := by simp [raiseFree]
@[simp] theorem raiseFree_ptb (b : Block) (f u p : Nat) : (raiseFree b f u p).ptb = b.ptb := by simp [raiseFree]
@[simp] theorem raiseFree_mem (b : Block) (f u p : Nat) : (raiseFree b f u p).mem = b.mem := by simp [raiseFree]
@[simp] theorem raiseFree_hub (b : Block) (f u p : Nat) : (raiseFree b f u p).hub = b.hub := by simp [raiseFree]
@[simp] theorem raiseFree_ladle (b : Block) (f u p : Nat) : (raiseFree b f u p).ladle = b.ladle := by simp [raiseFree]
@[simp] theorem raiseFree_tpe (b : Block) (f u p : Nat) : (raiseFree b f u p).tpe = b.tpe := by simp [raiseFree]
@[simp] theorem raiseFree_replies (b : Block) (f u p : Nat) : (raiseFree b f u p).replies = b.replies := by simp [raiseFree]
@[simp] theorem raiseFree_mirror (b : Block) (f u p : Nat) : (raiseFree b f u p).mirror = b.mirror := by simp [raiseFree]
@[simp] theorem raiseFree_ring (b : Block) (f u p : Nat) : (raiseFree b f u p).ring = b.ring := by simp [raiseFree]
@[simp] theorem raiseFree_ssu (b : Block) (f u p : Nat) : (raiseFree b f u p).ssu = b.ssu := by simp [raiseFree]
@[simp] theorem raiseFree_cru (b : Block) (f u p : Nat) : (raiseFree b f u p).cru = b.cru := by simp [raiseFree]
@[simp] theorem raiseFree_cha (b : Block) (f u p : Nat) : (raiseFree b f u p).cha = b.cha := by simp [raiseFree]
@[simp] theorem raiseFree_held (b : Block) (f u p : Nat) : (raiseFree b f u p).held = b.held := by simp [raiseFree]
@[simp] theorem raiseFree_out (b : Block) (f u p : Nat) : (raiseFree b f u p).out = b.out := by simp [raiseFree]

@[simp] theorem countSat_clk (b : Block) (i s w oi os n u p : Nat) : (countSat b i s w oi os n u p).clk = b.clk := by unfold countSat; dsimp only; (repeat' split) <;> simp
@[simp] theorem countSat_straps (b : Block) (i s w oi os n u p : Nat) : (countSat b i s w oi os n u p).straps = b.straps := by unfold countSat; dsimp only; (repeat' split) <;> simp
@[simp] theorem countSat_tags (b : Block) (i s w oi os n u p : Nat) : (countSat b i s w oi os n u p).tags = b.tags := by unfold countSat; dsimp only; (repeat' split) <;> simp
@[simp] theorem countSat_ptb (b : Block) (i s w oi os n u p : Nat) : (countSat b i s w oi os n u p).ptb = b.ptb := by unfold countSat; dsimp only; (repeat' split) <;> simp
@[simp] theorem countSat_mem (b : Block) (i s w oi os n u p : Nat) : (countSat b i s w oi os n u p).mem = b.mem := by unfold countSat; dsimp only; (repeat' split) <;> simp
@[simp] theorem countSat_hub (b : Block) (i s w oi os n u p : Nat) : (countSat b i s w oi os n u p).hub = b.hub := by unfold countSat; dsimp only; (repeat' split) <;> simp
@[simp] theorem countSat_ladle (b : Block) (i s w oi os n u p : Nat) : (countSat b i s w oi os n u p).ladle = b.ladle := by unfold countSat; dsimp only; (repeat' split) <;> simp
@[simp] theorem countSat_tpe (b : Block) (i s w oi os n u p : Nat) : (countSat b i s w oi os n u p).tpe = b.tpe := by unfold countSat; dsimp only; (repeat' split) <;> simp
@[simp] theorem countSat_replies (b : Block) (i s w oi os n u p : Nat) : (countSat b i s w oi os n u p).replies = b.replies := by unfold countSat; dsimp only; (repeat' split) <;> simp
@[simp] theorem countSat_mirror (b : Block) (i s w oi os n u p : Nat) : (countSat b i s w oi os n u p).mirror = b.mirror := by unfold countSat; dsimp only; (repeat' split) <;> simp
@[simp] theorem countSat_ring (b : Block) (i s w oi os n u p : Nat) : (countSat b i s w oi os n u p).ring = b.ring := by unfold countSat; dsimp only; (repeat' split) <;> simp
@[simp] theorem countSat_ssu (b : Block) (i s w oi os n u p : Nat) : (countSat b i s w oi os n u p).ssu = b.ssu := by unfold countSat; dsimp only; (repeat' split) <;> simp
@[simp] theorem countSat_cru (b : Block) (i s w oi os n u p : Nat) : (countSat b i s w oi os n u p).cru = b.cru := by unfold countSat; dsimp only; (repeat' split) <;> simp
@[simp] theorem countSat_cha (b : Block) (i s w oi os n u p : Nat) : (countSat b i s w oi os n u p).cha = b.cha := by unfold countSat; dsimp only; (repeat' split) <;> simp
@[simp] theorem countSat_held (b : Block) (i s w oi os n u p : Nat) : (countSat b i s w oi os n u p).held = b.held := by unfold countSat; dsimp only; (repeat' split) <;> simp
@[simp] theorem countSat_out (b : Block) (i s w oi os n u p : Nat) : (countSat b i s w oi os n u p).out = b.out := by unfold countSat; dsimp only; (repeat' split) <;> simp

@[simp] theorem msixVia_clk (b : Block) (fn v : Nat) (w : Via) (o : Bool) : (msixVia b fn v w o).clk = b.clk := by unfold msixVia; dsimp only; split <;> simp
@[simp] theorem msixVia_straps (b : Block) (fn v : Nat) (w : Via) (o : Bool) : (msixVia b fn v w o).straps = b.straps := by unfold msixVia; dsimp only; split <;> simp
@[simp] theorem msixVia_tags (b : Block) (fn v : Nat) (w : Via) (o : Bool) : (msixVia b fn v w o).tags = b.tags := by unfold msixVia; dsimp only; split <;> simp
@[simp] theorem msixVia_dict (b : Block) (fn v : Nat) (w : Via) (o : Bool) : (msixVia b fn v w o).dict = b.dict := by unfold msixVia; dsimp only; split <;> simp
@[simp] theorem msixVia_mem (b : Block) (fn v : Nat) (w : Via) (o : Bool) : (msixVia b fn v w o).mem = b.mem := by unfold msixVia; dsimp only; split <;> simp
@[simp] theorem msixVia_hub (b : Block) (fn v : Nat) (w : Via) (o : Bool) : (msixVia b fn v w o).hub = b.hub := by unfold msixVia; dsimp only; split <;> simp
@[simp] theorem msixVia_ladle (b : Block) (fn v : Nat) (w : Via) (o : Bool) : (msixVia b fn v w o).ladle = b.ladle := by unfold msixVia; dsimp only; split <;> simp
@[simp] theorem msixVia_tpe (b : Block) (fn v : Nat) (w : Via) (o : Bool) : (msixVia b fn v w o).tpe = b.tpe := by unfold msixVia; dsimp only; split <;> simp
@[simp] theorem msixVia_replies (b : Block) (fn v : Nat) (w : Via) (o : Bool) : (msixVia b fn v w o).replies = b.replies := by unfold msixVia; dsimp only; split <;> simp
@[simp] theorem msixVia_mirror (b : Block) (fn v : Nat) (w : Via) (o : Bool) : (msixVia b fn v w o).mirror = b.mirror := by unfold msixVia; dsimp only; split <;> simp
@[simp] theorem msixVia_ring (b : Block) (fn v : Nat) (w : Via) (o : Bool) : (msixVia b fn v w o).ring = b.ring := by unfold msixVia; dsimp only; split <;> simp
@[simp] theorem msixVia_ssu (b : Block) (fn v : Nat) (w : Via) (o : Bool) : (msixVia b fn v w o).ssu = b.ssu := by unfold msixVia; dsimp only; split <;> simp
@[simp] theorem msixVia_cru (b : Block) (fn v : Nat) (w : Via) (o : Bool) : (msixVia b fn v w o).cru = b.cru := by unfold msixVia; dsimp only; split <;> simp
@[simp] theorem msixVia_cha (b : Block) (fn v : Nat) (w : Via) (o : Bool) : (msixVia b fn v w o).cha = b.cha := by unfold msixVia; dsimp only; split <;> simp
@[simp] theorem msixVia_fcu (b : Block) (fn v : Nat) (w : Via) (o : Bool) : (msixVia b fn v w o).fcu = b.fcu := by unfold msixVia; dsimp only; split <;> simp
@[simp] theorem msixVia_held (b : Block) (fn v : Nat) (w : Via) (o : Bool) : (msixVia b fn v w o).held = b.held := by unfold msixVia; dsimp only; split <;> simp
@[simp] theorem msixVia_fresh (b : Block) (fn v : Nat) (w : Via) (o : Bool) : (msixVia b fn v w o).fresh = b.fresh := by unfold msixVia; dsimp only; split <;> simp

@[simp] theorem msix_clk (b : Block) (fn v : Nat) : (msix b fn v).clk = b.clk := by simp [msix]
@[simp] theorem msix_straps (b : Block) (fn v : Nat) : (msix b fn v).straps = b.straps := by simp [msix]
@[simp] theorem msix_tags (b : Block) (fn v : Nat) : (msix b fn v).tags = b.tags := by simp [msix]
@[simp] theorem msix_dict (b : Block) (fn v : Nat) : (msix b fn v).dict = b.dict := by simp [msix]
@[simp] theorem msix_mem (b : Block) (fn v : Nat) : (msix b fn v).mem = b.mem := by simp [msix]
@[simp] theorem msix_hub (b : Block) (fn v : Nat) : (msix b fn v).hub = b.hub := by simp [msix]
@[simp] theorem msix_ladle (b : Block) (fn v : Nat) : (msix b fn v).ladle = b.ladle := by simp [msix]
@[simp] theorem msix_tpe (b : Block) (fn v : Nat) : (msix b fn v).tpe = b.tpe := by simp [msix]
@[simp] theorem msix_replies (b : Block) (fn v : Nat) : (msix b fn v).replies = b.replies := by simp [msix]
@[simp] theorem msix_mirror (b : Block) (fn v : Nat) : (msix b fn v).mirror = b.mirror := by simp [msix]
@[simp] theorem msix_ring (b : Block) (fn v : Nat) : (msix b fn v).ring = b.ring := by simp [msix]
@[simp] theorem msix_ssu (b : Block) (fn v : Nat) : (msix b fn v).ssu = b.ssu := by simp [msix]
@[simp] theorem msix_cru (b : Block) (fn v : Nat) : (msix b fn v).cru = b.cru := by simp [msix]
@[simp] theorem msix_cha (b : Block) (fn v : Nat) : (msix b fn v).cha = b.cha := by simp [msix]
@[simp] theorem msix_fcu (b : Block) (fn v : Nat) : (msix b fn v).fcu = b.fcu := by simp [msix]
@[simp] theorem msix_held (b : Block) (fn v : Nat) : (msix b fn v).held = b.held := by simp [msix]
@[simp] theorem msix_fresh (b : Block) (fn v : Nat) : (msix b fn v).fresh = b.fresh := by simp [msix]

@[simp] theorem msixPart_clk (b : Block) (pid v : Nat) : (msixPart b pid v).clk = b.clk := by unfold msixPart; dsimp only; split <;> simp
@[simp] theorem msixPart_straps (b : Block) (pid v : Nat) : (msixPart b pid v).straps = b.straps := by unfold msixPart; dsimp only; split <;> simp
@[simp] theorem msixPart_tags (b : Block) (pid v : Nat) : (msixPart b pid v).tags = b.tags := by unfold msixPart; dsimp only; split <;> simp
@[simp] theorem msixPart_dict (b : Block) (pid v : Nat) : (msixPart b pid v).dict = b.dict := by unfold msixPart; dsimp only; split <;> simp
@[simp] theorem msixPart_mem (b : Block) (pid v : Nat) : (msixPart b pid v).mem = b.mem := by unfold msixPart; dsimp only; split <;> simp
@[simp] theorem msixPart_hub (b : Block) (pid v : Nat) : (msixPart b pid v).hub = b.hub := by unfold msixPart; dsimp only; split <;> simp
@[simp] theorem msixPart_ladle (b : Block) (pid v : Nat) : (msixPart b pid v).ladle = b.ladle := by unfold msixPart; dsimp only; split <;> simp
@[simp] theorem msixPart_tpe (b : Block) (pid v : Nat) : (msixPart b pid v).tpe = b.tpe := by unfold msixPart; dsimp only; split <;> simp
@[simp] theorem msixPart_replies (b : Block) (pid v : Nat) : (msixPart b pid v).replies = b.replies := by unfold msixPart; dsimp only; split <;> simp
@[simp] theorem msixPart_mirror (b : Block) (pid v : Nat) : (msixPart b pid v).mirror = b.mirror := by unfold msixPart; dsimp only; split <;> simp
@[simp] theorem msixPart_ring (b : Block) (pid v : Nat) : (msixPart b pid v).ring = b.ring := by unfold msixPart; dsimp only; split <;> simp
@[simp] theorem msixPart_ssu (b : Block) (pid v : Nat) : (msixPart b pid v).ssu = b.ssu := by unfold msixPart; dsimp only; split <;> simp
@[simp] theorem msixPart_cru (b : Block) (pid v : Nat) : (msixPart b pid v).cru = b.cru := by unfold msixPart; dsimp only; split <;> simp
@[simp] theorem msixPart_cha (b : Block) (pid v : Nat) : (msixPart b pid v).cha = b.cha := by unfold msixPart; dsimp only; split <;> simp
@[simp] theorem msixPart_fcu (b : Block) (pid v : Nat) : (msixPart b pid v).fcu = b.fcu := by unfold msixPart; dsimp only; split <;> simp
@[simp] theorem msixPart_held (b : Block) (pid v : Nat) : (msixPart b pid v).held = b.held := by unfold msixPart; dsimp only; split <;> simp
@[simp] theorem msixPart_fresh (b : Block) (pid v : Nat) : (msixPart b pid v).fresh = b.fresh := by unfold msixPart; dsimp only; split <;> simp

@[simp] theorem sendRecord_clk (b : Block) (p : Path) (o : Bool) (r : Bytes) : (sendRecord b p o r).clk = b.clk := by unfold sendRecord; split <;> simp
@[simp] theorem sendRecord_straps (b : Block) (p : Path) (o : Bool) (r : Bytes) : (sendRecord b p o r).straps = b.straps := by unfold sendRecord; split <;> simp
@[simp] theorem sendRecord_tags (b : Block) (p : Path) (o : Bool) (r : Bytes) : (sendRecord b p o r).tags = b.tags := by unfold sendRecord; split <;> simp
@[simp] theorem sendRecord_ptb (b : Block) (p : Path) (o : Bool) (r : Bytes) : (sendRecord b p o r).ptb = b.ptb := by unfold sendRecord; split <;> simp
@[simp] theorem sendRecord_mem (b : Block) (p : Path) (o : Bool) (r : Bytes) : (sendRecord b p o r).mem = b.mem := by unfold sendRecord; split <;> simp
@[simp] theorem sendRecord_hub (b : Block) (p : Path) (o : Bool) (r : Bytes) : (sendRecord b p o r).hub = b.hub := by unfold sendRecord; split <;> simp
@[simp] theorem sendRecord_ladle (b : Block) (p : Path) (o : Bool) (r : Bytes) : (sendRecord b p o r).ladle = b.ladle := by unfold sendRecord; split <;> simp
@[simp] theorem sendRecord_tpe (b : Block) (p : Path) (o : Bool) (r : Bytes) : (sendRecord b p o r).tpe = b.tpe := by unfold sendRecord; split <;> simp
@[simp] theorem sendRecord_replies (b : Block) (p : Path) (o : Bool) (r : Bytes) : (sendRecord b p o r).replies = b.replies := by unfold sendRecord; split <;> simp
@[simp] theorem sendRecord_mirror (b : Block) (p : Path) (o : Bool) (r : Bytes) : (sendRecord b p o r).mirror = b.mirror := by unfold sendRecord; split <;> simp
@[simp] theorem sendRecord_ring (b : Block) (p : Path) (o : Bool) (r : Bytes) : (sendRecord b p o r).ring = b.ring := by unfold sendRecord; split <;> simp
@[simp] theorem sendRecord_ssu (b : Block) (p : Path) (o : Bool) (r : Bytes) : (sendRecord b p o r).ssu = b.ssu := by unfold sendRecord; split <;> simp
@[simp] theorem sendRecord_cru (b : Block) (p : Path) (o : Bool) (r : Bytes) : (sendRecord b p o r).cru = b.cru := by unfold sendRecord; split <;> simp
@[simp] theorem sendRecord_cha (b : Block) (p : Path) (o : Bool) (r : Bytes) : (sendRecord b p o r).cha = b.cha := by unfold sendRecord; split <;> simp
@[simp] theorem sendRecord_fcu (b : Block) (p : Path) (o : Bool) (r : Bytes) : (sendRecord b p o r).fcu = b.fcu := by unfold sendRecord; split <;> simp
@[simp] theorem sendRecord_held (b : Block) (p : Path) (o : Bool) (r : Bytes) : (sendRecord b p o r).held = b.held := by unfold sendRecord; split <;> simp
@[simp] theorem sendRecord_fresh (b : Block) (p : Path) (o : Bool) (r : Bytes) : (sendRecord b p o r).fresh = b.fresh := by unfold sendRecord; split <;> simp

@[simp] theorem respond_clk (b : Block) (acc : Access) (n : Nat) (c : Code) (d : Nat) (g : Option Nat) : (respond b acc n c d g).clk = b.clk := by unfold respond; dsimp only; split <;> simp
@[simp] theorem respond_straps (b : Block) (acc : Access) (n : Nat) (c : Code) (d : Nat) (g : Option Nat) : (respond b acc n c d g).straps = b.straps := by unfold respond; dsimp only; split <;> simp
@[simp] theorem respond_tags (b : Block) (acc : Access) (n : Nat) (c : Code) (d : Nat) (g : Option Nat) : (respond b acc n c d g).tags = b.tags := by unfold respond; dsimp only; split <;> simp
@[simp] theorem respond_ptb (b : Block) (acc : Access) (n : Nat) (c : Code) (d : Nat) (g : Option Nat) : (respond b acc n c d g).ptb = b.ptb := by unfold respond; dsimp only; split <;> simp
@[simp] theorem respond_mem (b : Block) (acc : Access) (n : Nat) (c : Code) (d : Nat) (g : Option Nat) : (respond b acc n c d g).mem = b.mem := by unfold respond; dsimp only; split <;> simp
@[simp] theorem respond_hub (b : Block) (acc : Access) (n : Nat) (c : Code) (d : Nat) (g : Option Nat) : (respond b acc n c d g).hub = b.hub := by unfold respond; dsimp only; split <;> simp
@[simp] theorem respond_ladle (b : Block) (acc : Access) (n : Nat) (c : Code) (d : Nat) (g : Option Nat) : (respond b acc n c d g).ladle = b.ladle := by unfold respond; dsimp only; split <;> simp
@[simp] theorem respond_tpe (b : Block) (acc : Access) (n : Nat) (c : Code) (d : Nat) (g : Option Nat) : (respond b acc n c d g).tpe = b.tpe := by unfold respond; dsimp only; split <;> simp
@[simp] theorem respond_replies (b : Block) (acc : Access) (n : Nat) (c : Code) (d : Nat) (g : Option Nat) : (respond b acc n c d g).replies = b.replies := by unfold respond; dsimp only; split <;> simp
@[simp] theorem respond_mirror (b : Block) (acc : Access) (n : Nat) (c : Code) (d : Nat) (g : Option Nat) : (respond b acc n c d g).mirror = b.mirror := by unfold respond; dsimp only; split <;> simp
@[simp] theorem respond_ring (b : Block) (acc : Access) (n : Nat) (c : Code) (d : Nat) (g : Option Nat) : (respond b acc n c d g).ring = b.ring := by unfold respond; dsimp only; split <;> simp
@[simp] theorem respond_ssu (b : Block) (acc : Access) (n : Nat) (c : Code) (d : Nat) (g : Option Nat) : (respond b acc n c d g).ssu = b.ssu := by unfold respond; dsimp only; split <;> simp
@[simp] theorem respond_cru (b : Block) (acc : Access) (n : Nat) (c : Code) (d : Nat) (g : Option Nat) : (respond b acc n c d g).cru = b.cru := by unfold respond; dsimp only; split <;> simp
@[simp] theorem respond_cha (b : Block) (acc : Access) (n : Nat) (c : Code) (d : Nat) (g : Option Nat) : (respond b acc n c d g).cha = b.cha := by unfold respond; dsimp only; split <;> simp
@[simp] theorem respond_fcu (b : Block) (acc : Access) (n : Nat) (c : Code) (d : Nat) (g : Option Nat) : (respond b acc n c d g).fcu = b.fcu := by unfold respond; dsimp only; split <;> simp
@[simp] theorem respond_held (b : Block) (acc : Access) (n : Nat) (c : Code) (d : Nat) (g : Option Nat) : (respond b acc n c d g).held = b.held := by unfold respond; dsimp only; split <;> simp
@[simp] theorem respond_fresh (b : Block) (acc : Access) (n : Nat) (c : Code) (d : Nat) (g : Option Nat) : (respond b acc n c d g).fresh = b.fresh := by unfold respond; dsimp only; split <;> simp

@[simp] theorem answer_clk (b : Block) (acc : Access) (c : Code) : (answer b acc c).clk = b.clk := by simp [answer]
@[simp] theorem answer_straps (b : Block) (acc : Access) (c : Code) : (answer b acc c).straps = b.straps := by simp [answer]
@[simp] theorem answer_tags (b : Block) (acc : Access) (c : Code) : (answer b acc c).tags = b.tags := by simp [answer]
@[simp] theorem answer_ptb (b : Block) (acc : Access) (c : Code) : (answer b acc c).ptb = b.ptb := by simp [answer]
@[simp] theorem answer_mem (b : Block) (acc : Access) (c : Code) : (answer b acc c).mem = b.mem := by simp [answer]
@[simp] theorem answer_hub (b : Block) (acc : Access) (c : Code) : (answer b acc c).hub = b.hub := by simp [answer]
@[simp] theorem answer_ladle (b : Block) (acc : Access) (c : Code) : (answer b acc c).ladle = b.ladle := by simp [answer]
@[simp] theorem answer_tpe (b : Block) (acc : Access) (c : Code) : (answer b acc c).tpe = b.tpe := by simp [answer]
@[simp] theorem answer_replies (b : Block) (acc : Access) (c : Code) : (answer b acc c).replies = b.replies := by simp [answer]
@[simp] theorem answer_mirror (b : Block) (acc : Access) (c : Code) : (answer b acc c).mirror = b.mirror := by simp [answer]
@[simp] theorem answer_ring (b : Block) (acc : Access) (c : Code) : (answer b acc c).ring = b.ring := by simp [answer]
@[simp] theorem answer_ssu (b : Block) (acc : Access) (c : Code) : (answer b acc c).ssu = b.ssu := by simp [answer]
@[simp] theorem answer_cru (b : Block) (acc : Access) (c : Code) : (answer b acc c).cru = b.cru := by simp [answer]
@[simp] theorem answer_cha (b : Block) (acc : Access) (c : Code) : (answer b acc c).cha = b.cha := by simp [answer]
@[simp] theorem answer_fcu (b : Block) (acc : Access) (c : Code) : (answer b acc c).fcu = b.fcu := by simp [answer]
@[simp] theorem answer_held (b : Block) (acc : Access) (c : Code) : (answer b acc c).held = b.held := by simp [answer]
@[simp] theorem answer_fresh (b : Block) (acc : Access) (c : Code) : (answer b acc c).fresh = b.fresh := by simp [answer]

@[simp] theorem notifyDone_clk (b : Block) (acc : Access) (n : Nat) (c : Code) (r : Nat) : (notifyDone b acc n c r).clk = b.clk := by
  unfold notifyDone; split
  · simp
  · split <;> simp [draw]
@[simp] theorem notifyDone_straps (b : Block) (acc : Access) (n : Nat) (c : Code) (r : Nat) : (notifyDone b acc n c r).straps = b.straps := by
  unfold notifyDone; split
  · simp
  · split <;> simp [draw]
@[simp] theorem notifyDone_tags (b : Block) (acc : Access) (n : Nat) (c : Code) (r : Nat) : (notifyDone b acc n c r).tags = b.tags := by
  unfold notifyDone; split
  · simp
  · split <;> simp [draw]
@[simp] theorem notifyDone_mem (b : Block) (acc : Access) (n : Nat) (c : Code) (r : Nat) : (notifyDone b acc n c r).mem = b.mem := by
  unfold notifyDone; split
  · simp
  · split <;> simp [draw]
@[simp] theorem notifyDone_hub (b : Block) (acc : Access) (n : Nat) (c : Code) (r : Nat) : (notifyDone b acc n c r).hub = b.hub := by
  unfold notifyDone; split
  · simp
  · split <;> simp [draw]
@[simp] theorem notifyDone_ladle (b : Block) (acc : Access) (n : Nat) (c : Code) (r : Nat) : (notifyDone b acc n c r).ladle = b.ladle := by
  unfold notifyDone; split
  · simp
  · split <;> simp [draw]
@[simp] theorem notifyDone_tpe (b : Block) (acc : Access) (n : Nat) (c : Code) (r : Nat) : (notifyDone b acc n c r).tpe = b.tpe := by
  unfold notifyDone; split
  · simp
  · split <;> simp [draw]
@[simp] theorem notifyDone_replies (b : Block) (acc : Access) (n : Nat) (c : Code) (r : Nat) : (notifyDone b acc n c r).replies = b.replies := by
  unfold notifyDone; split
  · simp
  · split <;> simp [draw]
@[simp] theorem notifyDone_mirror (b : Block) (acc : Access) (n : Nat) (c : Code) (r : Nat) : (notifyDone b acc n c r).mirror = b.mirror := by
  unfold notifyDone; split
  · simp
  · split <;> simp [draw]
@[simp] theorem notifyDone_ring (b : Block) (acc : Access) (n : Nat) (c : Code) (r : Nat) : (notifyDone b acc n c r).ring = b.ring := by
  unfold notifyDone; split
  · simp
  · split <;> simp [draw]
@[simp] theorem notifyDone_ssu (b : Block) (acc : Access) (n : Nat) (c : Code) (r : Nat) : (notifyDone b acc n c r).ssu = b.ssu := by
  unfold notifyDone; split
  · simp
  · split <;> simp [draw]
@[simp] theorem notifyDone_cru (b : Block) (acc : Access) (n : Nat) (c : Code) (r : Nat) : (notifyDone b acc n c r).cru = b.cru := by
  unfold notifyDone; split
  · simp
  · split <;> simp [draw]
@[simp] theorem notifyDone_cha (b : Block) (acc : Access) (n : Nat) (c : Code) (r : Nat) : (notifyDone b acc n c r).cha = b.cha := by
  unfold notifyDone; split
  · simp
  · split <;> simp [draw]
@[simp] theorem notifyDone_fcu (b : Block) (acc : Access) (n : Nat) (c : Code) (r : Nat) : (notifyDone b acc n c r).fcu = b.fcu := by
  unfold notifyDone; split
  · simp
  · split <;> simp [draw]
@[simp] theorem notifyDone_held (b : Block) (acc : Access) (n : Nat) (c : Code) (r : Nat) : (notifyDone b acc n c r).held = b.held := by
  unfold notifyDone; split
  · simp
  · split <;> simp [draw]

@[simp] theorem finishCmd_clk (b : Block) (i s : Nat) (c : Code) (d : Nat) : (finishCmd b i s c d).clk = b.clk := by unfold finishCmd; split <;> simp
@[simp] theorem finishCmd_straps (b : Block) (i s : Nat) (c : Code) (d : Nat) : (finishCmd b i s c d).straps = b.straps := by unfold finishCmd; split <;> simp
@[simp] theorem finishCmd_tags (b : Block) (i s : Nat) (c : Code) (d : Nat) : (finishCmd b i s c d).tags = b.tags := by unfold finishCmd; split <;> simp
@[simp] theorem finishCmd_mem (b : Block) (i s : Nat) (c : Code) (d : Nat) : (finishCmd b i s c d).mem = b.mem := by unfold finishCmd; split <;> simp
@[simp] theorem finishCmd_hub (b : Block) (i s : Nat) (c : Code) (d : Nat) : (finishCmd b i s c d).hub = b.hub := by unfold finishCmd; split <;> simp
@[simp] theorem finishCmd_ladle (b : Block) (i s : Nat) (c : Code) (d : Nat) : (finishCmd b i s c d).ladle = b.ladle := by unfold finishCmd; split <;> simp
@[simp] theorem finishCmd_tpe (b : Block) (i s : Nat) (c : Code) (d : Nat) : (finishCmd b i s c d).tpe = b.tpe := by unfold finishCmd; split <;> simp
@[simp] theorem finishCmd_replies (b : Block) (i s : Nat) (c : Code) (d : Nat) : (finishCmd b i s c d).replies = b.replies := by unfold finishCmd; split <;> simp
@[simp] theorem finishCmd_mirror (b : Block) (i s : Nat) (c : Code) (d : Nat) : (finishCmd b i s c d).mirror = b.mirror := by unfold finishCmd; split <;> simp
@[simp] theorem finishCmd_ring (b : Block) (i s : Nat) (c : Code) (d : Nat) : (finishCmd b i s c d).ring = b.ring := by unfold finishCmd; split <;> simp
@[simp] theorem finishCmd_ssu (b : Block) (i s : Nat) (c : Code) (d : Nat) : (finishCmd b i s c d).ssu = b.ssu := by unfold finishCmd; split <;> simp
@[simp] theorem finishCmd_cru (b : Block) (i s : Nat) (c : Code) (d : Nat) : (finishCmd b i s c d).cru = b.cru := by unfold finishCmd; split <;> simp
@[simp] theorem finishCmd_cha (b : Block) (i s : Nat) (c : Code) (d : Nat) : (finishCmd b i s c d).cha = b.cha := by unfold finishCmd; split <;> simp
@[simp] theorem finishCmd_fcu (b : Block) (i s : Nat) (c : Code) (d : Nat) : (finishCmd b i s c d).fcu = b.fcu := by unfold finishCmd; split <;> simp
@[simp] theorem finishCmd_held (b : Block) (i s : Nat) (c : Code) (d : Nat) : (finishCmd b i s c d).held = b.held := by unfold finishCmd; split <;> simp

@[simp] theorem acceptCmd_clk (b : Block) (acc : Access) (i s a : Nat) : (acceptCmd b acc i s a).clk = b.clk := by simp [acceptCmd]
@[simp] theorem acceptCmd_straps (b : Block) (acc : Access) (i s a : Nat) : (acceptCmd b acc i s a).straps = b.straps := by simp [acceptCmd]
@[simp] theorem acceptCmd_tags (b : Block) (acc : Access) (i s a : Nat) : (acceptCmd b acc i s a).tags = b.tags := by simp [acceptCmd]
@[simp] theorem acceptCmd_ptb (b : Block) (acc : Access) (i s a : Nat) : (acceptCmd b acc i s a).ptb = b.ptb := by simp [acceptCmd]
@[simp] theorem acceptCmd_mem (b : Block) (acc : Access) (i s a : Nat) : (acceptCmd b acc i s a).mem = b.mem := by simp [acceptCmd]
@[simp] theorem acceptCmd_hub (b : Block) (acc : Access) (i s a : Nat) : (acceptCmd b acc i s a).hub = b.hub := by simp [acceptCmd]
@[simp] theorem acceptCmd_ladle (b : Block) (acc : Access) (i s a : Nat) : (acceptCmd b acc i s a).ladle = b.ladle := by simp [acceptCmd]
@[simp] theorem acceptCmd_tpe (b : Block) (acc : Access) (i s a : Nat) : (acceptCmd b acc i s a).tpe = b.tpe := by simp [acceptCmd]
@[simp] theorem acceptCmd_replies (b : Block) (acc : Access) (i s a : Nat) : (acceptCmd b acc i s a).replies = b.replies := by simp [acceptCmd]
@[simp] theorem acceptCmd_mirror (b : Block) (acc : Access) (i s a : Nat) : (acceptCmd b acc i s a).mirror = b.mirror := by simp [acceptCmd]
@[simp] theorem acceptCmd_ring (b : Block) (acc : Access) (i s a : Nat) : (acceptCmd b acc i s a).ring = b.ring := by simp [acceptCmd]
@[simp] theorem acceptCmd_ssu (b : Block) (acc : Access) (i s a : Nat) : (acceptCmd b acc i s a).ssu = b.ssu := by simp [acceptCmd]
@[simp] theorem acceptCmd_cru (b : Block) (acc : Access) (i s a : Nat) : (acceptCmd b acc i s a).cru = b.cru := by simp [acceptCmd]
@[simp] theorem acceptCmd_cha (b : Block) (acc : Access) (i s a : Nat) : (acceptCmd b acc i s a).cha = b.cha := by simp [acceptCmd]
@[simp] theorem acceptCmd_fcu (b : Block) (acc : Access) (i s a : Nat) : (acceptCmd b acc i s a).fcu = b.fcu := by simp [acceptCmd]
@[simp] theorem acceptCmd_held (b : Block) (acc : Access) (i s a : Nat) : (acceptCmd b acc i s a).held = b.held := by simp [acceptCmd]
@[simp] theorem acceptCmd_fresh (b : Block) (acc : Access) (i s a : Nat) : (acceptCmd b acc i s a).fresh = b.fresh := by simp [acceptCmd]

@[simp] theorem wakeBy_clk (b : Block) (c : Nat) : (wakeBy b c).clk = b.clk := by unfold wakeBy; split <;> simp
@[simp] theorem wakeBy_straps (b : Block) (c : Nat) : (wakeBy b c).straps = b.straps := by unfold wakeBy; split <;> simp
@[simp] theorem wakeBy_tags (b : Block) (c : Nat) : (wakeBy b c).tags = b.tags := by unfold wakeBy; split <;> simp
@[simp] theorem wakeBy_mem (b : Block) (c : Nat) : (wakeBy b c).mem = b.mem := by unfold wakeBy; split <;> simp
@[simp] theorem wakeBy_hub (b : Block) (c : Nat) : (wakeBy b c).hub = b.hub := by unfold wakeBy; split <;> simp
@[simp] theorem wakeBy_ladle (b : Block) (c : Nat) : (wakeBy b c).ladle = b.ladle := by unfold wakeBy; split <;> simp
@[simp] theorem wakeBy_tpe (b : Block) (c : Nat) : (wakeBy b c).tpe = b.tpe := by unfold wakeBy; split <;> simp
@[simp] theorem wakeBy_replies (b : Block) (c : Nat) : (wakeBy b c).replies = b.replies := by unfold wakeBy; split <;> simp
@[simp] theorem wakeBy_mirror (b : Block) (c : Nat) : (wakeBy b c).mirror = b.mirror := by unfold wakeBy; split <;> simp
@[simp] theorem wakeBy_ring (b : Block) (c : Nat) : (wakeBy b c).ring = b.ring := by unfold wakeBy; split <;> simp
@[simp] theorem wakeBy_ssu (b : Block) (c : Nat) : (wakeBy b c).ssu = b.ssu := by unfold wakeBy; split <;> simp
@[simp] theorem wakeBy_cru (b : Block) (c : Nat) : (wakeBy b c).cru = b.cru := by unfold wakeBy; split <;> simp
@[simp] theorem wakeBy_cha (b : Block) (c : Nat) : (wakeBy b c).cha = b.cha := by unfold wakeBy; split <;> simp
@[simp] theorem wakeBy_fcu (b : Block) (c : Nat) : (wakeBy b c).fcu = b.fcu := by unfold wakeBy; split <;> simp
@[simp] theorem wakeBy_held (b : Block) (c : Nat) : (wakeBy b c).held = b.held := by unfold wakeBy; split <;> simp

@[simp] theorem busAccess_clk (b : Block) : (busAccess b).clk = b.clk := by simp [busAccess]
@[simp] theorem busAccess_straps (b : Block) : (busAccess b).straps = b.straps := by simp [busAccess]
@[simp] theorem busAccess_tags (b : Block) : (busAccess b).tags = b.tags := by simp [busAccess]
@[simp] theorem busAccess_mem (b : Block) : (busAccess b).mem = b.mem := by simp [busAccess]
@[simp] theorem busAccess_hub (b : Block) : (busAccess b).hub = b.hub := by simp [busAccess]
@[simp] theorem busAccess_ladle (b : Block) : (busAccess b).ladle = b.ladle := by simp [busAccess]
@[simp] theorem busAccess_tpe (b : Block) : (busAccess b).tpe = b.tpe := by simp [busAccess]
@[simp] theorem busAccess_replies (b : Block) : (busAccess b).replies = b.replies := by simp [busAccess]
@[simp] theorem busAccess_mirror (b : Block) : (busAccess b).mirror = b.mirror := by simp [busAccess]
@[simp] theorem busAccess_ring (b : Block) : (busAccess b).ring = b.ring := by simp [busAccess]
@[simp] theorem busAccess_ssu (b : Block) : (busAccess b).ssu = b.ssu := by simp [busAccess]
@[simp] theorem busAccess_cru (b : Block) : (busAccess b).cru = b.cru := by simp [busAccess]
@[simp] theorem busAccess_cha (b : Block) : (busAccess b).cha = b.cha := by simp [busAccess]
@[simp] theorem busAccess_fcu (b : Block) : (busAccess b).fcu = b.fcu := by simp [busAccess]
@[simp] theorem busAccess_held (b : Block) : (busAccess b).held = b.held := by simp [busAccess]

/-! ## What they do -/

/-- A counter's value after one more: it wraps at 64 bits. -/
@[simp] theorem rd_count_self (b : Block) (i s : Nat) : rd (count b i s) i s = (rd b i s + 1) % 2 ^ 64 := by
  simp [count, addTo]

@[simp] theorem rd_addTo_self (b : Block) (i s n : Nat) : rd (addTo b i s n) i s = (rd b i s + n) % 2 ^ 64 := by
  simp [addTo]

theorem rd_addTo_other (b : Block) {i s j t : Nat} (n : Nat) (h : objKey j t ≠ objKey i s) :
    rd (addTo b i s n) j t = rd b j t := rd_wr_other b _ h

theorem rd_count_other (b : Block) {i s j t : Nat} (h : objKey j t ≠ objKey i s) : rd (count b i s) j t = rd b j t :=
  rd_addTo_other b 1 h

/-- Objects read the same where the store is the same. -/
theorem rd_congr {b b' : Block} (h : b.dict.objs = b'.dict.objs) (i s : Nat) : rd b i s = rd b' i s := by
  simp [rd, h]

theorem part_congr {b b' : Block} (h : b.ptb.parts = b'.ptb.parts) (q : Nat) : part b q = part b' q := by
  simp [part, h]

@[simp] theorem msix_parts (b : Block) (fn v : Nat) : (msix b fn v).ptb.parts = b.ptb.parts := by
  unfold msix msixVia; dsimp only; split <;> simp

@[simp] theorem sendRecord_objs (b : Block) (p : Path) (o : Bool) (r : Bytes) :
    (sendRecord b p o r).dict.objs = b.dict.objs := by
  unfold sendRecord; split <;> simp

@[simp] theorem sendRecord_cmds (b : Block) (p : Path) (o : Bool) (r : Bytes) :
    (sendRecord b p o r).dict.cmds = b.dict.cmds := by
  unfold sendRecord; split <;> simp

@[simp] theorem setSlot_objs (b : Block) (fn k : Nat) (s : Slot) : (setSlot b fn k s).dict.objs = b.dict.objs := rfl

@[simp] theorem setSlot_cmds (b : Block) (fn k : Nat) (s : Slot) : (setSlot b fn k s).dict.cmds = b.dict.cmds := rfl

@[simp] theorem keepResponse_objs (b : Block) (k : Nat) (r : Kept) : (keepResponse b k r).dict.objs = b.dict.objs := rfl

@[simp] theorem keepResponse_cmds (b : Block) (k : Nat) (r : Kept) : (keepResponse b k r).dict.cmds = b.dict.cmds := rfl

@[simp] theorem wr_cmds (b : Block) (i s v : Nat) : (wr b i s v).dict.cmds = b.dict.cmds := rfl

@[simp] theorem wr_cmdSeq (b : Block) (i s v : Nat) : (wr b i s v).dict.cmdSeq = b.dict.cmdSeq := rfl

/-- An answer changes no object. -/
@[simp] theorem respond_objs (b : Block) (acc : Access) (n : Nat) (c : Code) (d : Nat) (g : Option Nat) :
    (respond b acc n c d g).dict.objs = b.dict.objs := by
  unfold respond; dsimp only; split <;> simp

@[simp] theorem respond_cmds (b : Block) (acc : Access) (n : Nat) (c : Code) (d : Nat) (g : Option Nat) :
    (respond b acc n c d g).dict.cmds = b.dict.cmds := by
  unfold respond; dsimp only; split <;> simp

@[simp] theorem rd_respond (b : Block) (acc : Access) (n : Nat) (c : Code) (d : Nat) (g : Option Nat) (i s : Nat) :
    rd (respond b acc n c d g) i s = rd b i s := rd_congr (by simp) i s

@[simp] theorem part_respond (b : Block) (acc : Access) (n : Nat) (c : Code) (d : Nat) (g : Option Nat) (q : Nat) :
    part (respond b acc n c d g) q = part b q := part_congr (by simp) q

@[simp] theorem rd_answer (b : Block) (acc : Access) (c : Code) (i s : Nat) : rd (answer b acc c) i s = rd b i s := by
  simp [answer]

@[simp] theorem notifyDone_objs (b : Block) (acc : Access) (n : Nat) (c : Code) (r : Nat) :
    (notifyDone b acc n c r).dict.objs = b.dict.objs := by
  unfold notifyDone; split
  · simp
  · split <;> simp [draw]

@[simp] theorem notifyDone_parts (b : Block) (acc : Access) (n : Nat) (c : Code) (r : Nat) :
    (notifyDone b acc n c r).ptb.parts = b.ptb.parts := by
  unfold notifyDone; split
  · simp
  · split <;> simp [draw]

@[simp] theorem rd_notifyDone (b : Block) (acc : Access) (n : Nat) (c : Code) (r i s : Nat) :
    rd (notifyDone b acc n c r) i s = rd b i s := rd_congr (by simp) i s

@[simp] theorem part_notifyDone (b : Block) (acc : Access) (n : Nat) (c : Code) (r q : Nat) :
    part (notifyDone b acc n c r) q = part b q := part_congr (by simp) q

/-- The end of a command changes no partition. -/
@[simp] theorem part_finishCmd (b : Block) (i s : Nat) (c : Code) (d q : Nat) :
    part (finishCmd b i s c d) q = part b q := by
  unfold finishCmd; split
  · rfl
  · simp only [part_notifyDone]; exact part_congr rfl q

/-- The result of a command that ends: DONE, its code and its detail (02 Table 2-4). -/
theorem rd_finishCmd_self {b : Block} {i s : Nat} {p : PendCmd} (h : pendingCmd b i s = some p) (c : Code) (d : Nat) :
    rd (finishCmd b i s c d) i (s + 0x80) = resultWord p.cmdSeq 2 c.num d % 2 ^ 64 := by
  unfold finishCmd; rw [h]; simp only [rd_notifyDone]; exact (rd_congr rfl _ _).trans (rd_wr_self b i (s + 0x80) _)

/-- The end of a command changes no other object than its result. -/
theorem rd_finishCmd_other (b : Block) {i s j t : Nat} (c : Code) (d : Nat) (h : objKey j t ≠ objKey i (s + 0x80)) :
    rd (finishCmd b i s c d) j t = rd b j t := by
  unfold finishCmd; split
  · rfl
  · simp only [rd_notifyDone]; exact (rd_congr rfl _ _).trans (rd_wr_other b _ h)

theorem wakeBy_awake {b : Block} (h : rd b 0xC000 6 = 0) (c : Nat) : wakeBy b c = b := by
  simp [wakeBy, h]

/-- An awake block only counts an access. -/
theorem busAccess_awake {b : Block} (h : rd b 0xC000 6 = 0) : busAccess b = count b 0x1402 5 := by
  have e : rd (count b 0x1402 5) 0xC000 6 = 0 := by rw [rd_count_other b (by decide)]; exact h
  exact wakeBy_awake e 3

/-- An event of an awake block is performed at once. -/
theorem wakeEvent_awake {b : Block} (h : rd b 0xC000 6 = 0) (c : Nat) (i : Instr) (f : Block → Block) :
    wakeEvent b c i f = f b := by
  simp [wakeEvent, asleep, h, wakeBy_awake h]

@[simp] theorem acceptCmd_seq (b : Block) (acc : Access) (i s a : Nat) :
    (acceptCmd b acc i s a).dict.cmds =
      b.dict.cmds ++ [⟨objKey i s, (b.dict.cmdSeq + 1) % 65536, acc, a, b.clk.now⟩] := by
  simp [acceptCmd]

/-- What is pending on an object once its command is accepted. -/
theorem pendingCmd_acceptCmd {b : Block} {i s : Nat} (h : pendingCmd b i s = none) (acc : Access) (a : Nat) :
    pendingCmd (acceptCmd b acc i s a) i s = some ⟨objKey i s, (b.dict.cmdSeq + 1) % 65536, acc, a, b.clk.now⟩ := by
  unfold pendingCmd at h ⊢
  rw [acceptCmd_seq, List.find?_append, h]
  simp

@[simp] theorem part_acceptCmd (b : Block) (acc : Access) (i s a q : Nat) :
    part (acceptCmd b acc i s a) q = part b q := by
  simp only [acceptCmd, part_respond]; exact part_congr rfl q

/-- Acceptance changes no object but the command's result. -/
theorem rd_acceptCmd_other (b : Block) (acc : Access) {i s j t : Nat} (a : Nat) (h : objKey j t ≠ objKey i (s + 0x80)) :
    rd (acceptCmd b acc i s a) j t = rd b j t := by
  simp only [acceptCmd, rd_respond]; exact rd_wr_other _ _ h
/-! ## Accepted commands -/

/-- A command whose object can take it and which fails no check runs from the state that has accepted it. -/
theorem command_taken {b : Block} {acc : Access} {idx sub arg : Nat} {fails : Block → CmdFails} {run : Block → Block}
    (h : canTake b idx sub) (ht : fencedTnt (count b 0x1402 5) acc = false)
    (hk : objKey idx (sub + 0x80) ≠ objKey 0x1402 5) (hf : fails (count b 0x1402 5) = noFails) :
    command b acc idx sub arg fails run = run (acceptCmd (count b 0x1402 5) acc idx sub arg) := by
  obtain ⟨ha, hd, hr, _, hl⟩ := h
  have d : dictReady (count b 0x1402 5) = true := by
    unfold dictReady at *; rw [rd_count_other b (by decide)]; exact hd
  have r : resultState (count b 0x1402 5) idx sub ≠ 1 := by
    unfold resultState at *; rw [rd_count_other b hk]; exact hr
  have l : ¬ 256 ≤ (count b 0x1402 5).dict.cmds.length := Nat.not_le.mpr hl
  simp [command, busAccess_awake ha, d, hf, noFails, ht, firstFail, r, l]

/-- The result of a partition's command is not a counter of the dictionary. -/
theorem partKey_ne {i base pid sub : Nat} (hb : 0x2000 ≤ base) (h : i = base + pid) : objKey i (sub + 0x80) ≠ objKey 0x1402 5 := by
  subst h; simp only [objKey]; omega

/-! ## Check points without injection (12 R408) -/

/-- With no injection every control word is read without an error. -/
theorem checkWord_clean {b : Block} (h : noInjection b) (u site pid addr w : Nat) :
    checkWord b u site pid addr w = (b, false) := by
  unfold noInjection at h
  simp [checkWord, injectHere, h]

/-- With no injection no flit is poisoned. -/
theorem checkFlits_clean {b : Block} (h : noInjection b) (u site pid addr n : Nat) :
    checkFlits b u site pid addr n = (b, 0) := by
  unfold noInjection at h
  induction n with
  | zero => rfl
  | succ n ih => simp [checkFlits, checkFlit, injectHere, h, ih, ofBool]

/-- With no injection a block of data passes every check point of its way. -/
theorem checkPath_clean {b : Block} (h : noInjection b) (pid addr n : Nat) (way : List (Nat × Nat)) :
    checkPath b pid addr n way = (b, 0) := by
  unfold checkPath
  induction way with
  | nil => rfl
  | cons x xs ih => simpa [checkFlits_clean h] using ih

theorem noInjection_accept {b : Block} {acc : Access} {base pid sub a : Nat} (h : noInjection b) (hp : isPid pid) (hs : sub < 0x80)
    (hb : base = 0x2100) : noInjection (acceptCmd (count b 0x1402 5) acc (base + pid) sub a) := by
  subst hb
  obtain ⟨_, _⟩ := hp
  unfold noInjection at *
  rw [rd_acceptCmd_other _ _ _ (by unfold objKey; omega), rd_count_other b (by decide)]
  exact h

/-! ## Commands of a partition -/

/-- A partition's command whose object can take it and which fails no check runs from the state that has accepted it. -/
theorem partCommand_taken {b : Block} {acc : Access} {base pid sub arg : Nat} {fails : Block → CmdFails}
    {run : Block → Block} (hp : isPid pid) (hb : 0x2000 ≤ base) (h : canTake b (base + pid) sub)
    (ht : fencedTnt (count b 0x1402 5) acc = false) (hf : fails (count b 0x1402 5) = noFails)
    (hn : base ≠ 0x2100 := by decide) :
    partCommand b acc base pid sub arg fails run = run (acceptCmd (count b 0x1402 5) acc (base + pid) sub arg) := by
  obtain ⟨h1, h2⟩ := hp
  simp only [partCommand, h1, h2, decide_true, Bool.and_self, if_true]
  rw [command_taken h ht (partKey_ne hb rfl) hf]
  simp [descriptorRead, hn]

/-- The same of a command of the Partition Table, whose descriptor is read without an error. -/
theorem tableCommand_taken {b : Block} {acc : Access} {pid sub arg : Nat} {fails : Block → CmdFails}
    {run : Block → Block} (hp : isPid pid) (h : canTake b (0x2100 + pid) sub) (hi : noInjection b) (hs : sub < 0x80)
    (ht : fencedTnt (count b 0x1402 5) acc = false) (hf : fails (count b 0x1402 5) = noFails) :
    partCommand b acc 0x2100 pid sub arg fails run = run (acceptCmd (count b 0x1402 5) acc (0x2100 + pid) sub arg) := by
  have hp' := hp
  obtain ⟨h1, h2⟩ := hp
  simp only [partCommand, h1, h2, decide_true, Bool.and_self, if_true]
  rw [command_taken h ht (partKey_ne (by decide) rfl) hf]
  simp [descriptorRead, checkWord_clean (noInjection_accept hi hp' hs rfl)]

/-- Only a tenant's commands are turned away while the block is fenced. -/
theorem fencedTnt_host {b : Block} {acc : Access} (h : roleOf acc.path ≠ .tnt) : fencedTnt b acc = false := by
  cases hr : roleOf acc.path <;> simp_all [fencedTnt]

theorem byHost_notTnt {acc : Access} (h : byHost acc) : roleOf acc.path ≠ .tnt := by
  rcases h with h | h <;> simp [h]

theorem byHost_notHostFw {acc : Access} (h : byHost acc) : notHostFw acc = false := by
  rcases h with h | h <;> simp [notHostFw, h]

theorem byHost_notHostTntFw {b : Block} {acc : Access} {pid : Nat} (h : byHost acc) : notHostTntFw b acc pid = false := by
  rcases h with h | h <;> simp [notHostTntFw, h]

theorem mayCommand_rights {b : Block} {acc : Access} {pid : Nat} (hp : isPid pid) (h : mayCommand b acc pid) :
    notHostTntFw b acc pid = false := by
  rcases h with h | ⟨h, e, _⟩
  · exact byHost_notHostTntFw h
  · simp only [notHostTntFw, h, e]; obtain ⟨_, _⟩ := hp; simp; omega

theorem mayCommand_fence {b : Block} {acc : Access} {pid : Nat} (h : mayCommand b acc pid) :
    fencedTnt (count b 0x1402 5) acc = false := by
  rcases h with h | ⟨_, _, h⟩
  · exact fencedTnt_host (byHost_notTnt h)
  · simp only [fencedTnt, rd_count_other b (show objKey 0x9000 1 ≠ objKey 0x1402 5 by decide), h]; simp

@[simp] theorem part_count (b : Block) (i s q : Nat) : part (count b i s) q = part b q := part_congr rfl q
@[simp] theorem pathPid_count (b : Block) (i s : Nat) (p : Path) : pathPid (count b i s) p = pathPid b p := (rfl)
@[simp] theorem notHostTntFw_count (b : Block) (i s : Nat) (acc : Access) (pid : Nat) :
    notHostTntFw (count b i s) acc pid = notHostTntFw b acc pid := (rfl)



end Sys2Proof.Machine
end

