-- ==== Sys2Proof/Laws/Engine.lean ====
section
/-! SUPPORT. What an Engine Station does with a request that passes its checks, and with one that does not. -/

namespace Sys2Proof.Machine

/-! ## What comes before a request is listed -/

/-- A station that takes requests lets one act. -/
theorem presented_takes {b : Block} {es : Nat} (h : stationTakes b es) (f : Block → Block) : presented b es f = f b := by
  obtain ⟨h1, h2, h3⟩ := h
  simp [presented, atStation, h1, h2, h3]

/-- A cluster that runs a step may make a request that is not bad in itself. -/
theorem screenReq_ok {b : Block} {es : Nat} {st : Step} {bad : Step → Option Status} (h : clusterRuns b es st)
    (hb : bad st = none) : screenReq b es bad = .ok st := by
  obtain ⟨_, h2, h3, h4, h5, h6, h7⟩ := h
  simp [screenReq, h2, h3, h4, h5, h6, h7, hb]

/-- A request that is bad in itself is refused with that status. -/
theorem screenReq_bad {b : Block} {es : Nat} {st : Step} {bad : Step → Option Status} {e : Status}
    (hs : served b (uES es) = true) (hr : runsStep b es = some st) (hf : fencedAccess b st.ctx = false)
    (ho : ctxOpen b st.pid st.ctx.cx = true) (hb : bad st = some e) : screenReq b es bad = .error e := by
  simp [screenReq, hs, hr, hf, ho, hb]

/-- A request that passes the station's checks joins its list and is tried. -/
theorem engineMem_ok {b : Block} {es op va beats data compare : Nat} {st : Step} (hr : clusterRuns b es st)
    (hi : noInjection b) (hv : va < 2 ^ 52) (h1 : 1 ≤ beats) (h8 : beats ≤ 8) (ha : engineAligned op va beats)
    (hd : declared st (op != 0) va (engineLen op beats) = true) :
    engineMem b es op va beats data compare =
      engineGo (addReq b es (engineReq b op va beats data compare st)).1 es (engineReq b op va beats data compare st) := by
  have g : ¬((decide (2 ^ 52 ≤ va) || decide (15 < beats)
      || (!decide (2 ≤ op) && (decide (beats = 0) || decide (8 < beats)))) = true) := by
    simp only [Bool.or_eq_true, decide_eq_true_eq, Bool.and_eq_true]
    omega
  have m : (if decide (2 ≤ op) = true then decide (va % 8 ≠ 0) || decide (beats ≠ 1) else decide (va % 64 ≠ 0)) = false := by
    unfold engineAligned at ha
    split at ha
    · next h => simp [h, ha]
    · next h => simp [h, ha]
  have d : memFault (op != 0) false va (engineLen op beats) st = none := by simp [memFault, hd]
  unfold engineMem
  rw [if_neg g]
  simp only [engineLen] at d
  simp only [decide_eq_true_eq] at m ⊢
  rw [m, screenReq_ok hr d]
  simp only [checkWord_clean hi]
  simp [addReq, engineReq, engineLen]

/-! ## What is tried -/

/-- The requests before one that has just joined its station were all listed there before. -/
theorem earlier_addReq {b : Block} {es n : Nat} {r q : EReq} (h : q ∈ earlier (addReq b es r).1 es n)
    (hn : n = b.cha.nextReq) : q ∈ (station b es).reqs := by
  subst hn
  have e : (station (addReq b es r).1 es).reqs = (station b es).reqs ++ [{ r with num := b.cha.nextReq }] := by
    simp [addReq, onStationES]; simp [station]
  unfold earlier at h
  rw [e] at h
  generalize (station b es).reqs = l at h ⊢
  induction l with
  | nil => simp at h
  | cons a l ih =>
    simp only [List.cons_append, List.takeWhile_cons] at h
    split at h
    · rcases List.mem_cons.mp h with h | h
      · exact h ▸ List.mem_cons_self ..
      · exact List.mem_cons_of_mem _ (ih h)
    · simp at h

/-- A request that nothing keeps back and that translation lets through goes where its tile lies. -/
theorem engineTry_issued {b b' : Block} {es : Nat} {r : EReq} {segs : List Seg}
    (he : (earlier b es r.num).any r.after = false) (hb : r.behind = false)
    (h : prepare b (reqAsker es r) r.ctx r.va r.len r.access true = (b', .issued segs)) :
    engineTry b es r = engineSend b' es { r with behind := false } segs := by
  simp [engineTry, he, hb, h]

/-- A request whose translation or guard checks fail is refused with their status. -/
theorem engineTry_failed {b b' : Block} {es : Nat} {r : EReq} {st : Status} {va : Nat}
    (he : (earlier b es r.num).any r.after = false) (hb : r.behind = false)
    (h : prepare b (reqAsker es r) r.ctx r.va r.len r.access true = (b', .failed st va)) :
    engineTry b es r = refuseReq b' es r st := by
  simp [engineTry, he, hb, h]

/-- A request that a page's walk keeps waiting stays listed. -/
theorem engineTry_wait {b b' : Block} {es : Nat} {r : EReq}
    (he : (earlier b es r.num).any r.after = false) (hb : r.behind = false)
    (h : prepare b (reqAsker es r) r.ctx r.va r.len r.access true = (b', .wait)) : engineTry b es r = b' := by
  simp [engineTry, he, hb, h]

/-! ## Listing a request touches nothing that decides where it goes -/

@[simp] theorem segsPlace_setReq (b : Block) (es : Nat) (r : EReq) (l : List Seg) :
    segsPlace (setReq b es r) l = segsPlace b l := (rfl)

@[simp] theorem lockFree_setReq (b : Block) (es : Nat) (r : EReq) (pa n : Nat) :
    lockFree (setReq b es r) pa n = lockFree b pa n := (rfl)

@[simp] theorem served_setReq (b : Block) (es : Nat) (r : EReq) (k : Nat) : served (setReq b es r) k = served b k := (rfl)

@[simp] theorem issued_setReq (b : Block) (es : Nat) (r : EReq) (h : Holder) : issued (setReq b es r) h = issued b h := (rfl)

@[simp] theorem tagFree_setReq (b : Block) (es : Nat) (r : EReq) (p : Pool) (pid : Nat) :
    tagFree (setReq b es r) p pid = tagFree b p pid := (rfl)

@[simp] theorem tagReady_setReq (b : Block) (es : Nat) (r : EReq) (w : TagWait) :
    tagReady (setReq b es r) w = tagReady b w := (rfl)

/-! ## A request that leaves touches no BLOB -/

theorem finishCmd_blobs (b : Block) (i s : Nat) (c : Code) (d : Nat) : (finishCmd b i s c d).dict.blobs = b.dict.blobs := by
  unfold finishCmd notifyDone sendRecord; (repeat' split) <;> simp [wr]

/-- What each step of a fold keeps, the fold keeps. -/
theorem foldl_keeps {α β : Type} (g : Block → β) (f : Block → α → Block) (h : ∀ b a, g (f b a) = g b) (l : List α) (b : Block) :
    g (l.foldl f b) = g b := by
  induction l generalizing b with
  | nil => rfl
  | cons a l ih => rw [List.foldl_cons, ih, h]

theorem pumpInv_blobs (b : Block) : (pumpInv b).dict.blobs = b.dict.blobs :=
  foldl_keeps (·.dict.blobs) _ (fun b _ => finishCmd_blobs b _ _ _ _) _ _

theorem dropHolders_dict (b : Block) (p : Holder → Bool) : (dropHolders b p).dict = b.dict :=
  foldl_keeps (·.dict) (fun b (u : TagUse) => dropTag b u.tag) (fun _ _ => rfl) _ b

theorem dropReq_blobs (b : Block) (es n : Nat) : (dropReq b es n).dict.blobs = b.dict.blobs := by
  have e : ∀ b h segs, (abandon b h segs).dict.blobs = b.dict.blobs := fun b h segs => by
    unfold abandon dropPieces settleTile
    rw [foldl_keeps (·.dict.blobs) (fun b k => dropReply b (pieceHolder h k)) (fun _ _ => rfl), pumpInv_blobs, settle,
      dropHolders_dict]
  exact e _ _ _

/-! ## Requests of package memory -/

/-- A read whose tile is in package memory goes out. -/
theorem engineSend_read {b : Block} {es : Nat} {r : EReq} {segs : List Seg} (hp : segsPlace b segs = .package)
    (h : r.op = 0) :
    engineSend b es r segs =
      goRead (setReq b es { r with issued := true, segs := segs }) (reqAsker es r) r.ctx segs := by
  simp only [engineSend, segsPlace_setReq, hp, h]
  rfl

/-- A write or an atomic whose tile is in package memory is done under a tag. -/
theorem engineSend_store {b : Block} {es : Nat} {r : EReq} {segs : List Seg} (hp : segsPlace b segs = .package)
    (h1 : 1 ≤ r.op) (h5 : r.op < 5) :
    engineSend b es r segs =
      engineStore (setReq b es { r with issued := true, segs := segs }) es { r with issued := true, segs := segs } := by
  have n0 : r.op ≠ 0 := by omega
  simp only [engineSend, segsPlace_setReq, hp, n0, if_neg, not_false_eq_true, EReq.isAtomic]
  split <;> rfl

/-- What a write or an atomic of package memory asks of its pool. -/
def storeTag (es : Nat) (r : EReq) : TagWait := ⟨.mem, r.ctx, [], reqHolder es r.num, []⟩

/-- A write of package memory that finds a tag is made, and is over. -/
theorem engineStore_write {b : Block} {es : Nat} {r : EReq} (hp : segsPlace b r.segs = .package) (h : r.op = 1)
    (ht : tagFree b .mem r.ctx.pid = true) (hn : issued b (reqHolder es r.num) = false) :
    engineStore b es r =
      dropReq (putPieces (grantTag b (storeTag es r)) (reqAsker es r) r.ctx ⟨r.len, r.data⟩ 0 0 r.segs) es r.num := by
  have e : tagFree b (storeTag es r).pool (storeTag es r).pid = true := ht
  simp only [engineStore, hp, reqAsker]
  simp [EReq.isAtomic, h, tagReady, hn, storeTag, TagWait.pid, ht]

/-- An atomic of package memory that finds a tag takes its line's lock, or waits for it. -/
theorem engineStore_atomic {b : Block} {es : Nat} {r : EReq} (hp : segsPlace b r.segs = .package) (h2 : 2 ≤ r.op)
    (h5 : r.op < 5) (ht : tagFree b .mem r.ctx.pid = true) (hn : issued b (reqHolder es r.num) = false) :
    engineStore b es r = engineLock (grantTag b (storeTag es r)) es r := by
  simp only [engineStore, hp, reqAsker]
  simp [EReq.isAtomic, h2, h5, tagReady, hn, storeTag, TagWait.pid, ht]

/-- A write or an atomic that finds no tag waits for one. -/
theorem engineStore_wait {b : Block} {es : Nat} {r : EReq} (hp : segsPlace b r.segs = .package)
    (ht : tagFree b .mem r.ctx.pid = false) (hn : issued b (reqHolder es r.num) = false) :
    engineStore b es r = waitTag b (storeTag es r) := by
  simp only [engineStore, hp, reqAsker]
  simp [tagReady, hn, storeTag, TagWait.pid, ht]

/-- The read-modify-write of an atomic that finds its line free and its station in service. -/
theorem engineLock_free {b : Block} {es : Nat} {r : EReq} (hl : lockFree b r.pa 1 = true)
    (hs : served b (uMS (stationOf r.pa)) = true) :
    engineLock b es r =
      let a := atomicAt b r.pa r.aop r.data r.compare
      emit (dropReq a.1 es r.num) (.edData es ⟨8, a.2⟩) := by
  simp [engineLock, hl, engineAtomic, hs]

end Sys2Proof.Machine
end

