-- ==== Sys2Proof/Laws/Memory.lean ====
section
/-! SUPPORT. Package memory: what a byte reads as after a write, and that every operation keeps the one form. -/

namespace Sys2Proof.Machine

@[simp] theorem readByte_writeByte_other (b : Block) {a a' : Nat} (v : BitVec 8) (h : a' ≠ a) :
    readByte (writeByte b a v) a' = readByte b a' := by
  simp [readByte, writeByte, h]

@[simp] theorem readByte_writeByte_self (b : Block) (a : Nat) (v : BitVec 8) : readByte (writeByte b a v) a = v := by
  simp [readByte, writeByte]

theorem writeByte_wf {b : Block} (a : Nat) (v : BitVec 8) (h : Memory.wf b.mem = true) :
    Memory.wf (writeByte b a v).mem = true := canonical_store a v h

theorem writeBytes_wf {b : Block} (a v n : Nat) (h : Memory.wf b.mem = true) :
    Memory.wf (writeBytes b a v n).mem = true := by
  induction n generalizing b a v with
  | zero => exact h
  | succ n ih => exact ih (a + 1) (v / 256) (writeByte_wf a _ h)

theorem writeMem_wf {b : Block} (pa v n : Nat) (h : Memory.wf b.mem = true) : Memory.wf (writeMem b pa v n).mem = true :=
  writeBytes_wf _ v n h

/-- A write of `n` bytes changes no byte outside them. -/
theorem readByte_writeBytes_outside {b : Block} {a v n a' : Nat} (h : a' < a ∨ a + n ≤ a') :
    readByte (writeBytes b a v n) a' = readByte b a' := by
  induction n generalizing b a v with
  | zero => rfl
  | succ n ih =>
    unfold writeBytes
    rw [ih (by omega), readByte_writeByte_other b _ (by omega)]

/-- A write of `n` bytes is read back, byte by byte. -/
theorem readByte_writeBytes_inside {b : Block} {a v n i : Nat} (hi : i < n) :
    readByte (writeBytes b a v n) (a + i) = BitVec.ofNat 8 (v / 256 ^ i) := by
  induction n generalizing b a v i with
  | zero => omega
  | succ n ih =>
    unfold writeBytes
    rcases Nat.eq_zero_or_pos i with rfl | hp
    · rw [readByte_writeBytes_outside (by omega)]
      simp
    · obtain ⟨j, rfl⟩ : ∃ j, i = j + 1 := ⟨i - 1, by omega⟩
      have := ih (b := writeByte b a (BitVec.ofNat 8 v)) (a := a + 1) (v := v / 256) (show j < n by omega)
      rw [show a + (j + 1) = a + 1 + j by omega, this, Nat.div_div_eq_div_mul, Nat.pow_succ']

theorem zeroGranule_wf {b : Block} (g : Nat) (h : Memory.wf b.mem = true) : Memory.wf (zeroGranule b g).mem = true :=
  canonical_filter _ h

end Sys2Proof.Machine
end

