-- ==== Sys2Proof/Tests/Slice0.lean ====
section
/-! SUPPORT. Tests: every well-formedness check refuses an ill-formed command; single steps on small states with results
worked out by hand from the spec; and, for each statement of Certificates/Slice0, a state and operands that meet its
hypotheses. -/

open Sys2Proof Sys2Proof.Machine

namespace Sys2Proof.Tests

set_option maxRecDepth 8000
set_option Elab.async false

/-! ## States -/

/-- 128 Engine Stations and 32 Memory Stations of 4 granules each, all on die 0 and module 0; 2 zones. -/
def straps : Straps := ⟨BitVec.allOnes 128, BitVec.allOnes 32, 4, 2, List.replicate 160 0, List.replicate 160 0⟩

/-- Objects the checks read most, listed so that no test looks their defaults up: chip 0, not fenced, in step `n` with
`done` in STARTUP_DONE, in RUN, no injection. -/
def objects (n done : Nat) : SMap Word :=
  [(objKey 0x1000 3, 0), (objKey 0x1402 5, 0), (objKey 0x9000 1, 0), (objKey 0xC000 1, BitVec.ofNat 64 n),
   (objKey 0xC000 2, BitVec.ofNat 64 done), (objKey 0xC000 6, 0), (objKey 0xF000 1, 0), (objKey 0xF000 5, 0)]

/-- The block released from reset, its PLLs locked and its memory interfaces ready, in step `n` of start-up. -/
def atStep (n : Nat) : Block := { Block.reset with
  clk := ⟨1000, true, true, 0xFFFF, 0xFFFFFFFF⟩, straps := straps, dict := { Block.reset.dict with objs := objects n 0 } }

/-- The block RUNNING as chip 0, its dictionary ready. -/
def up : Block := { atStep 8 with dict := { Block.reset.dict with objs := objects 8 0x1FE } }

def on (b : Block) : State := ⟨b, []⟩

/-- The accesses of the test: the host's slot 0, the root of trust's key port, Reed core 0, function 1's slot 0. -/
def host : Access := ⟨.host 0, false, 7⟩
def rot : Access := ⟨.key, false, 7⟩
def reed : Access := ⟨.reed 0, false, 7⟩
def tnt : Access := ⟨.tenant 1 0, false, 7⟩

/-- Partition 1 as a CREATE and a COMMIT leave it: all clusters, granule 0, queue pairs 0-7, keys 0-7, channels 0-3,
function 1, context 0 OPEN. -/
def live : Part := { freePart with
  st := .live, engines := 2 ^ 128 - 1, granules := 1, share := 36, qpCount := 8, keyCount := 8, chanCount := 4, vf := 1, ctxs := [(0, ⟨.open, 0, 0, false⟩)] }

def withPart (b : Block) : Block := setOwner (setPart b 1 live) 0 ⟨1, false, .inUse⟩

/-- A state in which partition 1 is LIVE. -/
def pt : Block := withPart up

def c1 : Ctx := ⟨1, 0, 0⟩

/-- A buffered leaf: page 0 of context 0 of partition 1 onto package memory at `pa`, with every right. -/
def leaf (pa : Nat) : TEntry := ⟨false, c1, 0, false, pa, ⟨true, true, true⟩, ⟨true, true, true⟩, 0, 0, false⟩

/-- The same, its pages translated through the shared level. -/
def mapped : Block := { pt with hub := { pt.hub with shared := [leaf 0] } }

/-- A step of partition 1 that runs on cluster 0 and declares its first 64 KiB as an output range. -/
def step1 : Step :=
  ⟨0, 1, 0, c1, 0, [2 ^ 127 + 65536], 1, .running, 0, [0], [], [], 0, 0, 0, none, [], false, false, 0⟩

def ran (b : Block) (st : Step) : Block :=
  setStation { b with cha := { b.cha with steps := [st] } } 0 { freshStation with step := some 0, pid := 1, lastPid := 1 }


/-! ## Steps -/

theorem wit_MemoryKeepsItsCanonicalForm : ∃ t, State.memOk ⟨writeMem up 64 0xAB00 2, [.walkerGrant]⟩
    ∧ step ⟨writeMem up 64 0xAB00 2, [.walkerGrant]⟩ = .next t :=
  ⟨_, by delta State.memOk; decide +kernel, rfl⟩

theorem wit_ResetIsCanonicalAndAnIdleBlockPassesTime : State.reset.pending = [] ∧ State.reset.dev.clk.released = false
    ∧ (on up).pending = [] ∧ (on up).dev.clk.released = true := by decide +kernel

/-- The block takes its commands first in, first out. -/
theorem test_step_order : Goes (step ⟨up, [.walkerGrant, .stepDispatch]⟩) fun t => t.pending = [.stepDispatch] :=
  ⟨_, rfl, rfl⟩


/-! ## Engine Stations -/

theorem some_of_any {α : Type} {o : Option α} {p : α → Prop} [DecidablePred p] (h : o.any (fun x => decide (p x)) = true) :
    ∃ x, o = some x ∧ p x := by
  cases o with
  | none => simp at h
  | some x => exact ⟨x, rfl, by simpa using h⟩

/-- A line of package memory translated for the engine's step. -/
def eng : State := on (ran mapped step1)

/-- What translation answers for a request of cluster 0. -/
def engPrep (op va beats data compare : Nat) : Block × Started :=
  let r := engineReq eng.dev op va beats data compare step1
  prepare (addReq eng.dev 0 r).1 (reqAsker 0 r) r.ctx r.va r.len r.access true

theorem engLets {op va beats data compare : Nat} {segs : List Seg}
    (h : 1 ≤ beats ∧ beats ≤ 8 ∧ va < 2 ^ 52 ∧ (if 2 ≤ op then va % 8 = 0 ∧ beats = 1 else va % 64 = 0))
    (d : declared step1 (op != 0) va (engineLen op beats) = true)
    (p : (engPrep op va beats data compare).2 = .issued segs) :
    engineLetThrough eng 0 op va beats data compare step1 (engPrep op va beats data compare).1 segs :=
  ⟨h.1, h.2.1, h.2.2.1, h.2.2.2, d, fun q hq => absurd hq (by rw [show (station eng.dev 0).reqs = [] by decide +kernel]; simp),
    Prod.ext rfl p⟩

theorem wit_EngineRequestsReachPackageMemory : awake eng.dev ∧ clusterRuns eng.dev 0 step1 ∧ noInjection eng.dev := by
  delta awake clusterRuns stationTakes noInjection; decide +kernel

/-- The one piece of a request, `pa` its address in package memory. -/
def piece (pa len : Nat) : Seg := ⟨pa, len, 0, 0, false, c1, 0, false, 1⟩

/-- A READ and a WRITE of the last 8 beats of the range, and atomics of its last word. -/
theorem wit_EngineRequestsReachPackageMemory_read : ∃ b segs,
    engineLetThrough eng 0 0 65024 8 0 0 step1 b segs ∧ segsPlace b segs = .package :=
  ⟨_, [piece 65024 512], engLets (by decide) (by decide +kernel) (by decide +kernel), by decide +kernel⟩

/-- The WRITE finds a tag; where partition 1 may hold none, it does not. -/
theorem wit_EngineRequestsReachPackageMemory_write : ∃ b segs,
    engineLetThrough eng 0 1 65024 8 (2 ^ 4096 - 1) 0 step1 b segs ∧ segsPlace b segs = .package
      ∧ tagFree b .mem step1.ctx.pid = true ∧ tagFree (wr b 0x1301 1 0) .mem step1.ctx.pid = false
      ∧ issued b (reqHolder 0 eng.dev.cha.nextReq) = false :=
  ⟨_, [piece 65024 512], engLets (by decide) (by decide +kernel) (by decide +kernel), by decide +kernel, by decide +kernel,
    by decide +kernel, by decide +kernel⟩

theorem wit_EngineRequestsReachPackageMemory_atomic : ∀ op ∈ [2, 3, 4], ∃ b segs,
    engineLetThrough eng 0 op 65528 1 5 0 step1 b segs ∧ segsPlace b segs = .package
      ∧ tagFree b .mem step1.ctx.pid = true ∧ issued b (reqHolder 0 eng.dev.cha.nextReq) = false
      ∧ lockFree b ((segs.head?.map (·.pa)).getD 0) 1 = true
      ∧ served b (uMS (stationOf ((segs.head?.map (·.pa)).getD 0))) = true := by
  have h : ∀ op ∈ [2, 3, 4], declared step1 (op != 0) 65528 (engineLen op 1) = true
      ∧ (engPrep op 65528 1 5 0).2 = .issued [piece 65528 8] ∧ 2 ≤ op
      ∧ segsPlace (engPrep op 65528 1 5 0).1 [piece 65528 8] = .package
      ∧ tagFree (engPrep op 65528 1 5 0).1 .mem step1.ctx.pid = true
      ∧ issued (engPrep op 65528 1 5 0).1 (reqHolder 0 eng.dev.cha.nextReq) = false
      ∧ lockFree (engPrep op 65528 1 5 0).1 65528 1 = true ∧ served (engPrep op 65528 1 5 0).1 (uMS (stationOf 65528)) = true := by
    decide +kernel
  intro op m
  obtain ⟨d, p, o, q⟩ := h op m
  exact ⟨_, [piece 65528 8], engLets (by simp [o]) d p, q⟩

/-- R16: FETCH_ADD of 1 to the word 2^64 - 1 wraps to 0 and answers the original value. -/
theorem test_fetchAdd_wraps : Goes (exec (.fetchAdd 0 0 1 1) (on (writeMem (ran mapped step1) 0 (2 ^ 64 - 1) 8)))
    fun t => readMem t.dev 0 8 = 0 ∧ t.dev.out.getLast? = some (.edData 0 ⟨8, 2 ^ 64 - 1⟩) :=
  ⟨_, rfl, by decide +kernel⟩

/-- R16: CMP_SWAP stores only where the word compares equal. -/
theorem test_cmpSwap_differs : Goes (exec (.cmpSwap 0 8 1 9 6) (on (writeMem (ran mapped step1) 8 5 8)))
    fun t => readMem t.dev 8 8 = 5 ∧ t.dev.out.getLast? = some (.edData 0 ⟨8, 5⟩) :=
  ⟨_, rfl, by decide +kernel⟩

/-- R17: the bytes of a WRITE land little-endian at their addresses, and nothing beside them. -/
theorem test_write_bytes : Goes (exec (.write 0 64 1 ⟨64, 0xAB + 0xCD * 2 ^ 504⟩) eng)
    fun t => t.dev.mem = [(64, 0xAB), (127, 0xCD)] :=
  ⟨_, rfl, by decide +kernel⟩

/-- R16: an address that is no multiple of 64, the last before one that is, and lengths that no atomic has. -/
theorem wit_EngineRefusalsStayAtTheStation : awake eng.dev ∧ stationTakes eng.dev 0 ∧ served eng.dev (uES 0) = true
    ∧ reservedOp 5 = true ∧ reservedOp 15 = true ∧ runsStep eng.dev 0 = some step1 ∧ fencedAccess eng.dev step1.ctx = false
    ∧ ctxOpen eng.dev step1.pid step1.ctx.cx = true ∧ declared step1 false 63 (64 * 8) = true
    ∧ declared step1 true 63 (64 * 1) = true ∧ declared step1 true 65527 8 = true ∧ 65527 % 8 ≠ 0
    ∧ declared step1 true 65528 8 = true ∧ 15 ≠ 1 := by
  delta awake stationTakes; decide +kernel

/-- R16, R32: a misaligned READ outside the step's ranges is refused GUARD_FAULT. -/
theorem test_misaligned_undeclared : Goes (exec (.read 0 65537 1) eng) fun t => t.dev.out = [.eqStatus 0 .guardFault] :=
  ⟨_, rfl, by decide +kernel⟩

/-- A pacing line of partition 1 with SOURCE ENGINE: the last of the table. -/
def paced : Block := wrBlob (ran mapped step1) 0x4000 0x20 ⟨2048, ((1 <<< 58) + (1 <<< 56)) <<< (64 * 255)⟩

theorem wit_EngineControlRequests : awake paced ∧ clusterRuns paced 0 step1 ∧ (station paced 0).reqs = []
    ∧ paceOwner (paceEntry paced (255 % 256)) = step1.ctx.pid ∧ paceSource (paceEntry paced (255 % 256)) = 1 := by
  delta awake clusterRuns stationTakes; decide +kernel

theorem wit_EngineControlRequests_wait : awake up ∧ stationTakes up 127 ∧ served up (uES 127) = true
    ∧ (station up 127).killing = false ∧ runsStep up 127 = none := by
  delta awake stationTakes; decide +kernel

theorem wit_StaleResponsesAreCountedAndDiscarded :
    65535 < 65536 ∧ 15 < 16 ∧ 15 ≠ tagEpoch up 65535 ∧ 0 = tagEpoch up 65535 := by decide +kernel

/-- A READ of cluster 0 that has been issued, after the row READ. -/
def reading : Block := engineMem (ran mapped step1) 0 0 0 1 0 0

theorem wit_ResponsesAndGrantsOfTheEngineStations_response : ∃ u r x,
    reading.tags.used.find? (·.tag == 0) = some u ∧ u.holder.kind = .engineRead
      ∧ (station reading u.holder.a).reqs.find? (·.num == u.holder.b) = some r
      ∧ arrive (draw reading).2 (reqHolder u.holder.a u.holder.b) r.segs
          ⟨.ok, ⟨512, (draw reading).1 % 2 ^ 4096⟩, false⟩ (if r.op = 1 then 0 else r.len) = some x := by
  have h : reading.tags.used.find? (·.tag == 0) = some ⟨0, c1, [piece 0 64], ⟨.engineRead, 0, 0⟩⟩ := by decide +kernel
  have k : (station reading 0).reqs.find? (·.num == 0) = some ⟨0, 0, 0, 64, 0, 0, c1, [piece 0 64], true, false⟩ := by
    decide +kernel
  obtain ⟨x, e, _⟩ := some_of_any (o := arrive (draw reading).2 (reqHolder 0 0) [piece 0 64]
    ⟨.ok, ⟨512, (draw reading).1 % 2 ^ 4096⟩, false⟩ 64) (p := fun _ => True) (by decide +kernel)
  exact ⟨_, _, x, h, rfl, k, e⟩

/-- The same READ while partition 1 has no tag to take, its ceiling then raised. -/
def starved : Block := wr (engineMem (wr (ran mapped step1) 0x1301 1 0) 0 0 0 1 0 0) 0x1301 1 1

theorem wit_ResponsesAndGrantsOfTheEngineStations_grant : ∃ w, poolOfNum 0 = some .mem ∧ nextWaiter starved .mem = some w := by
  obtain ⟨w, e, _⟩ := some_of_any (o := nextWaiter starved .mem) (p := fun _ => True) (by decide +kernel)
  exact ⟨w, rfl, e⟩

/-- An atomic of cluster 0 that waited for a line that is now free. -/
def lineWait : Block := unlock (engineMem (lock (ran mapped step1) 0 1) 0 2 0 1 5 0) 0 1

theorem wit_ResponsesAndGrantsOfTheEngineStations_lock : ∃ w es num r, lockNext lineWait 0 = some w
    ∧ w.who = .engine es num ∧ findReq lineWait es num = some r := by
  have h : lockNext lineWait 0 = some ⟨0, 0, 1, .engine 0 0, 1000⟩ := by decide +kernel
  exact ⟨_, _, _, ⟨0, 2, 0, 8, 5, 0, c1, [piece 0 8], true, false⟩, h, rfl, by decide +kernel⟩

theorem wit_TagGrantsKeepEveryReserve : ∃ w, poolOfNum 0 = some .mem ∧ nextWaiter starved .mem = some w
    ∧ (pids.filter (isLive starved)).foldl (fun n q => n + (64 - poolHeld starved .mem q)) 0
        ≤ poolSize .mem - poolUsed starved .mem := by
  obtain ⟨w, e, n⟩ := some_of_any (o := nextWaiter starved .mem) (p := fun _ => True) (by decide +kernel)
  exact ⟨w, rfl, e, by decide +kernel⟩


/-! ## Start-up, Hold -/

/-- R432: the release starts the block at step 1; with every PLL locked before it, at step 2. -/
theorem test_resetRelease : Goes (exec (.resetRelease true true ⟨1, 1, 1, 1, [], []⟩) State.reset)
    fun t => t.dev.clk.released = true ∧ startupStep t.dev = 1 :=
  ⟨_, rfl, by decide +kernel⟩

/-- The block in step 1 with its PLLs not yet locked. -/
def unlockedDev : Block := { atStep 1 with clk := ⟨1000000, true, false, 0xFFFF, 0⟩ }

theorem wit_StartupAdvancesThroughItsSteps_pll :
    unlockedDev.clk.released = true ∧ startupStep unlockedDev = 1
      ∧ unlockedUnits { unlockedDev with clk := { unlockedDev.clk with coreLock := true } } = []
      ∧ ({ unlockedDev.clk with dieLock := unlockedDev.clk.dieLock ||| BitVec.ofNat 16 (2 ^ 15) } : Clock).released = true
      ∧ micros 10000 ≤ unlockedDev.clk.now ∧ unlockedDev.clk.coreLock = false := by
  decide +kernel

theorem wit_StartupAdvancesThroughItsSteps_die :
    let b := { atStep 1 with clk := ⟨1000000, true, true, 0x7FFE, 0⟩ }
    b.clk.released = true ∧ startupStep b = 1 ∧ b.clk.coreLock = true ∧ micros 10000 ≤ b.clk.now
      ∧ unlockedUnits b ≠ [] ∧ unlockedUnits { b with clk := { b.clk with dieLock := b.clk.dieLock ||| BitVec.ofNat 16 (2 ^ 0) } } = [] := by
  decide +kernel

theorem wit_StartupAdvancesThroughItsSteps_selfTest : startupStep (atStep 2) = 2 ∧ rd (atStep 2) 0x9000 1 ≠ 2
    ∧ [0x3FF].filter (unitPresent (atStep 2)) = [] := by decide +kernel

/-- Step 4 with a spill key installed. -/
def keyed : Block :=
  let b := wr (atStep 4) 0xC000 2 0xE
  { b with ring := { b.ring with spillCur := some 5 } }

theorem wit_StartupAdvancesThroughItsSteps_keys : startupStep keyed = 4 ∧ keyed.ring.spillCur ≠ none
    ∧ canTake keyed 0xC000 0x41 ∧ fromRot rot ∧ trained keyed ≠ [] := by
  delta canTake awake fromRot; decide +kernel

theorem wit_StartupAdvancesThroughItsSteps_memory : startupStep (atStep 5) = 5 ∧ msPresent (atStep 5) 31 = true
    ∧ starts (atStep 5) (uMS 31) = true ∧ (domain (atStep 5) (uMS 31)).st ≠ .retraining
    ∧ (∀ m ∈ trained (atStep 5), m ≠ 31 → ready (atStep 5) m = true) ∧ aligned (atStep 5) ≠ [] := by decide +kernel

/-- Step 6 with port pipe 35 the last to realign. -/
def pipe : Block := setPort (atStep 6) 35 { freshPort with realigning := true }

theorem wit_StartupAdvancesThroughItsSteps_pipes : startupStep pipe = 6 ∧ starts pipe (uPP 35) = true
    ∧ (domain pipe (uPP 35)).st ≠ .retraining ∧ (port pipe 35).realigning = true
    ∧ startupStep (portLink (setPort pipe 35 { port pipe 35 with realigning := false }) 35 false false) = 6
    ∧ (∀ q ∈ aligned (portLink (setPort pipe 35 { port pipe 35 with realigning := false }) 35 false false),
        (port (portLink (setPort pipe 35 { port pipe 35 with realigning := false }) 35 false false) q).realigning = false) := by
  decide +kernel

theorem wit_StartupAdvancesThroughItsSteps_translation : startupStep (atStep 7) = 7 ∧ rd (atStep 7) 0x9000 1 ≠ 2
    ∧ (atStep 7).tpe.noPath = [] := by decide +kernel

theorem wit_StationsEndTheirStartupAndFailuresQueueEvents_timeout :
    let b := { atStep 5 with clk := ⟨120000000, true, true, 0xFFFF, 0⟩ }
    msPresent b 31 = true ∧ (domain b (uMS 31)).st ≠ .retraining ∧ startupStep b = 5 ∧ starts b (uMS 31) = true
      ∧ ready b 31 = false ∧ elapsed b (stepTime b 4) (micros 1200000) = true := by decide +kernel

/-- Granule 2047 does not exist with 4 granules to a stack; granule 1987, the last of station 31, does. -/
theorem wit_StationsEndTheirStartupAndFailuresQueueEvents_scrub :
    let b := [1984, 1985, 1986].foldl (fun b g => setOwner b g ⟨0, false, .clean⟩) (atStep 6)
    ready b (1987 / 64) = true ∧ starts b (uMS (1987 / 64)) = true ∧ (owner b 1987).scrub = .unscrubbed
      ∧ granuleExists b 1987 = true ∧ granuleExists b 2047 = false
      ∧ ∀ x ∈ List.range 1987, x / 64 = 1987 / 64 → granuleExists b x = true → (owner b x).scrub ≠ .unscrubbed := by
  decide +kernel

theorem wit_StationsEndTheirStartupAndFailuresQueueEvents :
    let b := { up with straps := { straps with stackGranules := 1, esMask := 1 } }
    b.fcu.queue.length + (stationsOn b b.straps.modOf 0).length ≤ 64 ∧ stationsOn b b.straps.modOf 0 ≠ []
      ∧ pllWatched b = true ∧ b.fcu.queue.length + (stationsOn b b.straps.dieOf 0).length ≤ 64
      ∧ stationsOn b b.straps.dieOf 0 ≠ [] ∧ b.fcu.queue.length < 64 ∧ msPresent b 31 = true ∧ ready b 31 = true := by
  decide +kernel

/-- No granule is left to scrub. -/
def idleDev : Block := { up with straps := { straps with stackGranules := 0 } }

theorem wit_HoldIsEnteredAndLeft_command : canTake idleDev 0xC000 0x40 ∧ notHostFmFw host = false
    ∧ holdFault (acceptCmd (count idleDev 0x1402 5) host 0xC000 0x40 0) = none
    ∧ canTake (wr up 0x9000 1 1) 0xC000 0x40 ∧ holdFault (acceptCmd (count (wr up 0x9000 1 1) 0x1402 5) host 0xC000 0x40 0) = some 1 := by
  delta canTake awake; decide +kernel

/-- HOLD_ENTER under way. -/
def entering : Block := wr (acceptCmd up host 0xC000 0x40 0) 0xC000 6 1

theorem wit_HoldIsEnteredAndLeft_done : ∃ p, rd entering 0xC000 6 = 1 ∧ pendingCmd entering 0xC000 0x40 = some p
    ∧ p.cmdSeq < 65536 := by
  obtain ⟨p, e, n⟩ := some_of_any (o := pendingCmd entering 0xC000 0x40) (p := fun p => p.cmdSeq < 65536) (by decide +kernel)
  exact ⟨p, by decide +kernel, e, n⟩

theorem wit_HoldIsEnteredAndLeft_wake : rd (wr up 0xC000 6 2) 0xC000 6 = 2 ∧ rd (wr up 0xC000 6 3) 0xC000 6 = 3
    ∧ (wr up 0xC000 6 3).held = [] ∧ (wr up 0xC000 6 3).tpe.rxCredit = [] := by decide +kernel

/-! ## The dictionary -/

/-- 02 R43: an index no object has is NOOBJ, a sub-index of a known one NOSUB. -/
theorem test_firstChecks : firstChecks up host 0x0FFF 1 false = some .noobj ∧ firstChecks up host 0xC000 0x3F false = some .nosub := by
  decide +kernel

theorem wit_ReadsAnswerTheObjectsValue : awake up ∧ dictReady up = true
    ∧ firstChecks (count up 0x1402 5) host 0x1000 3 false = none ∧ sizeOf4 1 = some (objType 0x1000 3).size
    ∧ (roleOf tnt.path = .tnt → pathPid pt tnt.path ≠ 0)
    ∧ firstChecks (count pt 0x1402 5) tnt 0x1000 3 false ≠ some .noobj
    ∧ firstChecks (count pt 0x1402 5) tnt 0x1000 3 false ≠ some .nosub := by
  delta awake; decide +kernel

/-- Every condition of a write but the row, which is found. -/
def taken (b : Block) (acc : Access) (idx sub v : Nat) : Bool :=
  rd b 0xC000 6 == 0 && dictReady b && decide (0 < sub) && (objRow idx sub).any fun r =>
    decide (r.ty ≠ .cmd ∧ r.ty ≠ .blob ∧ firstChecks (count b 0x1402 5) acc idx sub true = none
      ∧ writeFault (count b 0x1402 5) r (fencedTnt (count b 0x1402 5) acc) idx sub v = none ∧ r.legal ≠ .counter)

theorem takes {b : Block} {acc : Access} {idx sub v : Nat} (h : taken b acc idx sub v = true) :
    ∃ r, writeTaken b acc idx sub v r ∧ r.legal ≠ .counter := by
  simp only [taken, Bool.and_eq_true, beq_iff_eq, decide_eq_true_eq] at h
  obtain ⟨⟨⟨a, d⟩, s⟩, o⟩ := h
  obtain ⟨r, e, p⟩ := some_of_any o
  exact ⟨r, ⟨a, d, s, e, p.1, p.2.1, p.2.2.1, p.2.2.2.1⟩, p.2.2.2.2⟩

/-- The block with partition 1 LIVE, channel 0's ring laid out, and partition 63 BUILDING. -/
def config : Block := setPart (wr (wr pt 0x4200 1 4096) 0x4200 2 4) 63 { freePart with st := .building }

/-- A write of every clause, at the ends of its range of objects. -/
theorem wit_ConfigurationWritesTakeEffect : ∀ w ∈ [(host, 0x2401, 3, 1), (host, 0x243F, 3, 0), (host, 0x4200, 3, 1),
      (host, 0x4203, 1, 4096), (host, 0x4200, 2, 16), (reed, 0x5000, 2, 0x8888), (reed, 0x5010, 3, 8),
      (host, 0x6101, 0x40, 0), (host, 0x6401, 0x20, 0), (host, 0x713F, 1, 0), (rot, 0x713F, 7, 0),
      (host, 0x813F, 0x20, 4096), (host, 0xA101, 1, 0), (reed, 0xA23F, 3, 0), (host, 0x9200, 1, 4), (host, 0x921B, 2, 0),
      (reed, 0xA000, 2, 0), (host, 0xF000, 1, 0), (rot, 0xF000, 2, 1), (rot, 0x1400, 1, 5)],
    ∃ r, writeTaken config w.1 w.2.1 w.2.2.1 w.2.2.2 r ∧ r.legal ≠ .counter := by
  have h : ∀ w ∈ [(host, 0x2401, 3, 1), (host, 0x243F, 3, 0), (host, 0x4200, 3, 1),
      (host, 0x4203, 1, 4096), (host, 0x4200, 2, 16), (reed, 0x5000, 2, 0x8888), (reed, 0x5010, 3, 8),
      (host, 0x6101, 0x40, 0), (host, 0x6401, 0x20, 0), (host, 0x713F, 1, 0), (rot, 0x713F, 7, 0),
      (host, 0x813F, 0x20, 4096), (host, 0xA101, 1, 0), (reed, 0xA23F, 3, 0), (host, 0x9200, 1, 4), (host, 0x921B, 2, 0),
      (reed, 0xA000, 2, 0), (host, 0xF000, 1, 0), (rot, 0xF000, 2, 1), (rot, 0x1400, 1, 5)],
    taken config w.1 w.2.1 w.2.2.1 w.2.2.2 = true := by decide +kernel
  exact fun w m => takes (h w m)

/-- 01 R34: 0x1200.02, a SAT counter, may be cleared by firmware. -/
theorem wit_CountersAreClearedByZeroOnly : (objRow 0x1200 2).any (fun r => decide (r.legal = .counter ∧ r.ty ≠ .cmd ∧ r.ty ≠ .blob)) = true
    ∧ awake up ∧ dictReady up = true ∧ firstChecks (count up 0x1402 5) reed 0x1200 2 true = none
    ∧ fencedTnt (count up 0x1402 5) reed = false := by
  delta awake; decide +kernel

theorem wit_CountersAreClearedByZeroOnly_saturates : rd (wr up 0x1200 2 (2 ^ 32 - 1)) 0x1200 2 = 2 ^ 32 - 1
    ∧ bitAt (rd (wr up 0x1200 2 (2 ^ 32 - 1)) 0x1200 6) 0 = false ∧ (wr up 0x1200 2 (2 ^ 32 - 1)).fcu.queue.length < 64 := by
  decide +kernel

theorem wit_ResponseCodesFollowReadinessAndTheQueue_notReady : awake (atStep 1) ∧ dictReady (atStep 1) = false
    ∧ readyRead (count (atStep 1) 0x1402 5) 0x1000 3 = false := by
  delta awake; decide +kernel

theorem wit_ResponseCodesFollowReadinessAndTheQueue_busy :
    let b := acceptCmd up host 0xC000 0x40 0
    awake b ∧ dictReady b = true ∧ fencedTnt (count b 0x1402 5) host = false ∧ resultState b 0xC000 0x40 = 1
      ∧ objKey 0xC000 0xC0 ≠ objKey 0x1402 5 ∧ noFails.rights = false ∧ noFails.range = false ∧ noFails.state = false := by
  delta awake; decide +kernel

theorem wit_ResponseCodesFollowReadinessAndTheQueue_resource :
    let b := { up with dict := { up.dict with cmds := List.replicate 256 ⟨0x140102, 1, host, 0, 0⟩ } }
    awake b ∧ dictReady b = true ∧ fencedTnt (count b 0x1402 5) host = false
      ∧ resultState (count b 0x1402 5) 0xC000 0x40 ≠ 1 ∧ 256 ≤ b.dict.cmds.length
      ∧ noFails.busy = false ∧ noFails.conflict = false := by
  delta awake; decide +kernel

/-! ### BLOBs -/

/-- A transfer of the whole pacing table, its first segment sent. -/
def sending (next : Nat) : Block := setXfer up 0x4000 0x20 (some ⟨.host 0, host, 2048, next, 0, 0, none⟩)

theorem wit_BlobTransfersOpenFillAndClose_begin : ∃ r, blobTaken up host 0x4000 0x20 true ∧ objRow 0x4000 0x20 = some r
    ∧ xfer up 0x4000 0x20 = none ∧ 2048 ≤ r.dflt := by
  obtain ⟨r, e, n⟩ := some_of_any (o := objRow 0x4000 0x20) (p := fun r => 2048 ≤ r.dflt) (by decide +kernel)
  exact ⟨r, by delta blobTaken awake; decide +kernel, e, by decide +kernel, n⟩

/-- The last of the 8 segments, and the end after it. -/
theorem wit_BlobTransfersOpenFillAndClose_segment : ∃ x, blobTaken (sending 7) host 0x4000 0x20 true
    ∧ blobMine (count (sending 7) 0x1402 5) host 0x4000 0x20 x ∧ x.nextSeg < segments x.len
    ∧ (2 ^ 2048 - 1) < 2 ^ (8 * min 256 (x.len - 256 * x.nextSeg)) := by
  refine ⟨⟨.host 0, host, 2048, 7, 0, 0, none⟩, ?_⟩
  delta blobTaken blobMine awake; decide +kernel

theorem wit_BlobTransfersOpenFillAndClose_end : ∃ x, blobTaken (sending 8) host 0x4000 0x20 true
    ∧ blobMine (count (sending 8) 0x1402 5) host 0x4000 0x20 x ∧ segments x.len ≤ x.nextSeg ∧ validates 0x4000 0x20 = true
    ∧ (sending 8).dict.cmds.length < 256 := by
  refine ⟨⟨.host 0, host, 2048, 8, 0, 0, none⟩, ?_⟩
  delta blobTaken blobMine awake; decide +kernel

theorem wit_BlobTransfersOpenFillAndClose_read : blobTaken up host 0x4000 0x20 false
    ∧ 7 < segments (blobContent (count up 0x1402 5) 0x4000 0x20).len := by
  delta blobTaken awake; decide +kernel

theorem wit_BlobTransfersOpenFillAndClose_abandon :
    let b := { sending 7 with clk := { (sending 7).clk with now := 10000000 } }
    xfer b 0x4000 0x20 = some ⟨.host 0, host, 2048, 7, 0, 0, none⟩ ∧ elapsed b 0 (micros 100000) = true := by
  decide +kernel

/-- The pacing table of zeros is valid; one whose first entry has a bit reserved is not. -/
theorem wit_BlobTransfersOpenFillAndClose_validation :
    let x : Transfer := ⟨.host 0, host, 2048, 8, 0, 0, some 1⟩
    xfer (setXfer up 0x4000 0x20 (some x)) 0x4000 0x20 = some x ∧ x.validating ≠ none ∧ progNumber 0x4000 0x20 = none
      ∧ blobFault (setXfer up 0x4000 0x20 (some x)) 0x4000 0x20 ⟨x.len, x.content⟩ = none
      ∧ blobFault (setXfer up 0x4000 0x20 (some { x with content := 2 ^ 55 })) 0x4000 0x20 ⟨2048, 2 ^ 55⟩ = some 6 := by
  decide +kernel

theorem wit_BlobTransfersOpenFillAndClose_program : ∃ x,
    let b := wr (setXfer { pt with cru := { pt.cru with valid := [progKey 1 64] } } 0x6201 64 (some x)) 0x6401 0x20 64
    b.cru.valid.contains (progKey 1 64) = true ∧ (progNumber 0x6201 64).isSome = true ∧ xfer b 0x6201 64 = some x
      ∧ 64 ≤ progLimit b 1 ∧ placeFree b 1 64 = true := by
  exact ⟨⟨.host 0, host, 128, 1, 0, 0, some 1⟩, by decide +kernel⟩

/-- An image of zeros is no program: it faults at its first byte. -/
theorem wit_BlobTransfersOpenFillAndClose_programFault :
    let x : Transfer := ⟨.host 0, host, 128, 1, 0, 0, some 1⟩
    let b := setXfer pt 0x6201 64 (some x)
    xfer b 0x6201 64 = some x ∧ progNumber 0x6201 64 = some 64 ∧ b.cru.valid.contains (progKey (0x6201 % 256) 64) = false
      ∧ blobFault b 0x6201 64 ⟨x.len, x.content⟩ = some 0 := by decide +kernel

/-! ### Images, messages, functions, views -/

theorem wit_PersistentImageIsSavedAndDefaultsRestored : canTake up 0x1401 2 ∧ notHostFmFw host = false
    ∧ ((acceptCmd (count up 0x1402 5) host 0x1401 2 0).dict.objs.filter
        fun e => persistable (e.1 / 256) (e.1 % 256)).length ≤ 4095
    ∧ canTake up 0x1401 3 ∧ ∀ p ∈ pids, (part up p).st = .free := by
  delta canTake awake; decide +kernel

/-- A READ of 0x1000.03 in an MCTP message: type 0x7E, vendor 0x5B2E, the request of 02 Table 2-14. -/
def mctpRead : Bytes :=
  ⟨27, 0x5B2E7E + ((1 + (1 <<< 8)) <<< 24) + ((1 <<< 36) + (1 <<< 32) + (0x1000 <<< 48) + (3 <<< 40) + 9) <<< 88⟩

theorem wit_ManagementMessagesAreServed : rd up 0x1402 1 = 0 ∧ rd (wr up 0x1402 1 8) 0x1402 1 ≠ 0 ∧ slice mctpRead.val 0 3 = 0x5B2E7E
    ∧ recordOk (bytesSlice mctpRead 3 (mctpRead.len - 3)) = true
    ∧ (∀ k ∈ look (wr up 0x1402 1 8).dict.kept [] 20, k.seq ≠ reqSeq (slice (bytesSlice mctpRead 3 24).val 8 8))
    ∧ recordOk (bytesSlice ⟨4, 0x7E⟩ 3 1) = false := by decide +kernel

/-- The response that is kept once the request has been served. -/
theorem wit_ManagementMessagesAreServed_kept :
    let b := { wr up 0x1402 1 8 with dict := { (wr up 0x1402 1 8).dict with kept := [(20, [⟨9, 0, 0, none⟩])] } }
    (look b.dict.kept [] 20).find? (·.seq == reqSeq (slice (bytesSlice mctpRead 3 24).val 8 8)) = some ⟨9, 0, 0, none⟩ := by
  decide +kernel

theorem wit_FunctionAccessesOfTheHost_short : awake pt ∧ 63 < (if 0 = 0 then 64 else 8) ∧ 7 < (if 1 = 0 then 64 else 8)
    ∧ pidOfVf pt 1 ≠ 0 := by
  delta awake; decide +kernel

theorem wit_FunctionAccessesOfTheHost_unbound : awake up ∧ tlpOk 63 (2 ^ 20 - 4) 4 = true ∧ pidOfVf up 63 = 0
    ∧ tlpAdmitted up 63 false 0 = true := by
  delta awake; decide +kernel

/-- A sealed partition's function in RUN admits only its own stream. -/
def sealedPt : Block :=
  let b := setPart pt 1 { live with sealed := true }
  { b with ptb := { b.ptb with tdisp := [(1, 2)] } }

theorem wit_FunctionAccessesOfTheHost_tlp : awake sealedPt ∧ tlpOk 1 0 8 = true ∧ tlpAdmitted sealedPt 1 false 0 = false
    ∧ tlpAdmitted (wr sealedPt 0x7101 7 4) 1 true 4 = true := by
  delta awake; decide +kernel

theorem wit_CounterViewsRefreshEveryMillisecond :
    let b := { sealedPt with clk := { sealedPt.clk with now := 100000 } }
    b.clk.now % 100000 = 0 ∧ sealedPt.clk.now % 100000 ≠ 0 ∧ isSealed b 1 = true ∧ 1 ∈ pids
      ∧ (tapKeys b 1).any (fun k => k.1 < 0xA200 && k.2 != 2) = true ∧ (tapKeys b 1).any (fun k => k.1 < 0xA200 && k.2 == 2) = true := by
  decide +kernel

/-- 01 R35: the view of a counter is its value with the low 10 bits cleared. -/
theorem test_tapRefresh : Goes (exec .tapRefresh (on { wr sealedPt 0x2201 0x13 2047 with clk := ⟨100000, true, true, 0, 0⟩ }))
    fun t => look t.dev.dict.taps 0 (objKey 0x2201 0x13) = 1024 :=
  ⟨_, rfl, by decide +kernel⟩


/-! ## Partitions -/

/-- Partition `pid` BUILDING. -/
def building (pid : Nat) : Block := setPart up pid { freePart with st := .building }

/-- Every ADD_* command, on partitions 1 and 63, at the ends of its argument's range. -/
theorem wit_StagingCommandsFillTheDescriptor : (∀ pid ∈ [1, 63], ∀ sub ∈ [2, 3, 4, 5, 6, 7, 8, 9, 10, 11, 12],
      mayStage (building pid) host pid sub)
    ∧ (∀ i ∈ List.range 64, (2 ^ 64 - 1).testBit i = true → esPresent (building 1) i = true ∧ esPresent (building 1) (i + 64) = true)
    ∧ (∀ i ∈ List.range 4, granuleExists (building 1) (1984 + i) = true) ∧ 1984 < 2048 := by
  have h : ∀ pid ∈ [1, 63], ∀ sub ∈ [2, 3, 4, 5, 6, 7, 8, 9, 10, 11, 12],
      (1 ≤ pid ∧ pid < 64) ∧ rd (building pid) 0xC000 6 = 0 ∧ dictReady (building pid) = true
        ∧ resultState (building pid) (0x2100 + pid) sub ≠ 1 ∧ pendingCmd (building pid) (0x2100 + pid) sub = none
        ∧ (building pid).dict.cmds.length < 256 ∧ rd (building pid) 0xF000 1 ≠ 1 ∧ (part (building pid) pid).st = .building ∧ tdispLocked (building pid) pid = false
        ∧ resultState (building pid) (0x2100 + pid) 0x10 ≠ 1 := by decide +kernel
  refine ⟨fun pid m sub k => ?_, by decide +kernel, by decide +kernel, by decide⟩
  obtain ⟨a, b, c, d, e, f, x, g, i, j⟩ := h pid m sub k
  exact ⟨.inl rfl, a, ⟨b, c, d, e, f⟩, x, g, i, j⟩

theorem wit_StagingCommandsFillTheDescriptor_ranges : 0 + 65536 ≤ 65536 ∧ 262143 + 1 ≤ 262144 ∧ 511 + 1 ≤ 512
    ∧ (2 ^ 32 - 1) % 65536 ≠ 0 ∧ bits 0x40FF0001 24 8 ≠ 0 ∧ bits 0x40400001 16 8 ≤ bits 0x40400001 24 8 ∧ 63 < 64 := by decide

/-- Partition 1 is retuned while LIVE. -/
theorem wit_StagingCommandsFillTheDescriptor_live : byHost host ∧ isPid 1 ∧ canTake pt 0x2101 9 ∧ canTake pt 0x2101 10
    ∧ noInjection pt ∧ (part pt 1).st = .live ∧ resultState pt 0x2101 0x10 ≠ 1 := by
  delta byHost isPid canTake awake noInjection; decide +kernel

/-- 03 Table 3-2: ADD_GRANULES of granules 64 and 65 answers the number staged. -/
theorem test_addGranules : Goes (exec (.addGranules host 1 (BitVec.ofNat 64 (64 + (2 <<< 32)))) (on (building 1)))
    fun t => (part t.dev 1).granules = 3 * 2 ^ 64 ∧ rd t.dev 0x2101 0x84 = (1 <<< 48) + (2 <<< 40) + 2 :=
  ⟨_, rfl, by decide +kernel⟩

theorem wit_PartitionsAreCreatedAndCommitted_create : byHost host ∧ isPid 63 ∧ noInjection up ∧ canTake up 0x213F 1
    ∧ (part up 63).st = .free ∧ rd up 0xC000 1 = 8 := by
  delta byHost isPid canTake awake noInjection; decide +kernel

/-- A descriptor that passes COMMIT, and one whose granule partition 1 holds. -/
def staged1 (granules : Nat) : Block :=
  setOwner (setPart pt 63 { freePart with st := .building, engines := 1, granules := granules, vf := 63 }) 1987 ⟨0, false, .clean⟩

theorem wit_PartitionsAreCreatedAndCommitted_commit : noInjection (staged1 1) ∧ canTake (staged1 (2 ^ 1987)) 0x213F 0x10
    ∧ (part (staged1 (2 ^ 1987)) 63).st = .building ∧ commitFault (staged1 (2 ^ 1987)) 63 = none
    ∧ commitFault (staged1 1) 63 = some (1, .conflict, 1, 0) ∧ commitFault (building 63) 63 = some (9, .state, 0, 0) := by
  delta canTake awake noInjection; decide +kernel

theorem wit_PartitionsAreWithdrawnScrubbedAndReleased_commands : byHost host ∧ isPid 1 ∧ noInjection pt ∧ canTake pt 0x2101 0x11 ∧ isLive pt 1 = true
    ∧ canTake (building 63) 0x213F 0x12 ∧ (part (building 63) 63).st = .building
    ∧ (part (setPart up 63 { freePart with st := .scrubbing }) 63).st = .scrubbing
    ∧ canTake (setPart up 63 { freePart with st := .scrubbing }) 0x213F 0x12 := by
  delta byHost isPid canTake awake noInjection; decide +kernel

/-- Partition 1 WITHDRAWING since time 0 with nothing outstanding, and with a tag still held. -/
def leaving : Block := setPart up 1 { live with st := .withdrawing, wd := ⟨0, 1, 0, false⟩ }

theorem wit_PartitionsAreWithdrawnScrubbedAndReleased_drain : (part leaving 1).st = .withdrawing ∧ outstanding leaving 1 = false
    ∧ outstanding { leaving with tags := { leaving.tags with used := [⟨0, c1, [], ⟨.posted, 0, 0⟩⟩] } } 1 = true
    ∧ elapsed leaving 0 (micros 11) = false ∧ elapsed leaving (part leaving 1).wd.fencedAt (micros (part leaving 1).wd.drain) = true
    ∧ qpsOf leaving 1 = [] ∧ owesNow leaving 1 none = false := by
  decide +kernel

/-- A queue pair that is gone may still owe a completion. -/
theorem wit_PartitionsAreWithdrawnScrubbedAndReleased_owing : ∃ q,
    qpsOf (setPart (setQp leaving 70 q) 1 (part leaving 1)) 1 = [] ∧ owesNow (setQp leaving 70 q) 1 none = true := by
  exact ⟨{ freshQp with pid := 1, cqLog := 4, due := [⟨0, none, false⟩] }, by decide +kernel⟩

theorem wit_PartitionsAreWithdrawnScrubbedAndReleased_scrub :
    let b := setOwner up 1987 ⟨1, false, .scrubbing⟩
    (owner b 1987).scrub = .scrubbing ∧ served b (uMS (1987 / 64)) = true := by decide +kernel

/-- RELEASE pending on a partition whose one granule is CLEAN. -/
def releasing : Block :=
  let b := setOwner (setPart up 1 { live with st := .scrubbing, wd := ⟨0, 1, 0, false⟩ }) 0 ⟨1, false, .clean⟩
  { (acceptCmd b host 0x2101 0x12 0) with clk := { b.clk with now := 100000 } }

theorem wit_PartitionsAreWithdrawnScrubbedAndReleased_release : ∃ c, isPid 1 ∧ (part releasing 1).st = .scrubbing
    ∧ pendingCmd releasing 0x2101 0x12 = some c ∧ elapsed releasing (part releasing 1).wd.fencedAt (micros 1000) = true
    ∧ spillPstate releasing 1 = 0 ∧ ∀ g ∈ List.range 2048, (part releasing 1).granules.testBit g = true → (owner releasing g).scrub = .clean := by
  obtain ⟨c, e, _⟩ := some_of_any (o := pendingCmd releasing 0x2101 0x12) (p := fun _ => True) (by decide +kernel)
  exact ⟨c, by delta isPid; decide, by decide +kernel, e, by decide +kernel⟩

theorem wit_ContextsOpenAndCloseAndFunctionsWithdraw_open : byHost host ∧ isPid 1 ∧ noInjection pt ∧ isLive pt 1 = true ∧ 1023 < 1024
    ∧ canTake pt 0x2101 0x18 ∧ (ctxSlot pt 1 1023).st = .free ∧ canTake pt 0x2101 0x19 ∧ (ctxSlot pt 1 0).st = .open := by
  delta byHost isPid canTake awake noInjection; decide +kernel

/-- CTX_CLOSE of context 0 pending, and done at time `now`. -/
def closing (now : Nat) : Block :=
  let b := setCtx (setPart pt 1 { live with keyCount := 0 }) 1 0 ⟨.closing, 0, 0, true⟩
  { (acceptCmd b host 0x2101 0x19 0) with clk := { b.clk with now := now } }

theorem wit_ContextsOpenAndCloseAndFunctionsWithdraw_close : ∃ c, isLive (closing 100000) 1 = true
    ∧ (ctxSlot (closing 100000) 1 0).st = .closing ∧ (ctxSlot (closing 100000) 1 0).byCommand = true
    ∧ elapsed (closing 100000) (ctxSlot (closing 100000) 1 0).fencedAt (micros 1000) = true ∧ ctxBusy (closing 100000) 1 0 = false
    ∧ pendingCmd (freeCtxSlot (closing 100000) 1 0) 0x2101 0x19 = some c ∧ c.arg = 0
    ∧ elapsed (closing 99999) (ctxSlot (closing 99999) 1 0).fencedAt (micros 1000) = false := by
  obtain ⟨c, e, n⟩ := some_of_any (o := pendingCmd (freeCtxSlot (closing 100000) 1 0) 0x2101 0x19)
    (p := fun c => c.arg = 0) (by decide +kernel)
  exact ⟨c, by decide +kernel, by decide +kernel, by decide +kernel, by decide +kernel, by decide +kernel, e, n, by decide +kernel⟩

theorem wit_ContextsOpenAndCloseAndFunctionsWithdraw_busy :
    let b := { closing 1 with tags := { Block.reset.tags with used := [⟨0, c1, [], ⟨.posted, 0, 0⟩⟩] } }
    isLive b 1 = true ∧ (ctxSlot b 1 0).st = .closing ∧ (ctxSlot b 1 0).byCommand = true ∧ ctxBusy b 1 0 = true
      ∧ elapsed b (ctxSlot b 1 0).fencedAt (drainTime b 1) = false
      ∧ pendingCmd { b with dict := { b.dict with cmds := [] } } 0x2101 0x19 = none := by decide +kernel

theorem wit_ContextsOpenAndCloseAndFunctionsWithdraw_functions : pidOfVf pt 1 = 1 ∧ isLive pt 1 = true ∧ pidOfVf pt 63 = 0
    ∧ (pids.filter fun p => isLive pt p && (part pt p).vf != 0) = [1] ∧ (pids.filter fun p => isLive up p && (part up p).vf != 0) = []
    ∧ awake sealedPt ∧ look sealedPt.ptb.tdisp 0 1 ≠ 0 ∧ look sealedPt.ptb.tdisp 0 1 ≠ 7 ∧ pidOfVf sealedPt 1 = 1
    ∧ isLive sealedPt 1 = true ∧ (part sealedPt 1).sealed = true ∧ (part pt 1).sealed = false := by
  delta awake; decide +kernel

/-! ## Translation -/

/-- A miss of context 0 that waits for a walker, its partition's stage-1 root set. -/
def missing : Block := { setPart pt 1 { live with s1Roots := [(0, 0)] } with
  hub := { Block.reset.hub with missWait := [(c1, 0, ⟨reqHolder 0 0, 0, 0⟩)] } }

/-- Without a stage-2 root the walk ends at once; with one its table read is issued, and the walk keeps its asker. -/
theorem wit_WalksAreGrantedReadAndEnded_grant : missNext missing = some (c1, 0, ⟨reqHolder 0 0, 0, 0⟩)
    ∧ (∀ w ∈ (miss { missing with hub := { missing.hub with missWait := [], walkTurn := 1 } } c1 0 ⟨reqHolder 0 0, 0, 0⟩).hub.walks,
        ⟨reqHolder 0 0, 0, 0⟩ ∉ w.askers)
    ∧ missNext (wr missing 0x3101 4 (2 ^ 63 + 2 ^ 31)) = some (c1, 0, ⟨reqHolder 0 0, 0, 0⟩)
    ∧ ∃ w ∈ (miss { wr missing 0x3101 4 (2 ^ 63 + 2 ^ 31) with hub := { missing.hub with missWait := [], walkTurn := 1 } } c1 0
        ⟨reqHolder 0 0, 0, 0⟩).hub.walks, ⟨reqHolder 0 0, 0, 0⟩ ∈ w.askers := by
  decide +kernel

/-- A walk whose read of a table in package memory is under way. -/
def walking : Block := { pt with
  hub := { Block.reset.hub with walks := [⟨63, c1, 0, [], 0, 0, [⟨reqHolder 0 0, 0, 0⟩]⟩] }
  tags := { Block.reset.tags with used := [⟨0, c1, [], walkHolder 63⟩] } }

theorem wit_WalksAreGrantedReadAndEnded_read : ∃ w, walking.hub.walks.find? (·.num == 63) = some w
    ∧ issued walking (walkHolder 63) = true ∧ regionOf w.need = .package
    ∧ elapsed walking w.since (micros (rd walking 0x3000 4)) = false
    ∧ elapsed { walking with clk := { walking.clk with now := 2 ^ 40 } } w.since (micros (rd walking 0x3000 4)) = true := by
  refine ⟨⟨63, c1, 0, [], 0, 0, [⟨reqHolder 0 0, 0, 0⟩]⟩, ?_⟩
  decide +kernel

theorem wit_RootsAreSetAndContextsInvalidated : byHost host ∧ isPid 1 ∧ canTake pt 0x3101 1 ∧ (part pt 1).st = .live
    ∧ zeroBits (2 ^ 63 + 2 ^ 31) 44 19 = true ∧ isRemote pt (bits (2 ^ 63 + 2 ^ 31) 0 44 <<< 12) = false
    ∧ regionOf (bits (2 ^ 63 + 2 ^ 31) 0 44 <<< 12) = .aperture
    ∧ mapped.hub.walks = [] ∧ mapped.hub.invCmds = [] ∧ tilesOf mapped ⟨.partition, 1, 0, 0, 0⟩ = [] := by
  delta byHost isPid canTake awake; decide +kernel

/-- Commands of the tenant of partition 1, on context 0, for 1 and for 4,096 pages. -/
theorem wit_RootsAreSetAndContextsInvalidated_tenant : mayCommand mapped tnt 1 ∧ canTake mapped 0x3101 2 ∧ canTake mapped 0x3101 3
    ∧ isLive mapped 1 = true ∧ ctxOpen mapped 1 (2 ^ 63 % 1024) = true ∧ zeroBits (2 ^ 63) 46 17 = true
    ∧ zeroBits (1 <<< 10) 12 13 = true ∧ bits (1 <<< 10) 10 2 = 1 ∧ bits ((2 <<< 10) + (4095 <<< 52)) 10 2 = 2
    ∧ zeroBits ((2 <<< 10) + (4095 <<< 52)) 12 13 = true := by
  delta mayCommand byHost canTake awake; decide +kernel

/-- The block with `n` records queued in slot 255. -/
def invQueued (n : Nat) : Block := setInv up 255 ⟨false, false, 0, List.replicate n ⟨1, false, []⟩⟩

theorem wit_InvalidationRecordsAreTakenPublishedAndCleared : awake up
    ∧ bitAt (rd up 0xC000 2) 7 = true
    ∧ (∃ c, (invSlot (invQueued 15) 255).queue.length < 16 ∧ recCover 0 = some c) ∧ (invSlot up 255).queue = []
    ∧ recCover 0xF = none ∧ 16 ≤ (invSlot (invQueued 16) 255).queue.length
    ∧ (∃ r rest, (invSlot (invQueued 2) 255).queue = r :: rest ∧ (∀ k ∈ r.waitOn, tileOut (invQueued 2) k = false)
        ∧ ∀ q ∈ rest.head?, q.rejected = false)
    ∧ bitAt (2 ^ 63) 63 = true := by
  refine ⟨by delta awake; decide +kernel, by decide +kernel, ?_, by decide +kernel, by decide +kernel, by decide +kernel, ?_, by decide⟩
  · obtain ⟨c, e, _⟩ := some_of_any (o := recCover 0) (p := fun _ => True) (by decide +kernel)
    exact ⟨c, by decide +kernel, e⟩
  · exact ⟨⟨1, false, []⟩, [⟨1, false, []⟩], by decide +kernel⟩


/-! ## Seals -/

/-- FIPS 197, C.3: AES-256 of its example block. -/
theorem test_aes : aes 0x000102030405060708090A0B0C0D0E0F101112131415161718191A1B1C1D1E1F
    0x00112233445566778899AABBCCDDEEFF = 0x8EA2B7CA516745BFEAFC49904B496089 := by decide +kernel

/-- SP 800-38D's AES-256 case of the zero key and IV: the tag of nothing, and the text of 16 zero bytes with its tag. -/
theorem test_gcm : gcmTag 0 0 ⟨0, 0⟩ ⟨0, 0⟩ = 0x530F8AFBC74536B9A963B4F1C4CB738B
    ∧ gcmCrypt 0 0 ⟨16, 0⟩ = ⟨16, swapBytes 0xCEA7403D4D606B6E074EC5D3BAF39D18 16⟩
    ∧ gcmTag 0 0 ⟨0, 0⟩ (gcmCrypt 0 0 ⟨16, 0⟩) = 0xD0D1C8A799996BF0265B98B5D48AB919 := by decide +kernel

/-- Chip 1 seals for chip 0: an ACK of queue pair 2 to queue pair 3, under Link Job Key 5, by its port 35. -/
def peer : Block :=
  let b := { wr up 0x1000 3 1 with ring := { up.ring with linkCur := some 5 } }
  wr b 0x5000 2 0x88B5

def bth (typ dst : Nat) : Bth := { bth0 typ 0 with src := 1, dst := dst, srcQp := 2, dstQp := 3 }

def frameOf (h : Bth) (ext n : Nat) (pay : Bytes) : Frame := sealFrame peer 35 { blankTx with body := plain h ext n pay } 9


/-! ## The Ladle -/

/-- A descriptor that moves 64 bytes from 0x10000 to 0x20000; the channel's own, its element misaligned. -/
def desc : Nat := 2 ^ 63 + (0x10000 <<< 64) + (0x20000 <<< 128) + (64 <<< 192)
def badDesc : Nat := desc + (1 <<< 192)

/-- Channel `c` IDLE, its ring of 16 entries at address 4096, the descriptor `d` at its head. -/
def ring (c d : Nat) : Block :=
  let b := writeMem mapped 4096 d 64
  setChan (wr (wr (wr (wr b (chanIndex c) 1 4096) (chanIndex c) 2 4) (chanIndex c) 7 0) (chanIndex c) 8 0) c { freshChan with st := .idle }

/-- The block after a command. -/
def after (i : Instr) (b : Block) : Block :=
  match exec i (on b) with
  | .next t => t.dev
  | _ => b

/-- An answer without data of its own: what package memory holds. -/
def ok : Answer := ⟨.ok, ⟨0, 0⟩, false⟩

def halted (k : Nat) : Block := setChan (ring 3 desc) 3 { freshChan with st := .halted, haltKind := k }

theorem wit_ChannelDoorbellsKickAbortResumeAndPace : reachesLadle (ring 3 desc) 1 3 1 ∧ (chan (ring 3 desc) 3).st = .idle
    ∧ 15 < ringSize (ring 3 desc) 3 ∧ ringSize (ring 3 desc) 3 ≤ 16 ∧ rd (ring 3 desc) (chanIndex 3) 7 ≠ 15
    ∧ (∀ k ∈ [0, 1, 2, 3, 4], (chan (halted k) 3).st = .halted ∧ (chan (halted k) 3).haltKind = k)
    ∧ reachesLadle (halted 1) 1 3 1 ∧ reachesLadle pt 1 0 1 ∧ (chan pt 0).st = .off ∧ zeroBits (2 ^ 24) 24 38 = false := by
  delta reachesLadle awake; decide +kernel

theorem wit_ChannelDoorbellsKickAbortResumeAndPace_pace :
    let b := wrBlob pt 0x4000 0x20 ⟨2048, ((1 <<< 58) + (3 <<< 56)) <<< (64 * 255)⟩
    reachesLadle b 1 3 1 ∧ paceOwner (paceEntry b 255) = 1 ∧ paceSource (paceEntry b 255) = 3 := by
  delta reachesLadle awake; decide +kernel

/-- KICK, the descriptor fetched. -/
def fetched (d : Nat) : Block := after (.kick 1 0 1) (ring 0 d)

theorem wit_ChannelsFetchMoveAndCompleteDescriptors_fetch : (chan (fetched desc) 0).phase = .fetch
    ∧ (∃ x, arrive (fetched desc) ⟨.chanDesc, 0, 0⟩ (chan (fetched desc) 0).io ok 64 = some x
      ∧ x.2.1 = .ok ∧ dOwn x.2.2 = true ∧ descStatus x.1 0 x.2.2 = none)
    ∧ (∃ x, arrive (fetched badDesc) ⟨.chanDesc, 0, 0⟩ (chan (fetched badDesc) 0).io ok 64 = some x
      ∧ x.2.1 = .ok ∧ dOwn x.2.2 = true ∧ descStatus x.1 0 x.2.2 = some .misaligned)
    ∧ (∃ x, arrive (fetched 0) ⟨.chanDesc, 0, 0⟩ (chan (fetched 0) 0).io ok 64 = some x ∧ x.2.1 = .ok ∧ dOwn x.2.2 = false)
    ∧ (∃ x, arrive (fetched 0) ⟨.chanDesc, 0, 0⟩ (chan (fetched 0) 0).io { ok with poison := true } 64 = some x ∧ x.2.1 ≠ .ok) :=
  ⟨by decide +kernel, some_of_any (by decide +kernel), some_of_any (by decide +kernel), some_of_any (by decide +kernel),
    some_of_any (by decide +kernel)⟩

/-- Channel 0 at work on its descriptor, a request `h` of it under way at `segs`. -/
def busyChan (h : Holder) (segs : List Seg) (x : Chan) : Block :=
  let b := setChan (ring 0 desc) 0 { x with st := .active, desc := desc, next := 1, wrote := true }
  { b with tags := { b.tags with used := [⟨0, c1, segs, h⟩] } }

/-- The burst read, the burst written, the read-back, the status and the control word under way. -/
def moved : Block := busyChan ⟨.chanRead, 0, 0⟩ [piece 65536 64]
  { freshChan with phase := .bursts, flights := [⟨0, .reading, 0, [piece 65536 64], 0, 0⟩] }
def written : Block := busyChan ⟨.chanWrite, 0, 0⟩ [piece 131072 64]
  { freshChan with phase := .bursts, flights := [⟨0, .writing, 0, [piece 131072 64], 0, 0⟩] }
def readingBack : Block := busyChan ⟨.chanReadback, 0, 0⟩ [piece 131072 64]
  { freshChan with phase := .readback, io := [piece 131072 64] }
def writingBack : Block := busyChan ⟨.chanStatus, 0, 0⟩ [piece 4152 8] { freshChan with phase := .writeback, io := [piece 4152 8] }
def ending : Block := busyChan ⟨.chanStatus, 0, 1⟩ [piece 4096 8] { freshChan with phase := .control, io := [piece 4096 8] }

theorem wit_ChannelsFetchMoveAndCompleteDescriptors_burst :
    (∃ u, burstOf (chan moved 0) 0 = some u ∧ u.phase = .reading
      ∧ (arrive moved ⟨.chanRead, 0, 0⟩ u.segs ok (dBurstLen (chan moved 0).desc 0)).any
        (fun x => decide (x.2.1 = .ok ∧ chanFenced x.1 0 = false)) = true
      ∧ (arrive moved ⟨.chanRead, 0, 0⟩ u.segs { ok with poison := true } (dBurstLen (chan moved 0).desc 0)).any
        (fun x => decide (x.2.1 ≠ .ok)) = true)
    ∧ ∃ u, burstOf (chan written 0) 0 = some u ∧ u.phase = .writing
      ∧ (arrive written ⟨.chanWrite, 0, 0⟩ u.segs ok 0).any (fun x => decide (x.2.1 = .ok)) = true
      ∧ (arrive written ⟨.chanWrite, 0, 0⟩ u.segs { ok with st := .busError } 0).isSome = true :=
  ⟨some_of_any (by decide +kernel), some_of_any (by decide +kernel)⟩

theorem wit_ChannelsFetchMoveAndCompleteDescriptors_end : (chan readingBack 0).phase = .readback
    ∧ (arrive readingBack ⟨.chanReadback, 0, 0⟩ (chan readingBack 0).io ok 64).any
      (fun x => decide (x.2.1 = .ok ∧ chanFenced x.1 0 = false)) = true
    ∧ (chan writingBack 0).phase = .writeback
    ∧ (arrive writingBack ⟨.chanStatus, 0, 0⟩ (chan writingBack 0).io ok 0).any
      (fun x => decide (x.2.1 = .ok ∧ chanFenced x.1 0 = false)) = true
    ∧ (chan ending 0).phase = .control
    ∧ (arrive ending ⟨.chanStatus, 0, 1⟩ (chan ending 0).io ok 0).any
      (fun x => decide (x.2.1 = .ok ∧ chanFenced x.1 0 = false)) = true := by decide +kernel

/-- The control word's write finds its place at once. -/
theorem wit_ChannelsFetchMoveAndCompleteDescriptors_control :
    let b := setChan (ring 0 desc) 0 { freshChan with st := .active, desc := desc, phase := .control }
    (startWrite b (chanAsker b 0 .chanStatus 1) (chanCtx b 0 (ringCx b 0)) (headVa b 0)
      ⟨8, setBit (bits desc 0 64) 63 false⟩ 0 4 false).2 = .issued [piece 4096 8] := by decide +kernel

/-- 05 R170: after the control word's write the head has advanced, and the channel, its ring empty, is IDLE. -/
theorem test_descriptor_completes : Goes (exec (.statusWritebackDone 0 ok) (on (wr ending 0x4200 8 1))) fun t =>
    rd t.dev 0x4200 7 = 1 ∧ (chan t.dev 0).st = .idle :=
  ⟨_, rfl, by decide +kernel⟩

/-- A channel that waits at line 255, which has one request. -/
def pacedChan : Block :=
  setPace (setChan (ring 3 desc) 3 { freshChan with st := .paceWait, phase := .bursts, desc := desc + (1 <<< 57) + (255 <<< 49) })
    255 (1, false)

theorem wit_ChannelsFetchMoveAndCompleteDescriptors_pace : paceLevel pacedChan 255 = (0 + 1, false)
    ∧ paceChoice pacedChan 255 = some 3 ∧ byHost host ∧ canTake pacedChan 0x4000 0x40 := by
  delta byHost canTake awake; decide +kernel

/-- Bursts 1 and 0 of channel 511's descriptor have failed, in that order. -/
def failing : Block := setChan pt 511 { freshChan with
  st := .active, phase := .bursts
  flights := [⟨1, .failed .poison true 7, 0, [], 0, 0⟩, ⟨0, .failed .busError false (2 ^ 52 - 1), 0, [], 0, 0⟩] }

theorem wit_ChannelsHaltOnTheFirstFailedBurst : firstFailed (chan failing 511) = some ⟨0, .failed .busError false (2 ^ 52 - 1), 0, [], 0, 0⟩
    ∧ chanFenced failing 511 = false ∧ allAnswered (chan failing 511) = true ∧ (chan failing 511).abort = none
    ∧ (chan failing 511).offAfter = false
    ∧ firstFailed (chan pt 511) = none := by decide +kernel


/-! ## The fabric -/

/-- Chip 0 with the same key: port 35 is UP, queue pair 3 of partition 1 READY and connected to queue pair 2 of chip 1,
key 0 VALID with every right over the first 64 KiB. -/
def rcv : Block :=
  let b := { wr (wr mapped 0x5000 2 0x88B5) 0x5123 1 1 with ring := { up.ring with linkCur := some 5 } }
  putKey (setQp b 3 { freshQp with st := .ready, pid := 1, rChip := 1, rQp := 2, retry := 7 }) 0
    { freshKey with st := .valid, pid := 1, len := 65536, rights := 15 }

/-- Header, extension, its length and payload of a packet of each type, each acceptable. -/
def packetOf : Nat → Bth × Nat × Nat × Bytes
  | 1 => (bth tWRITE 0, dxh 1 0 0 64 0 64 0, 24, ⟨64, 2 ^ 512 - 1⟩)
  | 2 => (bth tREDUCE 0, dxh 1 0 0 64 0 64 0 <<< 64, 32, ⟨64, 1⟩)
  | 3 => (bth tREADREQ 0, dxh 1 0 0 64 0 0 0, 24, ⟨0, 0⟩)
  | 4 => (bth tREADRESP 0, dxh 0 0 0 64 0 64 0, 24, ⟨64, 3⟩)
  | 5 => (bth tATOMIC 0, (1 <<< 224) + (2 <<< 172) + (9 <<< 64), 32, ⟨0, 0⟩)
  | 6 => (bth tATOMICRESP 0, 7 <<< 64, 16, ⟨0, 0⟩)
  | 9 => (bth tNAK 0, 4 <<< 56, 8, ⟨0, 0⟩)
  | 10 => ({ bth0 tCREDIT 0 with src := 1 }, 5, 16, ⟨0, 0⟩)
  | 11 => ({ bth0 tDICT 0 with src := 1 }, 0, 0, ⟨24, 1⟩)
  | 12 => ({ bth0 tMIRROR 0 with src := 1, tc := 3 }, 0, 0, ⟨64, 0⟩)
  | 13 => ({ bth0 tSEALNAK 0 with src := 1 }, 9 <<< 32, 16, ⟨0, 0⟩)
  | _ => (bth tACK 0, 1, 8, ⟨0, 0⟩)

def frameFor (t : Nat) : Frame :=
  let (h, ext, n, pay) := packetOf t
  frameOf h ext n pay

def packetFor (t : Nat) : Packet :=
  let (h, ext, _, pay) := packetOf t
  ⟨h, false, ext, pay⟩

def types : List Nat := [1, 2, 3, 4, 5, 6, 8, 9, 10, 11, 12, 13]

/-- A frame of type `t` passes the seal and the checks as its packet. -/
def opens (t : Nat) : Prop := verdict rcv (frameFor t) = .packet false (packetFor t)

theorem opens_1 : opens 1 := by delta opens; decide +kernel
theorem opens_2 : opens 2 := by delta opens; decide +kernel
theorem opens_3 : opens 3 := by delta opens; decide +kernel
theorem opens_4 : opens 4 := by delta opens; decide +kernel
theorem opens_5 : opens 5 := by delta opens; decide +kernel
theorem opens_6 : opens 6 := by delta opens; decide +kernel
theorem opens_8 : opens 8 := by delta opens; decide +kernel
theorem opens_9 : opens 9 := by delta opens; decide +kernel
theorem opens_10 : opens 10 := by delta opens; decide +kernel
theorem opens_11 : opens 11 := by delta opens; decide +kernel
theorem opens_12 : opens 12 := by delta opens; decide +kernel
theorem opens_13 : opens 13 := by delta opens; decide +kernel

theorem frames_verdict : ∀ t ∈ types, verdict rcv (frameFor t) = .packet false (packetFor t) := by
  intro t m
  simp only [types, List.mem_cons, List.not_mem_nil, or_false] at m
  rcases m with rfl | rfl | rfl | rfl | rfl | rfl | rfl | rfl | rfl | rfl | rfl | rfl
  · exact opens_1
  · exact opens_2
  · exact opens_3
  · exact opens_4
  · exact opens_5
  · exact opens_6
  · exact opens_8
  · exact opens_9
  · exact opens_10
  · exact opens_11
  · exact opens_12
  · exact opens_13

theorem frames_arrive : ∀ t ∈ types, arrives rcv 35 (frameFor t) false (packetFor t) := by
  have r : receives rcv 35 = true ∧ rd rcv 0xC000 6 = 0 ∧ rd rcv 0x9000 1 = 0 := by decide +kernel
  intro t m
  delta arrives awake
  exact ⟨r.1, frames_verdict t m, r.2.1, r.2.2⟩

theorem wit_ASealedPacketOpensToWhatWasSealed : peer.ring.linkCur = some 5 ∧ rcv.ring.linkCur = some 5
    ∧ rd rcv 0x5000 2 = rd peer 0x5000 2 ∧ rd peer 0x5000 2 < 65536 ∧ chipId peer < 4096
    ∧ ∀ t ∈ types, (packetOf t).1.legal ∧ (packetOf t).1.dst = chipId rcv ∧ extLen (packetOf t).1.typ = some (packetOf t).2.2.1
      ∧ (packetOf t).2.1 < 2 ^ (8 * (packetOf t).2.2.1) ∧ (packetOf t).2.2.2.val < 2 ^ (8 * (packetOf t).2.2.2.len)
      ∧ lengthOk (packetOf t).1.typ (packetOf t).2.1 (packetOf t).2.2.2 = true
      ∧ extOk (packetOf t).1.typ (packetOf t).2.1 = true := by
  delta Bth.legal; decide +kernel

theorem wit_ArrivingFramesAreCheckedInOrder_fenced : rd (wr rcv 0x9000 1 1) 0x9000 1 ≠ 0
    ∧ verdict (wr rcv 0x9000 1 1) (frameFor 8) = .packet false (packetFor 8) ∧ (packetFor 8).head.typ ≠ tDICT
    ∧ receives (wr rcv 0x9000 1 1) 35 = true := by decide +kernel

theorem badSeal_other : verdict { rcv with ring := { rcv.ring with linkCur := some 6 } } (frameFor 8) = .badSeal := by decide +kernel

theorem malformed_elsewhere : verdict (wr rcv 0x1000 3 2) (frameFor 8) = .malformed false := by decide +kernel

theorem opens_previous : verdict { rcv with ring := { rcv.ring with linkCur := some 6, linkPrev := some 5 } } (frameFor 8)
    = .packet true (packetFor 8) := by decide +kernel

/-- A frame of another EtherType; without a key; under another key; a packet to another chip; with block fenced. -/
theorem wit_ArrivingFramesAreCheckedInOrder : receives rcv 35 = true ∧ receives rcv 0 = false
    ∧ verdict (wr rcv 0x5000 2 1) (frameFor 8) = .noType ∧ verdict { rcv with ring := up.ring } (frameFor 8) = .noKey
    ∧ verdict { rcv with ring := { rcv.ring with linkCur := some 6 } } (frameFor 8) = .badSeal
    ∧ verdict (wr rcv 0x1000 3 2) (frameFor 8) = .malformed false
    ∧ verdict { rcv with ring := { rcv.ring with linkCur := some 6, linkPrev := some 5 } } (frameFor 8) = .packet true (packetFor 8) :=
  ⟨by decide, by decide, by decide +kernel, by decide +kernel, badSeal_other, malformed_elsewhere, opens_previous⟩

/-- The block once a credit-class packet has taken its slot. -/
def slotTaken (t : Nat) : Block :=
  let b := counted rcv 35 (frameFor t) false
  if creditType t then (creditArrival b 35 1 0).1 else b

def reqFor (t : Nat) : Req := reqOf 35 (packetFor t).head (packetFor t).ext (packetFor t).pay 0

theorem wit_FabricRequestsPassChecksFiveToTwelve_reach : ∀ t ∈ [1, 2, 3, 4, 5, 6, 8, 9],
    reachesQp rcv 35 (frameFor t) (packetFor t) (slotTaken t) 3 := by
  have h : ∀ t ∈ [1, 2, 3, 4, 5, 6, 8, 9], t ∈ types ∧ rd (slotTaken t) 0xF000 1 ≠ 1 ∧ served (slotTaken t) uTPE = true
      ∧ creditType (packetFor t).head.typ = creditType t ∧ (packetFor t).head.src = 1 ∧ (packetFor t).head.tc = 0
      ∧ (creditType t = true → (creditArrival (counted rcv 35 (frameFor t) false) 35 1 0).2 = true)
      ∧ dstQp (slotTaken t) (packetFor t).aliased (packetFor t).head.dstQp = some 3
      ∧ (qp (slotTaken t) 3).peerIs (packetFor t).head.src (packetFor t).head.srcQp = true
      ∧ genOk (slotTaken t) (qp (slotTaken t) 3) (packetFor t).head.gen = true := by decide +kernel
  intro t m
  obtain ⟨a, n, s, c, sr, tc, tk, d, pr, g⟩ := h t m
  refine ⟨⟨false, frames_arrive t a, n, s, ?_⟩, d, pr, g⟩
  rw [c, sr, tc]
  cases e : creditType t with
  | false => simp [slotTaken, e]
  | true =>
    simp only [slotTaken, e, if_true]
    exact Prod.ext rfl (tk e)

theorem wit_FabricRequestsPassChecksFiveToTwelve_pass : ∀ t ∈ [1, 2, 3, 5], requestPasses (slotTaken t) 3 (reqFor t) 0 := by
  have h : ∀ t ∈ [1, 2, 3, 5], (screen (slotTaken t) 3 (reqFor t)).isNone = true ∧ (qp (slotTaken t) 3).refusing = none
      ∧ stateStatus (slotTaken t) (qp (slotTaken t) 3) = none ∧ msnOk (qp (slotTaken t) 3) (reqFor t) = true
      ∧ reqStatus (slotTaken t) 3 (reqFor t) = none ∧ rd (acceptReq (slotTaken t) 3 (reqFor t)) 0xF000 1 ≠ 1
      ∧ (keyCheck (acceptReq (slotTaken t) 3 (reqFor t)) 3 (reqFor t)).toOption = some 0 := by decide +kernel
  intro t m
  obtain ⟨a, b, c, d, e, f, g⟩ := h t m
  refine ⟨by simpa using a, b, c, d, e, f, ?_⟩
  revert g
  cases keyCheck (acceptReq (slotTaken t) 3 (reqFor t)) 3 (reqFor t) with
  | error _ => intro g; cases g
  | ok j => intro g; cases g; rfl

/-- A WRITE to a key that is not VALID. -/
theorem wit_FabricRequestsPassChecksFiveToTwelve_refused : ∃ st, requestType tWRITE = true
    ∧ keyCheck (acceptReq (putKey (slotTaken 1) 0 freshKey) 3 (reqFor 1)) 3 (reqFor 1) = .error st ∧ st = .keyRevoked :=
  ⟨_, rfl, by rfl, rfl⟩

/-- The WRITE from a queue pair that queue pair 3 is not connected to, and to a context that is not OPEN. -/
def strange (q : Qp → Qp) : Block := setQp rcv 3 (q (qp rcv 3))

theorem wit_FabricRequestsPassChecksFiveToTwelve_strange : ∀ x ∈ [(strange fun q => { q with rQp := 9, cx := 1023 }, false),
      (strange fun q => { q with cx := 1023 }, true)], ∃ b, reachesTpe x.1 35 (frameFor 1) (packetFor 1) b
    ∧ requestType (packetFor 1).head.typ = true ∧ dstQp b (packetFor 1).aliased (packetFor 1).head.dstQp = some 3
    ∧ (qp b 3).peerIs (packetFor 1).head.src (packetFor 1).head.srcQp = x.2 ∧ genOk b (qp b 3) (packetFor 1).head.gen = false := by
  have h : ∀ x ∈ [(strange fun q => { q with rQp := 9, cx := 1023 }, false), (strange fun q => { q with cx := 1023 }, true)],
      verdict x.1 (frameFor 1) = .packet false (packetFor 1) ∧ receives x.1 35 = true ∧ rd x.1 0xC000 6 = 0 ∧ rd x.1 0x9000 1 = 0
      ∧ (creditArrival (counted x.1 35 (frameFor 1) false) 35 1 0).2 = true
      ∧ rd (creditArrival (counted x.1 35 (frameFor 1) false) 35 1 0).1 0xF000 1 ≠ 1
      ∧ served (creditArrival (counted x.1 35 (frameFor 1) false) 35 1 0).1 uTPE = true
      ∧ dstQp (creditArrival (counted x.1 35 (frameFor 1) false) 35 1 0).1 (packetFor 1).aliased (packetFor 1).head.dstQp = some 3
      ∧ (qp (creditArrival (counted x.1 35 (frameFor 1) false) 35 1 0).1 3).peerIs (packetFor 1).head.src (packetFor 1).head.srcQp = x.2
      ∧ genOk (creditArrival (counted x.1 35 (frameFor 1) false) 35 1 0).1
        (qp (creditArrival (counted x.1 35 (frameFor 1) false) 35 1 0).1 3) (packetFor 1).head.gen = false := by decide +kernel
  have t : creditType (packetFor 1).head.typ = true ∧ (packetFor 1).head.src = 1 ∧ (packetFor 1).head.tc = 0 := by decide
  intro x m
  obtain ⟨v, r, a, f, c, n, s, d, p, g⟩ := h x m
  refine ⟨(creditArrival (counted x.1 35 (frameFor 1) false) 35 1 0).1, ⟨false, ⟨r, v, a, f⟩, n, s, ?_⟩, by decide, d, p, g⟩
  rw [t.1, t.2.1, t.2.2]
  exact Prod.ext rfl c

theorem wit_FabricAnswersAndControlPacketsAreTaken : (∀ t ∈ [10, 11, 12, 13], arrives rcv 35 (frameFor t) false (packetFor t))
    ∧ (packetFor 10).head.typ = tCREDIT ∧ (packetFor 11).head.typ = tDICT ∧ (packetFor 12).head.typ = tMIRROR
    ∧ (packetFor 13).head.typ = tSEALNAK ∧ leaseLive rcv (txCredit rcv 1) = false
    ∧ leaseLive rcv ⟨true, [0, 0, 0, 0], [0, 0, 0, 0], 1000⟩ = true
    ∧ (creditArrival (counted rcv 35 (frameFor 12) false) 35 1 3).2 = true :=
  ⟨fun t m => frames_arrive t (by revert t m; decide), by decide +kernel⟩

/-- An ACK to send, a WRITE frame of partition 1 to send. -/
def sendAckTx : Tx := { blankTx with body := plain (bth tACK 1) 0 8 ⟨0, 0⟩, port := 35 }
def sendTx : Tx := { blankTx with prec := 2, pid := 1, qp := 3, chip := 1, port := 35, body := plain (bth tWRITE 1) 0 24 ⟨64, 0⟩ }

theorem wit_PacketsAreSentPlacedRetransmittedAndRequeued_send :
    let b := setPort rcv 35 { freshPort with queue := [sendTx, sendAckTx] }
    portLive (dictOut b) 35 = true ∧ (dictOut b).ring.linkCur.isSome = true ∧ served (dictOut b) (uPP 35) = true
      ∧ (port (dictOut b) 35).realigning = false ∧ onlyDict (dictOut b) = false
      ∧ (port (dictOut b) 35).queue.find? (·.prec == 0) = some sendAckTx ∧ portLive (dictOut b) 0 = false := by
  decide +kernel

theorem wit_PacketsAreSentPlacedRetransmittedAndRequeued_data :
    let b := setPort rcv 35 { freshPort with queue := [sendTx] }
    (port (dictOut b) 35).queue.find? (·.prec == 0) = none ∧ (mirrorFrame (dictOut b) 35).isNone = true
      ∧ (dataFrame (dictOut b) (port (dictOut b) 35)).2 = some sendTx := by
  decide +kernel

/-- The WRITE taken, its bytes on their way to package memory; and one on its way to the host aperture. -/
def placing : Block :=
  let a := onKey (slotTaken 1) 3 (reqFor 1) 0
  let w := workOf a 3 0 (reqFor 1)
  workGo (addWork a w) w

theorem wit_PacketsAreSentPlacedRetransmittedAndRequeued_placed :
    (∃ w, placing.tpe.works.find? (fun w => w.qp == 3 && w.psn == 0 && w.kind == .write && w.issued) = some w
      ∧ segsPlace placing w.segs ≠ .host
      ∧ (arrive placing (workHolder w) w.segs ok 0).any (fun x => decide (x.2.1 = .ok)) = true)
    ∧ segsPlace placing [piece (2 ^ 43) 64] = .host :=
  ⟨some_of_any (by decide +kernel), by decide +kernel⟩

/-- The same WRITE, its bytes bound for the spill window, where they could not be sealed. -/
def unsealed : Block :=
  { placing with
    tpe := { placing.tpe with works := placing.tpe.works.map fun w => { w with segs := [piece (2 ^ 42) 64] } }
    replies := [⟨⟨.placement, 3, 0⟩, .sealFail, ⟨0, 0⟩, false⟩] }

theorem wit_PacketsAreSentPlacedRetransmittedAndRequeued_refused :
    ∃ w, unsealed.tpe.works.find? (fun w => w.qp == 3 && w.psn == 0 && w.kind == .write && w.issued) = some w
      ∧ segsPlace unsealed w.segs ≠ .host
      ∧ (arrive unsealed (workHolder w) w.segs ok 0).any (fun x => decide (x.2.1 ≠ .ok)) = true :=
  some_of_any (by decide +kernel)

/-- 06 R195: the WRITE's bytes are in memory, and the window has moved past its PSN. -/
theorem test_write_placed : Goes (exec (.placementAck 3 0) (on placing)) fun t =>
    readMem t.dev 0 64 = 2 ^ 512 - 1 ∧ (qp t.dev 3).rxBase = 1 ∧ (key t.dev 0).out = 0 :=
  ⟨_, rfl, by decide +kernel⟩

/-- PSN 2^24 - 1 in flight, unacknowledged, its timer running since time 0; `n` attempts made. -/
def inFlight (n now : Nat) : Block :=
  let b := setQp rcv 3 { qp rcv 3 with
    retx := 10, unreported := 1
    flights := [⟨2 ^ 24 - 1, n, 0, true, none, 2 ^ 24 - 1⟩]
    msgs := [⟨0, .wqe 0, 0, 2 ^ 24 - 1, 1, 1, 0, 0, none, 0, 0⟩] }
  { b with clk := { b.clk with now := now } }

theorem wit_PacketsAreSentPlacedRetransmittedAndRequeued_timers : ∃ f m,
    (qp (inFlight 0 10000) 3).flights.find? (·.psn == 2 ^ 24 - 1) = some f
      ∧ msgOfPsn (qp (inFlight 0 10000) 3) (2 ^ 24 - 1) = some m ∧ retransmits (qp (inFlight 0 10000) 3) = true
      ∧ timerOut (inFlight 0 10000) (qp (inFlight 0 10000) 3) f = true ∧ f.attempt < (qp (inFlight 0 10000) 3).retry
      ∧ timerOut (inFlight 0 100) (qp (inFlight 0 100) 3) f = false
      ∧ timerOut (inFlight 7 100000) (qp (inFlight 7 100000) 3) { f with attempt := 7 } = true
      ∧ (qp (inFlight 0 10000) 3).resetting = false ∧ (qp (inFlight 0 10000) 3).unreported ≠ 0
      ∧ rd (inFlight 0 10000) 0x5000 5 ≤ 10 * (10000 - (qp (inFlight 0 10000) 3).unreportedAt) := by
  refine ⟨⟨2 ^ 24 - 1, 0, 0, true, none, 2 ^ 24 - 1⟩, ⟨0, .wqe 0, 0, 2 ^ 24 - 1, 1, 1, 0, 0, none, 0, 0⟩, ?_⟩
  decide +kernel

theorem wit_PacketsAreSentPlacedRetransmittedAndRequeued_links : awake rcv
    ∧ (port (setPort rcv 35 { freshPort with linkUp := true }) 35).linkUp = true ∧ (port rcv 35).linkUp = false
    ∧ onlyDict (wr (setPort rcv 35 { freshPort with queue := [sendTx] }) 0x9000 1 1) = true ∧ portState (wr rcv 0x5123 1 3) 35 = 3
    ∧ rcv.tpe.noPath.filter (fun t => !t.tracked) = [] ∧ portState rcv 35 ≠ 3 ∧ (port rcv 35).realigning = false := by
  delta awake; decide +kernel


/-! ## Queue pairs, keys, credit -/

/-- Partition 1's set-up area at host address 4096; `q` makes its queue pair 7. -/
def area : Block := wr pt 0x5201 0x40 4096
def withQp (q : Qp → Qp) : Block := setQp area 7 (q { freshQp with pid := 1 })

theorem wit_SetupRecordsMakeQueuePairsAndKeys_command : byHost host ∧ isPid 1 ∧ isLive area 1 = true ∧ setupBase area 1 ≠ 0
    ∧ hostAdmitted area 1 = true ∧ canTake area 0x5201 1 ∧ (qp area (0 + 7)).st = .reset ∧ qpReserved area (0 + 7) = false
    ∧ canTake (withQp fun q => { q with st := .init }) 0x5201 2 ∧ (qp (withQp fun q => { q with st := .init }) (0 + 7)).st = .init
    ∧ canTake area 0x5201 8 ∧ keyReserved area 7 = false ∧ 7 < (part area 1).qpCount ∧ 7 < (part area 1).keyCount := by
  delta byHost isPid canTake awake; decide +kernel

/-- The record of the set-up command `sub` on queue pair or key 7 under way. -/
def readingRecord (sub : Nat) (b : Block) : Block :=
  let b := acceptCmd b host 0x5201 sub 7
  { b with tags := { b.tags with used := [⟨0, ⟨1, 0, 0⟩, [], ⟨.setupRecord, 1, sub⟩⟩] } }

/-- Records of 07 Tables 7-3, 7-4 and 7-9, the smallest legal ones; each then with its first field out of range. -/
def initRec : Nat := (4 <<< 16) + (4 <<< 44)
def connectRec (chip : Nat) : Nat := chip <<< 308
def keyRec : Nat := (15 <<< 56) + (64 <<< 128)

theorem wit_SetupRecordsMakeQueuePairsAndKeys_init : ∃ c,
    let b := settle (readingRecord 1 area) ⟨.setupRecord, 1, 1⟩
    pendingCmd (readingRecord 1 area) 0x5201 1 = some c ∧ issued (readingRecord 1 area) ⟨.setupRecord, 1, 1⟩ = true
      ∧ rd (readingRecord 1 area) 0xF000 1 ≠ 1 ∧ isLive b 1 = true ∧ (qp b 7).st = .reset ∧ qpReserved b 7 = false
      ∧ ctxOpen b 1 (bits initRec 48 10) = true ∧ initFault initRec = none ∧ initFault 0 = some 2 ∧ initRec < 2 ^ 512 ∧ c.arg = 7 := by
  obtain ⟨c, e, n⟩ := some_of_any (o := pendingCmd (readingRecord 1 area) 0x5201 1) (p := fun c => c.arg = 7) (by decide +kernel)
  exact ⟨c, e, by decide +kernel, by decide +kernel, by decide +kernel, by decide +kernel, by decide +kernel, by decide +kernel,
    by decide +kernel, by decide +kernel, by decide +kernel, n⟩

theorem wit_SetupRecordsMakeQueuePairsAndKeys_connect : ∃ c,
    let s := readingRecord 2 (withQp fun q => { q with st := .init })
    let b := settle s ⟨.setupRecord, 1, 2⟩
    pendingCmd s 0x5201 2 = some c ∧ issued s ⟨.setupRecord, 1, 2⟩ = true ∧ rd s 0xF000 1 ≠ 1 ∧ isLive b 1 = true
      ∧ (qp b 7).st = .init ∧ (qp b 7).resetting = false ∧ ctxOpen b 1 (qp b 7).cx = true
      ∧ bits (connectRec 4095) 308 12 ≠ chipId b ∧ bits (connectRec 0) 308 12 = chipId b ∧ c.arg = 7 := by
  obtain ⟨c, e, n⟩ := some_of_any (o := pendingCmd (readingRecord 2 (withQp fun q => { q with st := .init })) 0x5201 2)
    (p := fun c => c.arg = 7) (by decide +kernel)
  exact ⟨c, e, by decide +kernel, by decide +kernel, by decide +kernel, by decide +kernel, by decide +kernel, by decide +kernel,
    by decide +kernel, by decide +kernel, n⟩

theorem wit_SetupRecordsMakeQueuePairsAndKeys_key : ∃ c,
    let b := settle (readingRecord 8 area) ⟨.setupRecord, 1, 8⟩
    pendingCmd (readingRecord 8 area) 0x5201 8 = some c ∧ issued (readingRecord 8 area) ⟨.setupRecord, 1, 8⟩ = true
      ∧ rd (readingRecord 8 area) 0xF000 1 ≠ 1 ∧ isLive b 1 = true ∧ (key b 7).st = .free ∧ keyReserved b 7 = false
      ∧ ctxOpen b 1 (bits keyRec 32 10) = true ∧ keyFault b 1 keyRec = none ∧ keyFault b 1 0 = some 7 ∧ c.arg = 7 := by
  obtain ⟨c, e, n⟩ := some_of_any (o := pendingCmd (readingRecord 8 area) 0x5201 8) (p := fun c => c.arg = 7) (by decide +kernel)
  exact ⟨c, e, by decide +kernel, by decide +kernel, by decide +kernel, by decide +kernel, by decide +kernel, by decide +kernel,
    by decide +kernel, by decide +kernel, n⟩

/-- 07 R232, R235: the registered key is VALID under generation 1. -/
theorem test_keyReg : Goes (exec (.setupRecordReadDone 1 8 ⟨.ok, ⟨64, keyRec⟩, false⟩) (on (readingRecord 8 area))) fun t =>
    (key t.dev 7).st = .valid ∧ (key t.dev 7).gen = 1 ∧ (key t.dev 7).len = 64 ∧ (key t.dev 7).rights = 15 :=
  ⟨_, rfl, by decide +kernel⟩

/-- Queue pair 7 READY, in INIT with a QP_CONNECT that waits, DRAINING and under reset. -/
def ready7 : Block := withQp fun q => { q with st := .ready, sqLog := 4, cqLog := 4, tcMask := 15 }
def waiting7 : Block := acceptCmd (withQp fun q => { q with st := .init }) host 0x5201 2 7
def draining7 : Block := withQp fun q => { q with st := .draining }
def resetting7 : Block := withQp fun q => { q with st := .ready, resetting := true }

theorem wit_QueuePairsAreResetAndDrained_command : mayCommand ready7 tnt 1 ∧ isPid 1 ∧ isLive ready7 1 = true
    ∧ 7 < (part ready7 1).qpCount ∧ canTake ready7 0x5201 3 ∧ (qp ready7 (0 + 7)).st ≠ .reset ∧ (qp ready7 (0 + 7)).st ≠ .draining
    ∧ setupBefore ready7 1 3 7 = false ∧ noInjection ready7 ∧ canTake waiting7 0x5201 3 ∧ (qp waiting7 7).st ≠ .reset
    ∧ (qp waiting7 7).st ≠ .draining ∧ setupBefore waiting7 1 3 7 = true ∧ canTake ready7 0x5201 4 ∧ (qp ready7 7).runs = true
    ∧ (qp ready7 7).resetting = false ∧ setupBefore ready7 1 4 7 = false := by
  delta mayCommand byHost isPid canTake awake noInjection; decide +kernel

/-- A QP_DRAIN of a running queue pair waits for a set-up command of the same queue pair accepted before it. -/
theorem wit_QueuePairsAreResetAndDrained_waits :
    let b := acceptCmd ready7 host 0x5201 2 7
    canTake b 0x5201 4 ∧ (qp b 7).runs = true ∧ setupBefore b 1 4 7 = true := by
  delta canTake awake; decide +kernel

theorem wit_QueuePairsAreResetAndDrained_end :
    let q := qp resetting7 7
    let d := qp draining7 7
    q.resetting = true ∧ q.sqNext = q.sqTail ∧ q.due = [] ∧ q.msgs = [] ∧ unplaced resetting7 7 = false ∧ d.resetting = false
      ∧ d.st = .draining ∧ d.sqNext = d.sqTail ∧ (∀ m ∈ d.msgs, m.st ≠ none) ∧ d.due = [] ∧ unplaced draining7 7 = false
      ∧ elapsed draining7 d.drainAt (drainTime draining7 d.pid) = false
      ∧ elapsed { draining7 with clk := { draining7.clk with now := 2 ^ 40 } } d.drainAt (drainTime draining7 d.pid) = true := by
  decide +kernel

/-- Key 7 with `n` requests that count on it, REVOKING since time 0. -/
def revoking (n : Nat) : Block := putKey area 7 { freshKey with st := .revoking, pid := 1, len := 64, rights := 15, gen := 255, out := n }

theorem wit_KeysAreRevokedAndQueried_command :
    let b := putKey area 7 { freshKey with st := .valid, pid := 1, len := 64, rights := 15 }
    mayCommand b tnt 1 ∧ isPid 1 ∧ isLive b 1 = true ∧ noInjection b ∧ setupBefore b 1 9 7 = false ∧ 7 < (part b 1).keyCount
      ∧ canTake b 0x5201 9 ∧ (key b (0 + 7)).st = .valid ∧ setupBefore b 1 5 7 = false ∧ canTake b 0x5201 5
      ∧ bits (7 + 2 ^ 56) 16 40 = 0 ∧ bits (7 + 2 ^ 56) 0 16 < (part b 1).qpCount ∧ setupBefore b 1 0x0A 7 = false
      ∧ canTake b 0x5201 0x0A ∧ bits 7 18 38 = 0 := by
  delta mayCommand byHost isPid canTake awake noInjection; decide +kernel

theorem wit_KeysAreRevokedAndQueried_end : (key (revoking 0) 7).st = .revoking ∧ (key (revoking 0) 7).out = 0
    ∧ (key (revoking 1) 7).out ≠ 0 ∧ elapsed (revoking 1) 0 (drainTime (revoking 1) 1) = false
    ∧ elapsed { revoking 1 with clk := { (revoking 1).clk with now := 2 ^ 40 } } 0 (drainTime (revoking 1) 1) = true := by
  decide +kernel

theorem wit_KeysAreRevokedAndQueried_query : ∀ sub ∈ [5, 0x0A],
    let s := acceptCmd area host 0x5201 sub 7
    let s := { s with tags := { s.tags with used := [⟨0, ⟨1, 0, 0⟩, [], ⟨.queryWrite, 1, sub⟩⟩] } }
    (pendingCmd s (0x5200 + 1) sub).isSome = true ∧ issued s ⟨.queryWrite, 1, sub⟩ = true := by decide +kernel

theorem wit_QueuePairDoorbellsMoveTailConsumerAndArm : awake ready7 ∧ pidOfVf ready7 1 = 1 ∧ isLive ready7 1 = true
    ∧ partServed ready7 1 = true ∧ hostAdmitted ready7 1 = true ∧ 7 < (part ready7 1).qpCount ∧ served ready7 uTPE = true
    ∧ noInjection ready7 ∧ (qp ready7 (0 + 7)).st = .ready ∧ 15 < 2 ^ (qp ready7 7).sqLog ∧ 2 ^ (qp ready7 7).sqLog ≤ 16
    ∧ 15 < 2 ^ (qp ready7 7).cqLog ∧ 2 ^ (qp ready7 7).cqLog ≤ 65535 ∧ zeroBits (2 ^ 16) 16 46 = false
    ∧ zeroBits (2 ^ 61) 16 46 = false := by
  delta awake noInjection; decide +kernel

/-- A WQE of operation `op` for 64 bytes at address 65536, its target at offset 0. -/
def wqe (op : Nat) : Nat := (op <<< 60) + (65536 <<< 64) + (64 <<< 192)

/-- Queue pair 7 with a request of holder kind `k` under way at the page of its WQEs, its current WQE `w`. -/
def fetching7 (f : Fetch) (k : ReqKind) (w : Nat) : Block :=
  let b := setQp mapped 7 { freshQp with
    st := .ready, pid := 1, sqLog := 4, cqLog := 4, tcMask := 15, fetch := f, cur := w, io := [piece 4096 64], sqTail := 1 }
  { (writeMem b 4096 w 64) with tags := { b.tags with used := [⟨0, c1, [piece 4096 64], ⟨k, 7, 0⟩⟩] } }

theorem wit_WorkQueueEntriesRunAndComplete_fetch : (qp (fetching7 .readWqe .wqeFetch (wqe 1)) 7).fetch = .readWqe
    ∧ (∃ x, arrive (fetching7 .readWqe .wqeFetch (wqe 1)) ⟨.wqeFetch, 7, 0⟩ [piece 4096 64] ok 64 = some x ∧ x.2.1 = .ok
      ∧ (qp x.1 7).tearing = none
      ∧ wqeStatus (onQp x.1 7 fun q => { q with fetch := .rest, io := [] }) (qp (fetching7 .readWqe .wqeFetch (wqe 1)) 7) x.2.2 = none)
    ∧ (∃ x, arrive (fetching7 .readWqe .wqeFetch 0) ⟨.wqeFetch, 7, 0⟩ [piece 4096 64] ok 64 = some x ∧ x.2.1 = .ok
      ∧ wqeStatus (onQp x.1 7 fun q => { q with fetch := .rest, io := [] }) (qp (fetching7 .readWqe .wqeFetch 0) 7) x.2.2
        = some .guardFault)
    ∧ (∃ x, arrive (fetching7 .readWqe .wqeFetch 0) ⟨.wqeFetch, 7, 0⟩ [piece 4096 64] { ok with poison := true } 64 = some x
      ∧ x.2.1 ≠ .ok)
    ∧ (qp (fetching7 .readWqe .wqeFetch 0) 7).tearing = none ∧ (qp (fetching7 .readWqe .wqeFetch 0) 7).io = [piece 4096 64]
    ∧ (∀ w ∈ (fetching7 .readWqe .wqeFetch 0).tpe.works, w.qp ≠ 7 ∨ w.kind ≠ .response) :=
  ⟨by decide +kernel, some_of_any (by decide +kernel), some_of_any (by decide +kernel), some_of_any (by decide +kernel),
    by decide +kernel, by decide +kernel, by decide +kernel⟩

theorem wit_WorkQueueEntriesRunAndComplete_payload : ∀ op ∈ [1, 2],
    let b := fetching7 .readPayload .wqePayload (wqe op)
    (qp b 7).fetch = .readPayload ∧ (qp b 7).copies = [] ∧ mayStartMsg b (qp b 7) (qp b 7).cur = true ∧ wOpcode (qp b 7).cur = op
      ∧ (arrive b ⟨.wqePayload, 7, 0⟩ (qp b 7).io ok (wBytes (qp b 7).cur)).any (fun x => decide (x.2.1 = .ok)) = true := by
  decide +kernel

theorem wit_WorkQueueEntriesRunAndComplete_start : (∀ op ∈ [3, 4, 5, 6],
      let b := fetching7 .ready .wqePayload (wqe op)
      (qp b 7).fetch = .ready ∧ mayStartMsg b (qp b 7) (qp b 7).cur = true ∧ wOpcode (qp b 7).cur = op)
    ∧ wOpcode (qp (fetching7 .ready .wqePayload (wqe 7)) 7).cur = 7 ∧ (qp (fetching7 .ready .wqePayload (wqe 7)) 7).runs = true
    ∧ (qp (fetching7 .ready .wqePayload (wqe 7)) 7).resetting = false ∧ wFence (wqe 7) = false := by decide +kernel

/-- Queue pair 7 with one completion due, its queue of 16 at page 1; then full, then of another generation. -/
def owing (cons : Nat) : Block := setQp mapped 7 { freshQp with
  st := .ready, pid := 1, cqBase := 4096, cqLog := 4, cqProd := 15, cqCons := cons, due := [⟨2 ^ 200, none, false⟩] }

theorem wit_WorkQueueEntriesRunAndComplete_completion : (qp (owing 1) 7).due = ⟨2 ^ 200, none, false⟩ :: [] ∧ cqFull (qp (owing 1) 7) = false
    ∧ (qp (owing 1) 7).ownGen = (ctxSlot (owing 1) 1 0).gen ∧ cqFull (qp (owing 0) 7) = true ∧ (qp mapped 7).due = []
    ∧ (writeNow (owing 1) (qpAsker (owing 1) 7 .completion 0) (ctxNow (owing 1) 1 0) ((4096 + 32 * 15) % 2 ^ 52)
        ⟨32, 2 ^ 200 + (ofBool (qp (owing 1) 7).phase <<< 63)⟩ 0 2).2 = .issued [piece 4576 32] := by decide +kernel

/-- Chip 4095 as a sender with a live lease; as a source of credit in each state. -/
def sender : Block := setTxCredit up 4095 ⟨true, [1, 1, 1, 1], [0, 0, 0, 0], 1000⟩
def source (st : CreditState) (now : Nat) : Block :=
  let x : RxCredit := ⟨st, [64, 0, 0, 0], [0, 0, 0, 0], [64, 0, 0, 0], 0, false, 0, 0, [false, false, false, false], 0⟩
  { up with clk := { up.clk with now := now }, tpe := { up.tpe with rxCredit := [(4095, x)] } }
def peers (b : Block) : Block := wrBlob b 0x5010 0x10 ⟨512, 2 ^ 4095⟩

theorem wit_CreditIsGrantedRefreshedAndResynchronised_lease : (txCredit sender 4095).synced = true
    ∧ leaseLive sender (txCredit sender 4095) = true
    ∧ leaseLive { sender with clk := { sender.clk with now := 2 ^ 40 } } (txCredit sender 4095) = false := by decide +kernel

theorem wit_CreditIsGrantedRefreshedAndResynchronised_source : ∃ x y,
    find? (source .active (2 ^ 40)).tpe.rxCredit 4095 = some x ∧ x.st = .active
      ∧ elapsed (source .active (2 ^ 40)) x.arrivedAt (micros (rd (source .active (2 ^ 40)) 0x5010 8)) = true
      ∧ elapsed (source .active 0) x.arrivedAt (micros (rd (source .active 0) 0x5010 8)) = false
      ∧ find? (source .quiet (2 ^ 40)).tpe.rxCredit 4095 = some y ∧ y.st = .quiet ∧ y.sent = false
      ∧ elapsed (source .quiet (2 ^ 40)) y.entered (quietTime (source .quiet (2 ^ 40))) = true
      ∧ elapsed (source .quiet 0) y.entered (quietTime (source .quiet 0)) = false
      ∧ asleep (source .quiet (2 ^ 40)) = false ∧ isPeer (source .quiet (2 ^ 40)) 4095 = false
      ∧ isPeer (peers (source .quiet (2 ^ 40))) 4095 = true :=
  ⟨_, _, rfl, rfl, by decide +kernel, by decide +kernel, rfl, rfl, rfl, by decide +kernel, by decide +kernel, by decide +kernel,
    by decide +kernel, by decide +kernel⟩

theorem wit_CreditIsGrantedRefreshedAndResynchronised_resync : ∃ x, canTake (peers (source .base 0)) 0x5010 0x20
    ∧ notFmFw reed = false ∧ isPeer (peers (source .base 0)) 4095 = true
    ∧ find? (peers (source .base 0)).tpe.rxCredit 4095 = some x ∧ x.st ≠ .quiet :=
  ⟨_, by delta canTake awake; decide +kernel, by decide, by decide +kernel, rfl, by decide⟩

theorem wit_CreditIsGrantedRefreshedAndResynchronised_pool : creditOk (peers (source .base 0)) ∧ poolSum (peers (source .base 0)) ≤ 6144
    ∧ ∀ e ∈ (source .quiet 0).tpe.rxCredit, ∀ y, find? (source .quiet 0).tpe.rxCredit e.1 = some y →
      y.st = .quiet ∨ elapsed (source .quiet 0) y.refreshed (micros (rd (source .quiet 0) 0x5010 5)) = false := by
  refine ⟨?_, by decide +kernel, ?_⟩
  · delta creditOk; decide +kernel
  · intro e m y h
    have t : ∀ e ∈ (source .quiet 0).tpe.rxCredit, e.1 = 4095 := by decide +kernel
    rw [t e m] at h
    have : find? (source .quiet 0).tpe.rxCredit 4095 = some ⟨.quiet, [64, 0, 0, 0], [0, 0, 0, 0], [64, 0, 0, 0], 0, false, 0, 0,
        [false, false, false, false], 0⟩ := by rfl
    rw [this] at h; cases h; exact .inl rfl

/-- 07 R241: BASE at the end of QUIET: the floors of the classes are granted over what was. -/
theorem test_quietEnd : Goes (exec (.quietPeriodEnd 4095) (on (peers (source .quiet (2 ^ 40))))) fun t =>
    (find? t.dev.tpe.rxCredit 4095).map (·.st) = some .base :=
  ⟨_, rfl, by decide +kernel⟩

/-! ## Reduction groups -/

/-- A program image of kind `k` (2: completion), with WB where `wb`, made of the words `ws`. -/
def image (k : Nat) (wb : Bool) (ws : List Nat) : Nat :=
  0x4E525A31 + (k <<< 32) + (ofBool wb <<< 48) + (ws.length <<< 64) + (joinValues 4 ws <<< 2176)
def op3 (vd sa sb sc : Nat) : RunnerOp := ⟨0, false, vd, sa, sb, sc⟩

/-- A group record: 16 elements INT32, SUM, key 0, no output, status at 8192; `count` contributors; `local`: local data. -/
def grec (count out : Nat) (here : Bool) : Nat :=
  (out <<< 90) + (2 <<< 88) + (0xB <<< 84) + (1 <<< 98) + (ofBool here <<< 96) + ((count - 1) <<< 144) + (64 <<< 192) + (16 <<< 224)
    + (8192 <<< 320) + (0x40000 <<< 384) + (0x80000 <<< 448)

/-- Partition 1 with groups 0 and 65535, of which group `g` is `x`; key 0 covers page 0. -/
def withGroup (g : Nat) (x : Group) : Block :=
  let b := putKey mapped 0 { freshKey with st := .valid, pid := 1, len := 2 ^ 25, rights := 15 }
  setGroup (wr (wr b 0x6101 0x40 65536) 0x6101 0x41 0x100000) 1 g x

/-- The same with a request of the group under way. -/
def asking (g : Nat) (x : Group) (h : Holder) (segs : List Seg) : Block :=
  let b := withGroup g x
  { b with tags := { b.tags with used := [⟨0, c1, segs, h⟩] } }

def groupIn (st : GState) (r : Nat) : Group := { freshGroup with st := st, record := some r, checked := true }

/-- A GROUP_ARM has been accepted and the record of group 65535 is on its way. -/
def arming : Block := asking 65535 { freshGroup with st := .arming, io := [piece (0x100000 + 64 * 65535) 64] }
  ⟨.groupRecord, groupKey 1 65535, 0⟩ [piece (0x100000 + 64 * 65535) 64]

theorem wit_GroupsAreArmedAndAborted_command : mayCommand (withGroup 0 (groupIn .armed 0)) tnt 1 ∧ isPid 1
    ∧ 65535 < groupLimit (withGroup 0 (groupIn .armed 0)) 1 ∧ canTake (withGroup 0 (groupIn .armed 0)) 0x6101 1
    ∧ (group (withGroup 0 (groupIn .armed 0)) 1 65535).live = false ∧ canTake (withGroup 0 (groupIn .armed 0)) 0x6101 2
    ∧ (group (withGroup 0 (groupIn .armed 0)) 1 0).live = true := by
  delta mayCommand byHost isPid canTake awake; decide +kernel

theorem wit_GroupsAreArmedAndAborted_record : (group arming 1 65535).unread = true ∧ (group arming 1 65535).io ≠ []
    ∧ pendingCmd arming (0x6100 + 1) 2 = none
    ∧ (∃ x, arrive (writeMem arming (0x100000 + 64 * 65535) (grec 1 0xF false) 64) ⟨.groupRecord, groupKey 1 65535, 0⟩
        (group arming 1 65535).io ok 64 = some x ∧ x.2.1 = .ok ∧ recordCheck x.1 1 x.2.2 = none)
    ∧ (∃ x, arrive arming ⟨.groupRecord, groupKey 1 65535, 0⟩ (group arming 1 65535).io ok 64 = some x
        ∧ x.2.1 = .ok ∧ recordCheck x.1 1 x.2.2 = some (.range, 0x0C))
    ∧ ∃ x, arrive arming ⟨.groupRecord, groupKey 1 65535, 0⟩ (group arming 1 65535).io { ok with poison := true } 64 = some x
        ∧ x.2.1 ≠ .ok :=
  ⟨by decide +kernel, by decide +kernel, by decide +kernel, some_of_any (by decide +kernel), some_of_any (by decide +kernel),
    some_of_any (by decide +kernel)⟩

/-- Group 0 with its record read, one page to clear; the lane groups of station 0 in service or not. -/
def cleared : Block := withGroup 0 { groupIn .arming (grec 1 0xF false) with pages := [none] }
def laneless (b : Block) : Block := (List.range 8).foldl (fun b g => setDomain b (uLane 0 g) { freshDomain with st := .out }) b

theorem wit_GroupsAreArmedAndAborted_armed : (group cleared 1 0).st = .arming ∧ (group cleared 1 0).checked = true
    ∧ (∀ b ∈ [cleared, laneless cleared], let c := clearPages b 1 0 0 (gPages (group b 1 0).r)
      c.2 = true ∧ (group c.1 1 0).pages = [some 0] ∧ pageStation (some 0) = some 0 ∧ served c.1 (uMS 0) = true)
    ∧ lanesLeft (clearPages cleared 1 0 0 (gPages (group cleared 1 0).r)).1 0 = true
    ∧ lanesLeft (clearPages (laneless cleared) 1 0 0 (gPages (group cleared 1 0).r)).1 0 = false := by decide +kernel

theorem wit_GroupsAreArmedAndAborted_end : ∃ c, pendingCmd (acceptCmd (withGroup 65535 (groupIn .aborted 0)) tnt 0x6101 2 65535)
    (0x6100 + 1) 2 = some c ∧ c.arg = 65535 ∧ (withGroup 65535 (groupIn .aborted 0)).cru.apps = [] :=
  ⟨_, rfl, rfl, rfl⟩

theorem wit_GroupsAreArmedAndAborted_unload : canTake (wr pt 0x6401 0x20 255) 0x6401 1
    ∧ 255 ≤ progLimit (wr pt 0x6401 0x20 255) 1 ∧ ¬(roleOf host.path = .host ∧ isSealed (wr pt 0x6401 0x20 255) 1 = true)
    ∧ mayCommand (wr pt 0x6401 0x20 255) host 1 ∧ isPid 1 := by
  delta mayCommand byHost isPid canTake awake; decide +kernel

/-- A packet of the last of 4,096 contributors to slot 0 of group 0, whose block lies at address 0. -/
def contribution (st : AppSt) : App :=
  ⟨1, 1, 0, 0, 4095, ⟨64, 5 + 7 <<< 480⟩, false, false, 7, 0, 0, 0, false, 0, 0, piece 0 4608, st⟩

/-- Group 0 with that application under way, `row` in its ledger row and `v` as its arrival program. -/
def applying (st : AppSt) (row applied : Nat) (v : Option Version) : Block :=
  let b := writeMem (withGroup 0 { groupIn .armed (grec 4096 0xF false) with arr := v, applied := applied, pages := [some 0] }) 0 row 512
  { b with cru := { b.cru with apps := [contribution st], locks := [(0, 0, 2)] } }

/-- A ledger row with the last contributor's bit alone, or with that of the one before it. -/
def lastRow (last : Bool) : Nat := if last then 2 ^ 4095 else 2 ^ 4094

/-- An arrival program: v0 := v0 + v0. -/
def doubling : Version := ⟨1, ⟨276, image 1 false [runnerWord 0x10 (op3 0 0 0 0)]⟩⟩

theorem wit_ContributionsAreAppliedOnce_apply : (∀ v ∈ [none, some doubling],
      let b := applying .locked 0 0 v
      b.cru.apps.find? (fun a => a.pid == 1 && a.group == 0 && a.slot == 0 && a.contrib == 4095 && a.st == .locked
        && stationOf a.pa == 0) = some (contribution .locked)
      ∧ served b (uMS 0) = true ∧ (group b 1 0).arr = v ∧ (∀ e ∈ b.cru.groups, e.2.running = false))
    ∧ gL (grec 4096 0xF false) = 512 ∧ 4095 < gCount (grec 4096 0xF false) ∧ localAddr 0 + gBlock (grec 4096 0xF false) ≤ 2 ^ 44
    ∧ served (memoryUe (count (unlock (applying .locked 0 0 none) 0 2) (0x6300 + 0) 1) true 0 1) (uMS 0) = true := by decide +kernel

theorem wit_ContributionsAreAppliedOnce_row : ∀ last ∈ [true, false],
    ((readMem (applying .locked (lastRow last) 0 none) 0 512).testBit 4095 == last) = true := by decide +kernel

theorem wit_ContributionsAreAppliedOnce_report : appNamed (applying .applied 0 0 none) 1 0 0 4095 .applied = some (contribution .applied)
    ∧ (∀ n ∈ [0, 4095 * 64], (group (applying .applied 0 n none) 1 0).st = .armed)
    ∧ 0 + 64 ≠ gCount (grec 4096 0xF false) * gContribBytes (grec 4096 0xF false)
    ∧ 4095 * 64 + 64 = gCount (grec 4096 0xF false) * gContribBytes (grec 4096 0xF false) := by decide +kernel

/-- Group 0 armed with local data, its slot 0 being read. -/
def localSlot : Block := asking 0 { groupIn .armed (grec 1 0xF true) with localIo := [piece 0x40000 64] }
  ⟨.localSlot, groupKey 1 0, 0⟩ [piece 0x40000 64]

theorem wit_ContributionsAreAppliedOnce_local : (group localSlot 1 0).st = .armed ∧ (group localSlot 1 0).localSlot = 0
    ∧ (∃ x, arrive localSlot ⟨.localSlot, groupKey 1 0, 0⟩ (group localSlot 1 0).localIo ok (slotBytes (grec 1 0xF true) 0) = some x
      ∧ x.2.1 = .ok)
    ∧ ∃ x, arrive localSlot ⟨.localSlot, groupKey 1 0, 0⟩ (group localSlot 1 0).localIo { ok with poison := true }
        (slotBytes (grec 1 0xF true) 0) = some x ∧ x.2.1 ≠ .ok :=
  ⟨by decide +kernel, by decide +kernel, some_of_any (by decide +kernel), some_of_any (by decide +kernel)⟩

theorem wit_ContributionsAreAppliedOnce_order : 2 ^ 64 - 1 < 2 ^ (8 * accWidth 3) ∧ 2 ^ 32 - 1 < 2 ^ (8 * accWidth 2)
    ∧ 2 ^ 32 - 1 < 2 ^ (8 * accWidth 0) := by decide +kernel

/-- 08 R265: the contribution is added to the accumulator and its ledger bit set. -/
theorem test_apply : Goes (exec (.application 0 1 0 0 4095 false) (on (writeMem (applying .locked 2 0 none) 512 (2 ^ 32 - 1) 4)))
    fun t => readMem t.dev 0 512 = 2 + 2 ^ 4095 ∧ readMem t.dev 512 4 = 4 ∧ readMem t.dev 572 4 = 7 :=
  ⟨_, rfl, by decide +kernel⟩

/-- A completion program that loads stream 0 and stores stream 1; its stream table entries, at 65536 and 131072. -/
def streaming : Version := ⟨1, ⟨280, image 2 false [runnerWord 0x38 (op3 1 0 0 0), runnerWord 0x39 (op3 1 1 0 0)]⟩⟩
def entry (base : Nat) : Nat := 2 ^ 127 + base

/-- Group 0 COMPLETING at stage `st` with that program, its image at address 0. -/
def completing (st : GStage) : Group :=
  { groupIn .completing (grec 1 0 false) with cmp := some streaming, stage := st, pages := [some 0] }
def tableIn (e : Nat) : Block :=
  writeMem (asking 0 { completing .table with io := [piece 0x200000 128] } ⟨.streamTable, groupKey 1 0, 0⟩ [piece 0x200000 128])
    0x200000 (e + (entry 131072 <<< 128)) 128

theorem wit_GroupsRunTheirCompletionSteps_table : ∀ e ∈ [entry 65536, 0],
    let b := tableIn e
    let x := group b 1 0
    x.stage = .table ∧ usedStreams (jobImg x) = [0, 1]
      ∧ (arrive b ⟨.streamTable, groupKey 1 0, 0⟩ x.io ok 128).any (fun y => decide (y.2.1 = .ok
        ∧ ([(⟨0, slice y.2.2 0 16, []⟩ : Bound), ⟨1, slice y.2.2 16 16, []⟩].findSome? fun u => entryFails (jobImg x) u.num u.entry)
          = if e = 0 then some ⟨.guardFault, 2, 0⟩ else none)) = true
      ∧ (arrive b ⟨.streamTable, groupKey 1 0, 0⟩ x.io { ok with poison := true } 128).any (fun y => decide (y.2.1 ≠ .ok)) = true := by
  decide +kernel

/-- Group 0 about to bind its streams, the first at `base`. -/
def binding (base : Nat) : Block := withGroup 0 { completing .bind with streams := [⟨0, entry base, []⟩, ⟨1, entry 131072, []⟩] }

theorem wit_GroupsRunTheirCompletionSteps_bind : ∀ b ∈ [binding 65536, binding (2 ^ 51)],
    (group b 1 0).stage = .bind ∧ (group b 1 0).st = .completing := by decide +kernel

theorem wit_GroupsRunTheirCompletionSteps_bound : (∃ b us c,
      bindAll (binding 65536) 1 0 (jobImg (group (binding 65536) 1 0)) [] (group (binding 65536) 1 0).streams = (b, some (.ok us))
      ∧ imagePages b 1 0 0 (gPages (group (binding 65536) 1 0).r) = (c, some .ok)) := by
  have h : (match bindAll (binding 65536) 1 0 (jobImg (group (binding 65536) 1 0)) [] (group (binding 65536) 1 0).streams with
    | (b, some (.ok _)) => (imagePages b 1 0 0 (gPages (group (binding 65536) 1 0).r)).2 == some .ok
    | _ => false) = true := by decide +kernel
  split at h
  · rename_i b us e
    exact ⟨b, us, (imagePages b 1 0 0 (gPages (group (binding 65536) 1 0).r)).1, e, by rw [← eq_of_beq h]⟩
  · cases h

/-- One job of group 0 at station 0: its bundle is over where `fin`, and is to run the load else. -/
def jobAt (fin : Bool) : Block :=
  let lane := blankLane true []
  let b := withGroup 0 { completing .phase1 with streams := [⟨0, entry 65536, [piece 65536 64]⟩, ⟨1, entry 131072, [piece 131072 64]⟩] }
  setJobs b 0 [⟨1, 0, 0, 0, 0, 0, [lane], List.replicate 128 0, [], fin⟩]
def fencedAt (b : Block) : Block := setDomain b (uMS 0) { freshDomain with st := .fencing }

theorem wit_GroupsRunTheirCompletionSteps_phase : (∀ f ∈ [false, true], (jobOf (jobAt f) 1 0 0).isSome = true
      ∧ (jobOf (stationRun (jobAt f) 1 0 0 (stationFuel (jobAt f) 0)) 1 0 0).isSome = true)
    ∧ (jobOf (fencedAt (jobAt false)) 1 0 0).isSome = true
    ∧ jobOf (stationRun (fencedAt (jobAt false)) 1 0 0 (stationFuel (fencedAt (jobAt false)) 0)) 1 0 0 = none := by
  decide +kernel

theorem wit_GroupsRunTheirCompletionSteps_fails : ∃ j f a, turnJob (fencedAt (jobAt false)) 0 = some j
    ∧ jobStep (fencedAt (jobAt false)) (group (fencedAt (jobAt false)) j.pid j.group) 0 j false = (a, .error f) ∧ f.st ≠ .poison := by
  have h : ((turnJob (fencedAt (jobAt false)) 0).any fun j =>
    match jobStep (fencedAt (jobAt false)) (group (fencedAt (jobAt false)) j.pid j.group) 0 j false with
    | (_, .error f) => f.st != .poison
    | _ => false) = true := by decide +kernel
  obtain ⟨j, hj, hs⟩ : ∃ j, turnJob (fencedAt (jobAt false)) 0 = some j ∧ _ := by
    cases e : turnJob (fencedAt (jobAt false)) 0 with
    | none => rw [e] at h; cases h
    | some j => rw [e, Option.any_some] at h; exact ⟨j, rfl, h⟩
  split at hs
  · rename_i a f e
    exact ⟨j, f, a, hj, e, by simpa using hs⟩
  · cases hs

theorem wit_GroupsRunTheirCompletionSteps_later : (group (withGroup 0 (completing .between)) 1 0).stage = .between
    ∧ (∀ st ∈ [.cast, .readback], (group (withGroup 0 (completing st)) 1 0).st = .completing
      ∧ (group (withGroup 0 (completing st)) 1 0).stage = st) := by decide +kernel

/-- Group 0 at its output cast, to INT32 at 524288. -/
def casting : Block := withGroup 0 { groupIn .completing (grec 1 0xB false) with stage := .cast, pages := [some 0] }

theorem wit_GroupsRunTheirCompletionSteps_cast : ∃ b c vs e out sat nan f segs,
    let s := casting
    let x := group s 1 0
    imagePages s 1 0 0 (gPages x.r) = (b, some .ok)
      ∧ castRead b (group b 1 0) 1 0 [] (gS (group b 1 0).r) = (c, none, vs)
      ∧ castAll c (group b 1 0).r 0 vs (⟨0, 0⟩, 0, 0) (slots (gOut (group b 1 0).r) (gElements (group b 1 0).r)) = (e, out, sat, nan)
      ∧ writeNow e (groupAsker .castOut 1 0 0) (groupCtx e 1 (group b 1 0).r) (gOutVa (group b 1 0).r) out 0 2 = (f, .issued segs) := by
  have h : (match imagePages casting 1 0 0 (gPages (group casting 1 0).r) with
    | (b, some .ok) => match castRead b (group b 1 0) 1 0 [] (gS (group b 1 0).r) with
      | (c, none, vs) =>
        match castAll c (group b 1 0).r 0 vs (⟨0, 0⟩, 0, 0) (slots (gOut (group b 1 0).r) (gElements (group b 1 0).r)) with
        | (e, out, _, _) =>
          match writeNow e (groupAsker .castOut 1 0 0) (groupCtx e 1 (group b 1 0).r) (gOutVa (group b 1 0).r) out 0 2 with
          | (_, .issued _) => true
          | _ => false
      | _ => false
    | _ => false) = true := by decide +kernel
  split at h
  · rename_i b h1
    split at h
    · rename_i c vs h2
      split at h
      · rename_i e out sat nan h3
        split at h
        · rename_i f segs h4
          exact ⟨b, c, vs, e, out, sat, nan, f, segs, h1, h2, h3, h4⟩
        · cases h
    · cases h
  · cases h

theorem wit_GroupsRunTheirCompletionSteps_readback : ∀ a ∈ [(ok, true), ({ ok with poison := true }, false)],
    let b := asking 0 { completing .readback with io := [piece 0x80000 64] } ⟨.castOut, groupKey 1 0, 1⟩ [piece 0x80000 64]
    (arrive b ⟨.castOut, groupKey 1 0, 1⟩ (group b 1 0).io a.1 64).any (fun x => decide (x.2.1 = .ok) == a.2) = true := by
  decide +kernel

/-! ## Runner programs -/

/-- Group 0 in its first or second phase, running `ws`; one bundle of one lane at station 0, its next instruction `pc`. -/
def running (ws : List Nat) (phase pc : Nat) : Block :=
  let v : Version := ⟨1, ⟨272 + 4 * ws.length, image 2 false ws⟩⟩
  let b := withGroup 0 { completing .phase1 with
    cmp := some v, streams := [⟨0, entry 65536, [piece 65536 64]⟩, ⟨1, entry 131072, [piece 131072 64]⟩] }
  setJobs b 0 [⟨1, 0, phase, 0, 0, pc, [blankLane true []], List.replicate 128 0, [], false⟩]

/-- Operands that fill their fields. -/
def full : RunnerOp := ⟨3, true, 31, 31, 127, 31⟩
/-- Operands of the accesses and of SRED and LDS: stream 0, register 1. -/
def plainOp (opc : Nat) : RunnerOp := if opc = 0x39 then op3 0 1 0 0 else op3 1 0 0 0

def opcodes : List Nat := [0x00, 0x01, 0x02, 0x03, 0x04, 0x05, 0x06, 0x07, 0x08, 0x09, 0x0A, 0x0B, 0x10, 0x11, 0x12, 0x13, 0x14, 0x15,
  0x16, 0x17, 0x18, 0x19, 0x1A, 0x20, 0x21, 0x22, 0x23, 0x28, 0x29, 0x2A, 0x2B, 0x2C, 0x30, 0x31, 0x32, 0x33, 0x3C]

theorem wit_ProgramsRunInstructionByInstruction_inside : ∀ opc ∈ opcodes,
    let b := running [runnerWord opc full, 0] 1 0
    (turnJob b 0).any (fun j => decide (j.pc + 1 < phaseEnd (jobImg (group b j.pid j.group)) j.phase
      ∧ wordOp (runnerWord opc full) = full ∧ progWord (jobImg (group b j.pid j.group)) j.pc = runnerWord opc full)) = true := by
  decide +kernel

theorem wit_ProgramsRunInstructionByInstruction_bar :
    let b := running [runnerWord 0x3C (op3 0 0 0 0), 0] 0 0
    (turnJob b 0).any (fun j => let x := group b j.pid j.group
      decide (j.phase = 0 ∧ progBar (jobImg x) = some j.pc ∧ wordOp (runnerWord 0x3C (op3 0 0 0 0)) = op3 0 0 0 0
        ∧ progWord (jobImg x) j.pc = runnerWord 0x3C (op3 0 0 0 0) ∧ (nextBundle x 0 { j with pc := j.pc + 1 }).fin = true)) = true := by
  decide +kernel

/-- The runs of a row: inside the phase and at its end, where the bundle ends well too. -/
def rowRuns (b : Block) (opc : Nat) : Bool :=
  (turnJob b 0).any fun j =>
    let x := group b j.pid j.group
    wordOp (runnerWord opc (plainOp opc)) == plainOp opc && progWord (jobImg x) j.pc == runnerWord opc (plainOp opc)
      && match jobRun (addTo b 0x6010 7 (runnerCost opc * activeCount j)) x j opc (plainOp opc) false with
        | (c, .ok k) => j.pc + 1 < phaseEnd (jobImg x) j.phase || (match bundleEnd c x 0 { k with pc := j.pc + 1 } with
            | (_, .ok _) => true
            | _ => false)
        | _ => false

theorem wit_ProgramsRunInstructionByInstruction_rows : ∀ opc ∈ [0x38, 0x39, 0x3A, 0x3B, 0x10],
    rowRuns (running [runnerWord opc (plainOp opc), 0] 0 0) opc = true ∧ rowRuns (running [0, runnerWord opc (plainOp opc)] 0 1) opc = true
      ∧ phaseEnd (jobImg (group (running [0, runnerWord opc (plainOp opc)] 0 1) 1 0)) 0 = 2 := by decide +kernel

theorem wit_ProgramsRunInstructionByInstruction_fails : ∀ opc ∈ [0x38, 0x39],
    let b := fencedAt (running [runnerWord opc (plainOp opc), 0] 0 0)
    let x := group b 1 0
    (turnJob b 0).any (fun j => match jobRun (addTo b 0x6010 7 (runnerCost opc * activeCount j)) x j opc (plainOp opc) false with
      | (_, .error f) => f.st != .poison
      | _ => false) = true
    ∧ x.streams.any (fun u => u.num == (plainOp 0x38).sa % 8) = true := by decide +kernel

theorem wit_ProgramsRunInstructionByInstruction_idle : turnJob up 31 = none := by decide +kernel

theorem wit_ProgramsRunInstructionByInstruction_scalar : ∀ j ∈ look (running [] 0 0).cru.jobs [] 0,
    j.lanes = List.replicate 0 ⟨List.replicate 32 0, 1, false⟩ ++ [blankLane true []] ∧ (blankLane true []).guarded (op3 0 0 0 0) = true
      ∧ scalarLane (jobElem (group (running [] 0 0) 1 0).r j 0) < j.partials.length
      ∧ (∀ l ∈ j.lanes, l.guarded { full with pn := false } = false) := by decide +kernel

/-- 09 Table 9-5, IADD: v1 := v1 + v1 on the bundle's lane, and the bundle is at its next instruction. -/
theorem test_iadd : Goes (exec (.iadd 0 (op3 1 1 1 0)) (on (setJobs (running [runnerWord 0x10 (op3 1 1 1 0), 0] 0 0) 0
    [⟨1, 0, 0, 0, 0, 0, [blankLane true [(1, 2 ^ 31 + 3)]], List.replicate 128 0, [], false⟩])))
    fun t => (look t.dev.cru.jobs [] 0).map (fun j => (j.pc, j.lanes.map (·.reg 1))) = [(1, [6])] :=
  ⟨_, rfl, by decide +kernel⟩

/-- 09 R299: ST of stream 1 writes the lane's v1 to the stream's address. -/
theorem test_st : Goes (exec (.st 0 (op3 1 1 0 0)) (on (setJobs (running [runnerWord 0x39 (op3 1 1 0 0), 0] 0 0) 0
    [⟨1, 0, 0, 0, 0, 0, [blankLane true [(1, 0x3F800000)]], List.replicate 128 0, [], false⟩])))
    fun t => readMem t.dev 131072 4 = 0x3F800000 :=
  ⟨_, rfl, by decide +kernel⟩

theorem wit_LanesComputeWhatTheTableSays : (∃ v, aluOp 0x03 0x7F800000 0 0 0 = some v ∧ isNan32 v = true)
    ∧ (∃ v, aluOp 0x30 0x7F800001 0 0 3 = some v ∧ isNan32 v = true) ∧ isNan32 1 = false ∧ isNan32 (2 ^ 31) = false
    ∧ (∃ n m e, val32 1 = .fin n m e ∧ m ≠ 0) ∧ isNan32 0x7F800001 = true ∧ 2 ^ 24 - 1 < 2 ^ 24 ∧ 2 ^ 32 - 1 < 2 ^ 32 :=
  ⟨⟨_, rfl, by decide +kernel⟩, ⟨_, rfl, by decide +kernel⟩, by decide +kernel, by decide +kernel, ⟨_, _, _, rfl, by decide⟩,
    by decide +kernel, by decide, by decide⟩

theorem wit_LanesComputeWhatTheTableSays_guard : (blankLane false []).active = false
    ∧ (blankLane true []).pred 3 = false ∧ (blankLane true []).pred full.pg ≠ full.pn ∧ (blankLane true []).pred 0 ≠ false ∧ (blankLane true []).active = true
    ∧ (blankLane true []).pred (op3 31 31 127 31).pg ≠ (op3 31 31 127 31).pn ∧ (op3 31 31 127 31).sb < 128
    ∧ 31 < (blankLane true []).regs.length := by decide +kernel

/-- 09 Table 9-5 on hand-worked values: 1 + 2⁻²⁴ rounds to even, SRA keeps the sign, EXPB of 8 is 3. -/
theorem test_lanes : aluOp 0x01 0x3F800000 0x33800000 0 0 = some 0x3F800000 ∧ aluOp 0x1A 0x80000000 31 0 0 = some 0xFFFFFFFF
    ∧ aluOp 0x32 0x41000000 0 0 0 = some 3 ∧ aluOp 0x2A 0x40800000 0 0 0 = some 0x40000000 := by decide +kernel

/-! ## Keys, the spill region and its tree -/

/-- Both staging registers with `n` words; the keys held. -/
def staging (n : Nat) (spill link next : Option Nat) (b : Block) : Block :=
  { b with ring := { b.ring with
    stageSpill := List.replicate n 3, stageLink := List.replicate n 4, spillCur := spill, linkCur := link, linkNext := next } }

theorem wit_KeysAreStagedInstalledSwitchedAndDestroyed_words : (staging 7 none none none up).ring.stageSpill.length < 8
    ∧ (staging 7 none none none up).ring.stageLink.length < 8 ∧ 8 ≤ (staging 8 none none none up).ring.stageSpill.length
    ∧ 8 ≤ (staging 8 none none none up).ring.stageLink.length ∧ 2 ≤ 15 ∧ 15 < 16 := by decide

theorem wit_KeysAreStagedInstalledSwitchedAndDestroyed_install : fromRot rot ∧ canTake (staging 8 none none none up) 0x7000 0x40
    ∧ canTake (staging 8 none none none up) 0x7000 0x41 ∧ (staging 8 none none none up).ring.stageSpill.length = 8
    ∧ (staging 8 none none none up).ring.stageLink.length = 8 ∧ spillState (staging 8 none none none up) = 0
    ∧ canTake (wr (staging 8 (some 5) none none up) 0x7000 7 2) 0x7000 0x40
    ∧ spillState (wr (staging 8 (some 5) none none up) 0x7000 7 2) = 2
    ∧ (staging 8 none (some 5) none up).ring.linkCur ≠ none ∧ canTake (staging 8 none (some 5) none up) 0x7000 0x41 := by
  delta fromRot canTake awake; decide +kernel

theorem wit_KeysAreStagedInstalledSwitchedAndDestroyed_destroy : canTake up 0x7000 0x43 ∧ spillHeld up = false
    ∧ canTake up 0x7000 0x44 ∧ (∀ p < 36, portLive up p = false) := by
  delta canTake awake; decide +kernel

theorem wit_KeysAreStagedInstalledSwitchedAndDestroyed_switch : notFmFw reed = false
    ∧ canTake (staging 0 none (some 5) (some 6) up) 0x7000 0x42 ∧ (staging 0 none (some 5) (some 6) up).ring.linkNext = some 6
    ∧ elapsed up up.ring.switchAt (micros (rd up 0x7000 2)) = false
    ∧ elapsed { up with clk := { up.clk with now := 2 ^ 40 } } up.ring.switchAt (micros (rd up 0x7000 2)) = true := by
  delta canTake awake; decide +kernel

theorem wit_DictionaryReadsTellNothingOfAKey :
    keyStateWord (staging 7 (some 1) (some 2) (some 3) up).ring = keyStateWord (staging 7 (some 4) (some 5) (some 6) up).ring
    ∧ (staging 7 (some 1) (some 2) (some 3) up).ring ≠ (staging 7 (some 4) (some 5) (some 6) up).ring := by decide +kernel

/-- A spill region of one GiB in state `st`, its first unit owned by partition 1 in state `p`, sealed under key 5 (and 6). -/
def region (st p : Nat) : Block :=
  let b := wr (wr (wr (wr (wr pt 0x7000 4 (2 ^ 40)) 0x7000 5 (2 ^ 41)) 0x7000 6 1) 0x7000 7 st) 0x7101 1 (2 ^ 32)
  let b := { wr b 0x7101 2 p with ptb := { b.ptb with tdisp := [(1, 2)] } }
  { b with ring := { b.ring with spillCur := some 5, spillNext := if st = 3 then some 6 else none, fresh := st == 0 } }

theorem wit_SpillLinesAreSealedAndVerified_access : isPid 1 ∧ 1023 < 1024 ∧ 0 + (⟨4096, 0⟩ : Bytes).len ≤ 2 ^ 42 ∧ noInjection (region 2 1)
    ∧ spillCheck (region 2 1) 1 0 4096 = none ∧ spillCheck (region 2 1) 1 (2 ^ 25 - 1) 2 = some .guardFault
    ∧ spillCheck (region 2 2) 1 0 1 = some .fenced := by
  delta isPid noInjection; decide +kernel

/-- One line access of `len` bytes at the start of line 31, the leaf's node if it is cached. -/
def lineAt (write : Bool) (len : Nat) (leafNode : Option Nat) (asked : Bool) (ans : Option LineAnswer) : Block :=
  let b := region 2 1
  { b with ssu := { b.ssu with
    ops := [⟨9, reqHolder 0 0, c1, write, 256 * 31, len, 7, 0, 1, .ok, 0⟩], lines := [⟨9, 31, asked, false, ans⟩]
    cache := match leafNode with
      | some v => [(nodeKeyNum 0 0, ⟨v, false⟩)]
      | none => [] } }

/-- A leaf of MAJOR 1 whose line 31 has minor counter `n`. -/
def leafOf (n : Nat) : Nat := setBits (2 ^ 456) (64 + 12 * 31) 12 n

theorem wit_SpillLinesAreSealedAndVerified_turn : ∀ w ∈ [false, true], ∀ c ∈ [none, some (leafOf 0), some (leafOf 4094), some (leafOf 4095)],
    ∀ n ∈ [1, 256], ∀ asked ∈ [false, true],
    let a := if asked then some ⟨31, .ok, ⟨256, 0⟩, 0, false⟩ else none
    let b := lineAt w n c asked a
    opOf b 9 = some ⟨9, reqHolder 0 0, c1, w, 256 * 31, n, 7, 0, 1, .ok, 0⟩ ∧ spillPstate b 1 ≠ 2 ∧ isCondemned b 0 0 = false
      ∧ b.ssu.lines.find? (·.line == 31) = some ⟨9, 31, asked, false, a⟩
      ∧ cached b 0 (31 / 32) = c.map (⟨·, false⟩) ∧ wholeLine ⟨9, reqHolder 0 0, c1, w, 256 * 31, n, 7, 0, 1, .ok, 0⟩ 31 = (n == 256)
      ∧ leafLocked b 0 = false ∧ leafMinor (leafOf 0) 31 = 0 ∧ leafMinor (leafOf 4094) 31 = 4094 ∧ leafMinor (leafOf 4095) 31 = 4095 := by
  decide +kernel

theorem wit_SpillLinesAreSealedAndVerified_noInjection : noInjection (lineAt true 1 (some (leafOf 4095)) true none) := by
  delta noInjection; decide +kernel

theorem spillLine_verifies : verifyLine 5 31 1 4094 ⟨.ok, ⟨256, 0⟩, false⟩ (BitVec.ofNat 64 (lineTag 5 31 1 4094 0)) ≠ .poisoned
    ∧ verifyLine 5 31 1 4094 ⟨.ok, ⟨256, 0⟩, false⟩ (BitVec.ofNat 64 (lineTag 5 31 1 4094 0)) ≠ .bad := by decide +kernel

theorem spillLine_poisoned :
    verifyLine 5 31 1 4094 ⟨.ok, ⟨256, 0⟩, false⟩ (BitVec.ofNat 64 (poisonTag 5 31 1 4094)) = .poisoned := by decide +kernel

theorem spillLine_bad : verifyLine 5 31 1 4094 ⟨.ok, ⟨256, 0⟩, false⟩ 0 = .bad := by decide +kernel

theorem spillLine_tags : lineTag 5 31 1 4094 (cryptLine 5 31 1 4094 1) ≠ poisonTag 5 31 1 4094 := by decide +kernel

theorem wit_SpillLinesAreSealedAndVerified_served : (∃ d, verifyLine 5 31 1 4094
      ⟨.ok, ⟨256, 0⟩, false⟩ (BitVec.ofNat 64 (lineTag 5 31 1 4094 0)) = .good d)
    ∧ verifyLine 5 31 1 4094 ⟨.ok, ⟨256, 0⟩, false⟩ (BitVec.ofNat 64 (poisonTag 5 31 1 4094)) = .poisoned
    ∧ verifyLine 5 31 1 4094 ⟨.ok, ⟨256, 0⟩, false⟩ 0 = .bad
    ∧ lineTag 5 31 1 4094 (cryptLine 5 31 1 4094 1) ≠ poisonTag 5 31 1 4094 := by
  refine ⟨?_, spillLine_poisoned, spillLine_bad, spillLine_tags⟩
  cases e : verifyLine 5 31 1 4094 ⟨.ok, ⟨256, 0⟩, false⟩ (BitVec.ofNat 64 (lineTag 5 31 1 4094 0)) with
  | good d => exact ⟨d, rfl⟩
  | poisoned => exact absurd e spillLine_verifies.1
  | bad => exact absurd e spillLine_verifies.2

/-- The same access with its line read. -/
def lineOut : Block :=
  let b := lineAt false 64 (some (leafOf 1)) true none
  { b with tags := { b.tags with used := [⟨0, c1, [], ⟨.spillLine, 9, 31⟩⟩] } }

theorem wit_SpillLinesAreSealedAndVerified_return : ∃ l,
    lineOut.ssu.lines.find? (fun l => l.line == 31 && l.asked && !l.beyond && l.ans.isNone) = some l
      ∧ issued lineOut (lineHolder l) = true ∧ (region 2 1).ssu.lines = [] :=
  ⟨_, rfl, by decide +kernel, rfl⟩

theorem wit_TheCounterTreeIsFetchedEvictedAndAnnealed_init : byHost host ∧ canTake (region 0 0) 0x7000 0x45
    ∧ spillInitRange (region 0 0) = false ∧ spillState (region 0 0) = 0 ∧ (region 0 0).ring.fresh = true
    ∧ spillState (region 1 0) = 1 := by
  delta byHost canTake awake; decide +kernel

/-- The top node is being fetched. -/
def fetchingNode : Block :=
  let b := region 2 1
  { b with ssu := { b.ssu with root := List.replicate 8 0, fetching := [nodeKeyNum 9 0] }
           tags := { b.tags with used := [⟨0, noCtx, [], ⟨.treeNode, 9, 0⟩⟩] } }

theorem wit_TheCounterTreeIsFetchedEvictedAndAnnealed_fetch : parentCtr fetchingNode 9 0 = some 0
    ∧ issued fetchingNode ⟨.treeNode, 9, 0⟩ = true ∧ fetchingNode.ssu.cache.length < 32768 ∧ noInjection fetchingNode
    ∧ bits (slice (nodeMac 5 9 0 0 0) 0 64) 0 64
      = nodeMac (nodeSpillKey fetchingNode 9 0) 9 0 0 (slice (nodeMac 5 9 0 0 0) 0 64)
    ∧ bits (slice 0 0 64) 0 64 ≠ nodeMac (nodeSpillKey fetchingNode 9 0) 9 0 0 (slice 0 0 64) := by
  delta noInjection; decide +kernel

/-- Leaf 0 cached, dirty or not, last written back at time 0. -/
def holding (dirty : Bool) (now : Nat) : Block :=
  let b := region 2 1
  { b with clk := { b.clk with now := now }
           ssu := { b.ssu with cache := [(nodeKeyNum 0 0, ⟨leafOf 1, dirty⟩)], wroteAt := [(nodeKeyNum 0 0, 0)] } }

theorem wit_TheCounterTreeIsFetchedEvictedAndAnnealed_evict : (∀ d ∈ [false, true], ∀ t ∈ [99, 100],
    let b := holding d t
    cached b 0 0 = some ⟨leafOf 1, d⟩ ∧ hasCachedChild b 0 0 = false ∧ b.ssu.lines = [] ∧ wroteSoon b 0 0 = decide (t = 99))
    ∧ noInjection (holding true 0) := by
  delta noInjection; decide +kernel

/-- Line 31's write meets minor counter 4095, its leaf locked and read. -/
def overflowing : Block :=
  let b := lineAt true 1 (some (leafOf 4095)) true none
  { b with ssu := { b.ssu with lines := [⟨9, 31, true, true, none⟩] }
           tags := { b.tags with used := [⟨0, c1, [], ⟨.spillLine, 0, 2 ^ 34⟩⟩] } }

theorem wit_TheCounterTreeIsFetchedEvictedAndAnnealed_overflow : ∃ l o x,
    overflowing.ssu.lines.find? (fun l => l.beyond && l.asked && l.line / 32 == 0) = some l ∧ opOf overflowing l.op = some o
      ∧ cached overflowing 0 0 = some x ∧ issued overflowing ⟨.spillLine, 0, 2 ^ 34⟩ = true ∧ noInjection overflowing
      ∧ leafMinor x.val (l.line % 32) ≠ 0 ∧ writtenLines x = [31] ∧ lineKey overflowing (32 * 0) = 5 ∧ leafMajor x.val = 1 :=
  ⟨_, _, _, rfl, rfl, rfl, by decide +kernel, by delta noInjection; decide +kernel, by decide +kernel, by decide +kernel,
    by decide +kernel, by decide +kernel⟩

theorem wit_TheCounterTreeIsFetchedEvictedAndAnnealed_verifies :
    verifyLine 5 31 1 4095 ⟨.ok, ⟨256, 0⟩, false⟩ (BitVec.ofNat 64 (lineTag 5 31 1 4095 0)) ≠ .bad
    ∧ verifyLine 5 31 1 4095 ⟨.ok, ⟨256, 0⟩, false⟩ (BitVec.ofNat 64 (lineTag 5 31 1 4095 0)) ≠ .poisoned := by decide +kernel

/-- The Anneal at leaf `f`, which is cached, condemned or neither. -/
def annealing (f : Nat) (leafNode : Option Nat) (condemned lock : Bool) : Block :=
  let b := wr (region 3 1) 0x7000 8 f
  { b with clk := { b.clk with now := 2 ^ 30 }
           tags := { b.tags with used := if lock then [⟨0, noCtx, [], annealHolder f⟩] else [] }
           ssu := { b.ssu with
             annealLock := lock, condemned := if condemned then [(0, f)] else []
             cache := match leafNode with
               | some v => [(nodeKeyNum 0 f, ⟨v, false⟩)]
               | none => [] } }

theorem wit_TheCounterTreeIsFetchedEvictedAndAnnealed_condemned : ∀ f ∈ [0, 7],
    let b := annealing f none true false
    spillState b = 3 ∧ served b uSSU = true ∧ rd b 0x7000 8 = f ∧ isCondemned b 0 f = true
      ∧ (((Machine.missing b f).filter fun e => !isCondemned b e.1 e.2 && (lastNodes b f).any (·.1 ≤ e.1)) == []) = decide (f = 0) := by
  decide +kernel

theorem wit_TheCounterTreeIsFetchedEvictedAndAnnealed_anneal : cached (annealing 131071 none false false) 0 131071 = none
    ∧ isCondemned (annealing 131071 none false false) 0 131071 = false
    ∧ ∀ n ∈ [0, 1], ∀ lock ∈ [false, true],
      let b := annealing 131071 (some (leafOf n)) false lock
      isCondemned b 0 131071 = false ∧ cached b 0 131071 = some ⟨leafOf n, false⟩ ∧ leafBusy b 131071 = false ∧ b.ssu.lines = []
        ∧ (writtenLines ⟨leafOf n, false⟩).length = n ∧ b.ssu.annealLock = lock ∧ issued b (annealHolder 131071) = lock
        ∧ elapsed b b.ssu.annealAt ((25600 * n + rd b 0x7000 9 - 1) / rd b 0x7000 9) = true
        ∧ answerFor [⟨32 * 131071 + 31, .ok, ⟨256, 0⟩, 0, false⟩] (32 * 131071 + 31) ≠ none := by decide +kernel

theorem wit_TheCounterTreeIsFetchedEvictedAndAnnealed_reset : spillPstate (region 2 3) 1 = 3
    ∧ 4096 * (spillRange (region 2 3) 1).2 ≤ look [(1, 4096)] 0 1 ∧ spillPstate (region 2 1) 1 ≠ 3 := by decide +kernel

/-! ## Steps, dispatch and accounts -/

/-- A descriptor of 64 bytes of commands at 0 for one cluster; the same with one range, listed at `va`. -/
def cmd64 : Nat := 64 <<< 324
def ranged (va : Nat) : Nat := cmd64 + (1 <<< 267) + (va <<< 408)

/-- Partition 1's queue 7 has a ring of 16 at 4096, its next descriptor `d` being read; STEP_CEILING is `c`. -/
def ring7 (d c : Nat) : Block :=
  let b := wr (setPart mapped 1 { live with s1Roots := [(0, 0)] }) 0x3101 4 (2 ^ 63)
  let b := wr (wr (writeMem b 4096 d 64) 0x8101 (ringSub 7 1) 4) 0x8101 0x0A c
  { b with cha := { b.cha with rings := [(ringKey 1 7, [piece 4096 64])] }
           tags := { b.tags with used := [⟨0, c1, [piece 4096 64], ⟨.stepDesc, 1, 7⟩⟩] } }

theorem wit_StepsAreSubmittedCheckedAndQueued_doorbell : awake (ring7 0 0) ∧ (doorbell (ring7 0 0) 1 7 fun _ => 8).2 = some 1
    ∧ 15 < stepRingSize (doorbell (ring7 0 0) 1 7 fun _ => 8).1 1 7 ∧ stepRingSize (doorbell (ring7 0 0) 1 7 fun _ => 8).1 1 7 ≤ 16 := by
  delta awake; decide +kernel

theorem wit_StepsAreSubmittedCheckedAndQueued_arrival : find? (ring7 0 1).cha.rings (ringKey 1 7) = some [piece 4096 64]
    ∧ stepRoom (ring7 0 0) 1 = false ∧ stepRoom (ring7 0 1) 1 = true
    ∧ (∀ d ∈ [cmd64, ranged (3 * 2 ^ 25)], (arrive (ring7 d 1) ⟨.stepDesc, 1, 7⟩ [piece 4096 64] ok 64).any
        (fun x => decide (x.2.1 = .ok ∧ x.2.2 = d)) = true)
    ∧ (arrive (ring7 0 1) ⟨.stepDesc, 1, 7⟩ [piece 4096 64] { ok with poison := true } 64).any (fun x => decide (x.2.1 ≠ .ok)) = true
    ∧ (readRanges (ring7 (ranged (3 * 2 ^ 25)) 1) 1 (ranged (3 * 2 ^ 25)) ⟨.stepRanges, 15, 0⟩ ok).2 = none
    ∧ (readRanges (ring7 cmd64 1) 1 cmd64 ⟨.stepRanges, 15, 0⟩ ok).2 = some (.ok, 0)
    ∧ (arrive (readRanges (ring7 cmd64 1) 1 cmd64 ⟨.stepRanges, 15, 0⟩ ok).1 ⟨.stepDesc, 1, 7⟩ [piece 4096 64] ok 64).isSome = true := by
  decide +kernel

/-- Station 0 with `n` submissions buffered. -/
def buffered (n c : Nat) : Block :=
  let b := wr (ran mapped step1) 0x8101 0x0A c
  setStation b 0 { station b 0 with subs := List.replicate n ⟨1, cmd64⟩ }

theorem wit_StepsAreSubmittedCheckedAndQueued_submission : awake (buffered 0 9) ∧ stationTakes (buffered 0 9) 0
    ∧ served (buffered 0 9) (uES 0) = true ∧ (station (buffered 0 9) 0).step.bind (stepOf (buffered 0 9)) = some step1
    ∧ step1.started = true ∧ { step1 with st := .dispatching }.started = false ∧ eqReady (buffered 4 9) 0 = false
    ∧ stationTakes (ran mapped { step1 with st := .dispatching }) 0 := by
  delta awake stationTakes; decide +kernel

theorem wit_StepsAreSubmittedCheckedAndQueued_forward :
    (station (buffered 1 9) 0).subs = ⟨1, cmd64⟩ :: [] ∧ fetchRoom (buffered 1 9) 1 = true ∧ served (buffered 1 9) uChanter = true
      ∧ (readRanges (buffered 1 9) 1 cmd64 ⟨.stepRanges, 0, 2⟩ ok).2 = some (.ok, 0) ∧ fetchRoom (buffered 1 0) 1 = false
      ∧ (station (buffered 0 9) 0).subs.head? = none := by decide +kernel

theorem wit_StepsAreSubmittedCheckedAndQueued_check : ctxOpen mapped 1 (sCx cmd64) = true
    ∧ ctxOpen mapped 1 (sCx (cmd64 + (1023 <<< 282))) = false ∧ stepFault mapped 1 cmd64 .ok [] = none
    ∧ stepFault mapped 1 (ranged 0) .ok (rangeList (ranged 0) ((2 <<< 126) + 64)) = some .conflict
    ∧ stepFault mapped 1 (cmd64 + 1) .ok [] = some .guardFault := by decide +kernel

/-- Cluster 127 parks its WAIT; the partition whose step last ran there is `last`. -/
def parked (last : Nat) : Block :=
  let b := { mapped with cha := { mapped.cha with
    steps := [{ step1 with st := .queued, clusters := [], desc := cmd64 }], zoneBudget := [(0, 2 ^ 60)] } }
  setStation (wr b 0x3101 4 (2 ^ 63)) 127 { freshStation with waiting := true, lastPid := last }

theorem wit_StepsAreDispatchedKilledAndFlushed_dispatch : served (parked 0) uChanter = true
    ∧ served (setDomain (parked 0) uChanter { freshDomain with st := .fencing }) uChanter = false
    ∧ ∀ last ∈ [0, 1, 2, 64], clustersFor (parked last) { step1 with st := .queued, clusters := [], desc := cmd64 } [] = some [127]
      ∧ stepOf (parked last) 0 = some { step1 with st := .queued, clusters := [], desc := cmd64 }
      ∧ ([127].filter fun k => (station (parked last) k).lastPid != 1 && (station (parked last) k).lastPid != 0)
        = if last = 2 ∨ last = 64 then [127] else [] := by decide +kernel

/-- Step `x` on cluster 0, which is being killed since time 0; zone 0 tripped or not. -/
def killing (x : Step) (now : Nat) (trip : Bool) : Block :=
  let b := ran mapped x
  let b := { b with clk := { b.clk with now := now }, cha := { b.cha with tripped := if trip then [0] else [] } }
  setStation b 0 { station b 0 with killing := true }
def waitingStep : Step := { step1 with st := .dispatching, before := [0] }
def dying (k : KillEnd) : Step := { step1 with kill := some k, left := [0], cycles := 7 }

theorem wit_StepsAreDispatchedKilledAndFlushed_kill : stepOf (ran mapped step1) step1.num = some step1 ∧ step1.clusters.Nodup
    ∧ step1.kill = none ∧ (station (ran mapped step1) 0).killing = false := by decide +kernel

theorem wit_StepsAreDispatchedKilledAndFlushed_done : (∀ t ∈ [false, true], let b := killing waitingStep 0 t
      (station b 0).killing = true ∧ (station b 0).step.bind (stepOf b) = some waitingStep ∧ waitingStep.before.erase 0 = []
        ∧ (waitingStep.clusters.all fun k => decide (zoneOf b k ∉ b.cha.tripped)) = !t)
    ∧ { waitingStep with before := [0, 1] }.before.erase 0 ≠ []
    ∧ ∀ k ∈ [KillEnd.again, .ends .timeout], (station (killing (dying k) 0 false) 0).step.bind (stepOf (killing (dying k) 0 false))
      = some (dying k) := by decide +kernel

theorem wit_StepsAreDispatchedKilledAndFlushed_timers : (∀ t ∈ [0, 2 ^ 40], let b := killing (dying .again) t false
      (station b 0).killing = true ∧ elapsed b (station b 0).killAt (micros (rd b 0x8000 4)) = decide (t ≠ 0)
        ∧ elapsed b step1.since (micros (rd b 0x8000 2)) = decide (t ≠ 0)
        ∧ elapsed b step1.since (micros (rd b 0x8000 3)) = decide (t ≠ 0)
        ∧ ((station b 0).step.bind (stepOf (raiseFree (setStation b 0 { station b 0 with killing := false }) 17 (uES 0)
          (station b 0).pid))).isSome = true)
    ∧ step1.past = false ∧ { step1 with past := true }.past = true ∧ step1.started = true := by decide +kernel

theorem wit_StepsAreDispatchedKilledAndFlushed_flush : mayCommand mapped tnt 1 ∧ isPid 1 ∧ canTake mapped 0x8101 1 ∧ 7 < 8
    ∧ isLive mapped 1 = true := by
  delta mayCommand byHost isPid canTake awake; decide +kernel

/-- 11 R351, R86: the step starts on the parked cluster at once, or kills there first. -/
theorem test_dispatch : ∀ last ∈ [1, 2], (match exec .stepDispatch (on (parked last)) with
    | .next t => (stepOf t.dev 0).map (·.st) == some (if last = 1 then StepState.running else .dispatching)
      && (station t.dev 127).killing == decide (last = 2)
    | _ => false) = true := by decide +kernel

def atTime (now : Nat) : Block := { mapped with clk := { mapped.clk with now := now } }

/-- A window in which partition 1, with weight 1, had cluster 0's 10 contended cycles. -/
def window1 : Window := { Window.fresh with backlogged := [(acctKey 1 0, 10)], contended := [(0, 10)], contendedUse := [(acctKey 1 0, 10)] }
def weighted : Block :=
  let b := setPart mapped 1 { live with s1Roots := (part mapped 1).s1Roots, sched := 1 + (36 <<< 16) }
  { b with cha := { b.cha with past := [⟨0, window1, [], []⟩] } }

theorem wit_AccountsBudgetsAndEntitlementsOfAWindow : (atTime 10000).clk.now % 10000 = 0
    ∧ (atTime 10000).cha.windowAt ≠ (atTime 10000).clk.now ∧ asleep (atTime 10000) = false ∧ (atTime 10001).clk.now % 10000 ≠ 0
    ∧ (atTime 0).cha.windowAt = (atTime 0).clk.now ∧ mapped.cha.past = [] ∧ isLive weighted 1 = true ∧ 1 ∈ pids
    ∧ weighted.cha.past = ⟨0, window1, [], []⟩ :: [] ∧ rd weighted 0x8000 9 = 0 ∧ rd (wr weighted 0x8000 9 700) 0x8000 9 ≠ 0 := by
  decide +kernel

theorem wit_AccountsBudgetsAndEntitlementsOfAWindow_shares : entitled weighted window1 0 = [(1, 10)]
    ∧ ((pids.filter fun p => look window1.backlogged 0 (acctKey p 0) != 0).map (reserve weighted)).sum ≤ 256 := by decide +kernel

/-! ## Faults, domains and dumps -/

def failed : Event := ⟨27, uMS 31, 63, 2 ^ 56 - 1, 2 ^ 32 - 1, true⟩
def queued (q h : List Event) : Block := { pt with fcu := { pt.fcu with queue := q, held := h } }

/-- Source 27 counts to `n`; its window, if open, opened at 1000 and has counted one event. -/
def counting (n : Nat) (open' : Bool) (now : Nat) : Block :=
  let b := wr (wr (wr pt 0x921B 1 1) 0x921B 5 1) 0x921B 3 n
  { b with clk := { b.clk with now := now }, fcu := { b.fcu with windows := if open' then [(27, (1000, 1))] else [] } }

theorem wit_FaultEventsAreRecordedCountedAndReactedTo_event : awake (queued [failed] [failed]) ∧ noInjection (queued [failed] [failed])
    ∧ (queued [failed] [failed]).fcu.queue = failed :: [] ∧ pt.fcu.queue = [] ∧ failed.fsrc < 28 := by
  delta awake noInjection; decide +kernel

theorem wit_FaultEventsAreRecordedCountedAndReactedTo_record : 2 ^ 64 - 1 < 2 ^ 64 ∧ 2 ^ 32 - 1 < 2 ^ 32 ∧ 7 < 8 ∧ 15 < 16
    ∧ failed.unit < 2 ^ 16 ∧ failed.pid < 64 ∧ failed.fsrc < 2 ^ 9 := by decide

theorem wit_FaultEventsAreRecordedCountedAndReactedTo_count : (∀ n ∈ [2, 3],
      rd (counting n true 1000) (0x9200 + 27) 3 = n ∧ currentSeverity (counting n true 1000) 27 < 3
      ∧ find? (counting n true 1000).fcu.windows 27 = some (1000, 1)
      ∧ elapsed (counting n true 1000) 1000 (micros (rd (counting n true 1000) (0x9200 + 27) 4)) = false)
    ∧ find? (counting 2 false 1000).fcu.windows 27 = none ∧ rd (counting 0 false 1000) (0x9200 + 27) 3 = 0
    ∧ elapsed (counting 2 true (2 ^ 40)) 1000 (micros (rd (counting 2 true (2 ^ 40)) (0x9200 + 27) 4)) = true := by decide +kernel

/-- FAULT_L low since time 0, its release asked for or not. -/
def low (release : Nat) : Block := wr (wr pt 0x9000 3 1) 0x9000 2 release

theorem wit_FaultEventsAreRecordedCountedAndReactedTo_faultL : rd (low 0) 0x9000 3 = 1 ∧ elapsed (low 0) (low 0).fcu.faultAt 200 = true
    ∧ rd (low 0) 0xC000 1 ≠ 0xFF ∧ rd (low 0) 0x9000 2 = 0 ∧ rd (low 1) 0x9000 2 ≠ 0 ∧ (low 1).fcu.faultReleased = false
    ∧ notHostFmFw reed = false ∧ canTake (low 1) 0x9000 0x40 := by
  delta canTake awake; decide +kernel

def qualified (q : Nat) : Block := { pt with fcu := { pt.fcu with qualifying := some q } }

theorem wit_FaultEventsAreRecordedCountedAndReactedTo_wait : byHost host ∧ canTake pt 0x9000 0x45 ∧ pt.fcu.qualifying = none
    ∧ canTake (qualified (2 ^ 31 - 1)) 0x9000 0x45 ∧ canTake (qualified (2 ^ 31 - 1)) 0x9000 0x46 ∧ notFmFw reed = false
    ∧ (∀ a ∈ [0, 2 ^ 31 - 2], 1 ≤ (2 ^ 32 + (2 ^ 31 - 1) - a) % 2 ^ 32 ∧ (2 ^ 32 + (2 ^ 31 - 1) - a) % 2 ^ 32 < 2 ^ 31)
    ∧ (0 : Nat) < 2 ^ 32 := by
  delta byHost canTake awake; decide +kernel

theorem wit_FaultEventsAreRecordedCountedAndReactedTo_inject : byHost host ∧ canTake (wr pt 0xF000 1 2) 0xF000 0x40
    ∧ rd (wr pt 0xF000 1 2) 0xF000 1 = 2 ∧ unitPresent (wr pt 0xF000 1 2) (uMS 31) = true ∧ uMS 31 < 65536
    ∧ (BitVec.ofNat 64 (27 + (63 <<< 20) + (uMS 31 <<< 32) + (65535 <<< 48))).toNat
      = 27 + (63 <<< 20) + (uMS 31 <<< 32) + (65535 <<< 48) := by
  delta byHost canTake awake; decide +kernel

/-- 12 R382: the record of an event is the log's next, with the next SEQ. -/
theorem test_event : Goes (exec .fcuEvent (on (queued [⟨4, uMS 0, 1, 5, 6, false⟩] []))) fun t =>
    t.dev.fcu.queue = [] ∧ t.dev.fcu.logged = 1 ∧ rd t.dev 0x9000 6 = 1 ∧ (find? t.dev.fcu.log 0).map (bits · 41 9) = some 4 :=
  ⟨_, rfl, by decide +kernel⟩

/-- Domain `k` in state `st` since time 0, its drain 1 us, with Skim triggered or not. -/
def inState (k : Nat) (st : DomState) (dump : Bool) : Block := setDomain pt k { freshDomain with st := st, dump := dump, drain := 1 }

theorem wit_DomainsAreFencedDrainedResetAndReturned_command : notHostFmFw reed = false ∧ canTake pt 0x9000 0x42
    ∧ (∀ u ∈ [uReed 3, 0x123, uES 127, uMS 31, uLane 31 7], badUnit pt u = false ∧ unitState pt u = .inService
      ∧ unitState (inState u .out false) u = .out) ∧ 2 ≤ reedsIn pt ∧ canTake (inState 0x123 .out false) 0x9000 0x43
    ∧ canTake pt 0x9000 0x44 ∧ served pt (domKey 63) = true ∧ canTake (wr pt 0x9000 1 1) 0x9000 0x41
    ∧ rd (wr pt 0x9000 1 1) 0x9000 1 = 1 := by
  delta canTake awake; decide +kernel

theorem wit_DomainsAreFencedDrainedResetAndReturned_fence : uTPE < 0x10000 ∧ ¬isES uTPE ∧ ¬isMS uTPE ∧ ¬isLane uTPE ∧ ¬isPP uTPE := by
  decide

/-- A read by engine 0 is under way, its station fenced since time 0. -/
def busyStation (now : Nat) : Block :=
  let b := setDomain reading (uES 0) { freshDomain with st := .fencing, drain := 1 }
  { b with clk := { b.clk with now := now } }

theorem wit_DomainsAreFencedDrainedResetAndReturned_drain : (∀ d ∈ [false, true],
      (domain (inState uTPE .fencing d) uTPE).st = .fencing ∧ (domain (inState uTPE .fencing d) uTPE).dump = d
      ∧ domBusy (inState uTPE .fencing d) uTPE = false) ∧ rd (wr (inState uTPE .fencing true) 0x9002 3 1) 0x9002 3 = 1
    ∧ rd (inState uTPE .fencing true) 0x9002 3 ≠ 1
    ∧ domBusy (busyStation 0) (uES 0) = true ∧ (domain (busyStation 0) (uES 0)).st = .fencing
    ∧ elapsed (busyStation 0) 0 (micros 1) = false ∧ elapsed (busyStation 100) 0 (micros 1) = true := by decide +kernel

theorem wit_DomainsAreFencedDrainedResetAndReturned_reset : (∀ k ∈ [0x123, uMS 31, uTPE],
      (domain (inState k .resetting false) k).st = .resetting ∧ heldInReset (inState k .resetting false) k = false
      ∧ (domain (inState k .retraining false) k).st = .retraining)
    ∧ heldInReset { inState (uMS 31) .resetting false with clk := ⟨0, true, true, 0, 0⟩ } (uMS 31) = true
    ∧ (∀ st ∈ [DomState.inService, .out, .dumping], (domain (inState uTPE st false) uTPE).st = st) := by decide +kernel

theorem wit_DomainsAreFencedDrainedResetAndReturned_block : ∀ t ∈ [0, 2 ^ 40],
    let b := { inState uTPE .blockFenced false with fcu := { (inState uTPE .blockFenced false).fcu with blockDrain := some (0, 1) } }
    let b := { b with clk := { b.clk with now := t } }
    (domain b uTPE).st = .blockFenced ∧ b.fcu.blockDrain = some (0, 1) ∧ elapsed b 0 (micros 1) = decide (t ≠ 0) := by decide +kernel

theorem wit_DomainsAreFencedDrainedResetAndReturned_back :
    (domain (setDomain pt (uMS 31) { freshDomain with st := .retraining, degraded := true }) (uMS 31)).degraded = true
    ∧ removable (uMS 31) = true ∧ removable uTPE = false ∧ freshDomain.degraded = false := by decide +kernel

/-- Two units that wait for each other, and a third that waits for one of them; ages from 64 us up. -/
def edges : List WaitEdge := [⟨1, 2, 0, 6400⟩, ⟨2, 1, 63, 6401⟩, ⟨3, 1, 0, 9000⟩]
def scanning (now n : Nat) : Block := { wr pt 0x9001 2 n with clk := { pt.clk with now := now } }

theorem wit_HangsAreFoundAndDumpsAreTaken_scan : (∀ x ∈ [2], 1 < x) ∧ [2].Nodup
    ∧ (∀ i ≤ [2].length, ∃ e ∈ edges, e.src = (1 :: [2]).getD i 0 ∧ e.dst = ([2] ++ [1]).getD i 0)
    ∧ cycles (edges.filter (6400 ≤ ·.age)) = [[1, 2]] ∧ (∀ n ∈ [1, 2], (scanning 6400 n).clk.now % 6400 = 0
      ∧ served (scanning 6400 n) uWGD = true ∧ asleep (scanning 6400 n) = false ∧ rd (scanning 6400 n) 0x9001 2 = n)
    ∧ (scanning 6401 1).clk.now % 6400 ≠ 0 := by decide +kernel

/-- Drone 8, armed and its counter unchanged since time 0. -/
def drone (now : Nat) : Block :=
  let b := wr pt 0x9018 3 1
  { b with clk := { b.clk with now := now }, fcu := { b.fcu with drones := [(8, ⟨0, 0, true⟩)] } }

theorem wit_HangsAreFoundAndDumpsAreTaken_drone : ∀ t ∈ [0, 2 ^ 40], 8 < 9
    ∧ (look (droneLook (drone t) 8).fcu.drones freshDrone 8).armed = true
    ∧ elapsed (droneLook (drone t) 8) (look (droneLook (drone t) 8).fcu.drones freshDrone 8).start
        (micros (rd (droneLook (drone t) 8) (0x9010 + 8) 2)) = decide (t ≠ 0) := by decide +kernel

/-- A dump with unit 5 still to be read, `n` bytes of it taken. -/
def dumping (n now : Nat) : Block :=
  let b := wr pt 0x9002 3 1
  { b with clk := { b.clk with now := now }, fcu := { b.fcu with skim := ⟨[5], ⟨n, 0⟩, 0, 0, 0, 0, 0⟩ } }

theorem wit_HangsAreFoundAndDumpsAreTaken_skim : notHostFmFw reed = false ∧ canTake pt 0x9002 0x40 ∧ skimFree pt = true
    ∧ canTake (dumping 0 0) 0x9002 0x40 ∧ rd (dumping 0 0) 0x9002 3 = 1 ∧ canTake (wr (wr pt 0x9002 3 2) 0x9002 2 1) 0x9002 0x40
    ∧ skimFree (wr (wr pt 0x9002 3 2) 0x9002 2 1) = false ∧ rd (wr (wr pt 0x9002 3 2) 0x9002 2 1) 0x9002 3 ≠ 1
    ∧ canTake pt 0x9002 0x41 ∧ rd pt 0x9002 3 ≠ 1 := by
  delta canTake awake; decide +kernel

theorem wit_HangsAreFoundAndDumpsAreTaken_record : (dumping 0 0).fcu.skim.left = 5 :: []
    ∧ (∀ r ∈ [0, 1], 64 + (dumping 0 0).fcu.skim.body.len + (skimRecord (dumping 0 0) 5 0 r ([1].take 1024)).len ≤ 2 ^ 20)
    ∧ 2 ^ 20 < 64 + (dumping (2 ^ 20 - 64) 0).fcu.skim.body.len + (skimRecord (dumping (2 ^ 20 - 64) 0) 5 0 0 ([1].take 1024)).len
    ∧ elapsed (dumping 0 0) 0 (micros 50) = false ∧ elapsed (dumping 0 5000) 0 (micros 50) = true := by decide +kernel

/-! ## The mirror pair -/

/-- Mirroring in state `st` with the records `q` waiting and `p` sent; the time is `now`. -/
def pair (st now : Nat) (q p : List MRec) : Block :=
  let b := wr pt 0xA000 6 st
  { b with clk := { b.clk with now := now }
           mirror := { b.mirror with queue := q, replay := p, mseq := 2 ^ 32 - 1, applied := 63, appliedAt := 0 } }

def rec4 (n : Nat) (sent : Bool) : MRec := ⟨4, 1, 7, 5, false, ⟨n, 0⟩, 0, sent⟩

theorem wit_TheMirrorCopiesAcknowledgesAndTakesOver_command : notFmFw reed = false ∧ canTake (pair 0 0 [] []) 0xA000 0x40
    ∧ mirrorState (pair 0 0 [] []) = 0 ∧ mirrorState (pair 4 0 [] []) = 4 ∧ served (pair 0 0 [] []) uMirror = true
    ∧ canTake (pair 4 0 [] []) 0xA000 0x40 ∧ canTake (pair 2 0 [] []) 0xA000 0x41
    ∧ canTake (wr pt 0xA000 1 4) 0xA000 0x42 ∧ rd (wr pt 0xA000 1 4) 0xA000 1 ≠ 0xFFFF ∧ rd (wr pt 0xA000 1 4) 0xA000 0x11 = 0xFFFF
    ∧ canTake (wr pt 0xA000 0x11 4) 0xA000 0x43 ∧ rd (wr pt 0xA000 0x11 4) 0xA000 0x11 ≠ 0xFFFF := by
  delta canTake awake; decide +kernel

theorem wit_TheMirrorCopiesAcknowledgesAndTakesOver_timers : (∀ t ∈ [0, 2 ^ 40], let b := pair 2 t [] [rec4 416 true]
      b.mirror.applied ≠ 0 ∧ elapsed b b.mirror.appliedAt 200 = decide (t ≠ 0) ∧ mirrorRuns b = true ∧ asleep b = false
      ∧ elapsed b b.mirror.recordAt 1600 = decide (t ≠ 0) ∧ b.mirror.replay ≠ [] ∧ unacked b ≠ []
      ∧ elapsed b (max b.mirror.ackAt b.mirror.sentAt) (micros (rd b 0xA000 4)) = decide (t ≠ 0)
      ∧ elapsed b b.mirror.ackAt (micros (rd b 0xA000 5)) = decide (t ≠ 0)) ∧ mirrorRuns pt = false
    ∧ (qp (withQp fun q => { q with sendPsn := 1 }) 7).mirrored ≠ qpRecord (qp (withQp fun q => { q with sendPsn := 1 }) 7)
    ∧ (qp (withQp fun q => { q with mirrored := qpRecord q }) 7).mirrored = qpRecord (qp (withQp fun q => { q with mirrored := qpRecord q }) 7) := by
  decide +kernel

theorem wit_TheMirrorCopiesAcknowledgesAndTakesOver_lag : mirrorState (pair 2 2000 [rec4 416 false] []) = 2
    ∧ lag (pair 2 2000 [rec4 416 false] []) = 2000 ∧ lag (pair 3 999 [rec4 416 false] []) = 999
    ∧ mirrorState (pair 3 999 [rec4 416 false] []) = 3 ∧ lag (pair 2 1999 [rec4 416 false] []) = 1999
    ∧ lag (pair 3 1000 [rec4 416 false] []) = 1000 ∧ served (pair 2 2000 [] []) uMirror = true
    ∧ served (setDomain (pair 2 2000 [] []) uMirror { freshDomain with st := .fencing }) uMirror = false := by decide +kernel

theorem wit_TheMirrorCopiesAcknowledgesAndTakesOver_apply : (2 ^ 32 + 5 - rd pt 0xA000 0x0A) % 2 ^ 32 ≠ 1
    ∧ (2 ^ 32 + 0 - rd (wr pt 0xA000 0x0A (2 ^ 32 - 1)) 0xA000 0x0A) % 2 ^ 32 = 1 ∧ (rec4 416 false).mseq < 2 ^ 32 := by decide +kernel

/-- Records that leave room for one of 416 bytes exactly, and one byte too few. -/
theorem wit_TheMirrorCopiesAcknowledgesAndTakesOver_room : (∀ n ∈ [4194304 - 448, 4194304 - 447],
      replayBytes (pair 2 0 [] [rec4 n true]).mirror ≤ 4194304
      ∧ decide (replayBytes (pair 2 0 [] [rec4 n true]).mirror + 16 + (⟨416, 0⟩ : Bytes).len ≤ 4194304) = decide (n = 4194304 - 448)
      ∧ (pair 2 0 [] [rec4 n true]).mirror.queue = [])
    ∧ rec4 416 false ∈ (pair 2 0 [rec4 416 false] []).mirror.queue ∧ (rec4 416 false).kind = 4 ∧ (rec4 416 false).index = 7
    ∧ (rec4 416 false).sent = false := by decide +kernel

/-- 13 R418, R419: a record takes the MSEQ after 2³² - 1, which is 0; one that arrives out of its turn is counted. -/
theorem test_mseq : ((emitRec (pair 2 0 [] []) 8 0 0 false ⟨16, 0⟩).mirror.queue.map (·.mseq)) = [0]
    ∧ rd (applyRecord pt (rec4 416 false)) 0xA000 0x0E = 1 := by decide +kernel

/-! ## Well-formedness: each check refuses a command that misses it -/

def frame0 : Frame := frameFor 1
def badFrame : Frame := { frame0 with body := ⟨0, 1⟩ }
def badBytes : Answer := ⟨.ok, ⟨0, 1⟩, false⟩

theorem test_illFormed : ∀ e ∈ ([(.unit, .firmwareSelfCheckFail 4), (.station, .read 128 0 1), (.address, .read 0 (2 ^ 52) 1),
    (.beats, .read 0 0 16), (.beats, .write 0 0 1 ⟨63, 0⟩), (.opcode, .reservedEqOp 0 16), (.tag, .memoryReadResponse (2 ^ 16) 0 false),
    (.pool, .tagGrant 3), (.module, .ucieModuleDown 16), (.die, .diePllLockLoss 16), (.path, .opRead ⟨.host 64, false, 0⟩ 0 0 3),
    (.object, .opRead host 65536 0 3), (.size, .opRead host 0 0 16), (.segment, .blobRead host 0 0 4096),
    (.bytes, .blobSeg host 0 0 0 ⟨0, 1⟩), (.function, .kick 0 0 0), (.slot, .reqShortWrite 1 8 1), (.slot, .keyPortWord 16 0),
    (.width, .reqShortWrite 0 0 8), (.endpoint, .getEndpointId 256 0 0), (.inst, .getEndpointId 0 0 32), (.partition, .create host 64 0),
    (.granule, .granuleScrubDone 65536), (.context, .ctxCloseComplete 1 1024), (.doorbell, .kick 1 65536 0),
    (.via, .abort (.doorbell 0 0 0)), (.channel, .channelHalt 512), (.line, .lineLockGrant 0 (2 ^ 44)), (.port, .packetTransmit 36),
    (.queuePair, .wqeNop 65536), (.psn, .placementAck 0 (2 ^ 24)), (.key, .keyRevokeComplete 262144), (.chip, .quietPeriodEnd 4096),
    (.group, .groupArmed 1 65536), (.contributor, .applicationReport 1 0 0 4096), (.program, .programMadeCurrent 1 256),
    (.runner, .iadd 0 ⟨4, false, 0, 0, 0, 0⟩), (.level, .nodeEviction 11 0), (.queue, .stepDoorbell 1 8 0),
    (.source, .countWindowExpiry 28), (.edge, .wgdScan [⟨2 ^ 32, 0, 0, 0⟩]), (.drone, .droneExpiry 9),
    (.straps, .resetRelease true true { straps with dieOf := [] }), (.bytes, .rxWrite 0 badFrame),
    (.bytes, .descriptorArrival 0 badBytes)] : List (Ill × Instr)), e.2.ill = [e.1] ∧ e.2.wf = false := by decide +kernel

/-- Commands at the ends of their operands' ranges are well formed. -/
theorem test_wellFormed : ∀ i ∈ ([.read 127 (2 ^ 52 - 1) 15, .opRead ⟨.host 63, false, 65535⟩ 65535 255 15, .kick 63 65535 0,
    .applicationReport 63 65535 (2 ^ 23 - 1) 4095, .iadd 31 full, .keyPortWord 15 0, .droneExpiry 8] : List Instr), i.wf = true := by
  decide +kernel

end Sys2Proof.Tests
end

section
/-! SUPPORT. Lemmas about the model that the statements of chapter 01 need (stale responses, refusals at an Engine
Station, TAP copies), and those statements settled. -/

namespace Sys2Proof.Machine

/-! ## Stale responses (01 R30) -/

theorem State.on_dev (s : State) : s.on s.dev = s := rfl

theorem exec_staleResponse (tag epoch : Nat) (s : State) :
    exec (.staleResponse tag epoch) s = .next (s.on (staleResponse s.dev tag epoch)) := rfl

/-- R30: a response with another epoch than its tag's is counted, and that is all. -/
theorem staleResponse_stale {b : Block} {tag epoch : Nat} (ht : tag < 65536) (he : epoch < 16)
    (h : epoch ≠ tagEpoch b tag) : staleResponse b tag epoch = count b 0x1300 7 := by
  simp [staleResponse, ht, he, h]

theorem staleResponse_current (b : Block) (tag : Nat) : staleResponse b tag (tagEpoch b tag) = b := by
  simp [staleResponse]

/-- Settles O8: the response is one more in 0x1300.07, and a counter's step writes its own object only. -/
theorem staleResponsesAreCountedAndDiscarded : Obligations.StaleResponsesAreCountedAndDiscarded := by
  intro s tag epoch ht he
  rw [exec_staleResponse]
  constructor
  · intro hne
    rw [staleResponse_stale ht he hne]
    exact ⟨_, rfl, rd_count_self .., fun _ _ hk => rd_count_other _ hk, rfl, rfl⟩
  · rintro rfl
    rw [staleResponse_current, State.on_dev]

/-! ## Refusals at an Engine Station (01 R16, R32) -/

/-- An event that wakes the block, at an awake block and a station that takes requests: it acts at once. -/
theorem stationEvent_acts {s : State} {es : Nat} (ha : awake s.dev) (ht : stationTakes s.dev es) (cause : Nat)
    (i : Instr) (f : Block → Block) :
    (.next { s with dev := wakeEvent s.dev cause i fun b => presented b es f } : Host.Outcome State Fault Refusal)
      = .next (s.on (f s.dev)) := by
  rw [wakeEvent_awake ha, presented_takes ht]; rfl

/-- What a refusal leaves as it was: what is presented at the boundary, the stations with their requests, package
memory, the Hub and the tags. -/
def keepsStation (b b' : Block) : Prop :=
  b'.out = b.out ∧ b'.cha = b.cha ∧ b'.mem = b.mem ∧ b'.hub = b.hub ∧ b'.tags = b.tags

theorem keepsStation_refl (b : Block) : keepsStation b b := ⟨rfl, rfl, rfl, rfl, rfl⟩

/-- Recording a guard fault writes objects and queues an event (04 R148). -/
theorem guardRecord_keepsStation (b : Block) (unit pa : Nat) (c : Ctx) (reason : Nat) (cls : SrcClass) (o : Nat) :
    keepsStation b (guardRecord b unit pa c reason cls o) := by
  unfold keepsStation guardRecord
  dsimp only
  split <;> split <;> simp

/-- The record of a refusal by the range check changes nothing of the station. -/
theorem screenRecord_keepsStation (b : Block) (es : Nat) (st : Status) : keepsStation b (screenRecord b es st) := by
  unfold screenRecord
  split
  · split
    · exact guardRecord_keepsStation (draw b).2 ..
    · exact keepsStation_refl b
  · exact keepsStation_refl b

/-- Only a refusal by the range check is recorded. -/
theorem screenRecord_of_ne {b : Block} {es : Nat} {st : Status} (h : st ≠ .guardFault) : screenRecord b es st = b := by
  unfold screenRecord; split <;> simp [h]

/-- A request that its own checks refuse is refused, with their status or with one that R32 puts first. -/
theorem screenReq_refuses {b : Block} (es : Nat) {bad : Step → Option Status} {n : Nat} (hn : 4 ≤ n)
    (hbad : ∀ s, ∃ e, bad s = some e ∧ statusRank e ≤ n) : ∃ e, screenReq b es bad = .error e ∧ statusRank e ≤ n := by
  unfold screenReq
  split
  · exact ⟨_, rfl, Nat.zero_le n⟩
  split
  · exact ⟨_, rfl, hn⟩
  · next s _ =>
    split
    · exact ⟨_, rfl, Nat.zero_le n⟩
    split
    · exact ⟨_, rfl, by simp only [statusRank]; omega⟩
    · obtain ⟨e, he, hr⟩ := hbad s
      exact ⟨e, by rw [he], hr⟩

/-- A misaligned request is refused in itself: with MISALIGNED, or with GUARD_FAULT outside its step's ranges. -/
theorem memFault_misaligned (write : Bool) (va len : Nat) (s : Step) :
    ∃ e, memFault write true va len s = some e ∧ statusRank e ≤ statusRank .misaligned := by
  cases h : declared s write va len <;> simp [memFault, h, statusRank]

/-- A misaligned request in the ranges of its operands is answered as its checks say. -/
theorem engineMem_refused {b : Block} {es op va beats : Nat} (data compare : Nat) {e : Status} (hv : va < 2 ^ 52)
    (hl : beats < 16) (hb : op < 2 → 1 ≤ beats ∧ beats ≤ 8) (ha : ¬ engineAligned op va beats)
    (he : screenReq b es (memFault (op != 0) true va (engineLen op beats)) = .error e) :
    engineMem b es op va beats data compare = emit (screenRecord b es e) (.eqStatus es e) := by
  have inRange : ¬((decide (2 ^ 52 ≤ va) || decide (15 < beats)
      || (!decide (2 ≤ op) && (decide (beats = 0) || decide (8 < beats)))) = true) := by
    simp only [Bool.or_eq_true, decide_eq_true_eq, Bool.and_eq_true, Bool.not_eq_true', decide_eq_false_iff_not]
    omega
  have mis : (if 2 ≤ op then decide (va % 8 ≠ 0) || decide (beats ≠ 1) else decide (va % 64 ≠ 0)) = true := by
    unfold engineAligned at ha
    split at ha
    · next h => simp only [h, if_true, Bool.or_eq_true, decide_eq_true_eq]; omega
    · next h => simp [h, ha]
  unfold engineMem
  rw [if_neg inRange]
  simp only [engineLen] at he
  simp only [decide_eq_true_eq]
  rw [mis, he]
  rfl

/-- Where the cluster's step declares the bytes and its context is served and OPEN, the refusal is MISALIGNED. -/
theorem engineMem_misaligned {b : Block} {es op va beats : Nat} {st : Step} (data compare : Nat)
    (hs : served b (uES es) = true) (hr : runsStep b es = some st) (hf : fencedAccess b st.ctx = false)
    (ho : ctxOpen b st.pid st.ctx.cx = true) (hv : va < 2 ^ 52) (hl : beats < 16)
    (hb : op < 2 → 1 ≤ beats ∧ beats ≤ 8) (ha : ¬ engineAligned op va beats)
    (hd : declared st (op != 0) va (engineLen op beats) = true) :
    engineMem b es op va beats data compare = emit b (.eqStatus es .misaligned) := by
  have bad : memFault (op != 0) true va (engineLen op beats) st = some .misaligned := by simp [memFault, hd]
  rw [engineMem_refused data compare hv hl hb ha (screenReq_bad hs hr hf ho bad), screenRecord_of_ne (by decide)]

/-- The refusal of a misaligned request: one status, MISALIGNED or one before it, and nothing of the station changes. -/
theorem engineMem_stays {b : Block} (es : Nat) {op va beats : Nat} (data compare : Nat) (hv : va < 2 ^ 52)
    (hl : beats < 16) (hb : op < 2 → 1 ≤ beats ∧ beats ≤ 8) (ha : ¬ engineAligned op va beats) :
    ∃ st, statusRank st ≤ statusRank .misaligned
      ∧ (engineMem b es op va beats data compare).out = b.out ++ [.eqStatus es st]
      ∧ (engineMem b es op va beats data compare).cha = b.cha
      ∧ (engineMem b es op va beats data compare).mem = b.mem
      ∧ (engineMem b es op va beats data compare).hub = b.hub
      ∧ (engineMem b es op va beats data compare).tags = b.tags := by
  obtain ⟨e, he, hrank⟩ := screenReq_refuses (b := b) es (by decide)
    (memFault_misaligned (op != 0) va (engineLen op beats))
  obtain ⟨hout, hcha, hmem, hhub, htags⟩ := screenRecord_keepsStation b es e
  rw [engineMem_refused data compare hv hl hb ha he]
  exact ⟨e, hrank, congrArg (· ++ [_]) hout, hcha, hmem, hhub, htags⟩

/-- A READ or WRITE is misaligned where its address is no multiple of 64. -/
theorem engineAligned_block {op va beats : Nat} (ho : op < 2) (h : va % 64 ≠ 0) : ¬ engineAligned op va beats := by
  simp [engineAligned, Nat.not_le.mpr ho, h]

/-- An atomic is misaligned where its address is no multiple of 8 or its length is not one beat. -/
theorem engineAligned_atomic {op va beats : Nat} (ho : 2 ≤ op) (h : va % 8 ≠ 0 ∨ beats ≠ 1) :
    ¬ engineAligned op va beats := by
  simp only [engineAligned, if_pos ho]; omega

/-- The reserved values of EQ_OP are those Table 1-9 gives no operation. -/
theorem reservedOp_iff : ∀ op < 16, (reservedOp op = true ↔ op ∉ [0, 1, 2, 3, 4, 8, 9, 10, 11]) := by decide

/-- A reserved EQ_OP at a station in service is answered GUARD_FAULT. -/
theorem engineReserved_served {b : Block} {es op : Nat} (ho : reservedOp op = true) (hs : served b (uES es) = true) :
    engineReserved b es op = emit b (.eqStatus es .guardFault) := by
  simp [engineReserved, ho, hs, eqStatus]

section
variable {s : State} {es : Nat} (ha : awake s.dev) (ht : stationTakes s.dev es)
include ha ht

/-- What a READ, WRITE or atomic does at an awake block and a station that takes requests. -/
theorem exec_read (va beats : Nat) :
    exec (.read es va beats) s = .next (s.on (engineMem s.dev es 0 va beats 0 0)) :=
  stationEvent_acts ha ht 4 _ _

theorem exec_write (va beats : Nat) (data : Bytes) :
    exec (.write es va beats data) s = .next (s.on (engineMem s.dev es 1 va beats data.val 0)) :=
  stationEvent_acts ha ht 4 _ _

theorem exec_fetchAdd (va beats : Nat) (x : Word) :
    exec (.fetchAdd es va beats x) s = .next (s.on (engineMem s.dev es 2 va beats x.toNat 0)) :=
  stationEvent_acts ha ht 4 _ _

theorem exec_cmpSwap (va beats : Nat) (x y : Word) :
    exec (.cmpSwap es va beats x y) s = .next (s.on (engineMem s.dev es 3 va beats x.toNat y.toNat)) :=
  stationEvent_acts ha ht 4 _ _

theorem exec_swap (va beats : Nat) (x : Word) :
    exec (.swap es va beats x) s = .next (s.on (engineMem s.dev es 4 va beats x.toNat 0)) :=
  stationEvent_acts ha ht 4 _ _

theorem exec_reservedEqOp (op : Nat) :
    exec (.reservedEqOp es op) s = .next (s.on (engineReserved s.dev es op)) :=
  stationEvent_acts ha ht 4 _ _

end

/-- Settles O6: the checks that come before a request is listed refuse it, and their record writes objects only. -/
theorem engineRefusalsStayAtTheStation : Obligations.EngineRefusalsStayAtTheStation := by
  intro s es va beats ha ht refused stays
  refine ⟨fun op ho hs => ?reserved, reservedOp_iff, fun st hs hr hf ho hv => ⟨?block, ?atomic⟩,
    fun hv => ⟨?blockStays, ?atomicStays⟩⟩
  case reserved => rw [exec_reservedEqOp ha ht, engineReserved_served ho hs]
  case block =>
    intro h1 h8 hm
    have answer (op data : Nat) (h2 : op < 2) (hd : declared st (op != 0) va (engineLen op beats) = true) :
        engineMem s.dev es op va beats data 0 = emit s.dev (.eqStatus es .misaligned) :=
      engineMem_misaligned data 0 hs hr hf ho hv (by omega) (fun _ => ⟨h1, h8⟩) (engineAligned_block h2 hm) hd
    refine ⟨fun hd => ?_, fun hd data => ?_⟩
    · rw [exec_read ha ht, answer 0 0 (by decide) hd]
    · rw [exec_write ha ht, answer 1 data.val (by decide) hd]
  case atomic =>
    intro hl hm hd x y
    have answer (op compare : Nat) (h2 : 2 ≤ op) (hd : declared st (op != 0) va (engineLen op beats) = true) :
        engineMem s.dev es op va beats x.toNat compare = emit s.dev (.eqStatus es .misaligned) :=
      engineMem_misaligned x.toNat compare hs hr hf ho hv hl (fun h => by omega) (engineAligned_atomic h2 hm) hd
    rw [exec_fetchAdd ha ht, exec_cmpSwap ha ht, exec_swap ha ht, answer 2 0 (by decide) hd,
      answer 3 y.toNat (by decide) hd, answer 4 0 (by decide) hd]
    exact ⟨rfl, rfl, rfl⟩
  case blockStays =>
    intro h1 h8 hm
    have stay (op data : Nat) (h2 : op < 2) :=
      engineMem_stays (b := s.dev) es data 0 hv (by omega) (fun _ => ⟨h1, h8⟩)
        (engineAligned_block (beats := beats) h2 hm)
    exact ⟨⟨_, exec_read ha ht va beats, stay 0 0 (by decide)⟩,
      fun data => ⟨_, exec_write ha ht va beats data, stay 1 data.val (by decide)⟩⟩
  case atomicStays =>
    intro hl hm x y
    have stay (op compare : Nat) (h2 : 2 ≤ op) :=
      engineMem_stays (b := s.dev) es x.toNat compare hv hl (fun h => by omega) (engineAligned_atomic h2 hm)
    exact ⟨⟨_, exec_fetchAdd ha ht va beats x, stay 2 0 (by decide)⟩,
      ⟨_, exec_cmpSwap ha ht va beats x y, stay 3 y.toNat (by decide)⟩,
      ⟨_, exec_swap ha ht va beats x, stay 4 0 (by decide)⟩⟩

/-! ## TAP copies (01 R35) -/

/-- A fold of stores reads, at a number that each listed entry of that number gives the value `v`, as `v`: where one is
listed, or where the array read as `v` before. -/
theorem look_foldl_store {α β : Type} [DecidableEq β] (key : α → Nat) (f : α → β) (d v : β) (n : Nat) (l : List α)
    (m : SMap β) (hl : ∀ a ∈ l, key a = n → f a = v) (hm : look m d n = v ∨ ∃ a ∈ l, key a = n) :
    look (l.foldl (fun m a => store m d (key a) (f a)) m) d n = v := by
  induction l generalizing m with
  | nil => simpa using hm
  | cons a l ih =>
    rw [List.foldl_cons]
    refine ih _ (fun c hc => hl c (List.mem_cons_of_mem a hc)) ?_
    by_cases e : key a = n
    · left; rw [← e, look_store_self]; exact hl a List.mem_cons_self e
    · rw [look_store_other m d d _ (Ne.symm e)]
      exact hm.imp_right fun ⟨c, hc, ec⟩ => ⟨c, (List.mem_cons.mp hc).resolve_left fun h => e (h ▸ ec), ec⟩

/-- The counters of a partition's own objects lie in rows of 63 that begin at PID 1, and are numbered below 256. -/
theorem objects_own_counters : ∀ r ∈ objects, r.span = 63 → r.legal = .counter →
    r.base % 256 = 1 ∧ r.sub + r.count ≤ 256 := by
  decide +kernel

theorem objects_channel_counters : ∀ r ∈ objects, r.base = 0x4200 → r.legal = .counter →
    r.sub < 256 ∧ r.sub ≠ 2 := by
  decide +kernel

theorem mem_pids {pid : Nat} : pid ∈ pids ↔ 1 ≤ pid ∧ pid < 64 := by
  simp only [pids, List.mem_map, List.mem_range]
  exact ⟨fun ⟨n, h, e⟩ => by omega, fun h => ⟨pid - 1, by omega, by omega⟩⟩

/-- A TAP object's subindex is a byte, and the only one at 0x81qq.02 is the partition's DEFICIT. -/
theorem tapKeys_bounds {b : Block} {pid : Nat} {k : Nat × Nat} (hp : pid ∈ pids) (hk : k ∈ tapKeys b pid) :
    k.2 < 256 ∧ (0x8101 ≤ k.1 → k.1 < 0x8140 → k.2 = 2 → k.1 = 0x8100 + pid) := by
  rw [mem_pids] at hp
  simp only [tapKeys, List.mem_append, List.mem_flatMap, List.mem_map, List.mem_filter, List.mem_range,
    Bool.and_eq_true, beq_iff_eq, List.mem_cons, List.not_mem_nil, or_false] at hk
  rcases hk with ((⟨r, ⟨hr, hs, hc⟩, i, hi, rfl⟩ | ⟨r, ⟨hr, hb, hc⟩, c, _, rfl⟩) | (rfl | rfl)) | ⟨i, hi, rfl⟩
  · obtain ⟨hbase, hsub⟩ := objects_own_counters r hr hs hc
    exact ⟨by omega, fun _ _ _ => by omega⟩
  · obtain ⟨hlt, hne⟩ := objects_channel_counters r hr hb hc
    exact ⟨hlt, fun _ _ e => absurd e hne⟩
  · exact ⟨by omega, fun _ _ _ => rfl⟩
  · exact ⟨by omega, fun _ _ _ => rfl⟩
  · exact ⟨by omega, fun _ _ _ => rfl⟩

/-- Objects whose subindices are bytes are told apart by their keys. -/
theorem objKey_inj {k j : Nat × Nat} (hk : k.2 < 256) (hj : j.2 < 256) (h : objKey k.1 k.2 = objKey j.1 j.2) :
    k = j := by
  unfold objKey at h
  exact Prod.ext (by omega) (by omega)

theorem coarse_eq (n : Nat) : coarse n = n / 1024 * 1024 := Nat.mul_comm ..

/-- R35: a TAP value is the source's value rounded down to a multiple of 1,024, DEFICIT as a signed number. -/
theorem tapValue_eq {b : Block} {pid : Nat} {k : Nat × Nat} (hp : pid ∈ pids) (hk : k ∈ tapKeys b pid) :
    tapValue b k.1 k.2 = if k = (0x8100 + pid, 2)
      then ofSigned 32 (toSigned 32 (value b k.1 k.2) / 1024 * 1024) else value b k.1 k.2 / 1024 * 1024 := by
  obtain ⟨_, hdef⟩ := tapKeys_bounds hp hk
  rw [mem_pids] at hp
  have cond : (decide (0x8101 ≤ k.1) && decide (k.1 < 0x8140) && k.2 == 2) = true ↔ k = (0x8100 + pid, 2) := by
    simp only [Bool.and_eq_true, decide_eq_true_eq, beq_iff_eq, Prod.ext_iff]
    exact ⟨fun ⟨⟨h1, h2⟩, h3⟩ => ⟨hdef h1 h2 h3, h3⟩, fun ⟨h1, h2⟩ => by omega⟩
  unfold tapValue
  by_cases h : k = (0x8100 + pid, 2)
  · rw [if_pos (cond.mpr h), if_pos h]; rfl
  · rw [if_neg (mt cond.mp h), if_neg h, coarse_eq]

/-- The TAP objects of every sealed partition. -/
def sealedKeys (b : Block) : List (Nat × Nat) := (pids.filter (isSealed b)).flatMap (tapKeys b)

theorem mem_sealedKeys {b : Block} {k : Nat × Nat} :
    k ∈ sealedKeys b ↔ ∃ pid ∈ pids, isSealed b pid = true ∧ k ∈ tapKeys b pid := by
  simp only [sealedKeys, List.mem_flatMap, List.mem_filter, and_assoc]

/-- Their TAP copies. -/
def partTaps (b : Block) : SMap Nat :=
  (sealedKeys b).foldl (fun m k => store m 0 (objKey k.1 k.2) (tapValue b k.1 k.2)) []

/-- With those of the sealed partner partitions' accounts (13 Table 13-3). -/
def dictTaps (b : Block) : SMap Nat :=
  (pids.filter fun p => bitAt (shadow b p).part.val 440).foldl
    (fun m p => store m 0 (objKey (0xA200 + p) 6) (coarseAcct (shadow b p).acct.val)) (partTaps b)

/-- The TAP copies of one queue pair's counters. -/
def tapQp (b : Block) (i : Nat) : Block :=
  if isSealed b (qpPid b i) then onQp b i fun q => { q with taps := (qpCounters q).map coarse } else b

theorem exec_tapRefresh (s : State) : exec .tapRefresh s = .next (s.on (tapRefresh s.dev)) := rfl

/-- TAP_REFRESH on its cycle: the objects' copies, then each queue pair's. -/
theorem tapRefresh_due {b : Block} (h : b.clk.now % 100000 = 0) :
    tapRefresh b = (b.tpe.qps.map (·.1)).foldl tapQp { b with dict := { b.dict with taps := dictTaps b } } :=
  if_neg (not_not_intro h)

theorem tapRefresh_idle {b : Block} (h : b.clk.now % 100000 ≠ 0) : tapRefresh b = b := if_pos h

theorem look_partTaps {b : Block} {pid : Nat} {k : Nat × Nat} (hp : pid ∈ pids) (hs : isSealed b pid = true)
    (hk : k ∈ tapKeys b pid) : look (partTaps b) 0 (objKey k.1 k.2) = tapValue b k.1 k.2 := by
  have listed : k ∈ sealedKeys b := mem_sealedKeys.mpr ⟨pid, hp, hs, hk⟩
  refine look_foldl_store (fun k : Nat × Nat => objKey k.1 k.2) (fun k => tapValue b k.1 k.2) 0 _ _ _ _
    (fun j hj e => ?_) (.inr ⟨k, listed, rfl⟩)
  obtain ⟨q, hq, _, hjq⟩ := mem_sealedKeys.mp hj
  rw [objKey_inj (tapKeys_bounds hq hjq).1 (tapKeys_bounds hp hk).1 e]

/-- The partner partitions' copies lie from 0xA200 up. -/
theorem look_dictTaps {b : Block} {k : Nat × Nat} (h1 : k.1 < 0xA200) (h2 : k.2 < 256) :
    look (dictTaps b) 0 (objKey k.1 k.2) = look (partTaps b) 0 (objKey k.1 k.2) := by
  refine look_foldl_store (fun p => objKey (0xA200 + p) 6) (fun p => coarseAcct (shadow b p).acct.val) 0 _ _ _ _
    (fun p _ e => ?_) (.inl rfl)
  unfold objKey at e
  omega

/-! A queue pair's copies leave everything else as it was. -/

theorem tapQp_dict (b : Block) (i : Nat) : (tapQp b i).dict = b.dict := by unfold tapQp; split <;> rfl

theorem tapQp_mem (b : Block) (i : Nat) : (tapQp b i).mem = b.mem := by unfold tapQp; split <;> rfl

theorem tapQp_ptb (b : Block) (i : Nat) : (tapQp b i).ptb = b.ptb := by unfold tapQp; split <;> rfl

/-- Whether a partition is sealed, and whose a queue pair is, the Partition Table says. -/
theorem sealedQp_congr {b b' : Block} (h : b'.ptb = b.ptb) (i : Nat) :
    isSealed b' (qpPid b' i) = isSealed b (qpPid b i) := by
  have same : part b' = part b := funext (part_congr (congrArg (·.parts) h))
  unfold isSealed qpPid
  rw [same]

theorem qp_tapQp_other (b : Block) {i j : Nat} (h : j ≠ i) : qp (tapQp b i) j = qp b j := by
  unfold tapQp; split
  · exact qp_setQp_other b _ h
  · rfl

theorem qp_tapQp_self {b : Block} {i : Nat} (h : isSealed b (qpPid b i) = true) :
    qp (tapQp b i) i = { qp b i with taps := (qpCounters (qp b i)).map coarse } := by
  rw [tapQp, if_pos h]; exact qp_setQp_self ..

/-- Copying the counters of the queue pairs listed gives each sealed one among them its own, rounded down. -/
theorem taps_foldl_tapQp {i : Nat} {v : List Nat} (l : List Nat) (b : Block) (hs : isSealed b (qpPid b i) = true)
    (hv : (qpCounters (qp b i)).map coarse = v) (hi : (qp b i).taps = v ∨ i ∈ l) :
    (qp (l.foldl tapQp b) i).taps = v := by
  induction l generalizing b with
  | nil => simpa using hi
  | cons j l ih =>
    rw [List.foldl_cons]
    have hs' : isSealed (tapQp b j) (qpPid (tapQp b j) i) = true := by rw [sealedQp_congr (tapQp_ptb b j), hs]
    by_cases e : i = j
    · subst e
      have self := qp_tapQp_self hs
      exact ih _ hs' (by rw [self]; exact hv) (.inl (by rw [self]; exact hv))
    · have other := qp_tapQp_other b e
      exact ih _ hs' (by rw [other, hv]) (by rw [other]; exact hi.imp_right (by simp [e]))

/-- Settles O23: each copy is stored once under its object's key, and the queue pairs' copies touch no object. -/
theorem counterViewsRefreshEveryMillisecond : Obligations.CounterViewsRefreshEveryMillisecond := by
  intro s
  rw [exec_tapRefresh]
  refine ⟨fun h => by rw [tapRefresh_idle h, State.on_dev], fun h => ?_⟩
  rw [tapRefresh_due h]
  refine ⟨_, rfl, fun a => ?mem, fun pid hp hs k hk hlt => ?objects, fun e he hs => ?queuePairs⟩
  all_goals simp only [State.on]
  case mem =>
    have same := foldl_keeps (·.mem) tapQp tapQp_mem (s.dev.tpe.qps.map (·.1))
      { s.dev with dict := { s.dev.dict with taps := dictTaps s.dev } }
    simp only [readByte, same]
  case objects =>
    rw [foldl_keeps (·.dict) tapQp tapQp_dict, look_dictTaps hlt (tapKeys_bounds hp hk).1, look_partTaps hp hs hk,
      tapValue_eq hp hk]
  case queuePairs =>
    exact taps_foldl_tapQp _ _ hs (List.map_congr_left fun n _ => coarse_eq n) (.inr (List.mem_map_of_mem he))

end Sys2Proof.Machine
end

section
/-! SUPPORT. The queue of commands: what a step and a run of steps do with it (O1, O2). -/

namespace Sys2Proof.Machine

/-! ## The queue of commands (tier 1 ties; log 4, log 43) -/

/-- Settles O1: a step takes the queue apart and runs its front. -/
theorem stepTakesTheFrontCommand : Obligations.StepTakesTheFrontCommand := fun _ _ _ => rfl

/-- Every command answers a next state with the queue it was given: each row's meaning updates the block alone. -/
theorem exec_keeps_queue (i : Instr) (s : State) : Goes (exec i s) fun t => t.pending = s.pending := by
  cases i <;> exact ⟨_, rfl, rfl⟩

/-- A step answers a next state, with the front of the queue taken. -/
theorem step_goes (s : State) : Goes (step s) fun t => t.pending = s.pending.drop 1 := by
  obtain ⟨b, q⟩ := s
  cases q with
  | nil => exact ⟨_, rfl, rfl⟩
  | cons c q => exact exec_keeps_queue c ⟨b, q⟩

theorem run_succ {M : Host.Core} {n : Nat} {s u : M.State} (h : M.step s = .next u) : M.run (n + 1) s = M.run n u := by
  rw [Host.Core.run, h]

/-- A run of `n` steps answers a next state, with the first `n` commands of the queue taken. -/
theorem run_goes (n : Nat) (s : State) :
    ∃ t : State, Host.Core.run Sys2Proof.core n s = .next t ∧ t.pending = s.pending.drop n := by
  induction n generalizing s with
  | zero => exact ⟨s, rfl, rfl⟩
  | succ n ih =>
    obtain ⟨u, hu, hq⟩ := step_goes s
    obtain ⟨t, ht, hp⟩ := ih u
    exact ⟨t, (run_succ (M := Sys2Proof.core) hu).trans ht, by rw [hp, hq, List.drop_drop, Nat.add_comm]⟩

/-- Settles O2: by induction on the number of steps, each of which answers a next state. -/
theorem blockNeverStopsAndTakesCommandsInOrder : Obligations.BlockNeverStopsAndTakesCommandsInOrder :=
  ⟨run_goes, exec_keeps_queue⟩

end Sys2Proof.Machine
end

section
/-! SUPPORT. What leaves package memory as it was: one lemma per operation, in the order of the definitions. -/

namespace Sys2Proof.Machine

@[simp] theorem foldl_mem {α : Type} (f : Block → α → Block) (h : ∀ b a, (f b a).mem = b.mem) (l : List α) (b : Block) :
    (l.foldl f b).mem = b.mem := foldl_keeps (·.mem) f h l b
@[simp] theorem foldl_fst_mem {α β : Type} (f : Block × β → α → Block × β) (h : ∀ p a, (f p a).1.mem = p.1.mem) (l : List α)
    (p : Block × β) : (l.foldl f p).1.mem = p.1.mem := by
  induction l generalizing p with
  | nil => rfl
  | cons a l ih => rw [List.foldl_cons, ih, h]
@[simp] theorem foldr_mem {α : Type} (f : α → Block → Block) (h : ∀ b a, (f a b).mem = b.mem) (l : List α) (b : Block) :
    (l.foldr f b).mem = b.mem := by
  induction l with
  | nil => rfl
  | cons a l ih => rw [List.foldr_cons, h, ih]

@[simp] theorem dropHolders_mem (b : Block) (p : Holder → Bool) : (dropHolders b p).mem = b.mem := by
  unfold dropHolders
  simp

@[simp] theorem settle_mem (b : Block) (h : Holder) : (settle b h).mem = b.mem := by unfold settle; simp

@[simp] theorem pumpInv_mem (b : Block) : (pumpInv b).mem = b.mem := by unfold pumpInv; simp

@[simp] theorem settleTile_mem (b : Block) (h : Holder) : (settleTile b h).mem = b.mem := by unfold settleTile; simp

@[simp] theorem dropPieces_mem (b : Block) (h : Holder) (segs : List Seg) : (dropPieces b h segs).mem = b.mem := by
  unfold dropPieces
  simp

@[simp] theorem abandon_mem (b : Block) (h : Holder) (segs : List Seg) : (abandon b h segs).mem = b.mem := by
  unfold abandon
  simp

@[simp] theorem abortDoneAs_mem (b : Block) (a : Option AbortReq) (detail : Nat) :
    (abortDoneAs b a detail).mem = b.mem := by
  unfold abortDoneAs
  (repeat' split) <;> simp

@[simp] theorem abortIdle_mem (b : Block) (c detail : Nat) : (abortIdle b c detail).mem = b.mem := by
  unfold abortIdle
  simp

@[simp] theorem abortAtOnce_mem (b : Block) (c : Nat) : (abortAtOnce b c).mem = b.mem := by
  unfold abortAtOnce
  (repeat' split) <;> simp

@[simp] theorem onGroup_mem (b : Block) (pid g : Nat) (f : Group → Group) : (onGroup b pid g f).mem = b.mem := (rfl)

@[simp] theorem waitTag_mem (b : Block) (w : TagWait) : (waitTag b w).mem = b.mem := by
  unfold waitTag
  (repeat' split) <;> simp

@[simp] theorem onQp_mem (b : Block) (i : Nat) (f : Qp → Qp) : (onQp b i f).mem = b.mem := (rfl)

@[simp] theorem startTimers_mem (b : Block) (t : Tx) : (startTimers b t).mem = b.mem := by
  unfold startTimers
  (repeat' split) <;> simp

@[simp] theorem noteWait_mem (b : Block) (t : Tx) : (noteWait b t).1.mem = b.mem := by
  unfold noteWait
  (repeat' split) <;> simp

@[simp] theorem hold_mem (b : Block) (t : Tx) : (hold b t).mem = b.mem := by unfold hold; simp

@[simp] theorem enqueue_mem (b : Block) (t : Tx) : (enqueue b t).mem = b.mem := by
  unfold enqueue
  grind [setPort_mem, startTimers_mem, !noteWait_mem, hold_mem]

@[simp] theorem putReply_mem (b : Block) (r : Reply) : (putReply b r).mem = b.mem := by
  unfold putReply
  (repeat' split) <;> simp

@[simp] theorem secAlarm_mem (b : Block) (cause : Nat) (ps : List Nat) (pp level unit : Nat) :
    (secAlarm b cause ps pp level unit).mem = b.mem := by
  unfold secAlarm
  simp

@[simp] theorem dirtyRecord_mem (b : Block) (pid addr source : Nat) : (dirtyRecord b pid addr source).mem = b.mem := by
  unfold dirtyRecord
  grind [setPart_mem, count_mem, emit_mem, wr_mem, countSat_mem]

@[simp] theorem dirtyPages_mem (b : Block) (pid addr source : Nat) (x' : Nat) :
    (dirtyPages b pid addr source x').mem = b.mem := by
  fun_induction dirtyPages <;> simp_all

@[simp] theorem hostWrite_mem (b : Block) (pid addr : Nat) (data : Bytes) (poison : Bool) (source : Nat) :
    (hostWrite b pid addr data poison source).mem = b.mem := by
  unfold hostWrite
  (repeat' split) <;> simp

@[simp] theorem writePoison_mem (b : Block) (pid key line major minor : Nat) :
    (writePoison b pid key line major minor).mem = b.mem := by
  unfold writePoison
  simp

@[simp] theorem writeLine_mem (b : Block) (pid key line major minor data : Nat) (poison : Bool) :
    (writeLine b pid key line major minor data poison).mem = b.mem := by
  unfold writeLine
  simp

@[simp] theorem putLine_mem (b : Block) (pid line : Nat) (leaf : TreeNode) (data : Nat) (poison : Bool) :
    (putLine b pid line leaf data poison).mem = b.mem := by
  unfold putLine
  simp

@[simp] theorem injectEventAt_mem (b : Block) (fsrc unit site pid addr word : Nat) :
    (injectEventAt b fsrc unit site pid addr word).mem = b.mem := by
  unfold injectEventAt
  simp

@[simp] theorem checkFlit_mem (b : Block) (unit site pid addr : Nat) :
    (checkFlit b unit site pid addr).1.mem = b.mem := by
  unfold checkFlit
  (repeat' split) <;> simp

@[simp] theorem checkFlits_mem (b : Block) (unit site pid addr : Nat) (x' : Nat) :
    (checkFlits b unit site pid addr x').1.mem = b.mem := by
  fun_induction checkFlits <;> grind [!checkFlit_mem]

@[simp] theorem checkPath_mem (b : Block) (pid addr n : Nat) (way : List (Nat × Nat)) :
    (checkPath b pid addr n way).1.mem = b.mem := by
  unfold checkPath
  simp

@[simp] theorem endLine_mem (b : Block) (l : LineOp) (st : Status) (data : Nat) : (endLine b l st data).mem = b.mem := by
  unfold endLine
  grind [setOp_mem, putReply_mem, !checkPath_mem, settle_mem]

@[simp] theorem lineServe_mem (b : Block) (l : LineOp) (o : SpillOp) (x : TreeNode) (a : LineAnswer) :
    (lineServe b l o x a).mem = b.mem := by
  unfold lineServe
  grind [secAlarm_mem, writePoison_mem, count_mem, putLine_mem, endLine_mem]

@[simp] theorem fenceSpill_mem (b : Block) (ps : List Nat) : (fenceSpill b ps).mem = b.mem := by
  unfold fenceSpill
  grind [foldl_mem, foldl_fst_mem, wr_mem]

@[simp] theorem condemn_mem (b : Block) (cause l n : Nat) : (condemn b cause l n).mem = b.mem := by
  unfold condemn
  (repeat' split) <;> simp

@[simp] theorem nodeUse_mem (b : Block) (l n pid : Nat) : (nodeUse b l n pid).1.mem = b.mem := by
  unfold nodeUse
  grind [condemn_mem, !checkFlit_mem]

@[simp] theorem lineLost_mem (b : Block) (l : LineOp) (o : SpillOp) : (lineLost b l o).mem = b.mem := by
  unfold lineLost
  simp

@[simp] theorem bumpParent_mem (b : Block) (l n : Nat) : (bumpParent b l n).mem = b.mem := by
  unfold bumpParent
  (repeat' split) <;> simp

@[simp] theorem writeBack_mem (b : Block) (l n : Nat) (x : TreeNode) : (writeBack b l n x).mem = b.mem := by
  unfold writeBack
  simp

@[simp] theorem resetLeaf_mem (b : Block) (leaf : Nat) (x : TreeNode) : (resetLeaf b leaf x).mem = b.mem := by
  unfold resetLeaf
  (repeat' split) <;> simp

@[simp] theorem rootUse_mem (b : Block) : (rootUse b).1.mem = b.mem := by unfold rootUse; (repeat' split) <;> simp

@[simp] theorem parentUse_mem (b : Block) (l n : Nat) : (parentUse b l n).1.mem = b.mem := by
  unfold parentUse
  (repeat' split) <;> simp

@[simp] theorem guardRecord_mem (b : Block) (unit pa : Nat) (c : Ctx) (reason : Nat) (cls : SrcClass) (ownerPid : Nat) :
    (guardRecord b unit pa c reason cls ownerPid).mem = b.mem := by
  unfold guardRecord
  grind [raise_mem, count_mem, wr_mem]

@[simp] theorem hostPieces_mem (b : Block) (pid source : Nat) (x' : Nat) (y' : Nat) (z' : List Seg) :
    (hostPieces b pid source x' y' z').mem = b.mem := by
  fun_induction hostPieces <;> grind [hostWrite_mem]

@[simp] theorem checkData_mem (b : Block) (c : Ctx) (segs : List Seg) (len : Nat) (way : List (Nat × Nat)) :
    (checkData b c segs len way).1.mem = b.mem := by
  unfold checkData
  simp

@[simp] theorem faultRecord_mem (b : Block) (a : Asker) (c : Ctx) (op : Access4) (va cause level : Nat) :
    (faultRecord b a c op va cause level).mem = b.mem := by
  unfold faultRecord
  simp

@[simp] theorem checkWord_mem (b : Block) (unit site pid addr word : Nat) :
    (checkWord b unit site pid addr word).1.mem = b.mem := by
  unfold checkWord
  (repeat' split) <;> simp

@[simp] theorem msAdmit_mem (b : Block) (pa : Nat) (c : Ctx) (cls : SrcClass) : (msAdmit b pa c cls).1.mem = b.mem := by
  unfold msAdmit
  grind [guardRecord_mem, !checkWord_mem]

@[simp] theorem admitSegs_mem (b : Block) (c : Ctx) (cls : SrcClass) (x' : List Seg) :
    (admitSegs b c cls x').1.mem = b.mem := by
  fun_induction admitSegs <;> grind [!msAdmit_mem]

@[simp] theorem pointRefusal_mem (b : Block) (a : Asker) (c : Ctx) (pa reason : Nat) :
    (pointRefusal b a c pa reason).mem = b.mem := by
  unfold pointRefusal
  simp

@[simp] theorem newTile_mem (b : Block) (segs : List Seg) : (newTile b segs).1.mem = b.mem := (rfl)

@[simp] theorem remoteRefusal_mem (b : Block) (a : Asker) (c : Ctx) (op : Access4) (va pa : Nat) :
    (remoteRefusal b a c op va pa).mem = b.mem := by
  unfold remoteRefusal
  grind [guardRecord_mem, faultRecord_mem]

@[simp] theorem fill_mem (b : Block) (l : List TEntry) (cap : Nat) (e : TEntry) : (fill b l cap e).2.mem = b.mem := by
  unfold fill
  grind [!draw_mem]

@[simp] theorem fillES_mem (b : Block) (es : Nat) (e : TEntry) : (fillES b es e).mem = b.mem := by unfold fillES; simp

@[simp] theorem fillShared_mem (b : Block) (e : TEntry) : (fillShared b e).mem = b.mem := by unfold fillShared; simp

@[simp] theorem progressed_mem (b : Block) (unit : Nat) : (progressed b unit).mem = b.mem := (rfl)

@[simp] theorem endWalkLeaf_mem (b : Block) (w : Walk) (e : TEntry) (used : List TEntry) :
    (endWalkLeaf b w e used).mem = b.mem := by
  unfold endWalkLeaf
  grind [foldl_mem, foldl_fst_mem, fillES_mem, fillShared_mem, settle_mem, dropWalk_mem, progressed_mem]

@[simp] theorem endWalkFault_mem (b : Block) (w : Walk) (st : Status) (cause level : Nat) :
    (endWalkFault b w st cause level).mem = b.mem := by
  unfold endWalkFault
  simp

@[simp] theorem lookup_mem (b : Block) (a : Asker) (c : Ctx) (va : Nat) : (lookup b a c va).1.mem = b.mem := by
  unfold lookup
  grind [fillES_mem, !checkWord_mem, count_mem]

@[simp] theorem takeFault_mem (b : Block) (a : Asker) (c : Ctx) (va : Nat) : (takeFault b a c va).1.mem = b.mem := by
  unfold takeFault
  grind []

@[simp] theorem chanOff_mem (b : Block) (c : Nat) : (chanOff b c).mem = b.mem := by unfold chanOff; simp

@[simp] theorem chanHalt_mem (b : Block) (c kind burst va : Nat) (st : Status) (write irq : Bool) :
    (chanHalt b c kind burst va st write irq).mem = b.mem := by
  unfold chanHalt
  grind [setChan_mem, chanOff_mem, msixPart_mem, wr_mem, count_mem]

@[simp] theorem haltAtOnce_mem (b : Block) (c kind va : Nat) (st : Status) (write irq : Bool) :
    (haltAtOnce b c kind va st write irq).mem = b.mem := by
  unfold haltAtOnce
  grind [abortAtOnce_mem, chanHalt_mem]

@[simp] theorem writebackFail_mem (b : Block) (c va : Nat) (st : Status) : (writebackFail b c va st).mem = b.mem := by
  unfold writebackFail
  simp

@[simp] theorem burstFail_mem (b : Block) (c : Nat) (u : Burst) (st : Status) (write : Bool) (va : Nat) :
    (burstFail b c u st write va).mem = b.mem := (rfl)

@[simp] theorem preempt_mem (b : Block) (write : Bool) (c : Nat) : (preempt b write c).mem = b.mem := by
  unfold preempt
  grind [count_mem]

@[simp] theorem spendSlots_mem (b : Block) (write : Bool) (c n : Nat) : (spendSlots b write c n).mem = b.mem := by
  unfold spendSlots
  (repeat' split) <;> simp

@[simp] theorem command_mem (b : Block) (acc : Access) (idx sub arg : Nat) (fails : Block → CmdFails) (run : Block → Block) (hrun : ∀ b, (run b).mem = b.mem) :
    (command b acc idx sub arg fails run).mem = b.mem := by
  unfold command
  grind [acceptCmd_mem, answer_mem, busAccess_mem]

@[simp] theorem chanCommand_mem (b : Block) (acc : Access) (c sub arg : Nat) (ok : Block → Bool) (run : Block → Block) (hrun : ∀ b, (run b).mem = b.mem) :
    (chanCommand b acc c sub arg ok run).mem = b.mem := by
  unfold chanCommand
  (repeat' split) <;> simp [*]

@[simp] theorem paceRequest_mem (b : Block) (l : Nat) : (paceRequest b l).mem = b.mem := by
  unfold paceRequest
  (repeat' split) <;> simp

@[simp] theorem doorbellDiscard_mem (b : Block) (pid : Nat) : (doorbellDiscard b pid).mem = b.mem := (rfl)

@[simp] theorem doorbell_mem (b : Block) (vf rel : Nat) (limit : Part → Nat) :
    (doorbell b vf rel limit).1.mem = b.mem := by
  unfold doorbell
  grind [doorbellDiscard_mem, count_mem]

@[simp] theorem wakeEvent_mem (b : Block) (cause : Nat) (i : Instr) (f : Block → Block) (hf : ∀ b, (f b).mem = b.mem) :
    (wakeEvent b cause i f).mem = b.mem := by
  unfold wakeEvent
  (repeat' split) <;> simp [*]

@[simp] theorem acceptReq_mem (b : Block) (i : Nat) (r : Req) : (acceptReq b i r).mem = b.mem := by
  unfold acceptReq
  grind [setQp_mem]

@[simp] theorem sendAck_mem (b : Block) (i : Nat) : (sendAck b i).mem = b.mem := by unfold sendAck; simp

@[simp] theorem ackDelay_mem (b : Block) (i : Nat) : (ackDelay b i).mem = b.mem := by
  unfold ackDelay
  grind [sendAck_mem]

@[simp] theorem startRecovery_mem (b : Block) : (startRecovery b).mem = b.mem := (rfl)

@[simp] theorem keyDone_mem (b : Block) (k : Nat) : (keyDone b k).mem = b.mem := (rfl)

@[simp] theorem dropFrames_mem (b : Block) (p : Tx → Bool) : (dropFrames b p).mem = b.mem := by unfold dropFrames; simp

@[simp] theorem quietPorts_mem (b : Block) : (quietPorts b).mem = b.mem := by unfold quietPorts; simp

@[simp] theorem killStation_mem (b : Block) (es : Nat) : (killStation b es).mem = b.mem := by unfold killStation; simp

@[simp] theorem onStationES_mem (b : Block) (es : Nat) (f : Station → Station) : (onStationES b es f).mem = b.mem := (rfl)

@[simp] theorem killStep_mem (b : Block) (s : Step) (k : KillEnd) : (killStep b s k).mem = b.mem := by
  unfold killStep
  grind [foldl_mem, foldl_fst_mem, killStation_mem, onStationES_mem, count_mem, setStep_mem]

@[simp] theorem flushCheck_mem (b : Block) (pid : Nat) : (flushCheck b pid).mem = b.mem := by
  unfold flushCheck
  (repeat' split) <;> simp

@[simp] theorem flushNote_mem (b : Block) (s : Step) : (flushNote b s).mem = b.mem := by
  unfold flushNote
  (repeat' split) <;> simp

@[simp] theorem setRing_mem (b : Block) (pid q : Nat) (l : Option (List Seg)) : (setRing b pid q l).mem = b.mem := (rfl)

@[simp] theorem emitRec_mem (b : Block) (kind pid index : Nat) (sync : Bool) (body : Bytes) :
    (emitRec b kind pid index sync body).mem = b.mem := by
  unfold emitRec
  grind []

@[simp] theorem mirrorNote_mem (b : Block) (kind pid index : Nat) (body : Bytes) :
    (mirrorNote b kind pid index body).mem = b.mem := by
  unfold mirrorNote
  (repeat' split) <;> simp

@[simp] theorem groupState_mem (b : Block) (pid g : Nat) (st : GState) : (groupState b pid g st).mem = b.mem := by
  unfold groupState
  simp

@[simp] theorem stopGroup_mem (b : Block) (pid g : Nat) : (stopGroup b pid g).mem = b.mem := by
  unfold stopGroup
  grind [finishCmd_mem, groupState_mem, setGroup_mem, dropHolders_mem, dropJobs_mem, count_mem]

@[simp] theorem stationLost_mem (b : Block) (es : Nat) : (stationLost b es).mem = b.mem := by
  unfold stationLost
  (repeat' split) <;> simp

@[simp] theorem requeue_mem (b : Block) (p : Nat) : (requeue b p).mem = b.mem := by unfold requeue; simp

@[simp] theorem groupDone_mem (b : Block) (pid g : Nat) : (groupDone b pid g).mem = b.mem := by
  unfold groupDone
  grind [onGroup_mem, groupState_mem, count_mem, msixPart_mem]

@[simp] theorem notePart_mem (b : Block) (pid : Nat) : (notePart b pid).mem = b.mem := by unfold notePart; simp

@[simp] theorem keepForWindow_mem (b : Block) (p : Nat) : (keepForWindow b p).mem = b.mem := by
  unfold keepForWindow
  (repeat' split) <;> simp

@[simp] theorem descriptorRead_mem (b : Block) (base pid sub : Nat) (run : Block → Block) (hrun : ∀ b, (run b).mem = b.mem) :
    (descriptorRead b base pid sub run).mem = b.mem := by
  unfold descriptorRead
  grind [finishCmd_mem, !checkWord_mem]

@[simp] theorem partCommand_mem (b : Block) (acc : Access) (base pid sub arg : Nat) (fails : Block → CmdFails) (run : Block → Block) (hrun : ∀ b, (run b).mem = b.mem) :
    (partCommand b acc base pid sub arg fails run).mem = b.mem := by
  unfold partCommand
  (repeat' split) <;> simp [*]

@[simp] theorem partCommandNow_mem (b : Block) (acc : Access) (base pid sub arg : Nat) (fails : Block → CmdFails)
    (run : Block → Block × Code × Nat) (hrun : ∀ b, (run b).1.mem = b.mem) :
    (partCommandNow b acc base pid sub arg fails run).mem = b.mem :=
  partCommand_mem b acc base pid sub arg fails _ fun b => (finishCmd_mem ..).trans (hrun b)

@[simp] theorem addCmd_mem (b : Block) (acc : Access) (pid sub arg : Nat) (live range : Bool) (f : Part → Part) (detail : Part → Nat) :
    (addCmd b acc pid sub arg live range f detail).mem = b.mem := by
  unfold addCmd
  simp [apply_ite Block.mem, apply_ite Prod.fst]

@[simp] theorem addAttr_mem (b : Block) (acc : Access) (pid arg : Nat) : (addAttr b acc pid arg).mem = b.mem := by
  unfold addAttr
  simp

@[simp] theorem addChannels_mem (b : Block) (acc : Access) (pid arg : Nat) : (addChannels b acc pid arg).mem = b.mem := by
  unfold addChannels
  simp

@[simp] theorem addDue_mem (b : Block) (i : Nat) (c : Cqe) : (addDue b i c).mem = b.mem := (rfl)

@[simp] theorem addEnergy_mem (b : Block) (acc : Access) (pid arg : Nat) : (addEnergy b acc pid arg).mem = b.mem := by
  unfold addEnergy
  simp

@[simp] theorem addEngines_mem (b : Block) (acc : Access) (pid sub arg base : Nat) :
    (addEngines b acc pid sub arg base).mem = b.mem := by
  unfold addEngines
  simp

@[simp] theorem addGranules_mem (b : Block) (acc : Access) (pid arg : Nat) : (addGranules b acc pid arg).mem = b.mem := by
  unfold addGranules
  simp

@[simp] theorem addKeys_mem (b : Block) (acc : Access) (pid arg : Nat) : (addKeys b acc pid arg).mem = b.mem := by
  unfold addKeys
  simp

@[simp] theorem addLinkShare_mem (b : Block) (acc : Access) (pid arg : Nat) :
    (addLinkShare b acc pid arg).mem = b.mem := by
  unfold addLinkShare
  simp

@[simp] theorem addQp_mem (b : Block) (acc : Access) (pid arg : Nat) : (addQp b acc pid arg).mem = b.mem := by
  unfold addQp
  simp

@[simp] theorem addReq_mem (b : Block) (es : Nat) (r : EReq) : (addReq b es r).1.mem = b.mem := (rfl)

@[simp] theorem addSched_mem (b : Block) (acc : Access) (pid arg : Nat) : (addSched b acc pid arg).mem = b.mem := by
  unfold addSched
  simp

@[simp] theorem addVf_mem (b : Block) (acc : Access) (pid arg : Nat) : (addVf b acc pid arg).mem = b.mem := by
  unfold addVf
  simp

@[simp] theorem adopt_mem (b : Block) (w : TagWait) : (adopt b w).mem = b.mem := (rfl)

@[simp] theorem endRun_mem (b : Block) (s : Step) : (endRun b s).mem = b.mem := by
  unfold endRun
  grind [wr_mem, !draw_mem]

@[simp] theorem killedRun_mem (b : Block) (s : Step) : (killedRun b s).mem = b.mem := by unfold killedRun; simp

@[simp] theorem failResults_mem (b : Block) (p : Ctx → Bool) : (failResults b p).mem = b.mem := (rfl)

@[simp] theorem nextEntropy_mem (b : Block) : (nextEntropy b).2.mem = b.mem := (rfl)

@[simp] theorem chipTx_mem (b : Block) (typ chip ext n : Nat) (payload : Bytes) :
    (chipTx b typ chip ext n payload).mem = b.mem := by
  unfold chipTx
  simp

@[simp] theorem sendCredit_mem (b : Block) (chip : Nat) : (sendCredit b chip).mem = b.mem := by
  unfold sendCredit
  (repeat' split) <;> simp

@[simp] theorem grantUnits_mem (b : Block) (rose : List Nat) (x' : Nat) : (grantUnits b rose x').1.mem = b.mem := by
  fun_induction grantUnits <;> grind [setRx_mem]

@[simp] theorem grantCredit_mem (b : Block) : (grantCredit b).mem = b.mem := by
  unfold grantCredit
  dsimp only; (repeat' split) <;> simp [*]

@[simp] theorem freeReserved_mem (b : Block) (n : Nat) : (freeReserved b n).mem = b.mem := by
  unfold freeReserved
  (repeat' split) <;> simp

@[simp] theorem noteQp_mem (b : Block) (i : Nat) : (noteQp b i).mem = b.mem := by
  unfold noteQp
  grind [setQp_mem, mirrorNote_mem]

@[simp] theorem aliasDone_mem (b : Block) : (aliasDone b).mem = b.mem := by
  unfold aliasDone
  grind [foldl_mem, foldl_fst_mem, finishCmd_mem, wr_mem, setShadow_mem]

@[simp] theorem freeFrames_mem (b : Block) (i : Nat) : (freeFrames b i).mem = b.mem := by unfold freeFrames; simp

@[simp] theorem toReset_mem (b : Block) (i : Nat) : (toReset b i).mem = b.mem := by unfold toReset; simp

@[simp] theorem finishQp_mem (b : Block) (i sub : Nat) (c : Code) (detail : Nat) :
    (finishQp b i sub c detail).mem = b.mem := by
  unfold finishQp
  grind [finishCmd_mem]

@[simp] theorem failAsks_mem (b : Block) (i : Nat) (st : Status) : (failAsks b i st).mem = b.mem := by
  unfold failAsks
  grind [foldl_mem, foldl_fst_mem, setQp_mem, putReply_mem]

@[simp] theorem setCtx_mem (b : Block) (pid cx : Nat) (c : CtxSlot) : (setCtx b pid cx c).mem = b.mem := (rfl)

@[simp] theorem dropReq_mem (b : Block) (es num : Nat) : (dropReq b es num).mem = b.mem := by unfold dropReq; simp

@[simp] theorem eqStatus_mem (b : Block) (es : Nat) (st : Status) : (eqStatus b es st).mem = b.mem := (rfl)

@[simp] theorem refuseReq_mem (b : Block) (es : Nat) (r : EReq) (st : Status) : (refuseReq b es r st).mem = b.mem := by
  unfold refuseReq
  simp

@[simp] theorem fenceReq_mem (b : Block) (es : Nat) (r : EReq) : (fenceReq b es r).mem = b.mem := by
  unfold fenceReq
  simp

@[simp] theorem bindStep_mem (b : Block) (es : Nat) : (bindStep b es).mem = b.mem := by
  unfold bindStep
  (repeat' split) <;> simp

@[simp] theorem releaseClusters_mem (b : Block) (s : Step) : (releaseClusters b s).mem = b.mem := by
  unfold releaseClusters
  simp

@[simp] theorem paceNow_mem (b : Block) (es : Nat) (r : EReq) : (paceNow b es r).mem = b.mem := by
  unfold paceNow
  grind [bindStep_mem, paceRequest_mem, count_mem, eqStatus_mem, dropReq_mem]

@[simp] theorem noTarget_mem (b : Block) (es : Nat) (r : EReq) : (noTarget b es r).mem = b.mem := by
  unfold noTarget
  simp

@[simp] theorem lockWait_mem (b : Block) (pa n : Nat) (who : LockWho) : (lockWait b pa n who).mem = b.mem := (rfl)

@[simp] theorem setReq_mem (b : Block) (es : Nat) (r : EReq) : (setReq b es r).mem = b.mem := (rfl)

@[simp] theorem sendNak_mem (b : Block) (i psn : Nat) (st : Status) : (sendNak b i psn st).mem = b.mem := by
  unfold sendNak
  (repeat' split) <;> simp

@[simp] theorem enterError_mem (b : Block) (i : Nat) (st : Status) (msn : Nat) : (enterError b i st msn).mem = b.mem := by
  unfold enterError
  simp

@[simp] theorem qpError_mem (b : Block) (i : Nat) (st : Status) (msn : Nat) : (qpError b i st msn).mem = b.mem := by
  unfold qpError
  grind [enterError_mem]

@[simp] theorem refuse_mem (b : Block) (i psn msn : Nat) (st : Status) : (refuse b i psn msn st).mem = b.mem := by
  unfold refuse
  simp

@[simp] theorem freeSlot_mem (b : Block) : (freeSlot b).mem = b.mem := by unfold freeSlot; simp

@[simp] theorem dropWork_mem (b : Block) (w : Work) : (dropWork b w).mem = b.mem := by
  unfold dropWork
  (repeat' split) <;> simp

@[simp] theorem workRefuse_mem (b : Block) (w : Work) (psn : Nat) (st : Status) :
    (workRefuse b w psn st).mem = b.mem := by
  unfold workRefuse
  (repeat' split) <;> simp

@[simp] theorem paceTransport_mem (b : Block) (qp : Nat) (send : Bool) : (paceTransport b qp send).mem = b.mem := by
  unfold paceTransport
  simp

@[simp] theorem retire_mem (b : Block) (i : Nat) (x' : Nat) : (retire b i x').mem = b.mem := by
  fun_induction retire <;> grind [addDue_mem, paceTransport_mem, setQp_mem]

@[simp] theorem finishMsg_mem (b : Block) (i : Nat) (m : SendMsg) (st : Status) (rstat result : Nat) :
    (finishMsg b i m st rstat result).mem = b.mem := by
  unfold finishMsg
  (repeat' split) <;> simp

@[simp] theorem responseFail_mem (b : Block) (i : Nat) (m : SendMsg) (st : Status) :
    (responseFail b i m st).mem = b.mem := by
  unfold responseFail
  simp

@[simp] theorem fenceWork_mem (b : Block) (w : Work) : (fenceWork b w).mem = b.mem := by
  unfold fenceWork
  grind [workRefuse_mem, dropWork_mem, responseFail_mem, abandon_mem]

@[simp] theorem dropApp_mem (b : Block) (a : App) : (dropApp b a).mem = b.mem := by
  unfold dropApp
  (repeat' split) <;> simp

@[simp] theorem setPortState_mem (b : Block) (p v : Nat) : (setPortState b p v).mem = b.mem := by
  unfold setPortState
  (repeat' split) <;> simp

@[simp] theorem portLink_mem (b : Block) (p : Nat) (up deg : Bool) : (portLink b p up deg).mem = b.mem := by
  unfold portLink
  grind [setPortState_mem, setPort_mem]

@[simp] theorem resetReed_mem (b : Block) : (resetReed b).mem = b.mem := by
  unfold resetReed
  grind [foldl_mem, foldl_fst_mem, finishCmd_mem, !draw_mem]

@[simp] theorem skimClose_mem (b : Block) (st : Nat) : (skimClose b st).mem = b.mem := by unfold skimClose; simp

@[simp] theorem emitAcct_mem (b : Block) (pid : Nat) (sync : Bool) : (emitAcct b pid sync).mem = b.mem := by
  unfold emitAcct
  simp

@[simp] theorem emitGroup_mem (b : Block) (pid g : Nat) (sync : Bool) : (emitGroup b pid g sync).mem = b.mem := by
  unfold emitGroup
  simp

@[simp] theorem emitQp_mem (b : Block) (pid i : Nat) (sync : Bool) : (emitQp b pid i sync).mem = b.mem := by
  unfold emitQp
  simp

@[simp] theorem emitKey_mem (b : Block) (pid j : Nat) (sync : Bool) : (emitKey b pid j sync).mem = b.mem := by
  unfold emitKey
  simp

@[simp] theorem emitCtx_mem (b : Block) (pid cx : Nat) (sync : Bool) : (emitCtx b pid cx sync).mem = b.mem := by
  unfold emitCtx
  simp

@[simp] theorem emitPart_mem (b : Block) (pid : Nat) (sync : Bool) : (emitPart b pid sync).mem = b.mem := by
  unfold emitPart
  simp

@[simp] theorem copyPart_mem (b : Block) (pid : Nat) : (copyPart b pid).mem = b.mem := by unfold copyPart; simp

@[simp] theorem syncCheck_mem (b : Block) : (syncCheck b).mem = b.mem := by
  unfold syncCheck
  grind [wr_mem, finishCmd_mem]

@[simp] theorem clearMirror_mem (b : Block) : (clearMirror b).mem = b.mem := (rfl)

@[simp] theorem startCopy_mem (b : Block) : (startCopy b).mem = b.mem := by unfold startCopy; simp

@[simp] theorem mirrorReset_mem (b : Block) : (mirrorReset b).mem = b.mem := by
  unfold mirrorReset
  grind [startCopy_mem, clearMirror_mem]

@[simp] theorem resetSsu_mem (b : Block) : (resetSsu b).mem = b.mem := by
  unfold resetSsu
  grind [foldl_mem, foldl_fst_mem, dropHolders_mem, writeBack_mem, !parentUse_mem, !nodeUse_mem]

@[simp] theorem setKey_mem (b : Block) (i : Nat) (k : Key) : (setKey b i k).mem = b.mem := by unfold setKey; simp

@[simp] theorem finishKey_mem (b : Block) (j detail : Nat) : (finishKey b j detail).mem = b.mem := by
  unfold finishKey
  grind [finishCmd_mem]

@[simp] theorem freeKey_mem (b : Block) (j detail : Nat) : (freeKey b j detail).mem = b.mem := by unfold freeKey; simp

@[simp] theorem resetTpe_mem (b : Block) : (resetTpe b).mem = b.mem := by
  unfold resetTpe
  grind [foldl_mem, foldl_fst_mem, freeKey_mem, qpError_mem, enterError_mem, finishQp_mem, failAsks_mem, onQp_mem, dropWork_mem, freeSlot_mem, keyDone_mem, abandon_mem]

@[simp] theorem resetTxh_mem (b : Block) : (resetTxh b).mem = b.mem := by unfold resetTxh; simp

@[simp] theorem finishDom_mem (b : Block) (sub arg : Nat) (c : Code) : (finishDom b sub arg c).mem = b.mem := by
  unfold finishDom
  (repeat' split) <;> simp

@[simp] theorem goOut_mem (b : Block) (key : Nat) : (goOut b key).mem = b.mem := by
  unfold goOut
  (repeat' split) <;> simp

@[simp] theorem readSent_mem (b : Block) (t : Tx) : (readSent b t).mem = b.mem := by
  unfold readSent
  grind [keyDone_mem]

@[simp] theorem spendCredit_mem (b : Block) (chip tc : Nat) : (spendCredit b chip tc).mem = b.mem := (rfl)

@[simp] theorem afterSend_mem (b : Block) (p : Nat) (t : Tx) (ctr : Nat) : (afterSend b p t ctr).mem = b.mem := by
  unfold afterSend
  (repeat' split) <;> simp

@[simp] theorem tearWqe_mem (b : Block) (i wqe : Nat) (st : Status) : (tearWqe b i wqe st).mem = b.mem := by
  unfold tearWqe
  simp

@[simp] theorem qpWordBad_mem (b : Block) (i : Nat) : (qpWordBad b i).1.mem = b.mem := by unfold qpWordBad; simp

@[simp] theorem copyFail_mem (b : Block) (i : Nat) (st : Status) : (copyFail b i st).mem = b.mem := by
  unfold copyFail
  grind [finishMsg_mem, qpError_mem, onQp_mem]

@[simp] theorem wqeFail_mem (b : Block) (i wqe : Nat) (st : Status) : (wqeFail b i wqe st).mem = b.mem := by
  unfold wqeFail
  simp

@[simp] theorem failMsgs_mem (b : Block) (i : Nat) (p : SendMsg → Bool) (st : Status) :
    (failMsgs b i p st).mem = b.mem := by
  unfold failMsgs
  simp

@[simp] theorem stepDone_mem (b : Block) (n : Nat) : (stepDone b n).mem = b.mem := (rfl)

@[simp] theorem alignCheck_mem (b : Block) : (alignCheck b).mem = b.mem := by
  unfold alignCheck
  (repeat' split) <;> simp

@[simp] theorem annealComplete_mem (b : Block) : (annealComplete b).mem = b.mem := by unfold annealComplete; simp

@[simp] theorem annealLines_mem (b : Block) (f : Nat) (x : TreeNode) (ans : List LineAnswer) :
    (annealLines b f x ans).mem = b.mem := by
  unfold annealLines
  grind [foldl_mem, foldl_fst_mem, count_mem, secAlarm_mem, writePoison_mem, writeLine_mem]

@[simp] theorem appQueue_mem (b : Block) (a : App) : (appQueue b a).mem = b.mem := by
  unfold appQueue
  grind [lockWait_mem, setApp_mem, lock_mem]

@[simp] theorem openResult_mem (b : Block) (fixed : Option Nat) (ok : Nat → Bool) (near : Nat) :
    (openResult b fixed ok near).1.mem = b.mem := by
  unfold openResult
  grind [!draw_mem]

@[simp] theorem specialOp_mem (b : Block) (opc a : Nat) : (specialOp b opc a).1.mem = b.mem := by
  unfold specialOp
  (repeat' split) <;> simp

@[simp] theorem laneStep_mem (b : Block) (img opc : Nat) (o : RunnerOp) (l : Lane) :
    (laneStep b img opc o l).1.mem = b.mem := by
  unfold laneStep
  grind [!specialOp_mem]

@[simp] theorem bundleStep_mem (b : Block) (img opc : Nat) (o : RunnerOp) (lanes : List Lane) :
    (bundleStep b img opc o lanes).1.mem = b.mem := by
  unfold bundleStep
  dsimp only; (repeat' split) <;> simp [*]

@[simp] theorem arrivalBundle_mem (b : Block) (img : Nat) (lanes : List Lane) :
    (arrivalBundle b img lanes).1.mem = b.mem := by
  unfold arrivalBundle
  simp

@[simp] theorem arrivalRun_mem (b : Block) (r img contrib slot : Nat) (k : Nat) (vs : List Nat) (x' : Nat) :
    (arrivalRun b r img contrib slot k vs x').1.mem = b.mem := by
  fun_induction arrivalRun <;> grind [!arrivalBundle_mem]

@[simp] theorem cacheBit_mem (b : Block) (a : App) : (cacheBit b a).mem = b.mem := (rfl)

@[simp] theorem reportPlaced_mem (b : Block) (i : Nat) (ackreq : Bool) : (reportPlaced b i ackreq).mem = b.mem := by
  unfold reportPlaced
  grind [sendAck_mem, setQp_mem]

@[simp] theorem messageDone_mem (b : Block) (i slot : Nat) : (messageDone b i slot).mem = b.mem := by
  unfold messageDone
  grind [noteQp_mem, onQp_mem, addDue_mem, paceTransport_mem, setQp_mem]

@[simp] theorem countPlaced_mem (b : Block) (i psn msn len : Nat) (ackreq : Bool) :
    (countPlaced b i psn msn len ackreq).mem = b.mem := by
  unfold countPlaced
  grind [reportPlaced_mem, messageDone_mem, setQp_mem]

@[simp] theorem placeReduce_mem (b : Block) (a : App) : (placeReduce b a).mem = b.mem := by
  unfold placeReduce
  grind [onGroup_mem, freeSlot_mem, keyDone_mem, countPlaced_mem]

@[simp] theorem ledgerHit_mem (b : Block) (a : App) : (ledgerHit b a).mem = b.mem := by unfold ledgerHit; simp

@[simp] theorem memoryUe_mem (b : Block) (bad : Bool) (pa pid : Nat) : (memoryUe b bad pa pid).mem = b.mem := by
  unfold memoryUe
  grind [raise_mem, !draw_mem]

@[simp] theorem retryHeld_mem (b : Block) : (retryHeld b).mem = b.mem := by unfold retryHeld; simp

@[simp] theorem injectModeSet_mem (b : Block) (old : Nat) : (injectModeSet b old).mem = b.mem := by
  unfold injectModeSet
  (repeat' split) <;> simp

@[simp] theorem injectLocked_mem (b : Block) : (injectLocked b).mem = b.mem := by
  unfold injectLocked
  (repeat' split) <;> simp

@[simp] theorem shadowWrite_mem (b : Block) (pp sub v : Nat) : (shadowWrite b pp sub v).1.mem = b.mem := by
  unfold shadowWrite
  grind [wr_mem, setShadow_mem]

@[simp] theorem mirrorEnableSet_mem (b : Block) (pid old : Nat) : (mirrorEnableSet b pid old).mem = b.mem := by
  unfold mirrorEnableSet
  (repeat' split) <;> simp

@[simp] theorem sourceWritten_mem (b : Block) (s : Nat) : (sourceWritten b s).mem = b.mem := (rfl)

@[simp] theorem faultRise_mem (b : Block) : (faultRise b).mem = b.mem := by unfold faultRise; (repeat' split) <;> simp

@[simp] theorem setGroupLimit_mem (b : Block) (pid v : Nat) : (setGroupLimit b pid v).mem = b.mem := (rfl)

@[simp] theorem chanEnable_mem (b : Block) (c v : Nat) : (chanEnable b c v).mem = b.mem := by
  unfold chanEnable
  (repeat' split) <;> simp

@[simp] theorem logEnable_mem (b : Block) (pid v : Nat) : (logEnable b pid v).mem = b.mem := by
  unfold logEnable
  grind [setPart_mem, wr_mem]

@[simp] theorem clearCounter_mem (b : Block) (idx sub : Nat) : (clearCounter b idx sub).mem = b.mem := by
  unfold clearCounter
  (repeat' split) <;> simp

@[simp] theorem sendMirrorAck_mem (b : Block) : (sendMirrorAck b).mem = b.mem := (rfl)

@[simp] theorem shadowRecord_mem (b : Block) (r : MRec) : (shadowRecord b r).1.mem = b.mem := by
  unfold shadowRecord
  grind [wr_mem, setShadow_mem]

@[simp] theorem applyRecord_mem (b : Block) (r : MRec) : (applyRecord b r).mem = b.mem := by
  unfold applyRecord
  dsimp only
  split
  · rfl
  · simp [apply_ite Block.mem, apply_ite Prod.fst, shadowRecord_mem]

@[simp] theorem emitLatest_mem (b : Block) (x : MirrorMark) : (emitLatest b x).mem = b.mem := by
  unfold emitLatest
  dsimp only; (repeat' split) <;> simp [*]

@[simp] theorem emitMark_mem (b : Block) (x : MirrorMark) : (emitMark b x).mem = b.mem := by unfold emitMark; simp

@[simp] theorem pumpMarks_mem (b : Block) : (pumpMarks b).mem = b.mem := by unfold pumpMarks; simp

@[simp] theorem mirrorAck_mem (b : Block) (n : Nat) : (mirrorAck b n).mem = b.mem := by
  unfold mirrorAck
  grind [wr_mem, progressedBy_mem, pumpMarks_mem, syncCheck_mem]

@[simp] theorem applyRecords_mem (b : Block) (pay : Bytes) (off : Nat) (x' : Nat) :
    (applyRecords b pay off x').mem = b.mem := by
  fun_induction applyRecords <;> grind [applyRecord_mem, mirrorAck_mem]

theorem arrive_mem {b b' : Block} {h : Holder} {segs : List Seg} {ans : Answer} {len : Nat} {st : Status} {d : Nat}
    (e : arrive b h segs ans len = some (b', st, d)) : b'.mem = b.mem := by
  unfold arrive at e
  split at e
  · cases e
  split at e
  · dsimp only at e
    simp only [Option.some.injEq, Prod.mk.injEq] at e
    rw [← e.1]
    simp
    split <;> split <;> simp
  · cases e

@[simp] theorem atStation_mem (b : Block) (es : Nat) (f : Block → Block) (hf : ∀ b, (f b).mem = b.mem) :
    (atStation b es f).mem = b.mem := by
  unfold atStation
  (repeat' split) <;> simp [*]

@[simp] theorem atomicResp_mem (b : Block) (i psn original : Nat) : (atomicResp b i psn original).mem = b.mem := by
  unfold atomicResp
  simp

@[simp] theorem atomicDone_mem (b : Block) (w : Work) (old : Nat) : (atomicDone b w old).mem = b.mem := by
  unfold atomicDone
  grind [atomicResp_mem, reportPlaced_mem, noteQp_mem, setQp_mem, mirrorNote_mem, dropWork_mem, keyDone_mem, freeSlot_mem]

@[simp] theorem doorbellWrite_mem (b : Block) (vf off width : Nat) (run : Block → Nat → Block)
    (hrun : ∀ b n, (run b n).mem = b.mem) : (doorbellWrite b vf off width run).mem = b.mem := by
  unfold doorbellWrite
  split
  · exact hrun ..
  · exact doorbellDiscard_mem ..

@[simp] theorem doneClear_mem (b : Block) (s width value : Nat) : (doneClear b s width value).mem = b.mem := by
  unfold doneClear
  (repeat' split) <;> simp

@[simp] theorem failCmd_mem (b : Block) (pid sub : Nat) (st : Status) : (failCmd b pid sub st).mem = b.mem := by
  unfold failCmd
  simp

@[simp] theorem hostRefused_mem (b : Block) (pid sub : Nat) : (hostRefused b pid sub).mem = b.mem := by
  unfold hostRefused
  simp

@[simp] theorem readCount_mem (b : Block) (w : Work) (bytes rcq new : Nat) :
    (readCount b w bytes rcq new).mem = b.mem := by
  unfold readCount
  grind [setQp_mem, noteQp_mem]

@[simp] theorem readTaken_mem (b : Block) (w : Work) (segs : List Seg) : (readTaken b w segs).mem = b.mem := by
  unfold readTaken
  simp

@[simp] theorem invPublish_mem (b : Block) (s : Nat) (r : InvRec) : (invPublish b s r).mem = b.mem := by
  unfold invPublish
  grind [emit_mem, setInv_mem, count_mem]

@[simp] theorem invRejects_mem (b : Block) (s : Nat) (x' : Nat) : (invRejects b s x').mem = b.mem := by
  fun_induction invRejects <;> simp_all

@[simp] theorem vectorWrite_mem (b : Block) (fn off width v : Nat) : (vectorWrite b fn off width v).mem = b.mem := by
  unfold vectorWrite
  grind [msix_mem]

@[simp] theorem shortReq_mem (b : Block) (fn slot : Nat) : (shortReq b fn slot).mem = b.mem := (rfl)

@[simp] theorem opReserved_mem (b : Block) (acc : Access) (idx sub op : Nat) :
    (opReserved b acc idx sub op).mem = b.mem := by
  unfold opReserved
  grind [answer_mem, busAccess_mem]

@[simp] theorem touchXfer_mem (b : Block) (acc : Access) (idx sub : Nat) : (touchXfer b acc idx sub).mem = b.mem := by
  unfold touchXfer
  (repeat' split) <;> simp

@[simp] theorem blobOp_mem (b : Block) (acc : Access) (idx sub : Nat) (write : Bool) (f : Block → Block) (hf : ∀ b, (f b).mem = b.mem) :
    (blobOp b acc idx sub write f).mem = b.mem := by
  unfold blobOp
  grind [answer_mem, busAccess_mem]

@[simp] theorem blobOwned_mem (b : Block) (acc : Access) (idx sub : Nat) (range : Transfer → Bool) (f : Block → Transfer → Block)
    (hf : ∀ b t, (f b t).mem = b.mem) : (blobOwned b acc idx sub range f).mem = b.mem := by
  refine (blobOp_mem _ acc idx sub true _ fun b => ?_).trans (touchXfer_mem b acc idx sub)
  split
  · exact answer_mem ..
  · simp [apply_ite Block.mem, hf]

@[simp] theorem blobAbort_mem (b : Block) (acc : Access) (idx sub : Nat) : (blobAbort b acc idx sub).mem = b.mem := by
  unfold blobAbort
  simp

@[simp] theorem blobRead_mem (b : Block) (acc : Access) (idx sub n : Nat) : (blobRead b acc idx sub n).mem = b.mem := by
  unfold blobRead
  grind [respond_mem, answer_mem, blobOp_mem]

@[simp] theorem goQuiet_mem (b : Block) (chip : Nat) : (goQuiet b chip).mem = b.mem := by
  unfold goQuiet
  (repeat' split) <;> simp

@[simp] theorem finishResync_mem (b : Block) (chip : Nat) (c : Code) : (finishResync b chip c).mem = b.mem := by
  unfold finishResync
  (repeat' split) <;> simp

@[simp] theorem peersChanged_mem (b : Block) (old : Nat) : (peersChanged b old).mem = b.mem := by
  unfold peersChanged
  grind [foldl_mem, foldl_fst_mem, goQuiet_mem, finishResync_mem, setRx_mem]

@[simp] theorem blobCommit_mem (b : Block) (idx sub : Nat) (c : Bytes) : (blobCommit b idx sub c).mem = b.mem := by
  unfold blobCommit
  grind [foldl_mem, foldl_fst_mem, retryHeld_mem, peersChanged_mem, grantCredit_mem, setPace_mem, wrBlob_mem, storeImage_mem]

@[simp] theorem blobEnd_mem (b : Block) (acc : Access) (idx sub : Nat) : (blobEnd b acc idx sub).mem = b.mem := by
  unfold blobEnd
  simp [apply_ite Block.mem, apply_ite Prod.fst]

@[simp] theorem blobSeg_mem (b : Block) (acc : Access) (idx sub n : Nat) (data : Bytes) :
    (blobSeg b acc idx sub n data).mem = b.mem := by
  unfold blobSeg
  simp

@[simp] theorem blobBegin_mem (b : Block) (acc : Access) (idx sub len : Nat) :
    (blobBegin b acc idx sub len).mem = b.mem := by
  unfold blobBegin
  grind [setXfer_mem, answer_mem, blobOp_mem]

@[simp] theorem unloadNow_mem (b : Block) (pid p : Nat) : (unloadNow b pid p).mem = b.mem := by unfold unloadNow; simp

@[simp] theorem progUnloadCmd_mem (b : Block) (acc : Access) (pid arg : Nat) :
    (progUnloadCmd b acc pid arg).mem = b.mem := by
  unfold progUnloadCmd
  grind [unloadNow_mem, partCommand_mem]

@[simp] theorem groupAbortCmd_mem (b : Block) (acc : Access) (pid arg : Nat) :
    (groupAbortCmd b acc pid arg).mem = b.mem := by
  unfold groupAbortCmd
  simp

@[simp] theorem revokeKey_mem (b : Block) (j : Nat) : (revokeKey b j).mem = b.mem := by
  unfold revokeKey
  grind [setKey_mem]

@[simp] theorem keyWordBad_mem (b : Block) (j : Nat) : (keyWordBad b j).1.mem = b.mem := by unfold keyWordBad; simp

@[simp] theorem objectRead_mem (b : Block) (pid sub arg : Nat) (run : Block → Block) (hrun : ∀ b, (run b).mem = b.mem) :
    (objectRead b pid sub arg run).mem = b.mem := by
  unfold objectRead
  grind [finishCmd_mem, !qpWordBad_mem, !keyWordBad_mem]

@[simp] theorem inOrder_mem (b : Block) (pid sub arg : Nat) (run : Block → Block) (hrun : ∀ b, (run b).mem = b.mem) :
    (inOrder b pid sub arg run).mem = b.mem := by
  unfold inOrder
  (repeat' split) <;> simp [*]

@[simp] theorem keyRevokeCmd_mem (b : Block) (acc : Access) (pid arg : Nat) :
    (keyRevokeCmd b acc pid arg).mem = b.mem := by
  unfold keyRevokeCmd
  simp

@[simp] theorem quietTx_mem (b : Block) (i : Nat) : (quietTx b i).mem = b.mem := by unfold quietTx; simp

@[simp] theorem setRoot1_mem (b : Block) (pid cx : Nat) (root : Option Nat) :
    (setRoot1 b pid cx root).mem = b.mem := (rfl)

@[simp] theorem refuseReqs_mem (b : Block) (p : Ctx → Bool) (st : Status) (also : Bool) :
    (refuseReqs b p st also).mem = b.mem := by
  unfold refuseReqs
  grind [foldl_mem, foldl_fst_mem, abandon_mem, refuseReq_mem]

@[simp] theorem changeCtx_mem (b : Block) (pid cx : Nat) (c : CtxSlot) : (changeCtx b pid cx c).mem = b.mem := by
  unfold changeCtx
  simp

@[simp] theorem ctxOpenCmd_mem (b : Block) (acc : Access) (pid arg : Nat) : (ctxOpenCmd b acc pid arg).mem = b.mem := by
  unfold ctxOpenCmd
  simp

@[simp] theorem freePid_mem (b : Block) (pid : Nat) : (freePid b pid).mem = b.mem := (rfl)

@[simp] theorem releaseCmd_mem (b : Block) (acc : Access) (pid arg : Nat) : (releaseCmd b acc pid arg).mem = b.mem := by
  unfold releaseCmd
  grind [freePid_mem, finishCmd_mem, partCommand_mem]

@[simp] theorem undoTenant_mem (b : Block) (pid : Nat) (c : PendCmd) : (undoTenant b pid c).mem = b.mem := by
  unfold undoTenant
  grind [onGroup_mem, onQp_mem, setRoot1_mem]

@[simp] theorem unloadWaiting_mem (b : Block) (pid : Nat) : (unloadWaiting b pid).mem = b.mem := by
  unfold unloadWaiting
  (repeat' split) <;> simp

@[simp] theorem dropTenant_mem (b : Block) (pid : Nat) : (dropTenant b pid).mem = b.mem := by unfold dropTenant; simp

@[simp] theorem claim_mem (b : Block) (pid : Nat) : (claim b pid).mem = b.mem := by
  unfold claim
  dsimp only; (repeat' split) <;> simp [*]

@[simp] theorem commitRun_mem (b : Block) (pid : Nat) : (commitRun b pid).1.mem = b.mem := by
  unfold commitRun
  (repeat' split) <;> simp

@[simp] theorem partitionCommit_mem (b : Block) (acc : Access) (pid arg : Nat) :
    (partitionCommit b acc pid arg).mem = b.mem := by
  unfold partitionCommit
  simp

@[simp] theorem chanterDefaults_mem (b : Block) (p : Nat) : (chanterDefaults b p).mem = b.mem := by
  unfold chanterDefaults
  simp

@[simp] theorem clearObjs_mem (b : Block) (idxs keep : List Nat) : (clearObjs b idxs keep).mem = b.mem := (rfl)

@[simp] theorem create_mem (b : Block) (acc : Access) (pid arg : Nat) : (create b acc pid arg).mem = b.mem := by
  unfold create
  simp

@[simp] theorem injectEventCmd_mem (b : Block) (acc : Access) (arg : Nat) : (injectEventCmd b acc arg).mem = b.mem := by
  unfold injectEventCmd
  grind [finishCmd_mem, count_mem, raiseEvent_mem, command_mem]

@[simp] theorem readyCheck_mem (b : Block) : (readyCheck b).mem = b.mem := by
  unfold readyCheck
  dsimp only; (repeat' split) <;> simp [*]

@[simp] theorem commandNow_mem (b : Block) (acc : Access) (idx sub arg : Nat) (fails : Block → CmdFails)
    (run : Block → Block × Code × Nat) (hrun : ∀ b, (run b).1.mem = b.mem) :
    (commandNow b acc idx sub arg fails run).mem = b.mem :=
  command_mem b acc idx sub arg fails _ fun b => (finishCmd_mem ..).trans (hrun b)

@[simp] theorem keysDone_mem (b : Block) (acc : Access) (arg : Nat) : (keysDone b acc arg).mem = b.mem := by
  unfold keysDone
  simp

@[simp] theorem holdEnter_mem (b : Block) (acc : Access) (arg : Nat) : (holdEnter b acc arg).mem = b.mem := by
  unfold holdEnter
  grind [wr_mem, finishCmd_mem, command_mem]

@[simp] theorem takeKey_mem (b : Block) (pp j n : Nat) : (takeKey b pp j n).mem = b.mem := by
  unfold takeKey
  grind [setKey_mem]

@[simp] theorem refuseShadow_mem (b : Block) (pp : Nat) : (refuseShadow b pp).mem = b.mem := by
  unfold refuseShadow
  (repeat' split) <;> simp

@[simp] theorem mirrorStop_mem (b : Block) (acc : Access) (arg : Nat) : (mirrorStop b acc arg).mem = b.mem := by
  unfold mirrorStop
  simp

@[simp] theorem mirrorStart_mem (b : Block) (acc : Access) (arg : Nat) : (mirrorStart b acc arg).mem = b.mem := by
  unfold mirrorStart
  simp

@[simp] theorem skimRelease_mem (b : Block) (acc : Access) (arg : Nat) : (skimRelease b acc arg).mem = b.mem := by
  unfold skimRelease
  simp

@[simp] theorem skimStart_mem (b : Block) (trig : Nat) : (skimStart b trig).mem = b.mem := (rfl)

@[simp] theorem skimStartCmd_mem (b : Block) (acc : Access) (arg : Nat) : (skimStartCmd b acc arg).mem = b.mem := by
  unfold skimStartCmd
  grind [finishCmd_mem, skimStart_mem, command_mem]

@[simp] theorem finishWaits_mem (b : Block) (q : Nat) : (finishWaits b q).mem = b.mem := by
  refine foldl_mem _ (fun b sub => ?_) _ b
  split
  · dsimp only
    split
    · exact finishCmd_mem ..
    · rfl
  · rfl

@[simp] theorem faultWait_mem (b : Block) (acc : Access) (sub arg : Nat) (rights : Bool) :
    (faultWait b acc sub arg rights).mem = b.mem := by
  unfold faultWait
  grind [finishWaits_mem, command_mem]

@[simp] theorem recoverBlock_mem (b : Block) (acc : Access) (arg : Nat) : (recoverBlock b acc arg).mem = b.mem := by
  unfold recoverBlock
  simp

@[simp] theorem faultLRelease_mem (b : Block) (acc : Access) (arg : Nat) : (faultLRelease b acc arg).mem = b.mem := by
  unfold faultLRelease
  simp

@[simp] theorem spillInit_mem (b : Block) (acc : Access) (arg : Nat) : (spillInit b acc arg).mem = b.mem := by
  unfold spillInit
  simp

@[simp] theorem linkKeyDestroy_mem (b : Block) (acc : Access) (arg : Nat) : (linkKeyDestroy b acc arg).mem = b.mem := by
  unfold linkKeyDestroy
  simp

@[simp] theorem spillKeyDestroy_mem (b : Block) (acc : Access) (arg : Nat) : (spillKeyDestroy b acc arg).mem = b.mem := by
  unfold spillKeyDestroy
  simp

@[simp] theorem linkKeySwitch_mem (b : Block) (acc : Access) (arg : Nat) : (linkKeySwitch b acc arg).mem = b.mem := by
  unfold linkKeySwitch
  simp

@[simp] theorem linkKeyInstall_mem (b : Block) (acc : Access) (arg : Nat) : (linkKeyInstall b acc arg).mem = b.mem := by
  unfold linkKeyInstall
  simp [apply_ite Block.mem, apply_ite Prod.fst]

@[simp] theorem spillKeyInstall_mem (b : Block) (acc : Access) (arg : Nat) : (spillKeyInstall b acc arg).mem = b.mem := by
  unfold spillKeyInstall
  grind [wr_mem, setRingKeys_mem, finishCmd_mem, command_mem]

@[simp] theorem creditResyncCmd_mem (b : Block) (acc : Access) (arg : Nat) : (creditResyncCmd b acc arg).mem = b.mem := by
  unfold creditResyncCmd
  simp

@[simp] theorem paceResetCmd_mem (b : Block) (acc : Access) (arg : Nat) : (paceResetCmd b acc arg).mem = b.mem := by
  unfold paceResetCmd
  simp

@[simp] theorem restoreDefaults_mem (b : Block) (acc : Access) (arg : Nat) : (restoreDefaults b acc arg).mem = b.mem := by
  unfold restoreDefaults
  simp

@[simp] theorem persistSave_mem (b : Block) (acc : Access) (arg : Nat) : (persistSave b acc arg).mem = b.mem := by
  unfold persistSave
  simp [apply_ite Block.mem, apply_ite Prod.fst]

@[simp] theorem opRead_mem (b : Block) (acc : Access) (idx sub size : Nat) : (opRead b acc idx sub size).mem = b.mem := by
  unfold opRead
  grind [respond_mem, answer_mem, busAccess_mem]

@[simp] theorem streamAdmit_mem (b : Block) (j : Job) (r s pa : Nat) : (streamAdmit b j r s pa).1.mem = b.mem := by
  unfold streamAdmit
  grind [!msAdmit_mem]

@[simp] theorem loadLane_mem (b : Block) (x : Group) (j : Job) (s : Nat) (u : Bound) (i : Nat) :
    (loadLane b x j s u i).1.mem = b.mem := by
  unfold loadLane
  grind [!draw_mem, !streamAdmit_mem]

@[simp] theorem bcastWords_mem (b : Block) (x : Group) (j : Job) (x' : List Bound) :
    (bcastWords b x j x').1.mem = b.mem := by
  fun_induction bcastWords <;> grind [!loadLane_mem]

@[simp] theorem blobAbandon_mem (b : Block) (idx sub : Nat) : (blobAbandon b idx sub).mem = b.mem := by
  unfold blobAbandon
  (repeat' split) <;> simp

@[simp] theorem loadLanes_mem (b : Block) (x : Group) (j : Job) : (loadLanes b x j).1.mem = b.mem := by
  unfold loadLanes
  grind [foldl_mem, foldl_fst_mem, !draw_mem, !msAdmit_mem]

@[simp] theorem burstDone_mem (b : Block) (c n : Nat) : (burstDone b c n).mem = b.mem := (rfl)

@[simp] theorem castPlain_mem (b : Block) (r first : Nat) (vs : List Nat) : (castPlain b r first vs).1.mem = b.mem := by
  unfold castPlain
  grind [!draw_mem]

@[simp] theorem castAll_mem (b : Block) (r first : Nat) (vs : List Nat) (acc : Bytes × Nat × Nat) (x' : Nat) :
    (castAll b r first vs acc x').1.mem = b.mem := by
  fun_induction castAll <;> grind [!castPlain_mem]

@[simp] theorem castRead_mem (b : Block) (x : Group) (pid : Nat) (slot : Nat) (vs : List Nat) (x' : Nat) :
    (castRead b x pid slot vs x').1.mem = b.mem := by
  fun_induction castRead <;> grind [addTo_mem, !msAdmit_mem]

@[simp] theorem chanDefaults_mem (b : Block) (c : Nat) : (chanDefaults b c).mem = b.mem := by unfold chanDefaults; simp

@[simp] theorem chanterGone_mem (b : Block) (p : Nat) : (chanterGone b p).mem = b.mem := (rfl)

@[simp] theorem chanterTick_mem (b : Block) : (chanterTick b).mem = b.mem := by
  unfold chanterTick
  grind [foldl_mem, foldl_fst_mem, setStep_mem, addTo_mem]

@[simp] theorem startStep_mem (b : Block) (s : Step) : (startStep b s).mem = b.mem := by unfold startStep; simp

@[simp] theorem dispatch_mem (b : Block) (s : Step) (cs : List Nat) : (dispatch b s cs).mem = b.mem := by
  unfold dispatch
  dsimp only; (repeat' split) <;> simp [*]

@[simp] theorem choose_mem (b : Block) (x' : Nat) : (choose b x').mem = b.mem := by fun_induction choose <;> simp_all

@[simp] theorem readyMs_mem (b : Block) (ms : Nat) : (readyMs b ms).mem = b.mem := (rfl)

@[simp] theorem completeAcked_mem (b : Block) (i : Nat) (x' : Nat) : (completeAcked b i x').mem = b.mem := by
  fun_induction completeAcked <;> simp_all

@[simp] theorem freeTracker_mem (b : Block) (i : Nat) (slot : Option Nat) : (freeTracker b i slot).mem = b.mem := by
  unfold freeTracker
  (repeat' split) <;> simp

@[simp] theorem completionFail_mem (b : Block) (i : Nat) (st : Status) : (completionFail b i st).mem = b.mem := by
  unfold completionFail
  grind [qpError_mem, setQp_mem, freeTracker_mem]

@[simp] theorem coreLockLoss_mem (b : Block) : (coreLockLoss b).mem = b.mem := by
  unfold coreLockLoss
  grind [raiseFree_mem]

@[simp] theorem countArrival_mem (b : Block) (p : Nat) (f : Frame) : (countArrival b p f).mem = b.mem := (rfl)

@[simp] theorem countEvent_mem (b : Block) (s : Nat) : (countEvent b s).1.mem = b.mem := by
  unfold countEvent
  grind [wr_mem, count_mem]

@[simp] theorem countExpiry_mem (b : Block) (s : Nat) : (countExpiry b s).mem = b.mem := by
  unfold countExpiry
  (repeat' split) <;> simp

@[simp] theorem creditArrival_mem (b : Block) (p chip c : Nat) : (creditArrival b p chip c).1.mem = b.mem := by
  unfold creditArrival
  grind [grantCredit_mem, setRx_mem, countSat_mem, raiseFree_mem]

@[simp] theorem creditIdle_mem (b : Block) (chip : Nat) : (creditIdle b chip).mem = b.mem := by
  unfold creditIdle
  (repeat' split) <;> simp

@[simp] theorem noteCredit_mem (b : Block) : (noteCredit b).mem = b.mem := by unfold noteCredit; simp

@[simp] theorem creditLapse_mem (b : Block) (chip : Nat) : (creditLapse b chip).mem = b.mem := by
  unfold creditLapse
  grind [setTxCredit_mem, noteCredit_mem]

@[simp] theorem refreshChip_mem (b : Block) (chip : Nat) : (refreshChip b chip).mem = b.mem := by
  unfold refreshChip
  (repeat' split) <;> simp

@[simp] theorem creditRefresh_mem (b : Block) : (creditRefresh b).mem = b.mem := by unfold creditRefresh; simp

@[simp] theorem expireRings_mem (b : Block) (p : Holder → Ctx → Bool) (st : Status) :
    (expireRings b p st).mem = b.mem := by
  unfold expireRings
  simp

@[simp] theorem tearRest_mem (b : Block) (i : Nat) (x' : Nat) : (tearRest b i x').mem = b.mem := by
  fun_induction tearRest <;> simp_all

@[simp] theorem leaveQp_mem (b : Block) (i : Nat) : (leaveQp b i).mem = b.mem := by
  unfold leaveQp
  grind [finishQp_mem, toReset_mem]

@[simp] theorem drainEnd_mem (b : Block) (i : Nat) : (drainEnd b i).mem = b.mem := by
  unfold drainEnd
  (repeat' split) <;> simp

@[simp] theorem expireQp_mem (b : Block) (i : Nat) : (expireQp b i).mem = b.mem := by
  unfold expireQp
  dsimp only; (repeat' split) <;> simp [*]

@[simp] theorem dropApps_mem (b : Block) (p : App → Bool) : (dropApps b p).mem = b.mem := by unfold dropApps; simp

@[simp] theorem timeouts_mem (b : Block) (p : TagUse → Bool) : (timeouts b p).mem = b.mem := by unfold timeouts; simp

@[simp] theorem declFault_mem (b : Block) (es : Nat) (c : Ctx) : (declFault b es c).mem = b.mem := by
  unfold declFault
  simp

@[simp] theorem takeNak_mem (b : Block) (p i psn : Nat) (st : Nat) : (takeNak b p i psn st).mem = b.mem := by
  unfold takeNak
  grind [qpError_mem, completeAcked_mem, finishMsg_mem, count_mem]

@[simp] theorem unaccepted_mem (b : Block) (i j : Nat) (r : Req) : (unaccepted b i j r).mem = b.mem := by
  unfold unaccepted
  simp

@[simp] theorem keyTaken_mem (b : Block) (j : Nat) : (keyTaken b j).mem = b.mem := (rfl)

@[simp] theorem keyNak_mem (b : Block) (pid : Nat) (st : Status) : (keyNak b pid st).mem = b.mem := by
  unfold keyNak
  (repeat' split) <;> simp

theorem screen_mem {b b' : Block} {i : Nat} {r : Req} (e : screen b i r = some b') : b'.mem = b.mem := by
  unfold screen at e
  dsimp only at e
  (repeat' split at e) <;> cases e <;> simp [atomicResp_mem, sendAck_mem]

@[simp] theorem fencedNak_mem (b : Block) (h : Bth) : (fencedNak b h).mem = b.mem := by unfold fencedNak; simp

@[simp] theorem mirrorArrival_mem (b : Block) (src : Nat) (pay : Bytes) : (mirrorArrival b src pay).mem = b.mem := by
  unfold mirrorArrival
  (repeat' split) <;> simp

@[simp] theorem takeSealNak_mem (b : Block) (iv : Nat) : (takeSealNak b iv).mem = b.mem := by
  unfold takeSealNak
  grind [count_mem, finishMsg_mem, qpError_mem]

@[simp] theorem takeCredit_mem (b : Block) (chip ext : Nat) : (takeCredit b chip ext).mem = b.mem := by
  unfold takeCredit
  grind [setTxCredit_mem]

@[simp] theorem dictOut_mem (b : Block) : (dictOut b).mem = b.mem := by unfold dictOut; simp

@[simp] theorem dieLockLoss_mem (b : Block) (die : Nat) : (dieLockLoss b die).mem = b.mem := by
  unfold dieLockLoss
  dsimp only; (repeat' split) <;> simp [*]

@[simp] theorem displace_mem (b : Block) : (displace b).mem = b.mem := by
  unfold displace
  grind [foldl_mem, foldl_fst_mem, setStep_mem, killStep_mem]

@[simp] theorem recoveryNext_mem (b : Block) : (recoveryNext b).mem = b.mem := by
  unfold recoveryNext
  (repeat' split) <;> simp

@[simp] theorem fenceSpillOps_mem (b : Block) (p : SpillOp → Bool) : (fenceSpillOps b p).mem = b.mem := by
  unfold fenceSpillOps
  simp

@[simp] theorem fenceReqs_mem (b : Block) (es : Nat) : (fenceReqs b es).mem = b.mem := by unfold fenceReqs; simp

@[simp] theorem expireBlock_mem (b : Block) : (expireBlock b).mem = b.mem := by unfold expireBlock; simp

@[simp] theorem groupRecordDone_mem (b : Block) (pid g : Nat) (ans : Answer) : (groupRecordDone b pid g ans).mem = b.mem := by
  unfold groupRecordDone
  dsimp only
  (repeat' split) <;> try rfl
  all_goals
    simp only [finishCmd_mem, groupState_mem, onGroup_mem, setGroup_mem]
    exact arrive_mem ‹_›

@[simp] theorem localFailure_mem (b : Block) (i : Nat) (st : Status) : (localFailure b i st).mem = b.mem := by
  unfold localFailure
  grind [onQp_mem, wqeFail_mem, finishMsg_mem, qpError_mem, abandon_mem]

@[simp] theorem drainDone_mem (b : Block) (i : Nat) : (drainDone b i).mem = b.mem := by
  unfold drainDone
  grind [drainEnd_mem]

@[simp] theorem drainTimeout_mem (b : Block) (i : Nat) : (drainTimeout b i).mem = b.mem := by
  unfold drainTimeout
  grind [expireQp_mem]

@[simp] theorem droneLook_mem (b : Block) (n : Nat) : (droneLook b n).mem = b.mem := (rfl)

@[simp] theorem droneTick_mem (b : Block) : (droneTick b).mem = b.mem := by unfold droneTick; simp

@[simp] theorem dropGroups_mem (b : Block) (pid : Nat) : (dropGroups b pid).mem = b.mem := by unfold dropGroups; simp

@[simp] theorem dropLines_mem (b : Block) (pid : Nat) : (dropLines b pid).mem = b.mem := by
  unfold dropLines
  dsimp only; (repeat' split) <;> simp [*]

@[simp] theorem dropPrograms_mem (b : Block) (pid : Nat) : (dropPrograms b pid).mem = b.mem := (rfl)

@[simp] theorem screenRecord_mem (b : Block) (es : Nat) (st : Status) : (screenRecord b es st).mem = b.mem := by
  unfold screenRecord
  (repeat' split) <;> simp

@[simp] theorem engineReserved_mem (b : Block) (es op : Nat) : (engineReserved b es op).mem = b.mem := by
  unfold engineReserved
  (repeat' split) <;> simp

@[simp] theorem faultLow_mem (b : Block) : (faultLow b).mem = b.mem := by unfold faultLow; (repeat' split) <;> simp

@[simp] theorem skimTrigger_mem (b : Block) (sev : Nat) : (skimTrigger b sev).1.mem = b.mem := by
  unfold skimTrigger
  (repeat' split) <;> simp

@[simp] theorem logEvent_mem (b : Block) (e : Event) (applied target : Nat) (promoted : Bool) :
    (logEvent b e applied target promoted).mem = b.mem := by
  unfold logEvent
  grind [finishWaits_mem, msix_mem, wr_mem, count_mem]

@[simp] theorem injectEnd_mem (b : Block) (e : Event) : (injectEnd b e).mem = b.mem := by
  unfold injectEnd
  (repeat' split) <;> simp

@[simp] theorem firmwareFail_mem (b : Block) (n : Nat) : (firmwareFail b n).mem = b.mem := by
  unfold firmwareFail
  (repeat' split) <;> simp

@[simp] theorem setTurn_mem (b : Block) (p : Pool) (t : Nat) : (setTurn b p t).mem = b.mem := by
  unfold setTurn
  (repeat' split) <;> simp

@[simp] theorem startupEvent_mem (b : Block) (fsrc unit target : Nat) :
    (startupEvent b fsrc unit target).mem = b.mem := by
  unfold startupEvent
  simp

@[simp] theorem halt_mem (b : Block) (fsrc unit : Nat) : (halt b fsrc unit).mem = b.mem := by unfold halt; simp

@[simp] theorem holdEntryDone_mem (b : Block) : (holdEntryDone b).mem = b.mem := by
  unfold holdEntryDone
  (repeat' split) <;> simp

@[simp] theorem hostLinkError_mem (b : Block) : (hostLinkError b).mem = b.mem := by unfold hostLinkError; simp

@[simp] theorem initLevel_mem (b : Block) (l : Nat) : (initLevel b l).mem = b.mem := by unfold initLevel; simp

@[simp] theorem invComplete_mem (b : Block) (s : Nat) : (invComplete b s).mem = b.mem := by
  unfold invComplete
  (repeat' split) <;> simp

@[simp] theorem ldsValue_mem (b : Block) (kind s f : Nat) : (ldsValue b kind s f).1.mem = b.mem := by
  unfold ldsValue
  (repeat' split) <;> simp

@[simp] theorem keyPortWord_mem (b : Block) (slot : Nat) (w : BitVec 32) : (keyPortWord b slot w).mem = b.mem := by
  unfold keyPortWord
  grind [count_mem, setRingKeys_mem]

@[simp] theorem startReady_mem (b : Block) (s : Step) : (startReady b s).mem = b.mem := by
  unfold startReady
  (repeat' split) <;> simp

@[simp] theorem lagCheck_mem (b : Block) : (lagCheck b).mem = b.mem := by unfold lagCheck; (repeat' split) <;> simp

@[simp] theorem linkDegraded_mem (b : Block) (p : Nat) (deg : Bool) : (linkDegraded b p deg).mem = b.mem := by
  unfold linkDegraded
  grind [setPort_mem, portLink_mem, retryHeld_mem]

@[simp] theorem linkDown_mem (b : Block) (p : Nat) : (linkDown b p).mem = b.mem := by
  unfold linkDown
  (repeat' split) <;> simp

@[simp] theorem linkGraceOver_mem (b : Block) : (linkGraceOver b).mem = b.mem := by
  unfold linkGraceOver
  (repeat' split) <;> simp

@[simp] theorem linkUp_mem (b : Block) (p : Nat) (deg : Bool) : (linkUp b p deg).mem = b.mem := by
  unfold linkUp
  (repeat' split) <;> simp

@[simp] theorem makeCurrent_mem (b : Block) (pid p : Nat) (img : Bytes) : (makeCurrent b pid p img).mem = b.mem := (rfl)

@[simp] theorem validated_mem (b : Block) (idx sub : Nat) (c : Code) (detail : Nat) :
    (validated b idx sub c detail).mem = b.mem := by
  unfold validated
  (repeat' split) <;> simp

@[simp] theorem loadProgram_mem (b : Block) (pid n : Nat) (img : Bytes) : (loadProgram b pid n img).mem = b.mem := by
  unfold loadProgram
  (repeat' split) <;> simp

@[simp] theorem lockCheck_mem (b : Block) : (lockCheck b).mem = b.mem := by unfold lockCheck; (repeat' split) <;> simp

@[simp] theorem lockTake_mem (b : Block) (w : LockWait) : (lockTake b w).mem = b.mem := (rfl)

@[simp] theorem markTimer_mem (b : Block) : (markTimer b).mem = b.mem := by unfold markTimer; (repeat' split) <;> simp

@[simp] theorem mctpControl_mem (b : Block) (src tag inst cmd : Nat) (data : Bytes) :
    (mctpControl b src tag inst cmd data).mem = b.mem := (rfl)

@[simp] theorem readResp_mem (b : Block) (w : Work) (d j req : Nat) (last : Bool) :
    (readResp b w d j req last).mem = b.mem := by
  unfold readResp
  simp

@[simp] theorem readReturn_mem (b : Block) (w : Work) (ans : Answer) : (readReturn b w ans).mem = b.mem := by
  unfold readReturn
  split
  · rfl
  · next e =>
    rw [← arrive_mem e]
    simp [apply_ite Block.mem]

@[simp] theorem miReadyFall_mem (b : Block) (m : Nat) : (miReadyFall b m).mem = b.mem := by
  unfold miReadyFall
  (repeat' split) <;> simp

@[simp] theorem startupOut_mem (b : Block) (key : Nat) : (startupOut b key).mem = b.mem := by
  unfold startupOut
  (repeat' split) <;> simp

@[simp] theorem miReadyTimeout_mem (b : Block) (m : Nat) : (miReadyTimeout b m).mem = b.mem := by
  unfold miReadyTimeout
  (repeat' split) <;> simp

@[simp] theorem mirrorAckTimer_mem (b : Block) : (mirrorAckTimer b).mem = b.mem := by
  unfold mirrorAckTimer
  (repeat' split) <;> simp

@[simp] theorem mirrorBroken_mem (b : Block) : (mirrorBroken b).mem = b.mem := by
  unfold mirrorBroken
  grind [wr_mem, finishCmd_mem, raiseFree_mem]

@[simp] theorem mirrorRetx_mem (b : Block) : (mirrorRetx b).mem = b.mem := by unfold mirrorRetx; grind [addTo_mem]

@[simp] theorem mirrorSent_mem (b : Block) (n : Nat) : (mirrorSent b n).mem = b.mem := by
  unfold mirrorSent
  dsimp only
  split
  · split <;> rfl
  · rfl

@[simp] theorem mirrorWaits_mem (b : Block) (p : Nat) : (mirrorWaits b p).mem = b.mem := by
  unfold mirrorWaits
  (repeat' split) <;> simp

@[simp] theorem moduleDown_mem (b : Block) (m : Nat) : (moduleDown b m).mem = b.mem := by unfold moduleDown; simp

@[simp] theorem noteBudget_mem (b : Block) : (noteBudget b).mem = b.mem := by
  unfold noteBudget
  grind [foldl_mem, foldl_fst_mem, count_mem]

@[simp] theorem startAll_mem (b : Block) : (startAll b).mem = b.mem := by unfold startAll; simp

@[simp] theorem opportunity_mem (b : Block) : (opportunity b).mem = b.mem := by
  unfold opportunity
  (repeat' split) <;> simp

@[simp] theorem writePlaced_mem (b : Block) (w : Work) : (writePlaced b w).mem = b.mem := by unfold writePlaced; simp

@[simp] theorem placementAck_mem (b : Block) (i psn : Nat) : (placementAck b i psn).mem = b.mem := by
  unfold placementAck
  split
  · rfl
  split
  · simp
  split
  · rfl
  · next e =>
    rw [← arrive_mem e]
    simp [apply_ite Block.mem]

@[simp] theorem pllLock_mem (b : Block) (core : Bool) (die : Nat) : (pllLock b core die).mem = b.mem := by
  unfold pllLock
  (repeat' split) <;> simp

@[simp] theorem pllTimeout_mem (b : Block) : (pllTimeout b).mem = b.mem := by
  unfold pllTimeout
  grind [foldl_mem, foldl_fst_mem, startupOut_mem, startupEvent_mem, stepDone_mem, halt_mem]

@[simp] theorem setBudgets_mem (b : Block) (w : Window) : (setBudgets b w).mem = b.mem := by
  unfold setBudgets
  grind [foldl_mem, foldl_fst_mem, wr_mem]

@[simp] theorem settleWindow_mem (b : Block) (x : PastWindow) : (settleWindow b x).mem = b.mem := by
  unfold settleWindow
  simp

@[simp] theorem policyDone_mem (b : Block) : (policyDone b).mem = b.mem := by
  unfold policyDone
  (repeat' split) <;> simp

@[simp] theorem presented_mem (b : Block) (es : Nat) (f : Block → Block) (hf : ∀ b, (f b).mem = b.mem) :
    (presented b es f).mem = b.mem := by
  unfold presented
  (repeat' split) <;> simp [*]

@[simp] theorem programMadeCurrent_mem (b : Block) (pid n : Nat) : (programMadeCurrent b pid n).mem = b.mem := by
  unfold programMadeCurrent
  (repeat' split) <;> simp

@[simp] theorem qpRefresh_mem (b : Block) (i : Nat) : (qpRefresh b i).mem = b.mem := by
  unfold qpRefresh
  grind [noteQp_mem]

@[simp] theorem quantumEnd_mem (b : Block) (num : Nat) : (quantumEnd b num).mem = b.mem := by
  unfold quantumEnd
  (repeat' split) <;> simp

@[simp] theorem queryDone_mem (b : Block) (pid sub : Nat) (ans : Answer) : (queryDone b pid sub ans).mem = b.mem := by
  unfold queryDone
  grind [failCmd_mem, finishCmd_mem, settleTile_mem]

@[simp] theorem quietEnd_mem (b : Block) (chip : Nat) : (quietEnd b chip).mem = b.mem := by
  unfold quietEnd
  grind [grantCredit_mem, sendCredit_mem, finishResync_mem, setRx_mem, count_mem]

@[simp] theorem sendSealNak_mem (b : Block) (p iv : Nat) : (sendSealNak b p iv).mem = b.mem := by
  unfold sendSealNak
  (repeat' split) <;> simp

@[simp] theorem recovered_mem (b : Block) : (recovered b).mem = b.mem := by
  unfold recovered
  grind [foldl_mem, foldl_fst_mem, wr_mem, finishCmd_mem, faultRise_mem, setDomain_mem, startupOut_mem]

@[simp] theorem releaseDone_mem (b : Block) (pid : Nat) : (releaseDone b pid).mem = b.mem := by
  unfold releaseDone
  dsimp only; (repeat' split) <;> simp [*]

@[simp] theorem sendPending_mem (b : Block) (fn : Nat) : (sendPending b fn).mem = b.mem := by unfold sendPending; simp

@[simp] theorem submission_mem (b : Block) (es : Nat) (d : Bytes) : (submission b es d).mem = b.mem := by
  unfold submission
  grind [count_mem, setStation_mem]

@[simp] theorem reportHang_mem (b : Block) (es : List WaitEdge) (ms : List Nat) : (reportHang b es ms).mem = b.mem := by
  unfold reportHang
  (repeat' split) <;> simp

@[simp] theorem resetDone_mem (b : Block) (i : Nat) : (resetDone b i).mem = b.mem := by
  unfold resetDone
  grind [leaveQp_mem]

@[simp] theorem retransmit_mem (b : Block) (i psn : Nat) : (retransmit b i psn).mem = b.mem := by
  unfold retransmit
  grind [enqueue_mem, setQp_mem, count_mem, dropTx_mem]

@[simp] theorem revokeDone_mem (b : Block) (j : Nat) : (revokeDone b j).mem = b.mem := by
  unfold revokeDone
  grind [freeKey_mem]

@[simp] theorem sampleCluster_mem (b : Block) (es : Nat) (c : BitVec 32) : (sampleCluster b es c).mem = b.mem := by
  unfold sampleCluster
  grind [addTo_mem, setStep_mem]

@[simp] theorem samplePower_mem (b : Block) (raw : BitVec 32) : (samplePower b raw).mem = b.mem := by
  unfold samplePower
  grind [raiseFree_mem]

@[simp] theorem shedZone_mem (b : Block) (z : Nat) (x' : Nat) : (shedZone b z x').mem = b.mem := by
  fun_induction shedZone <;> simp_all

@[simp] theorem sampleZone_mem (b : Block) (z : Nat) (raw : BitVec 16) : (sampleZone b z raw).mem = b.mem := by
  unfold sampleZone
  grind [shedZone_mem, count_mem, wr_mem, raiseFree_mem]

@[simp] theorem startJob_mem (b : Block) (pid g phase ms : Nat) : (startJob b pid g phase ms).1.mem = b.mem := by
  unfold startJob
  grind [!loadLanes_mem, !bcastWords_mem]

@[simp] theorem useImage_mem (b : Block) (c : Option Bytes) : (useImage b c).mem = b.mem := by
  unfold useImage
  (repeat' split) <;> simp

@[simp] theorem setEid_mem (b : Block) (src tag inst eid : Nat) : (setEid b src tag inst eid).mem = b.mem := (rfl)

@[simp] theorem spillInitDone_mem (b : Block) : (spillInitDone b).mem = b.mem := by
  unfold spillInitDone
  dsimp only; (repeat' split) <;> simp [*]

@[simp] theorem staleResponse_mem (b : Block) (tag epoch : Nat) : (staleResponse b tag epoch).mem = b.mem := by
  unfold staleResponse
  (repeat' split) <;> simp

@[simp] theorem stepTimeout_mem (b : Block) (num : Nat) : (stepTimeout b num).mem = b.mem := by
  unfold stepTimeout
  (repeat' split) <;> simp

@[simp] theorem tapRefresh_mem (b : Block) : (tapRefresh b).mem = b.mem := by
  unfold tapRefresh
  grind [foldl_mem, foldl_fst_mem, onQp_mem]

@[simp] theorem telemetry_mem (b : Block) (counts : List (Nat × BitVec 32)) (power : BitVec 32) (temps : List (Nat × BitVec 16)) :
    (telemetry b counts power temps).mem = b.mem := by
  unfold telemetry
  grind [foldl_mem, foldl_fst_mem, wr_mem, sampleZone_mem, startAll_mem, samplePower_mem, sampleCluster_mem]

@[simp] theorem translationDone_mem (b : Block) : (translationDone b).mem = b.mem := by
  unfold translationDone
  dsimp only; (repeat' split) <;> simp [*]

@[simp] theorem unitResetDone_mem (b : Block) (pid : Nat) : (unitResetDone b pid).mem = b.mem := by
  unfold unitResetDone
  (repeat' split) <;> simp

@[simp] theorem validationDone_mem (b : Block) (idx sub : Nat) : (validationDone b idx sub).mem = b.mem := by
  unfold validationDone
  grind [blobCommit_mem, loadProgram_mem, validated_mem, count_mem]

@[simp] theorem wgdScan_mem (b : Block) (edges : List WaitEdge) : (wgdScan b edges).mem = b.mem := by
  unfold wgdScan
  grind [reportHang_mem, count_mem]

@[simp] theorem windowStart_mem (b : Block) : (windowStart b).mem = b.mem := by
  unfold windowStart
  dsimp only; (repeat' split) <;> simp [*]

end Sys2Proof.Machine
end

section
/-! SUPPORT. Package memory keeps its one canonical form: one lemma per operation that can write it, then every command and every step (O4). -/

namespace Sys2Proof.Machine

/-- Package memory is in its canonical form. -/
structure Canon (m : List Host.Cell) : Prop where
  wf : Memory.wf m = true

theorem writeByte_canon (b : Block) (a : Nat) (v : BitVec 8) (hb : Canon b.mem) : Canon (writeByte b a v).mem :=
  ⟨writeByte_wf a v hb.wf⟩

theorem writeBytes_canon (b : Block) (a v n : Nat) (hb : Canon b.mem) : Canon (writeBytes b a v n).mem :=
  ⟨writeBytes_wf a v n hb.wf⟩

theorem writeMem_canon (b : Block) (pa v n : Nat) (hb : Canon b.mem) : Canon (writeMem b pa v n).mem :=
  ⟨writeMem_wf pa v n hb.wf⟩

theorem zeroGranule_canon (b : Block) (g : Nat) (hb : Canon b.mem) : Canon (zeroGranule b g).mem :=
  ⟨zeroGranule_wf g hb.wf⟩

theorem canon_ite {c : Prop} [Decidable c] {x y : Block} (hx : Canon x.mem) (hy : Canon y.mem) :
    Canon (if c then x else y).mem := by
  split
  · exact hx
  · exact hy

theorem foldl_canon {α : Type} (f : Block → α → Block) (hf : ∀ b a, Canon b.mem → Canon (f b a).mem)
    (l : List α) (b : Block) (h : Canon b.mem) : Canon (l.foldl f b).mem := by
  induction l generalizing b with
  | nil => exact h
  | cons a l ih => exact ih _ (hf b a h)

theorem foldl_fst_canon {α β : Type} (f : Block × β → α → Block × β)
    (hf : ∀ p a, Canon p.1.mem → Canon (f p a).1.mem) (l : List α) (p : Block × β)
    (h : Canon p.1.mem) : Canon (l.foldl f p).1.mem := by
  induction l generalizing p with
  | nil => exact h
  | cons a l ih => exact ih _ (hf p a h)

theorem disturb_canon (b : Block) (pa len : Nat) (hb : Canon b.mem) :
    Canon (disturb b pa len).mem := by
  unfold disturb
  grind [foldl_canon, foldl_fst_canon, writeMem_canon, !draw_mem]

theorem present_canon (b : Block) (o : Out) (hb : Canon b.mem) :
    Canon (present b o).mem := by
  unfold present
  (repeat' split) <;> simp [hb, writeMem_canon, disturb_canon]

theorem grantTag_canon (b : Block) (w : TagWait) (hb : Canon b.mem) :
    Canon (grantTag b w).mem := by
  unfold grantTag
  dsimp only
  (repeat' split) <;> simp +contextual [*, foldl_canon, present_canon]

theorem underTag_canon (b : Block) (w : TagWait) (f : Block → Block) (hf : ∀ b, Canon b.mem → Canon (f b).mem) (hb : Canon b.mem) :
    Canon (underTag b w f).mem := by
  unfold underTag
  grind [grantTag_canon, settle_mem]

theorem issue_canon (b : Block) (w : TagWait) (hb : Canon b.mem) :
    Canon (issue b w).mem := by
  unfold issue
  (repeat' split) <;> simp [hb, grantTag_canon]

theorem takeFrame_canon (b : Block) (i psn : Nat) (hb : Canon b.mem) :
    Canon (takeFrame b i psn).1.mem := by
  unfold takeFrame
  dsimp only
  (repeat' split) <;> simp +contextual [*, issue_canon]

theorem sendPump_canon (b : Block) (i : Nat) (x' : Nat) (hb : Canon b.mem) :
    Canon (sendPump b i x').mem := by
  fun_induction sendPump <;> grind [enqueue_mem, setQp_mem, !takeFrame_canon]

theorem startMsg_canon (b : Block) (i : Nat) (m : SendMsg) (hb : Canon b.mem) :
    Canon (startMsg b i m).mem := by
  unfold startMsg
  (repeat' split) <;> simp [hb, sendPump_canon]

theorem startAsks_canon (b : Block) (i : Nat) (x' : Nat) (hb : Canon b.mem) :
    Canon (startAsks b i x').mem := by
  fun_induction startAsks <;> grind [setQp_mem, startMsg_canon]

theorem advance_canon (b : Block) (i : Nat) (hb : Canon b.mem) :
    Canon (advance b i).mem := by
  unfold advance
  (repeat' split) <;> simp [hb, startAsks_canon, sendPump_canon]

theorem remoteSend_canon (b : Block) (i key : Nat) (h : Holder) (c : Ctx) (op pa len data poison operand compare : Nat) (hb : Canon b.mem) :
    Canon (remoteSend b i key h c op pa len data poison operand compare).mem := by
  unfold remoteSend
  (repeat' split) <;> simp [hb, advance_canon]

theorem askLine_canon (b : Block) (l : LineOp) (o : SpillOp) (hb : Canon b.mem) :
    Canon (askLine b l o).mem := by
  unfold askLine
  (repeat' split) <;> simp [hb, issue_canon]

theorem lineDo_canon (b : Block) (l : LineOp) (o : SpillOp) (x : TreeNode) (hb : Canon b.mem) :
    Canon (lineDo b l o x).mem := by
  unfold lineDo
  dsimp only
  (repeat' split) <;> simp +contextual [*, askLine_canon]

theorem fetchNodes_canon (b : Block) (l : List (Nat × Nat)) (hb : Canon b.mem) :
    Canon (fetchNodes b l).mem := by
  unfold fetchNodes
  grind [foldl_canon, foldl_fst_canon, issue_canon, count_mem]

theorem fetchPath_canon (b : Block) (leaf : Nat) (hb : Canon b.mem) :
    Canon (fetchPath b leaf).mem := by
  unfold fetchPath
  (repeat' split) <;> simp [hb, fetchNodes_canon]

theorem lineStep_canon (b : Block) (l : LineOp) (hb : Canon b.mem) :
    Canon (lineStep b l).mem := by
  unfold lineStep
  grind [lineDo_canon, !nodeUse_mem, markLine_mem, issue_canon, askLine_canon, fetchPath_canon, lineLost_mem]

theorem pumpLines_canon (b : Block) (n : Nat) (hb : Canon b.mem) : Canon (pumpLines b n).mem := by
  induction n generalizing b with
  | zero => exact hb
  | succ n ih =>
    have once : Canon (b.ssu.lines.foldl (fun b l => if b.ssu.lines.contains l then lineStep b l else b) b).mem :=
      foldl_canon _ (fun b l h => by
        split
        · exact lineStep_canon _ _ h
        · exact h) _ b hb
    unfold pumpLines
    dsimp only
    split
    · exact once
    · exact ih _ once

theorem resetOn_canon (b : Block) (pid k : Nat) (x' : Nat) (hb : Canon b.mem) :
    Canon (resetOn b pid k x').mem := by
  fun_induction resetOn <;> grind [fetchPath_canon, resetLeaf_mem, !parentUse_mem]

theorem pumpResets_canon (b : Block) (hb : Canon b.mem) :
    Canon (pumpResets b).mem := by
  unfold pumpResets
  grind [foldl_canon, foldl_fst_canon, resetOn_canon]

theorem pumpSpill_canon (b : Block) (hb : Canon b.mem) :
    Canon (pumpSpill b).mem := by
  unfold pumpSpill
  (repeat' split) <;> simp [hb, pumpLines_canon, pumpResets_canon]

theorem spillAccess_canon (b : Block) (h : Holder) (c : Ctx) (off len : Nat) (write : Bool) (data poison : Nat) (hb : Canon b.mem) :
    Canon (spillAccess b h c off len write data poison).mem := by
  unfold spillAccess
  dsimp only
  (repeat' split) <;> simp +contextual [*, pumpSpill_canon]

theorem sendPieces_canon (b : Block) (h : Holder) (c : Ctx) (write : Bool) (x' : Nat) (y' : Nat) (z' : Nat) (w' : List Seg) (hb : Canon b.mem) :
    Canon (sendPieces b h c write x' y' z' w').mem := by
  fun_induction sendPieces <;> grind [remoteSend_canon, spillAccess_canon, dropReply_mem]

theorem putPieces_canon (b : Block) (a : Asker) (c : Ctx) (data : Bytes) (poison source : Nat) (segs : List Seg) (hb : Canon b.mem) :
    Canon (putPieces b a c data poison source segs).mem := by
  unfold putPieces
  grind [foldl_canon, foldl_fst_canon, sendPieces_canon, present_canon, hostPieces_mem, !checkData_mem]

theorem walkAdvance_canon (b : Block) (w : Walk) (hb : Canon b.mem) :
    Canon (walkAdvance b w).1.mem := by
  unfold walkAdvance
  grind [setWalk_mem, issue_canon, !msAdmit_mem, endWalkLeaf_mem, endWalkFault_mem]

theorem startWalk_canon (b : Block) (c : Ctx) (va : Nat) (a : Asker) (hb : Canon b.mem) :
    Canon (startWalk b c va a).1.mem := by
  unfold startWalk
  (repeat' split) <;> simp [hb, walkAdvance_canon]

theorem miss_canon (b : Block) (c : Ctx) (va : Nat) (a : Asker) (hb : Canon b.mem) :
    Canon (miss b c va a).mem := by
  unfold miss
  (repeat' split) <;> simp [hb, startWalk_canon]

theorem pages_canon (b : Block) (a : Asker) (c : Ctx) (op : Access4) (x' : Nat) (y' : Nat) (z' : List Seg) (w' : Nat) (hb : Canon b.mem) :
    Canon (pages b a c op x' y' z' w').1.mem := by
  fun_induction pages <;> grind [miss_canon, !lookup_mem, !takeFault_mem]

theorem xlate_canon (b : Block) (a : Asker) (c : Ctx) (va len : Nat) (op : Access4) (remote : Bool) (hb : Canon b.mem) :
    Canon (xlate b a c va len op remote).1.mem := by
  unfold xlate
  grind [pointRefusal_mem, !newTile_mem, faultRecord_mem, remoteRefusal_mem, !pages_canon]

theorem prepare_canon (b : Block) (a : Asker) (c : Ctx) (va len : Nat) (op : Access4) (remote : Bool) (hb : Canon b.mem) :
    Canon (prepare b a c va len op remote).1.mem := by
  unfold prepare
  grind [faultRecord_mem, !admitSegs_mem, !xlate_canon]

theorem prepareRun_canon (b : Block) (a : Asker) (c : Ctx) (op : Access4) (x' : Nat) (y' : Nat) (z' : List Seg) (w' : Nat) (hb : Canon b.mem) :
    Canon (prepareRun b a c op x' y' z' w').1.mem := by
  fun_induction prepareRun <;> grind [!prepare_canon]

theorem writeNow_canon (b : Block) (a : Asker) (c : Ctx) (va : Nat) (data : Bytes) (poison source : Nat) (hb : Canon b.mem) :
    Canon (writeNow b a c va data poison source).1.mem := by
  unfold writeNow
  grind [waitTag_mem, underTag_canon, putPieces_canon, !prepareRun_canon]

theorem writeRecord_canon (b : Block) (pid g rec : Nat) (hb : Canon b.mem) :
    Canon (writeRecord b pid g rec).1.mem := by
  unfold writeRecord
  grind [onGroup_mem, !writeNow_canon]

theorem failRecord_canon (b : Block) (pid g : Nat) (st : Status) (hb : Canon b.mem) :
    Canon (failRecord b pid g st).mem := by
  unfold failRecord
  dsimp only
  (repeat' split) <;> simp +contextual [*, writeRecord_canon]

theorem abortDone_canon (b : Block) (pid g : Nat) (hb : Canon b.mem) :
    Canon (abortDone b pid g).mem := by
  unfold abortDone
  dsimp only
  (repeat' split) <;> simp +contextual [*, failRecord_canon]

theorem take_canon (b : Block) (a : Asker) (c : Ctx) (segs : List Seg) (outs : List Out) (hb : Canon b.mem) :
    Canon (take b a c segs outs).mem := by
  unfold take
  (repeat' split) <;> simp [hb, issue_canon]

theorem goWrite_canon (b : Block) (a : Asker) (c : Ctx) (data : Bytes) (poison source : Nat) (segs : List Seg) (hb : Canon b.mem) :
    Canon (goWrite b a c data poison source segs).mem := by
  unfold goWrite
  dsimp only
  (repeat' split) <;> simp +contextual [*, sendPieces_canon, take_canon]

theorem startWrite_canon (b : Block) (a : Asker) (c : Ctx) (va : Nat) (data : Bytes) (poison source : Nat) (remote : Bool) (hb : Canon b.mem) :
    Canon (startWrite b a c va data poison source remote).1.mem := by
  unfold startWrite
  grind [goWrite_canon, !prepare_canon]

theorem chanWriteback_canon (b : Block) (c : Nat) (hb : Canon b.mem) :
    Canon (chanWriteback b c).mem := by
  unfold chanWriteback
  grind [writebackFail_mem, !startWrite_canon, setChan_mem]

theorem abortHalted_canon (b : Block) (c : Nat) (key : Option Nat) (hb : Canon b.mem) :
    Canon (abortHalted b c key).mem := by
  unfold abortHalted
  dsimp only
  (repeat' split) <;> simp +contextual [*, chanWriteback_canon]

theorem burstRead_canon (b : Block) (c n : Nat) (hb : Canon b.mem) :
    Canon (burstRead b c n).mem := by
  unfold burstRead
  grind [setChan_mem, !prepare_canon, burstFail_mem]

theorem burstStart_canon (b : Block) (c : Nat) (hb : Canon b.mem) :
    Canon (burstStart b c).mem := by
  unfold burstStart
  (repeat' split) <;> simp [hb, burstRead_canon]

theorem chanPump_canon (b : Block) (c : Nat) (hb : Canon b.mem) :
    Canon (chanPump b c).mem := by
  unfold chanPump
  dsimp only
  (repeat' split) <;> simp +contextual [*, burstStart_canon]

theorem goRead_canon (b : Block) (a : Asker) (c : Ctx) (segs : List Seg) (hb : Canon b.mem) :
    Canon (goRead b a c segs).mem := by
  unfold goRead
  (repeat' split) <;> simp [hb, take_canon, sendPieces_canon]

theorem burstReadGo_canon (b : Block) (c : Nat) (u : Burst) (hb : Canon b.mem) :
    Canon (burstReadGo b c u).mem := by
  unfold burstReadGo
  (repeat' split) <;> simp [hb, goRead_canon]

theorem burstWriteGo_canon (b : Block) (c : Nat) (u : Burst) (hb : Canon b.mem) :
    Canon (burstWriteGo b c u).mem := by
  unfold burstWriteGo
  dsimp only
  (repeat' split) <;> simp +contextual [*, foldl_canon, writeMem_canon, goWrite_canon]

theorem slotGrant_canon {b b' : Block} {write : Bool} (e : slotGrant b write = some b') (hb : Canon b.mem) : Canon b'.mem := by
  unfold slotGrant at e
  grind [!burstWriteGo_canon, !burstReadGo_canon, !chanPump_canon, setChan_mem, count_mem, spendSlots_mem, preempt_mem]

theorem beatsGo_canon (b : Block) (n : Nat) (hb : Canon b.mem) : Canon (beatsGo b n).mem := by
  induction n generalizing b with
  | zero => exact hb
  | succ n ih =>
    unfold beatsGo
    split
    · next e => exact ih _ (slotGrant_canon e hb)
    split
    · next e => exact ih _ (slotGrant_canon e hb)
    · exact hb

theorem beats_canon (b : Block) (hb : Canon b.mem) :
    Canon (beats b).mem := by
  unfold beats
  (repeat' split) <;> simp [hb, beatsGo_canon]

theorem haltOnBurst_canon (b : Block) (c kind burst va : Nat) (st : Status) (write : Bool) (hb : Canon b.mem) :
    Canon (haltOnBurst b c kind burst va st write).mem := by
  unfold haltOnBurst
  dsimp only
  (repeat' split) <;> simp +contextual [*, abortHalted_canon]

theorem startRead_canon (b : Block) (a : Asker) (c : Ctx) (va len : Nat) (remote : Bool) (hb : Canon b.mem) :
    Canon (startRead b a c va len remote).1.mem := by
  unfold startRead
  grind [goRead_canon, !prepare_canon]

theorem chanReadback_canon (b : Block) (c : Nat) (hb : Canon b.mem) : Canon (chanReadback b c).mem := by
  unfold chanReadback
  have r := startRead_canon (setChan b c { chan b c with phase := .readback, io := [] }) 
    (chanAsker (setChan b c { chan b c with phase := .readback, io := [] }) c .chanReadback 0) 
    (chanCtx (setChan b c { chan b c with phase := .readback, io := [] }) c (dDstCx (chan b c).desc)) (lastVa (chan b c)) 64 true hb
  dsimp only
  split <;> next e =>
    rw [e] at r
    first | exact r | exact haltOnBurst_canon _ _ _ _ _ _ _ r | (rw [setChan_mem]; exact r)

theorem chanComplete_canon (b : Block) (c : Nat) (st : Status) (residue : Nat) (hb : Canon b.mem) :
    Canon (chanComplete b c st residue).mem := by
  unfold chanComplete
  dsimp only
  (repeat' split) <;> simp +contextual [*, chanWriteback_canon, chanReadback_canon]

theorem chanStep_canon (b : Block) (c : Nat) (hb : Canon b.mem) :
    Canon (chanStep b c).mem := by
  unfold chanStep
  dsimp only
  (repeat' split) <;> simp +contextual [*, chanPump_canon, beats_canon, chanComplete_canon]

theorem chanAbort_canon (b : Block) (c : Nat) (key : Option Nat) (hb : Canon b.mem) :
    Canon (chanAbort b c key).mem := by
  unfold chanAbort
  dsimp only
  (repeat' split) <;> simp +contextual [*, chanStep_canon, chanComplete_canon, abortHalted_canon]

theorem command_canon (b : Block) (acc : Access) (idx sub arg : Nat) (fails : Block → CmdFails) (run : Block → Block) (hrun : ∀ b, Canon b.mem → Canon (run b).mem) (hb : Canon b.mem) :
    Canon (command b acc idx sub arg fails run).mem := by
  unfold command
  dsimp only
  (repeat' split) <;> simp +contextual [*, ]

theorem chanCommand_canon (b : Block) (acc : Access) (c sub arg : Nat) (ok : Block → Bool) (run : Block → Block) (hrun : ∀ b, Canon b.mem → Canon (run b).mem) (hb : Canon b.mem) :
    Canon (chanCommand b acc c sub arg ok run).mem := by
  unfold chanCommand
  dsimp only
  (repeat' split) <;> simp +contextual [*, command_canon]

theorem chanFetch_canon (b : Block) (c : Nat) (hb : Canon b.mem) :
    Canon (chanFetch b c).mem := by
  unfold chanFetch
  grind [!startRead_canon, haltAtOnce_mem, setChan_mem]

theorem chanNext_canon (b : Block) (c : Nat) (hb : Canon b.mem) :
    Canon (chanNext b c).mem := by
  unfold chanNext
  dsimp only
  (repeat' split) <;> simp +contextual [*, chanFetch_canon]

theorem chanResume_canon (b : Block) (c : Nat) (hb : Canon b.mem) :
    Canon (chanResume b c).mem := by
  unfold chanResume
  dsimp only
  (repeat' split) <;> simp +contextual [*, burstStart_canon, beats_canon, chanWriteback_canon, chanFetch_canon, chanNext_canon]

theorem chanKick_canon (b : Block) (c tail : Nat) (hb : Canon b.mem) :
    Canon (chanKick b c tail).mem := by
  unfold chanKick
  dsimp only
  (repeat' split) <;> simp +contextual [*, chanFetch_canon]

theorem chanDoorbell_canon (b : Block) (vf rel : Nat) (word : Word) (hb : Canon b.mem) :
    Canon (chanDoorbell b vf rel word).mem := by
  unfold chanDoorbell
  grind [chanResume_canon, chanAbort_canon, chanKick_canon, paceRequest_mem, doorbellDiscard_mem, !doorbell_mem]

theorem wakeEvent_canon (b : Block) (cause : Nat) (i : Instr) (f : Block → Block) (hf : ∀ b, Canon b.mem → Canon (f b).mem) (hb : Canon b.mem) :
    Canon (wakeEvent b cause i f).mem := by
  unfold wakeEvent
  dsimp only
  (repeat' split) <;> simp +contextual [*, ]

theorem abortRow_canon (b : Block) (x' : ChannelVia) (hb : Canon b.mem) :
    Canon (abortRow b x').mem := by
  unfold abortRow
  grind [chanAbort_canon, chanCommand_canon, chanDoorbell_canon, wakeEvent_canon]

theorem ringFetch_canon (b : Block) (pid q : Nat) (hb : Canon b.mem) :
    Canon (ringFetch b pid q).mem := by
  unfold ringFetch
  grind [setRing_mem, !startRead_canon, wr_mem]

theorem ringsGo_canon (b : Block) (hb : Canon b.mem) :
    Canon (ringsGo b).mem := by
  unfold ringsGo
  grind [foldl_canon, foldl_fst_canon, ringFetch_canon]

theorem putResult_canon (b : Block) (r : StepResult) (hb : Canon b.mem) :
    Canon (putResult b r).mem := by
  unfold putResult
  grind [count_mem, !writeNow_canon]

theorem stepResult_canon (b : Block) (num pid : Nat) (c : Ctx) (d cycles energy kills : Nat) (st : Status) (hb : Canon b.mem) :
    Canon (stepResult b num pid c d cycles energy kills st).mem := by
  unfold stepResult
  (repeat' split) <;> simp [hb, putResult_canon]

theorem endStep_canon (b : Block) (s : Step) (st : Status) (hb : Canon b.mem) :
    Canon (endStep b s st).mem :=
  ringsGo_canon _ (by simpa using stepResult_canon _ _ _ _ _ _ _ _ _ (hb := by simpa using hb))

theorem stopStep_canon (b : Block) (s : Step) (st : Status) (hb : Canon b.mem) :
    Canon (stopStep b s st).mem := by
  unfold stopStep
  (repeat' split) <;> simp [hb, endStep_canon]

theorem stopSteps_canon (b : Block) (p : Step → Bool) (st : Status) (hb : Canon b.mem) :
    Canon (stopSteps b p st).mem := by
  unfold stopSteps
  grind [foldl_canon, foldl_fst_canon, stopStep_canon]

theorem endGroup_canon (b : Block) (pid g : Nat) (st : Status) (out : Bool) (hb : Canon b.mem) :
    Canon (endGroup b pid g st out).mem := by
  unfold endGroup
  dsimp only
  (repeat' split) <;> simp +contextual [*, failRecord_canon]

theorem endGroups_canon (b : Block) (p : Nat → Nat → Group → Bool) (st : Status) (out : Bool) (hb : Canon b.mem) :
    Canon (endGroups b p st out).mem := by
  unfold endGroups
  grind [foldl_canon, foldl_fst_canon, endGroup_canon]

theorem blockFence_canon (b : Block) (hb : Canon b.mem) :
    Canon (blockFence b).mem := by
  unfold blockFence
  grind [foldl_canon, foldl_fst_canon, startRecovery_mem, quietPorts_mem, stopSteps_canon, endGroups_canon, finishCmd_mem, setDomain_mem, wr_mem]

theorem fenceEffects_canon (b : Block) (key : Nat) (toOut : Bool) (hb : Canon b.mem) :
    Canon (fenceEffects b key toOut).mem := by
  unfold fenceEffects
  grind [foldl_canon, foldl_fst_canon, stationLost_mem, wr_mem, requeue_mem, stopSteps_canon, endGroups_canon]

theorem fenceDomain_canon (b : Block) (key : Nat) (toOut byCommand dump : Bool) (hb : Canon b.mem) :
    Canon (fenceDomain b key toOut byCommand dump).mem := by
  unfold fenceDomain
  (repeat' split) <;> simp [hb, fenceEffects_canon]

theorem act_canon (b : Block) (dump : Bool) (x' : Act) (hb : Canon b.mem) :
    Canon (act b dump x').mem := by
  unfold act
  dsimp only
  (repeat' split) <;> simp +contextual [*, blockFence_canon, fenceDomain_canon]

theorem progFail_canon (b : Block) (pid g : Nat) (f : ProgFail) (hb : Canon b.mem) :
    Canon (progFail b pid g f).mem := by
  unfold progFail
  (repeat' split) <;> simp [hb, endGroup_canon]

theorem tableRead_canon (b : Block) (pid g : Nat) (hb : Canon b.mem) :
    Canon (tableRead b pid g).mem := by
  unfold tableRead
  grind [onGroup_mem, progFail_canon, !startRead_canon]

theorem finishGroup_canon (b : Block) (pid g : Nat) (hb : Canon b.mem) :
    Canon (finishGroup b pid g).mem := by
  unfold finishGroup
  grind [endGroup_canon, groupDone_mem, !writeRecord_canon]

theorem readBack_canon (b : Block) (pid g va : Nat) (hb : Canon b.mem) :
    Canon (readBack b pid g va).mem := by
  unfold readBack
  grind [onGroup_mem, endGroup_canon, !startRead_canon]

theorem afterWrites_canon (b : Block) (pid g : Nat) (hb : Canon b.mem) :
    Canon (afterWrites b pid g).mem := by
  unfold afterWrites
  (repeat' split) <;> simp [hb, finishGroup_canon, readBack_canon]

theorem castStage_canon (b : Block) (pid g : Nat) (hb : Canon b.mem) :
    Canon (castStage b pid g).mem := by
  unfold castStage
  dsimp only
  (repeat' split) <;> simp +contextual [*, afterWrites_canon]

theorem completeGroup_canon (b : Block) (pid g : Nat) (hb : Canon b.mem) :
    Canon (completeGroup b pid g).mem := by
  unfold completeGroup
  dsimp only
  (repeat' split) <;> simp +contextual [*, tableRead_canon, castStage_canon]

theorem addApplied_canon (b : Block) (a : App) (hb : Canon b.mem) :
    Canon (addApplied b a).mem := by
  unfold addApplied
  dsimp only
  (repeat' split) <;> simp +contextual [*, completeGroup_canon]

theorem descriptorRead_canon (b : Block) (base pid sub : Nat) (run : Block → Block) (hrun : ∀ b, Canon b.mem → Canon (run b).mem) (hb : Canon b.mem) :
    Canon (descriptorRead b base pid sub run).mem := by
  unfold descriptorRead
  grind [finishCmd_mem, !checkWord_mem]

theorem partCommand_canon (b : Block) (acc : Access) (base pid sub arg : Nat) (fails : Block → CmdFails) (run : Block → Block) (hrun : ∀ b, Canon b.mem → Canon (run b).mem) (hb : Canon b.mem) :
    Canon (partCommand b acc base pid sub arg fails run).mem := by
  unfold partCommand
  grind [answer_mem, busAccess_mem, descriptorRead_canon, command_canon]

theorem partCommandNow_canon (b : Block) (acc : Access) (base pid sub arg : Nat) (fails : Block → CmdFails) (run : Block → Block × Code × Nat) (hrun : ∀ b, Canon b.mem → Canon (run b).1.mem) (hb : Canon b.mem) :
    Canon (partCommandNow b acc base pid sub arg fails run).mem := by
  unfold partCommandNow
  dsimp only
  (repeat' split) <;> simp +contextual [*, partCommand_canon]

/-- What a withdrawal does to one step of its partition. -/
def expireStep (st : Status) (b : Block) (s : Step) : Block :=
  endStep (s.clusters.foldl (fun b k => onStationES b k fun x => { x with step := none }) (killedRun b s)) s st

theorem expireSteps_eq (b : Block) (pid : Nat) (st : Status) :
    expireSteps b pid st = (b.cha.steps.filter (·.pid == pid)).foldl (expireStep st) b := by
  unfold expireSteps
  congr

theorem expireSteps_canon (b : Block) (pid : Nat) (st : Status) (hb : Canon b.mem) : Canon (expireSteps b pid st).mem := by
  have one (b : Block) (s : Step) (h : Canon b.mem) : Canon (expireStep st b s).mem := by
    unfold expireStep
    refine endStep_canon _ s st ?_
    rw [foldl_mem _ (fun b k => onStationES_mem ..), killedRun_mem]
    exact h
  rw [expireSteps_eq]
  exact foldl_canon _ one _ b hb

theorem restartWalk_canon (b : Block) (w : Walk) (hb : Canon b.mem) :
    Canon (restartWalk b w).mem := by
  unfold restartWalk
  (repeat' split) <;> simp [hb, walkAdvance_canon]

theorem invalidate_canon (b : Block) (c : Cover) (hb : Canon b.mem) :
    Canon (invalidate b c).1.mem := by
  unfold invalidate
  dsimp only
  (repeat' split) <;> simp +contextual [*, foldl_canon, restartWalk_canon]

theorem resetPart_canon (b : Block) (pid : Nat) (hb : Canon b.mem) :
    Canon (resetPart b pid).mem := by
  unfold resetPart
  grind [foldl_canon, foldl_fst_canon, expireSteps_canon, pumpInv_mem, failResults_mem, chanOff_mem, toReset_mem, finishQp_mem, failAsks_mem, onQp_mem, dropFrames_mem, !invalidate_canon, dropHolders_mem, setCtx_mem]

theorem commitStep_canon (b : Block) (es : Nat) (hb : Canon b.mem) :
    Canon (commitStep b es).mem := by
  unfold commitStep
  dsimp only
  (repeat' split) <;> simp +contextual [*, endStep_canon]

theorem commitNow_canon (b : Block) (es : Nat) (r : EReq) (hb : Canon b.mem) :
    Canon (commitNow b es r).mem := by
  unfold commitNow
  (repeat' split) <;> simp [hb, commitStep_canon]

theorem remoteAtomic_canon (b : Block) (es : Nat) (r : EReq) (hb : Canon b.mem) :
    Canon (remoteAtomic b es r).mem := by
  unfold remoteAtomic
  (repeat' split) <;> simp [hb, remoteSend_canon]

theorem atomicAt_canon (b : Block) (pa aop operand compare : Nat) (hb : Canon b.mem) :
    Canon (atomicAt b pa aop operand compare).1.mem := by
  unfold atomicAt
  dsimp only
  (repeat' split) <;> simp +contextual [*, present_canon]

theorem engineAtomic_canon (b : Block) (es : Nat) (r : EReq) (hb : Canon b.mem) :
    Canon (engineAtomic b es r).mem := by
  unfold engineAtomic
  dsimp only
  (repeat' split) <;> simp +contextual [*, atomicAt_canon]

theorem engineLock_canon (b : Block) (es : Nat) (r : EReq) (hb : Canon b.mem) :
    Canon (engineLock b es r).mem := by
  unfold engineLock
  (repeat' split) <;> simp [hb, engineAtomic_canon]

theorem engineStore_canon (b : Block) (es : Nat) (r : EReq) (hb : Canon b.mem) :
    Canon (engineStore b es r).mem := by
  unfold engineStore
  dsimp only
  (repeat' split) <;> simp +contextual [*, engineLock_canon, grantTag_canon, putPieces_canon]

theorem engineSend_canon (b : Block) (es : Nat) (r : EReq) (segs : List Seg) (hb : Canon b.mem) :
    Canon (engineSend b es r segs).mem := by
  unfold engineSend
  dsimp only
  (repeat' split) <;> simp +contextual [*, goWrite_canon, remoteAtomic_canon, engineStore_canon, goRead_canon]

theorem engineTry_canon (b : Block) (es : Nat) (r : EReq) (hb : Canon b.mem) :
    Canon (engineTry b es r).mem := by
  unfold engineTry
  grind [engineSend_canon, refuseReq_mem, !prepare_canon, setReq_mem]

theorem goOn_canon (b : Block) (es : Nat) (r : EReq) (hb : Canon b.mem) :
    Canon (goOn b es r).mem := by
  unfold goOn
  (repeat' split) <;> simp [hb, commitNow_canon, engineTry_canon]

theorem releaseReqs_canon (b : Block) (es : Nat) (x' : Nat) (hb : Canon b.mem) :
    Canon (releaseReqs b es x').mem := by
  fun_induction releaseReqs <;> grind [goOn_canon]

theorem release_canon (b : Block) (es : Nat) (hb : Canon b.mem) :
    Canon (release b es).mem := by
  unfold release
  (repeat' split) <;> simp [hb, releaseReqs_canon]

theorem appRefuse_canon (b : Block) (a : App) (st : Status) (hb : Canon b.mem) :
    Canon (appRefuse b a st).mem := by
  unfold appRefuse
  (repeat' split) <;> simp [hb, endGroup_canon]

theorem resetMs_canon (b : Block) (ms : Nat) (hb : Canon b.mem) :
    Canon (resetMs b ms).mem := by
  unfold resetMs
  grind [foldl_canon, foldl_fst_canon, fenceReq_mem, release_canon, fenceWork_mem, appRefuse_canon]

theorem resetUnit_canon (b : Block) (u : Nat) (hb : Canon b.mem) : Canon (resetUnit b u).mem := by
  have off (b : Block) (e : Nat × Chan) : (if e.2.st = .off then b else chanOff b e.1).mem = b.mem := by
    split <;> simp
  have chans := foldl_mem _ off b.ladle.chans b
  unfold resetUnit
  iterate 2 refine canon_ite (by simpa using hb) ?_
  refine canon_ite (by dsimp only; rw [chans]; exact hb) ?_
  refine canon_ite (by simpa using hb) ?_
  refine canon_ite (stopSteps_canon _ _ _ hb) ?_
  repeat' apply canon_ite
  any_goals simpa using hb
  exact resetMs_canon _ _ hb

theorem resetDomain_canon (b : Block) (key : Nat) (hb : Canon b.mem) :
    Canon (resetDomain b key).mem := by
  unfold resetDomain
  grind [foldl_canon, foldl_fst_canon, resetPart_canon, resetUnit_canon]

theorem startReset_canon (b : Block) (key : Nat) (hb : Canon b.mem) :
    Canon (startReset b key).mem := by
  unfold startReset
  (repeat' split) <;> simp [hb, resetDomain_canon]

theorem afterDrain_canon (b : Block) (key : Nat) (dumped : Bool) (hb : Canon b.mem) :
    Canon (afterDrain b key dumped).mem := by
  unfold afterDrain
  dsimp only
  (repeat' split) <;> simp +contextual [*, startReset_canon]

theorem wqeRead_canon (b : Block) (i : Nat) (hb : Canon b.mem) :
    Canon (wqeRead b i).mem := by
  unfold wqeRead
  grind [qpError_mem, tearWqe_mem, onQp_mem, !startRead_canon]

theorem startReadRun_canon (b : Block) (a : Asker) (c : Ctx) (va len : Nat) (hb : Canon b.mem) :
    Canon (startReadRun b a c va len).1.mem := by
  unfold startReadRun
  grind [goRead_canon, !prepareRun_canon]

theorem payloadRead_canon (b : Block) (i : Nat) (hb : Canon b.mem) :
    Canon (payloadRead b i).mem := by
  unfold payloadRead
  grind [copyFail_mem, wqeFail_mem, onQp_mem, !startReadRun_canon]

theorem copyNext_canon (b : Block) (i : Nat) (hb : Canon b.mem) :
    Canon (copyNext b i).mem := by
  unfold copyNext
  dsimp only
  (repeat' split) <;> simp +contextual [*, payloadRead_canon]

theorem sqFetch_canon (b : Block) (i : Nat) (hb : Canon b.mem) :
    Canon (sqFetch b i).mem := by
  unfold sqFetch
  grind [wqeRead_canon, !qpWordBad_mem, copyNext_canon]

theorem sqGo_canon (b : Block) (i : Nat) (x' : Nat) (hb : Canon b.mem) :
    Canon (sqGo b i x').mem := by
  fun_induction sqGo <;> grind [sqFetch_canon]

theorem sqRun_canon (b : Block) (i : Nat) (hb : Canon b.mem) :
    Canon (sqRun b i).mem := by
  unfold sqRun
  (repeat' split) <;> simp [hb, sqGo_canon]

theorem tearDown_canon (b : Block) (i : Nat) (st : Status) (all : Bool) (hb : Canon b.mem) :
    Canon (tearDown b i st all).mem := by
  unfold tearDown
  dsimp only
  (repeat' split) <;> simp +contextual [*, sqRun_canon]

theorem resetQp_canon (b : Block) (i : Nat) (hb : Canon b.mem) :
    Canon (resetQp b i).mem := by
  unfold resetQp
  (repeat' split) <;> simp [hb, tearDown_canon]

theorem aliasEnd_canon (b : Block) (acc : Access) (arg : Nat) (hb : Canon b.mem) :
    Canon (aliasEnd b acc arg).mem := by
  unfold aliasEnd
  grind [foldl_canon, foldl_fst_canon, resetQp_canon, aliasDone_mem, command_canon]

theorem annealPass_canon (b : Block) (f : Nat) (hb : Canon b.mem) :
    Canon (annealPass b f).mem := by
  unfold annealPass
  grind [foldl_canon, foldl_fst_canon, annealComplete_mem, pumpSpill_canon, wr_mem, progressed_mem, setNode_mem]

theorem annealLeaf_canon (b : Block) (ans : List LineAnswer) (hb : Canon b.mem) :
    Canon (annealLeaf b ans).mem := by
  unfold annealLeaf
  grind [annealLines_mem, setNode_mem, settle_mem, pumpSpill_canon, !nodeUse_mem, issue_canon, fetchPath_canon, fetchNodes_canon, annealPass_canon]

theorem appGo_canon (b : Block) (a : App) (hb : Canon b.mem) :
    Canon (appGo b a).mem := by
  unfold appGo
  grind [appQueue_mem, onGroup_mem, !msAdmit_mem, guardRecord_mem, !xlate_canon, appRefuse_canon]

theorem applyAt_canon (b : Block) (a : App) (poison : Bool) (hb : Canon b.mem) :
    Canon (applyAt b a poison).mem := by
  unfold applyAt
  dsimp only
  (repeat' split) <;> simp +contextual [*, present_canon, appRefuse_canon]

theorem application_canon (b : Block) (ms pid g slot contrib : Nat) (poison : Bool) (hb : Canon b.mem) :
    Canon (application b ms pid g slot contrib poison).mem := by
  unfold application
  (repeat' split) <;> simp [hb, applyAt_canon]

theorem applicationReport_canon (b : Block) (pid g slot contrib : Nat) (hb : Canon b.mem) :
    Canon (applicationReport b pid g slot contrib).mem := by
  unfold applicationReport
  (repeat' split) <;> simp [hb, addApplied_canon]

theorem writeEffect_canon (b : Block) (r : ObjRow) (idx sub v : Nat) (hb : Canon b.mem) :
    Canon (writeEffect b r idx sub v).mem := by
  have set : Canon (wr b idx sub v).mem := hb
  have rings : Canon ((List.range 8).foldl (fun b q => ringFetch b (idx % 256) q) (wr b idx sub v)).mem :=
    foldl_canon _ (fun b q => ringFetch_canon b _ q) _ _ set
  unfold writeEffect
  iterate 7 refine canon_ite (by simpa using hb) ?_
  refine canon_ite ?ring ?_
  case ring =>
    split
    · exact set
    · exact canon_ite rings set
  iterate 6 refine canon_ite (by simpa using hb) ?_
  exact set

theorem scalarWrite_canon (b : Block) (acc : Access) (r : ObjRow) (idx sub v : Nat) (hb : Canon b.mem) :
    Canon (scalarWrite b acc r idx sub v).1.mem := by
  unfold scalarWrite
  (repeat' split) <;> simp [hb, writeEffect_canon]

theorem entryWrite_canon (b : Block) (e : Nat × Nat × Nat × Nat) (hb : Canon b.mem) :
    Canon (entryWrite b e).1.mem := by
  unfold entryWrite
  dsimp only
  (repeat' split) <;> simp +contextual [*, scalarWrite_canon]

theorem applyEntry_canon (b : Block) (e : Nat × Nat × Nat × Nat) (hb : Canon b.mem) :
    Canon (applyEntry b e).mem := by
  unfold applyEntry
  grind [wr_mem, count_mem, !entryWrite_canon]

theorem atStation_canon (b : Block) (es : Nat) (f : Block → Block) (hf : ∀ b, Canon b.mem → Canon (f b).mem)
    (hb : Canon b.mem) : Canon (atStation b es f).mem := by
  unfold atStation
  split
  · exact hf _ hb
  · exact hb

theorem atomicRun_canon (b : Block) (w : Work) (hb : Canon b.mem) :
    Canon (atomicRun b w).mem := by
  unfold atomicRun
  dsimp only
  (repeat' split) <;> simp +contextual [*, atomicAt_canon]

theorem atomicGo_canon (b : Block) (w : Work) (hb : Canon b.mem) :
    Canon (atomicGo b w).mem := by
  unfold atomicGo
  grind [lockWait_mem, atomicRun_canon, grantTag_canon, setWork_mem, waitTag_mem, guardRecord_mem, workRefuse_mem, !prepare_canon]

theorem qpWord_canon (b : Block) (pid rel w : Nat) (hb : Canon b.mem) :
    Canon (qpWord b pid rel w).mem := by
  unfold qpWord
  dsimp only
  (repeat' split) <;> simp +contextual [*, sqRun_canon]

theorem qpDoorbell_canon (b : Block) (vf rel : Nat) (word : Word) (hb : Canon b.mem) :
    Canon (qpDoorbell b vf rel word).mem := by
  unfold qpDoorbell
  grind [doorbellDiscard_mem, qpWord_canon, !doorbell_mem]

theorem stepDoorbell_canon (b : Block) (vf q : Nat) (word : Word) (hb : Canon b.mem) :
    Canon (stepDoorbell b vf q word).mem := by
  unfold stepDoorbell
  grind [wr_mem, ringFetch_canon, doorbellDiscard_mem, !doorbell_mem]

theorem doorbellWrite_canon (b : Block) (vf off width : Nat) (run : Block → Nat → Block) (hrun : ∀ b x, Canon b.mem → Canon (run b x).mem) (hb : Canon b.mem) :
    Canon (doorbellWrite b vf off width run).mem := by
  unfold doorbellWrite
  grind [doorbellDiscard_mem]

theorem queryWrite_canon (b : Block) (pid sub : Nat) (hb : Canon b.mem) : Canon (queryWrite b pid sub).mem := by
  unfold queryWrite
  grind [!startWrite_canon, issue_canon, failCmd_mem, finishCmd_mem, hostRefused_mem, hostWrite_mem, !checkPath_mem]

theorem readGo_canon (b : Block) (w : Work) (hb : Canon b.mem) :
    Canon (readGo b w).mem := by
  unfold readGo
  grind [dropWork_mem, keyDone_mem, readTaken_mem, workRefuse_mem, !startReadRun_canon]

theorem writeGo_canon (b : Block) (w : Work) (hb : Canon b.mem) :
    Canon (writeGo b w).mem := by
  unfold writeGo
  grind [take_canon, sendPieces_canon, setWork_mem, !checkData_mem, workRefuse_mem, !prepare_canon]

theorem workGo_canon (b : Block) (w : Work) (hb : Canon b.mem) :
    Canon (workGo b w).mem := by
  unfold workGo
  (repeat' split) <;> simp [hb, atomicGo_canon, readGo_canon, writeGo_canon]

theorem readPlaced_canon (b : Block) (i : Nat) (m : SendMsg) (len : Nat) (hb : Canon b.mem) :
    Canon (readPlaced b i m len).mem := by
  unfold readPlaced
  dsimp only
  (repeat' split) <;> simp +contextual [*, advance_canon, sqRun_canon]

theorem responseGo_canon (b : Block) (w : Work) (hb : Canon b.mem) :
    Canon (responseGo b w).mem := by
  unfold responseGo
  grind [readPlaced_canon, responseFail_mem, !writeNow_canon, dropWork_mem]

theorem localRead_canon (b : Block) (pid g : Nat) (hb : Canon b.mem) :
    Canon (localRead b pid g).mem := by
  unfold localRead
  grind [onGroup_mem, endGroup_canon, !startRead_canon]

theorem recordRead_canon (b : Block) (pid g : Nat) (hb : Canon b.mem) :
    Canon (recordRead b pid g).mem := by
  unfold recordRead
  grind [onGroup_mem, finishCmd_mem, groupState_mem, !startRead_canon]

theorem groupRetry_canon (b : Block) (h : Holder) (hb : Canon b.mem) : Canon (groupRetry b h).mem := by
  unfold groupRetry
  dsimp only
  split
  · split
    · exact recordRead_canon _ _ _ hb
    · exact hb
  · split
    · split
      · exact appGo_canon _ _ hb
      · exact hb
    · exact localRead_canon _ _ _ hb
  · split
    · exact tableRead_canon _ _ _ hb
    · exact hb
  · split
    · split
      · exact readBack_canon _ _ _ _ hb
      · exact hb
    · exact hb
  · split
    · exact hb
    · next rec _ =>
      have w := writeRecord_canon b (h.a / 65536) (h.a % 65536) rec hb
      split <;> next e =>
        rw [e] at w
        (repeat' split) <;> first | exact w | (rw [groupDone_mem]; exact w) | exact endGroup_canon _ _ _ _ _ w
  · exact hb

theorem burstWrite_canon (b : Block) (c n : Nat) (hb : Canon b.mem) :
    Canon (burstWrite b c n).mem := by
  unfold burstWrite
  grind [setChan_mem, burstFail_mem, !prepare_canon]

theorem chanControl_canon (b : Block) (c : Nat) (hb : Canon b.mem) :
    Canon (chanControl b c).mem := by
  unfold chanControl
  grind [writebackFail_mem, !startWrite_canon, setChan_mem]

theorem chanRetry_canon (b : Block) (c : Nat) (hb : Canon b.mem) :
    Canon (chanRetry b c).mem := by
  unfold chanRetry
  grind [foldl_canon, foldl_fst_canon, chanStep_canon, beats_canon, burstWrite_canon, burstRead_canon, chanControl_canon, chanWriteback_canon, chanReadback_canon, chanFetch_canon]

theorem engineGo_canon (b : Block) (es : Nat) (r : EReq) (hb : Canon b.mem) :
    Canon (engineGo b es r).mem := by
  unfold engineGo
  (repeat' split) <;> simp [hb, engineTry_canon, release_canon]

theorem engineResume_canon (b : Block) (es : Nat) (r : EReq) (hb : Canon b.mem) :
    Canon (engineResume b es r).mem := by
  unfold engineResume
  (repeat' split) <;> simp [hb, engineStore_canon, release_canon]

theorem retryAsker_canon (b : Block) (h : Holder) (hb : Canon b.mem) :
    Canon (retryAsker b h).mem := by
  unfold retryAsker
  (repeat' split) <;> simp [hb, putResult_canon, ringFetch_canon, queryWrite_canon, payloadRead_canon, sqFetch_canon, appGo_canon, workGo_canon, responseGo_canon, groupRetry_canon, chanRetry_canon, engineGo_canon, engineResume_canon]

theorem retryAll_canon (b : Block) (l : List Asker) (hb : Canon b.mem) :
    Canon (retryAll b l).mem := by
  unfold retryAll
  grind [foldl_canon, foldl_fst_canon, retryAsker_canon]

theorem retryEnded_canon (b0 b : Block) (hb : Canon b.mem) : Canon (retryEnded b0 b).mem :=
  foldl_canon _ (fun b w h => retryAll_canon b _ h) _ b hb

theorem invTake_canon (b : Block) (s r : Nat) (hb : Canon b.mem) :
    Canon (invTake b s r).mem := by
  unfold invTake
  dsimp only
  (repeat' split) <;> simp +contextual [*, retryEnded_canon, invalidate_canon]

theorem invWrite_canon (b : Block) (s off : Nat) (d : Bytes) (hb : Canon b.mem) :
    Canon (invWrite b s off d).mem := by
  unfold invWrite
  (repeat' split) <;> simp [hb, invTake_canon]

theorem blobOp_canon (b : Block) (acc : Access) (idx sub : Nat) (write : Bool) (f : Block → Block) (hf : ∀ b, Canon b.mem → Canon (f b).mem) (hb : Canon b.mem) :
    Canon (blobOp b acc idx sub write f).mem := by
  unfold blobOp
  dsimp only
  (repeat' split) <;> simp +contextual [*, ]

theorem blobOwned_canon (b : Block) (acc : Access) (idx sub : Nat) (range : Transfer → Bool) (f : Block → Transfer → Block) (hf : ∀ b x, Canon b.mem → Canon (f b x).mem) (hb : Canon b.mem) :
    Canon (blobOwned b acc idx sub range f).mem := by
  unfold blobOwned
  grind [answer_mem, touchXfer_mem, blobOp_canon]

theorem queueFlush_canon (b : Block) (acc : Access) (pid arg : Nat) (hb : Canon b.mem) :
    Canon (queueFlush b acc pid arg).mem := by
  unfold queueFlush
  dsimp only
  (repeat' split) <;> simp +contextual [*, stopSteps_canon, partCommand_canon]

theorem groupArmCmd_canon (b : Block) (acc : Access) (pid arg : Nat) (hb : Canon b.mem) :
    Canon (groupArmCmd b acc pid arg).mem := by
  unfold groupArmCmd
  dsimp only
  (repeat' split) <;> simp +contextual [*, recordRead_canon, partCommand_canon]

theorem objectRead_canon (b : Block) (pid sub arg : Nat) (run : Block → Block) (hrun : ∀ b, Canon b.mem → Canon (run b).mem) (hb : Canon b.mem) :
    Canon (objectRead b pid sub arg run).mem := by
  unfold objectRead
  dsimp only
  (repeat' split) <;> simp +contextual [*, ]

theorem inOrder_canon (b : Block) (pid sub arg : Nat) (run : Block → Block) (hrun : ∀ b, Canon b.mem → Canon (run b).mem) (hb : Canon b.mem) :
    Canon (inOrder b pid sub arg run).mem := by
  unfold inOrder
  grind [objectRead_canon]

theorem setupCmd_canon (b : Block) (acc : Access) (pid sub arg : Nat) (accepts : Block → Bool) (hb : Canon b.mem) :
    Canon (setupCmd b acc pid sub arg accepts).mem := by
  unfold setupCmd
  grind [issue_canon, hostRefused_mem, finishCmd_mem, partCommand_canon]

theorem keyRegCmd_canon (b : Block) (acc : Access) (pid arg : Nat) (hb : Canon b.mem) :
    Canon (keyRegCmd b acc pid arg).mem := by
  unfold keyRegCmd
  (repeat' split) <;> simp [hb, setupCmd_canon]

theorem queryCmd_canon (b : Block) (acc : Access) (pid sub arg : Nat) (hb : Canon b.mem) :
    Canon (queryCmd b acc pid sub arg).mem := by
  unfold queryCmd
  grind [queryWrite_canon, inOrder_canon, partCommand_canon]

theorem drainQp_canon (b : Block) (i : Nat) (quiet : Bool) (hb : Canon b.mem) :
    Canon (drainQp b i quiet).mem := by
  unfold drainQp
  (repeat' split) <;> simp [hb, tearDown_canon]

theorem qpDrainCmd_canon (b : Block) (acc : Access) (pid arg : Nat) (hb : Canon b.mem) :
    Canon (qpDrainCmd b acc pid arg).mem := by
  unfold qpDrainCmd
  grind [drainQp_canon, inOrder_canon, partCommand_canon]

theorem qpResetCmd_canon (b : Block) (acc : Access) (pid arg : Nat) (hb : Canon b.mem) :
    Canon (qpResetCmd b acc pid arg).mem := by
  unfold qpResetCmd
  grind [resetQp_canon, inOrder_canon, partCommand_canon]

theorem qpConnectCmd_canon (b : Block) (acc : Access) (pid arg : Nat) (hb : Canon b.mem) :
    Canon (qpConnectCmd b acc pid arg).mem := by
  unfold qpConnectCmd
  (repeat' split) <;> simp [hb, setupCmd_canon]

theorem qpInitCmd_canon (b : Block) (acc : Access) (pid arg : Nat) (hb : Canon b.mem) :
    Canon (qpInitCmd b acc pid arg).mem := by
  unfold qpInitCmd
  (repeat' split) <;> simp [hb, setupCmd_canon]

theorem resumeRow_canon (b : Block) (x' : ChannelVia) (hb : Canon b.mem) :
    Canon (resumeRow b x').mem := by
  unfold resumeRow
  grind [chanResume_canon, finishCmd_mem, chanCommand_canon, chanDoorbell_canon, wakeEvent_canon]

theorem invalidateFor_canon (b : Block) (idx sub : Nat) (undo : Option (Nat × Nat × Option Nat)) (c : Cover) (hb : Canon b.mem) :
    Canon (invalidateFor b idx sub undo c).mem := by
  unfold invalidateFor
  dsimp only
  (repeat' split) <;> simp +contextual [*, invalidate_canon]

theorem s1Invalidate_canon (b : Block) (acc : Access) (pid arg : Nat) (hb : Canon b.mem) :
    Canon (s1Invalidate b acc pid arg).mem :=
  retryEnded_canon _ _ (partCommand_canon _ _ _ _ _ _ _ _ (fun b h => invalidateFor_canon b _ _ _ _ h) hb)

theorem s1RootSet_canon (b : Block) (acc : Access) (pid arg : Nat) (hb : Canon b.mem) :
    Canon (s1RootSet b acc pid arg).mem :=
  retryEnded_canon _ _ (partCommand_canon _ _ _ _ _ _ _ _
    (fun b h => invalidateFor_canon _ _ _ _ _ (by rw [setRoot1_mem]; exact h)) hb)

theorem s2RootSet_canon (b : Block) (acc : Access) (pid arg : Nat) (hb : Canon b.mem) :
    Canon (s2RootSet b acc pid arg).mem :=
  retryEnded_canon _ _ (partCommand_canon _ _ _ _ _ _ _ _ (fun b h => invalidateFor_canon _ _ _ _ _ h) hb)

theorem closeQp_canon (b : Block) (i : Nat) (hb : Canon b.mem) :
    Canon (closeQp b i).mem := by
  unfold closeQp
  dsimp only
  (repeat' split) <;> simp +contextual [*, drainQp_canon]

theorem chanStop_canon (b : Block) (c : Nat) (off : Bool) (hb : Canon b.mem) :
    Canon (chanStop b c off).mem := by
  unfold chanStop
  dsimp only
  (repeat' split) <;> simp +contextual [*, chanStep_canon, chanComplete_canon]

theorem chanClose_canon (b : Block) (cx c : Nat) (hb : Canon b.mem) :
    Canon (chanClose b cx c).mem := by
  unfold chanClose
  dsimp only
  (repeat' split) <;> simp +contextual [*, chanStop_canon]

theorem closeCtx_canon (b : Block) (pid cx : Nat) (hb : Canon b.mem) :
    Canon (closeCtx b pid cx).mem := by
  unfold closeCtx
  grind [foldl_canon, foldl_fst_canon, endGroups_canon, revokeKey_mem, closeQp_canon, chanClose_canon, stopSteps_canon, refuseReqs_mem, changeCtx_mem]

theorem ctxCloseCmd_canon (b : Block) (acc : Access) (pid arg : Nat) (hb : Canon b.mem) :
    Canon (ctxCloseCmd b acc pid arg).mem := by
  unfold ctxCloseCmd
  dsimp only
  (repeat' split) <;> simp +contextual [*, closeCtx_canon, partCommand_canon]

theorem chanWithdraw_canon (b : Block) (c : Nat) (hb : Canon b.mem) :
    Canon (chanWithdraw b c).mem := by
  unfold chanWithdraw
  dsimp only
  (repeat' split) <;> simp +contextual [*, chanStop_canon]

theorem startWithdraw_canon (b : Block) (pid cause : Nat) (hb : Canon b.mem) :
    Canon (startWithdraw b pid cause).mem := by
  unfold startWithdraw
  grind [foldl_canon, foldl_fst_canon, endGroups_canon, revokeKey_mem, closeQp_canon, chanWithdraw_canon, stopSteps_canon, refuseReqs_mem, changeCtx_mem, notePart_mem, setPart_mem, dropTenant_mem]

theorem withdrawCmd_canon (b : Block) (acc : Access) (pid arg : Nat) (hb : Canon b.mem) :
    Canon (withdrawCmd b acc pid arg).mem := by
  unfold withdrawCmd
  dsimp only
  (repeat' split) <;> simp +contextual [*, startWithdraw_canon, partCommand_canon]

theorem commandNow_canon (b : Block) (acc : Access) (idx sub arg : Nat) (fails : Block → CmdFails) (run : Block → Block × Code × Nat) (hrun : ∀ b, Canon b.mem → Canon (run b).1.mem) (hb : Canon b.mem) :
    Canon (commandNow b acc idx sub arg fails run).mem := by
  unfold commandNow
  dsimp only
  (repeat' split) <;> simp +contextual [*, command_canon]

theorem copyPackets_canon (b : Block) (i : Nat) (m : SendMsg) (hb : Canon b.mem) :
    Canon (copyPackets b i m).mem := by
  unfold copyPackets
  grind [foldl_canon, foldl_fst_canon, enqueue_mem, !takeFrame_canon, onQp_mem]

theorem resend_canon (b : Block) (i : Nat) (hb : Canon b.mem) : Canon (resend b i).mem := by
  unfold resend
  refine sqRun_canon _ i ?_
  rw [onQp_mem]
  exact foldl_canon _ (fun b m h => copyPackets_canon b i m h) _ _ hb

theorem takeQp_canon (b : Block) (pp j : Nat) (body : Bytes) (hb : Canon b.mem) :
    Canon (takeQp b pp j body).1.mem := by
  unfold takeQp
  dsimp only
  (repeat' split) <;> simp +contextual [*, resend_canon]

theorem takeShadow_canon (b : Block) (pp : Nat) (hb : Canon b.mem) :
    Canon (takeShadow b pp).1.mem := by
  unfold takeShadow
  grind [foldl_canon, foldl_fst_canon, wr_mem, msixPart_mem, setShadow_mem, addTo_mem, !takeQp_canon, takeKey_mem]

theorem takeoverRun_canon (b : Block) (hb : Canon b.mem) :
    Canon (takeoverRun b).1.mem := by
  unfold takeoverRun
  grind [foldl_canon, foldl_fst_canon, !takeShadow_canon, refuseShadow_mem, wr_mem]

theorem takeover_canon (b : Block) (acc : Access) (arg : Nat) (hb : Canon b.mem) :
    Canon (takeover b acc arg).mem := by
  unfold takeover
  dsimp only
  (repeat' split) <;> simp +contextual [*, takeoverRun_canon, commandNow_canon]

theorem domainFence_canon (b : Block) (acc : Access) (arg : Nat) (hb : Canon b.mem) :
    Canon (domainFence b acc arg).mem := by
  unfold domainFence
  dsimp only
  (repeat' split) <;> simp +contextual [*, fenceDomain_canon, command_canon]

theorem dumpOver_canon (b : Block) (hb : Canon b.mem) :
    Canon (dumpOver b).mem := by
  unfold dumpOver
  grind [foldl_canon, foldl_fst_canon, afterDrain_canon]

theorem unitReturn_canon (b : Block) (acc : Access) (arg : Nat) (hb : Canon b.mem) :
    Canon (unitReturn b acc arg).mem := by
  unfold unitReturn
  grind [setPortState_mem, startReset_canon, dumpOver_canon, command_canon]

theorem unitOut_canon (b : Block) (acc : Access) (arg : Nat) (hb : Canon b.mem) :
    Canon (unitOut b acc arg).mem := by
  unfold unitOut
  dsimp only
  (repeat' split) <;> simp +contextual [*, fenceDomain_canon, command_canon]

theorem runCommand_canon (b : Block) (acc : Access) (idx sub : Nat) (v : Word) (hb : Canon b.mem) :
    Canon (runCommand b acc idx sub v).mem := by
  unfold runCommand
  dsimp only
  split
  case h_27 =>
    split <;>
      simp [hb, withdrawCmd_canon, ctxCloseCmd_canon, s2RootSet_canon, s1RootSet_canon, s1Invalidate_canon, abortRow_canon,
        resumeRow_canon, qpInitCmd_canon, qpConnectCmd_canon, qpResetCmd_canon, qpDrainCmd_canon, queryCmd_canon,
        keyRegCmd_canon, groupArmCmd_canon, queueFlush_canon]
  all_goals simp [hb, unitOut_canon, unitReturn_canon, domainFence_canon, takeover_canon, aliasEnd_canon]

theorem opWrite_canon (b : Block) (acc : Access) (idx sub size : Nat) (v : Word) (hb : Canon b.mem) :
    Canon (opWrite b acc idx sub size v).mem := by
  unfold opWrite
  dsimp only
  (repeat' split) <;> simp +contextual [*, scalarWrite_canon, runCommand_canon]

theorem performReq_canon (b : Block) (p : Path) (w : Nat) (data : Word) (seg : Nat) (hb : Canon b.mem) :
    Canon (performReq b p w data seg).mem := by
  unfold performReq
  (repeat' split) <;> simp [hb, opWrite_canon]

theorem slotWrite_canon (b : Block) (fn slot off width : Nat) (v : Word) (hb : Canon b.mem) :
    Canon (slotWrite b fn slot off width v).mem := by
  unfold slotWrite
  (repeat' split) <;> simp [hb, performReq_canon]

theorem barWrite_canon (b : Block) (fn off width : Nat) (v : Word) (hb : Canon b.mem) :
    Canon (barWrite b fn off width v).mem := by
  unfold barWrite
  dsimp only
  (repeat' split) <;> simp +contextual [*, qpDoorbell_canon, stepDoorbell_canon, chanDoorbell_canon, doorbellWrite_canon, invWrite_canon, slotWrite_canon]

theorem bindOne_canon (b : Block) (pid g : Nat) (u : Bound) (op : Access4) (hb : Canon b.mem) :
    Canon (bindOne b pid g u op).1.mem := by
  unfold bindOne
  grind [guardRecord_mem, !xlate_canon]

theorem bindAll_canon (b : Block) (pid g img : Nat) (done : List Bound) (x' : List Bound) (hb : Canon b.mem) :
    Canon (bindAll b pid g img done x').1.mem := by
  fun_induction bindAll <;> grind [!bindOne_canon]

theorem bootBlock_canon (b : Block) (keep lock : Bool) (st : Straps) (hb : Canon b.mem) : Canon (bootBlock b keep lock st).mem := by
  cases keep
  · exact ⟨rfl⟩
  · exact hb

theorem writeBackLanes_canon (b : Block) (x : Group) (j : Job) (hb : Canon b.mem) :
    Canon (writeBackLanes b x j).1.mem := by
  unfold writeBackLanes
  grind [foldl_canon, foldl_fst_canon, onGroup_mem, writeMem_canon, emit_mem, !draw_mem, !streamAdmit_mem]

theorem bundleEnd_canon (b : Block) (x : Group) (ms : Nat) (j : Job) (hb : Canon b.mem) :
    Canon (bundleEnd b x ms j).1.mem := by
  unfold bundleEnd
  grind [!loadLanes_mem, !writeBackLanes_canon, addTo_mem]

theorem burstArrival_canon (b : Block) (c n : Nat) (ans : Answer) (hb : Canon b.mem) :
    Canon (burstArrival b c n ans).mem := by
  unfold burstArrival
  grind [burstDone_mem, burstFail_mem, burstWrite_canon, chanStep_canon, beats_canon, setChan_mem, addTo_mem, !arrive_mem]

theorem chanHaltNow_canon (b : Block) (c : Nat) (hb : Canon b.mem) :
    Canon (chanHaltNow b c).mem := by
  unfold chanHaltNow
  dsimp only
  (repeat' split) <;> simp +contextual [*, haltOnBurst_canon]

theorem chanExpire_canon (b : Block) (c : Nat) (st : Status) (p : Ctx → Bool) (hb : Canon b.mem) :
    Canon (chanExpire b c st p).mem := by
  unfold chanExpire
  grind [foldl_canon, foldl_fst_canon, chanHaltNow_canon, burstFail_mem, writebackFail_mem, haltOnBurst_canon, settle_mem, haltAtOnce_mem]

theorem chanFinish_canon (b : Block) (c : Nat) (hb : Canon b.mem) :
    Canon (chanFinish b c).mem := by
  unfold chanFinish
  dsimp only
  (repeat' split) <;> simp +contextual [*, chanNext_canon]

theorem clearBlock_canon (b : Block) (hb : Canon b.mem) : Canon (clearBlock b).mem := by
  unfold clearBlock
  simpa using hb

theorem clearRows_canon (b : Block) (r pa : Nat) (x' : Nat) (hb : Canon b.mem) :
    Canon (clearRows b r pa x').mem := by
  fun_induction clearRows <;> grind [present_canon]

theorem clearPages_canon (b : Block) (pid g : Nat) (p : Nat) (x' : Nat) (hb : Canon b.mem) :
    Canon (clearPages b pid g p x').1.mem := by
  fun_induction clearPages <;> grind [clearRows_canon, onGroup_mem, !msAdmit_mem, !xlate_canon]

theorem comeBack_canon (b : Block) (key : Nat) (hb : Canon b.mem) :
    Canon (comeBack b key).mem := by
  unfold comeBack
  grind [foldl_canon, foldl_fst_canon, ringFetch_canon, readyMs_mem, setPort_mem, setPortState_mem, portLink_mem, retryHeld_mem, msixPart_mem, setDomain_mem, count_mem, goOut_mem, finishDom_mem]

theorem completionWrite_canon (b : Block) (i : Nat) (hb : Canon b.mem) :
    Canon (completionWrite b i).mem := by
  unfold completionWrite
  grind [freeTracker_mem, msixPart_mem, onQp_mem, !writeNow_canon, completionFail_mem]

theorem freeCtxSlot_canon (b : Block) (pid cx : Nat) (hb : Canon b.mem) :
    Canon (freeCtxSlot b pid cx).mem := by
  unfold freeCtxSlot
  dsimp only
  (repeat' split) <;> simp +contextual [*, foldl_canon, retryEnded_canon, invalidate_canon]

theorem resumeCmd_canon (b : Block) (pid : Nat) (c : PendCmd) (hb : Canon b.mem) :
    Canon (resumeCmd b pid c).mem := by
  unfold resumeCmd
  dsimp only
  (repeat' split) <;> simp +contextual [*, queryWrite_canon, drainQp_canon, resetQp_canon, objectRead_canon]

theorem setupEnd_canon (b : Block) (pid : Nat) (c : PendCmd) (code : Code) (detail : Nat) (hb : Canon b.mem) :
    Canon (setupEnd b pid c code detail).mem := by
  unfold setupEnd
  dsimp only
  (repeat' split) <;> simp +contextual [*, foldl_canon, resumeCmd_canon]

theorem expireCmd_canon (b : Block) (h : Holder) (st : Status) (hb : Canon b.mem) :
    Canon (expireCmd b h st).mem := by
  unfold expireCmd
  (repeat' split) <;> simp [hb, setupEnd_canon]

theorem expireApps_canon (b : Block) (p : Holder → Ctx → Bool) (st : Status) (hb : Canon b.mem) :
    Canon (expireApps b p st).mem := by
  unfold expireApps
  grind [foldl_canon, foldl_fst_canon, appRefuse_canon, dropApp_mem]

theorem expireTags_canon (b : Block) (p : Holder → Ctx → Bool) (st : Status) (hb : Canon b.mem) :
    Canon (expireTags b p st).mem := by
  unfold expireTags
  grind [foldl_canon, foldl_fst_canon, expireCmd_canon, pumpInv_mem, dropTag_mem, putReply_mem, expireApps_canon, expireRings_mem, refuseReqs_mem]

theorem expireKey_canon (b : Block) (j : Nat) (st : Status) (hb : Canon b.mem) :
    Canon (expireKey b j st).mem := by
  unfold expireKey
  grind [foldl_canon, foldl_fst_canon, freeKey_mem, dropTx_mem, dropApps_mem, endGroup_canon, refuse_mem, freeSlot_mem, abandon_mem, lockForget_mem]

theorem giveUp_canon (b : Block) (p : Holder → Ctx → Bool) (qps keys chans : List Nat) (st : Status) (hb : Canon b.mem) :
    Canon (giveUp b p qps keys chans st).1.mem := by
  unfold giveUp
  grind [foldl_canon, foldl_fst_canon, expireTags_canon, chanExpire_canon, expireQp_mem, expireKey_canon, timeouts_mem]

theorem expireCtx_canon (b : Block) (pid cx : Nat) (hb : Canon b.mem) :
    Canon (expireCtx b pid cx).mem := by
  unfold expireCtx
  (repeat' split) <;> simp [hb, giveUp_canon]

theorem ctxCloseDone_canon (b : Block) (pid cx : Nat) (hb : Canon b.mem) :
    Canon (ctxCloseDone b pid cx).mem := by
  unfold ctxCloseDone
  dsimp only
  (repeat' split) <;> simp +contextual [*, freeCtxSlot_canon, expireCtx_canon]

theorem takeAtomicResp_canon (b : Block) (p i psn original : Nat) (hb : Canon b.mem) :
    Canon (takeAtomicResp b p i psn original).mem := by
  unfold takeAtomicResp
  dsimp only
  (repeat' split) <;> simp +contextual [*, advance_canon, sqRun_canon]

theorem takeReadResp_canon (b : Block) (p i : Nat) (h : Bth) (ext : Nat) (pay : Bytes) (poison : Nat) (hb : Canon b.mem) :
    Canon (takeReadResp b p i h ext pay poison).mem := by
  unfold takeReadResp
  dsimp only
  (repeat' split) <;> simp +contextual [*, responseGo_canon, readPlaced_canon]

theorem takeAck_canon (b : Block) (i base map : Nat) (hb : Canon b.mem) :
    Canon (takeAck b i base map).mem := by
  unfold takeAck
  (repeat' split) <;> simp [hb, advance_canon]

theorem response_canon (b : Block) (p i : Nat) (h : Bth) (ext : Nat) (pay : Bytes) (poison : Nat) (hb : Canon b.mem) :
    Canon (response b p i h ext pay poison).mem := by
  unfold response
  (repeat' split) <;> simp [hb, takeAtomicResp_canon, takeReadResp_canon, takeAck_canon, sqRun_canon]

theorem startApp_canon (b : Block) (a : App) (hb : Canon b.mem) :
    Canon (startApp b a).mem := by
  unfold startApp
  (repeat' split) <;> simp [hb, appGo_canon]

theorem reduceGo_canon (b : Block) (i j : Nat) (r : Req) (hb : Canon b.mem) :
    Canon (reduceGo b i j r).mem := by
  unfold reduceGo
  dsimp only
  (repeat' split) <;> simp +contextual [*, startApp_canon]

theorem request_canon (b : Block) (i : Nat) (r : Req) (hb : Canon b.mem) :
    Canon (request b i r).mem := by
  unfold request
  grind [addWork_mem, workGo_canon, reduceGo_canon, keyTaken_mem, keyNak_mem, !checkWord_mem, acceptReq_mem, count_mem, refuse_mem, sendNak_mem, freeSlot_mem, !screen_mem]

theorem qpArrival_canon (b : Block) (p : Nat) (aliased : Bool) (h : Bth) (ext : Nat) (pay : Bytes) (poison : Nat) (hb : Canon b.mem) :
    Canon (qpArrival b p aliased h ext pay poison).mem := by
  unfold qpArrival
  grind [response_canon, request_canon, !qpWordBad_mem, count_mem, freeSlot_mem]

theorem engineAnswer_canon (b : Block) (es : Nat) (r : EReq) (st : Status) (d : Nat) (hb : Canon b.mem) :
    Canon (engineAnswer b es r st d).mem := by
  unfold engineAnswer
  dsimp only
  (repeat' split) <;> simp +contextual [*, release_canon]

theorem engineArrive_canon (b : Block) (es num : Nat) (ans : Answer) (hb : Canon b.mem) :
    Canon (engineArrive b es num ans).mem := by
  unfold engineArrive
  grind [engineAnswer_canon, !arrive_mem]

theorem pumpEngines_canon (b : Block) (hb : Canon b.mem) :
    Canon (pumpEngines b).mem := by
  unfold pumpEngines
  grind [foldl_canon, foldl_fst_canon, engineArrive_canon, release_canon]

theorem remoteRequest_canon (b : Block) (p : Path) (r : Bytes) (hb : Canon b.mem) :
    Canon (remoteRequest b p r).mem := by
  unfold remoteRequest
  dsimp only
  (repeat' split) <;> simp +contextual [*, performReq_canon]

theorem dictPacket_canon (b : Block) (chip port ctr : Nat) (r : Bytes) (hb : Canon b.mem) :
    Canon (dictPacket b chip port ctr r).mem := by
  unfold dictPacket
  dsimp only
  (repeat' split) <;> simp +contextual [*, remoteRequest_canon]

theorem deliver_canon (b : Block) (p ctr sender : Nat) (k : Packet) (hb : Canon b.mem) :
    Canon (deliver b p ctr sender k).mem := by
  unfold deliver
  grind [qpArrival_canon, pumpEngines_canon, fencedNak_mem, mirrorArrival_mem, freeSlot_mem, !creditArrival_mem, takeSealNak_mem, busAccess_mem, dictPacket_canon, !checkFlits_mem, takeCredit_mem]

theorem descTake_canon (b : Block) (c d : Nat) (hb : Canon b.mem) :
    Canon (descTake b c d).mem := by
  unfold descTake
  (repeat' split) <;> simp [hb, chanStep_canon, chanComplete_canon]

theorem descArrival_canon (b : Block) (c : Nat) (ans : Answer) (hb : Canon b.mem) :
    Canon (descArrival b c ans).mem := by
  unfold descArrival
  grind [haltAtOnce_mem, descTake_canon, chanNext_canon, chanOff_mem, setChan_mem, !arrive_mem]

theorem submitStep_canon (b : Block) (pid d : Nat) (rst : Status) (list : Nat) (hb : Canon b.mem) :
    Canon (submitStep b pid d rst list).mem := by
  unfold submitStep
  dsimp only
  (repeat' split) <;> simp +contextual [*, stepResult_canon]

theorem readNow_canon (b : Block) (a : Asker) (c : Ctx) (va len : Nat) (ans : Answer) (hb : Canon b.mem) :
    Canon (readNow b a c va len ans).1.mem := by
  unfold readNow
  grind [!checkData_mem, underTag_canon, waitTag_mem, !prepare_canon]

theorem readRanges_canon (b : Block) (pid d : Nat) (h : Holder) (ans : Answer) (hb : Canon b.mem) :
    Canon (readRanges b pid d h ans).1.mem := by
  unfold readRanges
  (repeat' split) <;> simp [hb, readNow_canon]

theorem descTaken_canon (b : Block) (pid q : Nat) (desc ranges : Answer) (hb : Canon b.mem) :
    Canon (descTaken b pid q desc ranges).mem := by
  unfold descTaken
  split
  · exact hb
  · exact hb
  split
  · exact hb
  · next e =>
    have a := arrive_mem e
    split
    · rw [wr_mem, setRing_mem, a]; exact hb
    split
    · rw [setRing_mem, a]; exact hb
    have r := readRanges_canon b pid ‹Nat› ⟨.stepRanges, pid * 8 + q, 0⟩ ranges hb
    split <;> next e =>
      rw [e] at r
      first
        | exact r
        | (split
           · exact r
           · next e => exact ringFetch_canon _ _ _ (submitStep_canon _ _ _ _ _ (by simpa [arrive_mem e] using r)))

theorem drained_canon (b : Block) (key : Nat) (hb : Canon b.mem) :
    Canon (drained b key).mem := by
  unfold drained
  dsimp only
  (repeat' split) <;> simp +contextual [*, afterDrain_canon]

theorem domainDrainDone_canon (b : Block) (key : Nat) (hb : Canon b.mem) :
    Canon (domainDrainDone b key).mem := by
  unfold domainDrainDone
  (repeat' split) <;> simp [hb, drained_canon, dumpOver_canon]

theorem expirePart_canon (b : Block) (pid : Nat) (hb : Canon b.mem) :
    Canon (expirePart b pid).mem := by
  unfold expirePart
  grind [foldl_canon, foldl_fst_canon, expireTags_canon, chanExpire_canon, fenceWork_mem, timeouts_mem]

theorem readbackDone_canon (b : Block) (pid g : Nat) (ans : Answer) (hb : Canon b.mem) :
    Canon (readbackDone b pid g ans).mem := by
  unfold readbackDone
  grind [finishGroup_canon, endGroup_canon, onGroup_mem, !arrive_mem]

theorem streamTableDone_canon (b : Block) (pid g : Nat) (ans : Answer) (hb : Canon b.mem) :
    Canon (streamTableDone b pid g ans).mem := by
  unfold streamTableDone
  grind [onGroup_mem, progFail_canon, !arrive_mem]

theorem localSlotDone_canon (b : Block) (pid g slot : Nat) (ans : Answer) (hb : Canon b.mem) :
    Canon (localSlotDone b pid g slot ans).mem := by
  unfold localSlotDone
  grind [localRead_canon, startApp_canon, endGroup_canon, onGroup_mem, !arrive_mem]

theorem tableReadDone_canon (b : Block) (num : Nat) (ans : Answer) (hb : Canon b.mem) :
    Canon (tableReadDone b num ans).mem := by
  unfold tableReadDone
  dsimp only
  (repeat' split) <;> simp +contextual [*, walkAdvance_canon, retryAll_canon]

theorem statusArrival_canon (b : Block) (c : Nat) (ans : Answer) (hb : Canon b.mem) :
    Canon (statusArrival b c ans).mem := by
  unfold statusArrival
  grind [chanFinish_canon, chanControl_canon, writebackFail_mem, setChan_mem, !arrive_mem]

theorem readbackArrival_canon (b : Block) (c : Nat) (ans : Answer) (hb : Canon b.mem) :
    Canon (readbackArrival b c ans).mem := by
  unfold readbackArrival
  grind [haltOnBurst_canon, chanWriteback_canon, setChan_mem, !arrive_mem]

theorem fenceHolder_canon (b : Block) (h : Holder) (hb : Canon b.mem) :
    Canon (fenceHolder b h).mem := by
  unfold fenceHolder
  (repeat' split) <;> simp [hb, readbackDone_canon, streamTableDone_canon, localSlotDone_canon, descTaken_canon, tableReadDone_canon, expireCmd_canon, statusArrival_canon, readbackArrival_canon, burstArrival_canon, descArrival_canon]

theorem fenceTags_canon (b : Block) (p : Holder → List Seg → Bool) (hb : Canon b.mem) :
    Canon (fenceTags b p).mem := by
  unfold fenceTags
  grind [foldl_canon, foldl_fst_canon, dropTag_mem, fenceHolder_canon, adopt_mem]

theorem expireUnit_canon (b : Block) (key : Nat) (hb : Canon b.mem) :
    Canon (expireUnit b key).mem := by
  unfold expireUnit
  grind [foldl_canon, foldl_fst_canon, fenceTags_canon, pumpEngines_canon, pumpInv_mem, fenceSpillOps_mem, fenceWork_mem, appRefuse_canon, fenceReqs_mem, timeouts_mem]

theorem expireDomain_canon (b : Block) (key : Nat) (hb : Canon b.mem) :
    Canon (expireDomain b key).mem := by
  unfold expireDomain
  grind [foldl_canon, foldl_fst_canon, expirePart_canon, expireUnit_canon]

theorem domainDrainTimeout_canon (b : Block) (key : Nat) (hb : Canon b.mem) :
    Canon (domainDrainTimeout b key).mem := by
  unfold domainDrainTimeout
  grind [expireBlock_mem, recoveryNext_mem, expireDomain_canon, drained_canon, dumpOver_canon]

theorem domainResetDone_canon (b : Block) (key : Nat) (hb : Canon b.mem) :
    Canon (domainResetDone b key).mem := by
  unfold domainResetDone
  (repeat' split) <;> simp [hb, comeBack_canon]

theorem domainRetrainDone_canon (b : Block) (key : Nat) (hb : Canon b.mem) :
    Canon (domainRetrainDone b key).mem := by
  unfold domainRetrainDone
  (repeat' split) <;> simp [hb, comeBack_canon]

theorem skimEnd_canon (b : Block) (st : Nat) (hb : Canon b.mem) :
    Canon (skimEnd b st).mem := by
  unfold skimEnd
  (repeat' split) <;> simp [hb, dumpOver_canon]

theorem droneExpiry_canon (b : Block) (n : Nat) (hb : Canon b.mem) :
    Canon (droneExpiry b n).mem := by
  unfold droneExpiry
  dsimp only
  (repeat' split) <;> simp +contextual [*, skimEnd_canon]

theorem engineCtl_canon (b : Block) (es op va : Nat) (hb : Canon b.mem) :
    Canon (engineCtl b es op va).mem := by
  unfold engineCtl
  dsimp only
  (repeat' split) <;> simp +contextual [*, release_canon]

theorem engineMem_canon (b : Block) (es op va beats data compare : Nat) (hb : Canon b.mem) :
    Canon (engineMem b es op va beats data compare).mem := by
  unfold engineMem
  grind [engineGo_canon, !addReq_mem, !checkWord_mem, screenRecord_mem, eqStatus_mem]

theorem enginePost_canon (b : Block) (es va w : Nat) (hb : Canon b.mem) :
    Canon (enginePost b es va w).mem := by
  unfold enginePost
  (repeat' split) <;> simp [hb, qpWord_canon]

theorem engineWait_canon (b : Block) (es : Nat) (hb : Canon b.mem) :
    Canon (engineWait b es).mem := by
  unfold engineWait
  dsimp only
  (repeat' split) <;> simp +contextual [*, engineCtl_canon]

theorem evictNode_canon (b : Block) (l n : Nat) (hb : Canon b.mem) :
    Canon (evictNode b l n).mem := by
  unfold evictNode
  grind [writeBack_mem, !parentUse_mem, pumpSpill_canon, !nodeUse_mem]

theorem takeEvent_canon (b : Block) (e : Event) (hb : Canon b.mem) :
    Canon (takeEvent b e).mem := by
  unfold takeEvent
  dsimp only
  (repeat' split) <;> simp +contextual [*, act_canon]

theorem fcuEvent_canon (b : Block) (hb : Canon b.mem) :
    Canon (fcuEvent b).mem := by
  unfold fcuEvent
  dsimp only
  (repeat' split) <;> simp +contextual [*, takeEvent_canon]

theorem fcuRow_canon (b : Block) (hb : Canon b.mem) :
    Canon (fcuRow b).mem := by
  unfold fcuRow
  grind [fcuEvent_canon, wakeEvent_canon]

theorem flr_canon (b : Block) (vf : Nat) (hb : Canon b.mem) :
    Canon (flr b vf).mem := by
  unfold flr
  dsimp only
  (repeat' split) <;> simp +contextual [*, startWithdraw_canon]

theorem frameGo_canon (b : Block) (i psn : Nat) (hb : Canon b.mem) :
    Canon (frameGo b i psn).mem := by
  unfold frameGo
  dsimp only
  (repeat' split) <;> simp +contextual [*, advance_canon]

theorem generation_canon (b : Block) (pid : Nat) (hb : Canon b.mem) :
    Canon (generation b pid).mem := by
  unfold generation
  grind [foldl_canon, foldl_fst_canon, failResults_mem, pumpInv_mem, finishCmd_mem, !invalidate_canon, dropHolders_mem, setPart_mem, setCtx_mem, changeCtx_mem]

theorem tagGrant_canon (b : Block) (p : Pool) (hb : Canon b.mem) :
    Canon (tagGrant b p).mem := by
  unfold tagGrant
  (repeat' split) <;> simp [hb, grantTag_canon]

theorem grantRow_canon (b : Block) (p : Pool) (hb : Canon b.mem) :
    Canon (grantRow b p).mem := by
  unfold grantRow
  (repeat' split) <;> simp [hb, retryAsker_canon, frameGo_canon, tagGrant_canon]

theorem groupArmed_canon (b : Block) (pid g : Nat) (hb : Canon b.mem) :
    Canon (groupArmed b pid g).mem := by
  unfold groupArmed
  grind [localRead_canon, groupState_mem, finishCmd_mem, onGroup_mem, endGroup_canon, !clearPages_canon]

theorem resetUnits_canon (b : Block) (pid : Nat) (hb : Canon b.mem) :
    Canon (resetUnits b pid).mem := by
  unfold resetUnits
  (repeat' split) <;> simp [hb, pumpResets_canon]

theorem handBack_canon (b : Block) (pid : Nat) (hb : Canon b.mem) :
    Canon (handBack b pid).mem := by
  unfold handBack
  grind [foldl_canon, foldl_fst_canon, chanterGone_mem, finishCmd_mem, setPart_mem, wr_mem, resetUnits_canon, setOwner_mem, dropLines_mem, dropGroups_mem, dropPrograms_mem, chanDefaults_mem, dropTx_mem, leaveQp_mem, setQp_mem, freeKey_mem]

theorem ladleCycle_canon (b : Block) (hb : Canon b.mem) :
    Canon (ladleCycle b).mem := by
  unfold ladleCycle
  (repeat' split) <;> simp [hb, beats_canon]

theorem idleBlock_canon (b : Block) (hb : Canon b.mem) :
    Canon (idleBlock b).mem := by
  unfold idleBlock
  dsimp only
  (repeat' split) <;> simp +contextual [*, pumpEngines_canon, ladleCycle_canon]

theorem imagePages_canon (b : Block) (pid g : Nat) (p : Nat) (x' : Nat) (hb : Canon b.mem) :
    Canon (imagePages b pid g p x').1.mem := by
  fun_induction imagePages <;> grind [onGroup_mem, guardRecord_mem, !xlate_canon]

theorem imageStep_canon (b : Block) (hb : Canon b.mem) :
    Canon (imageStep b).mem := by
  unfold imageStep
  dsimp only
  (repeat' split) <;> simp +contextual [*, foldl_canon, applyEntry_canon]

theorem programDone_canon (b : Block) (pid g : Nat) (hb : Canon b.mem) :
    Canon (programDone b pid g).mem := by
  unfold programDone
  (repeat' split) <;> simp [hb, castStage_canon]

theorem jobDone_canon (b : Block) (pid g ms : Nat) (j : Job) (hb : Canon b.mem) :
    Canon (jobDone b pid g ms j).mem := by
  unfold jobDone
  dsimp only
  (repeat' split) <;> simp +contextual [*, programDone_canon]

theorem storeLane_canon (b : Block) (x : Group) (j : Job) (s : Nat) (u : Bound) (i a : Nat) (hb : Canon b.mem) :
    Canon (storeLane b x j s u i a).1.mem := by
  unfold storeLane
  grind [onGroup_mem, writeMem_canon, emit_mem, !draw_mem, !streamAdmit_mem]

theorem jobRun_canon (b : Block) (x : Group) (j : Job) (opc : Nat) (o : RunnerOp) (poison : Bool) (hb : Canon b.mem) :
    Canon (jobRun b x j opc o poison).1.mem := by
  unfold jobRun
  grind [foldl_canon, foldl_fst_canon, !bundleStep_mem, !ldsValue_mem, !storeLane_canon, !loadLane_mem]

theorem jobStep_canon (b : Block) (x : Group) (ms : Nat) (j : Job) (poison : Bool) (hb : Canon b.mem) :
    Canon (jobStep b x ms j poison).1.mem := by
  unfold jobStep
  grind [!bundleEnd_canon, !jobRun_canon, addTo_mem]

theorem killOver_canon (b : Block) (s : Step) (hb : Canon b.mem) : Canon (killOver b s).mem := by
  unfold killOver
  dsimp only
  split
  · exact endStep_canon _ _ _ (by simpa using hb)
  · simpa using hb

theorem killDone_canon (b : Block) (es : Nat) (hb : Canon b.mem) :
    Canon (killDone b es).mem := by
  unfold killDone
  dsimp only
  (repeat' split) <;> simp +contextual [*, killOver_canon]

theorem killTimeout_canon (b : Block) (es : Nat) (hb : Canon b.mem) :
    Canon (killTimeout b es).mem := by
  unfold killTimeout
  dsimp only
  (repeat' split) <;> simp +contextual [*, endStep_canon]

theorem lockServe_canon (b : Block) (w : LockWait) (hb : Canon b.mem) :
    Canon (lockServe b w).mem := by
  unfold lockServe
  (repeat' split) <;> simp [hb, engineAtomic_canon, release_canon, atomicRun_canon]

theorem lockGrant_canon (b : Block) (ms line : Nat) (hb : Canon b.mem) :
    Canon (lockGrant b ms line).mem := by
  unfold lockGrant
  (repeat' split) <;> simp [hb, lockServe_canon]

theorem mctpMessage_canon (b : Block) (eid tag : Nat) (ic : Bool) (body : Bytes) (hb : Canon b.mem) :
    Canon (mctpMessage b eid tag ic body).mem := by
  unfold mctpMessage
  dsimp only
  (repeat' split) <;> simp +contextual [*, remoteRequest_canon]

theorem memResponse_canon (b : Block) (tag : Nat) (bad : Bool) (hb : Canon b.mem) :
    Canon (memResponse b tag bad).mem := by
  unfold memResponse
  dsimp only
  (repeat' split) <;> simp +contextual [*, engineArrive_canon]

theorem miReady_canon (b : Block) (m : Nat) (hb : Canon b.mem) :
    Canon (miReady b m).mem := by
  unfold miReady
  (repeat' split) <;> simp [hb, comeBack_canon]

theorem minorOverflow_canon (b : Block) (leaf : Nat) (ans : List LineAnswer) (hb : Canon b.mem) : Canon (minorOverflow b leaf ans).mem := by
  unfold minorOverflow
  split
  case h_2 => exact hb
  split
  · exact hb
  refine canon_ite hb ?_
  split <;> next e =>
    have used := nodeUse_mem b 0 leaf ‹SpillOp›.pid
    rw [e] at used
    have h1 := used ▸ hb
    first
      | exact pumpSpill_canon _ (by simpa using h1)
      | (refine canon_ite (pumpSpill_canon _ (by simpa using h1)) (canon_ite (pumpSpill_canon _ (by simpa using h1))
          (pumpSpill_canon _ ?_))
         rw [endLine_mem, foldl_mem]
         · simpa using h1
         · intro b i
           simp only [apply_ite Block.mem, writeLine_mem]
           split
           · rfl
           · split <;> simp)

theorem nodeReturn_canon (b : Block) (l n : Nat) (ans : Answer) (hb : Canon b.mem) :
    Canon (nodeReturn b l n ans).mem := by
  unfold nodeReturn
  grind [condemn_mem, setNode_mem, pumpSpill_canon, !parentUse_mem, settle_mem]

theorem outputCast_canon (b : Block) (pid g : Nat) (ans : Answer) (hb : Canon b.mem) :
    Canon (outputCast b pid g ans).mem := by
  unfold outputCast
  grind [afterWrites_canon, onGroup_mem, !writeNow_canon, !castAll_mem, !castRead_mem, !imagePages_canon, endGroup_canon]

theorem paceTaken_canon (b : Block) (l : Nat) (hb : Canon b.mem) :
    Canon (paceTaken b l).mem := by
  unfold paceTaken
  (repeat' split) <;> simp [hb, burstStart_canon, beats_canon]

theorem refuseTx_canon (b : Block) (t : Tx) (hb : Canon b.mem) :
    Canon (refuseTx b t).mem := by
  unfold refuseTx
  (repeat' split) <;> simp [hb, advance_canon]

theorem transmit_canon (b : Block) (p : Nat) (t : Tx) (hb : Canon b.mem) :
    Canon (transmit b p t).mem := by
  unfold transmit
  grind [refuseTx_canon, emit_mem, progressed_mem, afterSend_mem, setPort_mem, !checkFlits_mem]

theorem sendNext_canon (b : Block) (p : Nat) (hb : Canon b.mem) :
    Canon (sendNext b p).mem := by
  unfold sendNext
  dsimp only
  (repeat' split) <;> simp +contextual [*, transmit_canon]

theorem packetTransmit_canon (b : Block) (p : Nat) (hb : Canon b.mem) :
    Canon (packetTransmit b p).mem := by
  unfold packetTransmit
  dsimp only
  (repeat' split) <;> simp +contextual [*, sendNext_canon]

theorem stationStep_canon (b : Block) (ms : Nat) (poison : Bool) (hb : Canon b.mem) :
    Canon (stationStep b ms poison).mem := by
  unfold stationStep
  grind [setJobs_mem, raiseFree_mem, progFail_canon, !jobStep_canon]

theorem stationRun_canon (b : Block) (pid g ms : Nat) (x' : Nat) (hb : Canon b.mem) :
    Canon (stationRun b pid g ms x').mem := by
  fun_induction stationRun <;> grind [stationStep_canon]

theorem phaseDone_canon (b : Block) (pid g ms : Nat) (poison : Bool) (hb : Canon b.mem) :
    Canon (phaseDone b pid g ms poison).mem := by
  unfold phaseDone
  dsimp only
  (repeat' split) <;> simp +contextual [*, jobDone_canon, stationRun_canon, progFail_canon]

theorem portRealigned_canon (b : Block) (p : Nat) (hb : Canon b.mem) :
    Canon (portRealigned b p).mem := by
  unfold portRealigned
  (repeat' split) <;> simp [hb, comeBack_canon]

theorem presented_canon (b : Block) (es : Nat) (f : Block → Block) (hf : ∀ b, Canon b.mem → Canon (f b).mem) (hb : Canon b.mem) :
    Canon (presented b es f).mem := by
  unfold presented
  grind [atStation_canon]

theorem receive_canon (b : Block) (p : Nat) (f : Frame) (hb : Canon b.mem) :
    Canon (receive b p f).mem := by
  unfold receive
  dsimp only
  (repeat' split) <;> simp +contextual [*, wakeEvent_canon, deliver_canon]

theorem tlp_canon (b : Block) (fn : Nat) (posted tbit : Bool) (stream off width : Nat) (v : Word) (hb : Canon b.mem) :
    Canon (tlp b fn posted tbit stream off width v).mem := by
  unfold tlp
  (repeat' split) <;> simp [hb, barWrite_canon]

theorem tdispChange_canon (b : Block) (vf code : Nat) (hb : Canon b.mem) :
    Canon (tdispChange b vf code).mem := by
  unfold tdispChange
  dsimp only
  (repeat' split) <;> simp +contextual [*, startWithdraw_canon]

theorem replay_canon (b : Block) (i : Instr) (hb : Canon b.mem) :
    Canon (replay b i).mem := by
  unfold replay
  grind [receive_canon, doneClear_mem, invWrite_canon, linkDegraded_mem, linkUp_mem, linkDown_mem, qpDoorbell_canon, barWrite_canon, tlp_canon, tdispChange_canon, chanDoorbell_canon, resumeRow_canon, abortRow_canon, fcuEvent_canon, engineReserved_mem, enginePost_canon, engineCtl_canon, engineMem_canon, atStation_canon, submission_mem, stepDoorbell_canon]

theorem reqShortWrite_canon (b : Block) (fn slot width : Nat) (hb : Canon b.mem) :
    Canon (reqShortWrite b fn slot width).mem := by
  unfold reqShortWrite
  (repeat' split) <;> simp [hb, tlp_canon]

theorem resetRelease_canon (b : Block) (powerOn lock : Bool) (st : Straps) (hb : Canon b.mem) :
    Canon (resetRelease b powerOn lock st).mem := by
  unfold resetRelease
  dsimp only
  (repeat' split) <;> simp +contextual [*, bootBlock_canon]

theorem retryOut_canon (b : Block) (i psn : Nat) (hb : Canon b.mem) :
    Canon (retryOut b i psn).mem := by
  unfold retryOut
  dsimp only
  (repeat' split) <;> simp +contextual [*, advance_canon]

theorem revokeTimeout_canon (b : Block) (j : Nat) (hb : Canon b.mem) :
    Canon (revokeTimeout b j).mem := by
  unfold revokeTimeout
  dsimp only
  (repeat' split) <;> simp +contextual [*, expireKey_canon]

theorem runnerRow_canon (b : Block) (ms opc : Nat) (o : RunnerOp) (poison : Bool) (hb : Canon b.mem) :
    Canon (runnerRow b ms opc o poison).mem := by
  unfold runnerRow
  (repeat' split) <;> simp [hb, stationStep_canon]

theorem scrubDone_canon (b : Block) (g : Nat) (hb : Canon b.mem) :
    Canon (scrubDone b g).mem := by
  unfold scrubDone
  dsimp only
  (repeat' split) <;> simp +contextual [*, zeroGranule_canon]

theorem startPhase_canon (b : Block) (pid g phase : Nat) (x' : List Nat) (hb : Canon b.mem) :
    Canon (startPhase b pid g phase x').mem := by
  fun_induction startPhase <;> grind [progFail_canon, !startJob_mem]

theorem secondPhase_canon (b : Block) (pid g : Nat) (hb : Canon b.mem) :
    Canon (secondPhase b pid g).mem := by
  unfold secondPhase
  dsimp only
  (repeat' split) <;> simp +contextual [*, startPhase_canon]

theorem selfTest_canon (b : Block) (failed : List Nat) (image : Option Bytes) (hb : Canon b.mem) :
    Canon (selfTest b failed image).mem := by
  unfold selfTest
  dsimp only
  (repeat' split) <;> simp +contextual [*, imageStep_canon, clearBlock_canon]

theorem setupRun_canon (b : Block) (pid sub arg r : Nat) (hb : Canon b.mem) :
    Canon (setupRun b pid sub arg r).1.mem := by
  unfold setupRun
  dsimp only
  (repeat' split) <;> simp +contextual [*, sqRun_canon]

theorem setupDone_canon (b : Block) (pid sub : Nat) (ans : Answer) (hb : Canon b.mem) :
    Canon (setupDone b pid sub ans).mem := by
  unfold setupDone
  dsimp only
  (repeat' split) <;> simp +contextual [*, setupRun_canon, setupEnd_canon]

theorem skimTake_canon (b : Block) (res : Nat) (words : List (BitVec 32)) (hb : Canon b.mem) :
    Canon (skimTake b res words).mem := by
  unfold skimTake
  dsimp only
  (repeat' split) <;> simp +contextual [*, skimEnd_canon]

theorem skimTimeout_canon (b : Block) (words : List (BitVec 32)) (hb : Canon b.mem) :
    Canon (skimTimeout b words).mem := by
  unfold skimTimeout
  (repeat' split) <;> simp [hb, skimTake_canon]

theorem spillLineReturn_canon (b : Block) (line : Nat) (ans : Answer) (tag : Word) (hb : Canon b.mem) :
    Canon (spillLineReturn b line ans tag).mem := by
  unfold spillLineReturn
  (repeat' split) <;> simp [hb, pumpSpill_canon]

theorem spillRow_canon (b : Block) (pid cx off len : Nat) (write : Bool) (data : Nat) (hb : Canon b.mem) :
    Canon (spillRow b pid cx off len write data).mem := by
  unfold spillRow
  (repeat' split) <;> simp [hb, spillAccess_canon]

theorem startupScrub_canon (b : Block) (g : Nat) (hb : Canon b.mem) :
    Canon (startupScrub b g).mem := by
  unfold startupScrub
  dsimp only
  (repeat' split) <;> simp +contextual [*, zeroGranule_canon]

theorem streamBindDone_canon (b : Block) (pid g : Nat) (hb : Canon b.mem) :
    Canon (streamBindDone b pid g).mem := by
  unfold streamBindDone
  grind [startPhase_canon, onGroup_mem, !imagePages_canon, progFail_canon, !bindAll_canon]

theorem submissionForward_canon (b : Block) (es : Nat) (ranges : Answer) (hb : Canon b.mem) :
    Canon (submissionForward b es ranges).mem := by
  unfold submissionForward
  grind [onStationES_mem, submitStep_canon, !readRanges_canon]

theorem tlpReceive_canon (b : Block) (fn : Nat) (posted tbit : Bool) (stream off width : Nat) (v : Word) (hb : Canon b.mem) :
    Canon (tlpReceive b fn posted tbit stream off width v).mem := by
  unfold tlpReceive
  split
  · exact hb
  split
  · exact tlp_canon _ _ _ _ _ _ _ _ (by simpa using hb)
  · exact wakeEvent_canon _ _ _ _ (fun b h => tlp_canon _ _ _ _ _ _ _ _ h) hb

theorem unboundWrite_canon (b : Block) (vf off width : Nat) (v : Word) (hb : Canon b.mem) :
    Canon (unboundWrite b vf off width v).mem := by
  unfold unboundWrite
  grind [wakeEvent_canon, wakeBy_mem, barWrite_canon]

theorem vfEnableClear_canon (b : Block) (hb : Canon b.mem) :
    Canon (vfEnableClear b).mem := by
  unfold vfEnableClear
  dsimp only
  (repeat' split) <;> simp +contextual [*, foldl_canon, startWithdraw_canon]

theorem wakeComplete_canon (b : Block) (hb : Canon b.mem) :
    Canon (wakeComplete b).mem := by
  unfold wakeComplete
  dsimp only
  (repeat' split) <;> simp +contextual [*, foldl_canon, replay_canon]

theorem walkTimeout_canon (b : Block) (num : Nat) (hb : Canon b.mem) :
    Canon (walkTimeout b num).mem := by
  unfold walkTimeout
  (repeat' split) <;> simp [hb, retryAll_canon]

theorem walkerGrant_canon (b : Block) (hb : Canon b.mem) :
    Canon (walkerGrant b).mem := by
  unfold walkerGrant
  dsimp only
  (repeat' split) <;> simp +contextual [*, retryAsker_canon, miss_canon]

theorem withdrawDone_canon (b : Block) (pid : Nat) (hb : Canon b.mem) :
    Canon (withdrawDone b pid).mem := by
  unfold withdrawDone
  (repeat' split) <;> simp [hb, generation_canon, handBack_canon]

theorem withdrawExpire_canon (b : Block) (pid : Nat) (hb : Canon b.mem) :
    Canon (withdrawExpire b pid).mem := by
  unfold withdrawExpire
  grind [generation_canon, handBack_canon, setPart_mem, expireSteps_canon, addTo_mem, !giveUp_canon]

theorem wqeFetchDone_canon (b : Block) (i : Nat) (ans : Answer) (hb : Canon b.mem) :
    Canon (wqeFetchDone b i ans).mem := by
  unfold wqeFetchDone
  grind [payloadRead_canon, wqeFail_mem, tearWqe_mem, sqRun_canon, onQp_mem, !arrive_mem]

theorem wqeStart_canon (b : Block) (i data : Nat) (hb : Canon b.mem) :
    Canon (wqeStart b i data).mem := by
  unfold wqeStart
  (repeat' split) <;> simp [hb, startMsg_canon, sqRun_canon]

theorem wqeNoPayload_canon (b : Block) (i op : Nat) (hb : Canon b.mem) :
    Canon (wqeNoPayload b i op).mem := by
  unfold wqeNoPayload
  dsimp only
  (repeat' split) <;> simp +contextual [*, wqeStart_canon]

theorem wqeNopRun_canon (b : Block) (i : Nat) (hb : Canon b.mem) :
    Canon (wqeNopRun b i).mem := by
  unfold wqeNopRun
  dsimp only
  (repeat' split) <;> simp +contextual [*, sqRun_canon]

theorem wqePayload_canon (b : Block) (i op : Nat) (ans : Answer) (hb : Canon b.mem) : Canon (wqePayload b i op ans).mem := by
  unfold wqePayload
  dsimp only
  split
  · exact hb
  split
  · split
    · next e _ =>
      split
      · rw [copyFail_mem, arrive_mem e]; exact hb
      · exact sqRun_canon _ _ (copyPackets_canon _ _ _ (by rw [onQp_mem, arrive_mem e]; exact hb))
    · exact hb
  split
  · exact hb
  split
  · exact hb
  · next e =>
    have a := arrive_mem e
    split
    · exact wqeStart_canon _ _ _ (by rw [a]; exact hb)
    · rw [wqeFail_mem, a]; exact hb

theorem writeObj_canon (b : Block) (acc : Access) (idx sub : Nat) (v : Word) (hb : Canon b.mem) :
    Canon (writeObj b acc idx sub v).mem := by
  unfold writeObj
  (repeat' split) <;> simp [hb, opWrite_canon]
/-- A request presented at an Engine Station, in Hold or out of it. -/
theorem stationRow_canon {b : Block} {es : Nat} {i : Instr} {f : Block → Block} (hf : ∀ b, Canon b.mem → Canon (f b).mem)
    (hb : Canon b.mem) : Canon (wakeEvent b 4 i fun b => presented b es f).mem :=
  wakeEvent_canon _ _ _ _ (fun b h => presented_canon b es f hf h) hb

theorem exec_canon (i : Instr) {s t : State} (hb : Canon s.dev.mem) (e : exec i s = .next t) : Canon t.dev.mem := by
  cases i <;> injection e with e <;> subst e
  case tagGrant pool =>
    dsimp only
    split
    · exact grantRow_canon _ _ hb
    · exact hb
  case completionWriteFail | wake | hostLinkError => exact canon_ite (by simpa using hb) (by simpa using hb)
  case read | write | fetchAdd | cmpSwap | swap => exact stationRow_canon (fun b h => engineMem_canon _ _ _ _ _ _ _ h) hb
  case pace | commit => exact stationRow_canon (fun b h => engineCtl_canon _ _ _ _ h) hb
  case post => exact stationRow_canon (fun b h => enginePost_canon _ _ _ _ h) hb
  all_goals
    simp +contextual [hb, abortDone_canon, abortRow_canon, aliasEnd_canon, annealLeaf_canon, application_canon, applicationReport_canon,
      burstArrival_canon, chanDoorbell_canon, chanHaltNow_canon, completionWrite_canon, ctxCloseCmd_canon, ctxCloseDone_canon,
      descArrival_canon, descTaken_canon, domainDrainDone_canon, domainDrainTimeout_canon, domainFence_canon,
      domainResetDone_canon, domainRetrainDone_canon, droneExpiry_canon, engineCtl_canon, engineMem_canon, enginePost_canon,
      engineWait_canon, evictNode_canon, fcuRow_canon, flr_canon, grantRow_canon, groupArmCmd_canon, groupArmed_canon,
      invWrite_canon, keyRegCmd_canon, killDone_canon, killTimeout_canon, localSlotDone_canon, lockGrant_canon,
      mctpMessage_canon, memResponse_canon, miReady_canon, minorOverflow_canon, nodeReturn_canon, opWrite_canon,
      outputCast_canon, paceTaken_canon, packetTransmit_canon, phaseDone_canon, portRealigned_canon, presented_canon,
      pumpEngines_canon, qpConnectCmd_canon, qpDoorbell_canon, qpDrainCmd_canon, qpInitCmd_canon, qpResetCmd_canon,
      queryCmd_canon, queueFlush_canon, readbackArrival_canon, readbackDone_canon, receive_canon, reqShortWrite_canon,
      resetRelease_canon, resumeRow_canon, retryOut_canon, revokeTimeout_canon, runnerRow_canon, s1Invalidate_canon,
      s1RootSet_canon, s2RootSet_canon, scrubDone_canon, secondPhase_canon, selfTest_canon, setupDone_canon, skimTake_canon,
      skimTimeout_canon, spillLineReturn_canon, spillRow_canon, startupScrub_canon, statusArrival_canon, stepDoorbell_canon,
      streamBindDone_canon, streamTableDone_canon, submissionForward_canon, tableReadDone_canon, takeover_canon,
      tdispChange_canon, tlpReceive_canon, unboundWrite_canon, unitOut_canon, unitReturn_canon, vfEnableClear_canon,
      wakeComplete_canon, wakeEvent_canon, walkTimeout_canon, walkerGrant_canon, withdrawCmd_canon, withdrawDone_canon,
      withdrawExpire_canon, wqeFetchDone_canon, wqeNoPayload_canon, wqeNopRun_canon, wqePayload_canon, writeObj_canon]

theorem idle_canon {b : Block} (hb : Canon b.mem) : Canon (idleBlock b).mem := by
  unfold idleBlock
  refine canon_ite hb ?_
  simpa [apply_ite Block.mem] using ladleCycle_canon _ (pumpEngines_canon _ hb)

theorem step_canon {s t : State} (hb : Canon s.dev.mem) (e : step s = .next t) : Canon t.dev.mem := by
  obtain ⟨b, q⟩ := s
  cases q with
  | nil =>
    injection e with e
    exact e ▸ idle_canon hb
  | cons c q => exact exec_canon c (s := ⟨b, q⟩) hb e

/-- Settles O4: the canonical form is kept by every operation, so by every command and by the idle step. -/
theorem memoryKeepsItsCanonicalForm : Obligations.MemoryKeepsItsCanonicalForm :=
  fun _ _ h e => (step_canon ⟨h⟩ e).wf

end Sys2Proof.Machine
end

section
/-! SUPPORT. The clock is no unit's to change: what an idle cycle's work leaves of it (O3). -/

namespace Sys2Proof.Machine

@[simp] theorem foldl_clk {α : Type} (f : Block → α → Block) (h : ∀ b a, (f b a).clk = b.clk) (l : List α) (b : Block) :
    (l.foldl f b).clk = b.clk := foldl_keeps (·.clk) f h l b

@[simp] theorem foldl_fst_clk {α β : Type} (f : Block × β → α → Block × β) (h : ∀ p a, (f p a).1.clk = p.1.clk) (l : List α)
    (p : Block × β) : (l.foldl f p).1.clk = p.1.clk := by
  induction l generalizing p with
  | nil => rfl
  | cons a l ih => rw [List.foldl_cons, ih, h]

@[simp] theorem dropHolders_clk (b : Block) (p : Holder → Bool) : (dropHolders b p).clk = b.clk := by
  unfold dropHolders
  simp

@[simp] theorem settle_clk (b : Block) (h : Holder) : (settle b h).clk = b.clk := by unfold settle; simp

@[simp] theorem pumpInv_clk (b : Block) : (pumpInv b).clk = b.clk := by unfold pumpInv; simp

@[simp] theorem settleTile_clk (b : Block) (h : Holder) : (settleTile b h).clk = b.clk := by unfold settleTile; simp

@[simp] theorem dropPieces_clk (b : Block) (h : Holder) (segs : List Seg) : (dropPieces b h segs).clk = b.clk := by
  unfold dropPieces
  simp

@[simp] theorem abandon_clk (b : Block) (h : Holder) (segs : List Seg) : (abandon b h segs).clk = b.clk := by
  unfold abandon
  simp

@[simp] theorem waitTag_clk (b : Block) (w : TagWait) : (waitTag b w).clk = b.clk := by
  unfold waitTag
  simp [apply_ite Block.clk]

@[simp] theorem writeBytes_clk (b : Block) (a v : Nat) (x' : Nat) : (writeBytes b a v x').clk = b.clk := by
  fun_induction writeBytes <;> simp_all

@[simp] theorem writeMem_clk (b : Block) (pa v len : Nat) : (writeMem b pa v len).clk = b.clk := by
  unfold writeMem
  simp

@[simp] theorem disturb_clk (b : Block) (pa len : Nat) : (disturb b pa len).clk = b.clk := by
  unfold disturb
  simp [apply_ite Block.clk]

@[simp] theorem present_clk (b : Block) (o : Out) : (present b o).clk = b.clk := by
  unfold present
  (repeat' split) <;> simp

@[simp] theorem grantTag_clk (b : Block) (w : TagWait) : (grantTag b w).clk = b.clk := by unfold grantTag; simp

@[simp] theorem underTag_clk (b : Block) (w : TagWait) (f : Block → Block) (hf : ∀ b, (f b).clk = b.clk) :
    (underTag b w f).clk = b.clk := by
  unfold underTag
  (repeat' split) <;> simp [*]

@[simp] theorem onQp_clk (b : Block) (i : Nat) (f : Qp → Qp) : (onQp b i f).clk = b.clk := (rfl)

@[simp] theorem startTimers_clk (b : Block) (t : Tx) : (startTimers b t).clk = b.clk := by
  unfold startTimers
  simp [apply_ite Block.clk]

@[simp] theorem noteWait_clk (b : Block) (t : Tx) : (noteWait b t).1.clk = b.clk := by
  unfold noteWait
  (repeat' split) <;> simp

@[simp] theorem hold_clk (b : Block) (t : Tx) : (hold b t).clk = b.clk := by unfold hold; simp

@[simp] theorem enqueue_clk (b : Block) (t : Tx) : (enqueue b t).clk = b.clk := by
  unfold enqueue
  grind [setPort_clk, startTimers_clk, !noteWait_clk, hold_clk]

@[simp] theorem issue_clk (b : Block) (w : TagWait) : (issue b w).clk = b.clk := by
  unfold issue
  simp [apply_ite Block.clk]

@[simp] theorem takeFrame_clk (b : Block) (i psn : Nat) : (takeFrame b i psn).1.clk = b.clk := by
  unfold takeFrame
  simp [apply_ite Block.clk]

@[simp] theorem sendPump_clk (b : Block) (i : Nat) (x' : Nat) : (sendPump b i x').clk = b.clk := by
  fun_induction sendPump <;> grind [enqueue_clk, setQp_clk, !takeFrame_clk]

@[simp] theorem startMsg_clk (b : Block) (i : Nat) (m : SendMsg) : (startMsg b i m).clk = b.clk := by
  unfold startMsg
  simp

@[simp] theorem startAsks_clk (b : Block) (i : Nat) (x' : Nat) : (startAsks b i x').clk = b.clk := by
  fun_induction startAsks <;> simp_all

@[simp] theorem advance_clk (b : Block) (i : Nat) : (advance b i).clk = b.clk := by unfold advance; simp

@[simp] theorem putReply_clk (b : Block) (r : Reply) : (putReply b r).clk = b.clk := by
  unfold putReply
  simp [apply_ite Block.clk]

@[simp] theorem remoteSend_clk (b : Block) (i key : Nat) (h : Holder) (c : Ctx) (op pa len data poison operand compare : Nat) :
    (remoteSend b i key h c op pa len data poison operand compare).clk = b.clk := by
  unfold remoteSend
  simp [apply_ite Block.clk]

@[simp] theorem secAlarm_clk (b : Block) (cause : Nat) (ps : List Nat) (pp level unit : Nat) :
    (secAlarm b cause ps pp level unit).clk = b.clk := by
  unfold secAlarm
  simp

@[simp] theorem dirtyRecord_clk (b : Block) (pid addr source : Nat) : (dirtyRecord b pid addr source).clk = b.clk := by
  unfold dirtyRecord
  simp [apply_ite Block.clk]

@[simp] theorem dirtyPages_clk (b : Block) (pid addr source : Nat) (x' : Nat) :
    (dirtyPages b pid addr source x').clk = b.clk := by
  fun_induction dirtyPages <;> simp_all

@[simp] theorem hostWrite_clk (b : Block) (pid addr : Nat) (data : Bytes) (poison : Bool) (source : Nat) :
    (hostWrite b pid addr data poison source).clk = b.clk := by
  unfold hostWrite
  dsimp only
  split
  · rfl
  · rw [dirtyPages_clk]; rfl

@[simp] theorem writePoison_clk (b : Block) (pid key line major minor : Nat) :
    (writePoison b pid key line major minor).clk = b.clk := by
  unfold writePoison
  simp

@[simp] theorem writeLine_clk (b : Block) (pid key line major minor data : Nat) (poison : Bool) :
    (writeLine b pid key line major minor data poison).clk = b.clk := by
  unfold writeLine
  simp

@[simp] theorem putLine_clk (b : Block) (pid line : Nat) (leaf : TreeNode) (data : Nat) (poison : Bool) :
    (putLine b pid line leaf data poison).clk = b.clk := by
  unfold putLine
  simp

@[simp] theorem injectEventAt_clk (b : Block) (fsrc unit site pid addr word : Nat) :
    (injectEventAt b fsrc unit site pid addr word).clk = b.clk := by
  unfold injectEventAt
  simp

@[simp] theorem checkFlit_clk (b : Block) (unit site pid addr : Nat) :
    (checkFlit b unit site pid addr).1.clk = b.clk := by
  unfold checkFlit
  (repeat' split) <;> simp

@[simp] theorem checkFlits_clk (b : Block) (unit site pid addr : Nat) (x' : Nat) :
    (checkFlits b unit site pid addr x').1.clk = b.clk := by
  fun_induction checkFlits <;> grind [!checkFlit_clk]

@[simp] theorem checkPath_clk (b : Block) (pid addr n : Nat) (way : List (Nat × Nat)) :
    (checkPath b pid addr n way).1.clk = b.clk := by
  unfold checkPath
  simp

@[simp] theorem endLine_clk (b : Block) (l : LineOp) (st : Status) (data : Nat) : (endLine b l st data).clk = b.clk := by
  unfold endLine
  grind [setOp_clk, putReply_clk, !checkPath_clk, settle_clk]

@[simp] theorem lineServe_clk (b : Block) (l : LineOp) (o : SpillOp) (x : TreeNode) (a : LineAnswer) :
    (lineServe b l o x a).clk = b.clk := by
  unfold lineServe
  grind [secAlarm_clk, writePoison_clk, count_clk, putLine_clk, endLine_clk]

@[simp] theorem askLine_clk (b : Block) (l : LineOp) (o : SpillOp) : (askLine b l o).clk = b.clk := by
  unfold askLine
  simp

@[simp] theorem lineDo_clk (b : Block) (l : LineOp) (o : SpillOp) (x : TreeNode) : (lineDo b l o x).clk = b.clk := by
  unfold lineDo
  grind [lineServe_clk, askLine_clk, putLine_clk, markLine_clk, settle_clk, endLine_clk]

@[simp] theorem fenceSpill_clk (b : Block) (ps : List Nat) : (fenceSpill b ps).clk = b.clk := by
  unfold fenceSpill
  simp [apply_ite Block.clk]

@[simp] theorem condemn_clk (b : Block) (cause l n : Nat) : (condemn b cause l n).clk = b.clk := by
  unfold condemn
  simp [apply_ite Block.clk]

@[simp] theorem nodeUse_clk (b : Block) (l n pid : Nat) : (nodeUse b l n pid).1.clk = b.clk := by
  unfold nodeUse
  grind [condemn_clk, !checkFlit_clk]

@[simp] theorem fetchNodes_clk (b : Block) (l : List (Nat × Nat)) : (fetchNodes b l).clk = b.clk := by
  unfold fetchNodes
  simp [apply_ite Block.clk]

@[simp] theorem fetchPath_clk (b : Block) (leaf : Nat) : (fetchPath b leaf).clk = b.clk := by unfold fetchPath; simp

@[simp] theorem lineLost_clk (b : Block) (l : LineOp) (o : SpillOp) : (lineLost b l o).clk = b.clk := by
  unfold lineLost
  simp

@[simp] theorem lineStep_clk (b : Block) (l : LineOp) : (lineStep b l).clk = b.clk := by
  unfold lineStep
  grind [lineDo_clk, !nodeUse_clk, markLine_clk, issue_clk, askLine_clk, fetchPath_clk, lineLost_clk]

@[simp] theorem pumpLines_clk (b : Block) (n : Nat) : (pumpLines b n).clk = b.clk := by
  induction n generalizing b with
  | zero => rfl
  | succ n ih =>
    have once : (b.ssu.lines.foldl (fun b l => if b.ssu.lines.contains l then lineStep b l else b) b).clk = b.clk :=
      foldl_clk _ (fun b l => by split <;> simp) _ b
    unfold pumpLines
    dsimp only
    split
    · exact once
    · rw [ih, once]

@[simp] theorem bumpParent_clk (b : Block) (l n : Nat) : (bumpParent b l n).clk = b.clk := by
  unfold bumpParent
  (repeat' split) <;> simp

@[simp] theorem writeBack_clk (b : Block) (l n : Nat) (x : TreeNode) : (writeBack b l n x).clk = b.clk := by
  unfold writeBack
  simp

@[simp] theorem resetLeaf_clk (b : Block) (leaf : Nat) (x : TreeNode) : (resetLeaf b leaf x).clk = b.clk := by
  unfold resetLeaf
  simp [apply_ite Block.clk]

@[simp] theorem rootUse_clk (b : Block) : (rootUse b).1.clk = b.clk := by unfold rootUse; (repeat' split) <;> simp

@[simp] theorem parentUse_clk (b : Block) (l n : Nat) : (parentUse b l n).1.clk = b.clk := by
  unfold parentUse
  (repeat' split) <;> simp

@[simp] theorem resetOn_clk (b : Block) (pid k : Nat) (x' : Nat) : (resetOn b pid k x').clk = b.clk := by
  fun_induction resetOn <;> grind [fetchPath_clk, resetLeaf_clk, !parentUse_clk]

@[simp] theorem pumpResets_clk (b : Block) : (pumpResets b).clk = b.clk := by unfold pumpResets; simp

@[simp] theorem pumpSpill_clk (b : Block) : (pumpSpill b).clk = b.clk := by unfold pumpSpill; simp

@[simp] theorem guardRecord_clk (b : Block) (unit pa : Nat) (c : Ctx) (reason : Nat) (cls : SrcClass) (ownerPid : Nat) :
    (guardRecord b unit pa c reason cls ownerPid).clk = b.clk := by
  unfold guardRecord
  simp [apply_ite Block.clk]

@[simp] theorem spillAccess_clk (b : Block) (h : Holder) (c : Ctx) (off len : Nat) (write : Bool) (data poison : Nat) :
    (spillAccess b h c off len write data poison).clk = b.clk := by
  unfold spillAccess
  grind [pumpSpill_clk, addTo_clk, !checkPath_clk, guardRecord_clk, putReply_clk]

@[simp] theorem sendPieces_clk (b : Block) (h : Holder) (c : Ctx) (write : Bool) (x' : Nat) (y' : Nat) (z' : Nat) (w' : List Seg) :
    (sendPieces b h c write x' y' z' w').clk = b.clk := by
  fun_induction sendPieces <;> grind [remoteSend_clk, spillAccess_clk, dropReply_clk]

@[simp] theorem hostPieces_clk (b : Block) (pid source : Nat) (x' : Nat) (y' : Nat) (z' : List Seg) :
    (hostPieces b pid source x' y' z').clk = b.clk := by
  fun_induction hostPieces <;> grind [hostWrite_clk]

@[simp] theorem checkData_clk (b : Block) (c : Ctx) (segs : List Seg) (len : Nat) (way : List (Nat × Nat)) :
    (checkData b c segs len way).1.clk = b.clk := by
  unfold checkData
  simp

@[simp] theorem putPieces_clk (b : Block) (a : Asker) (c : Ctx) (data : Bytes) (poison source : Nat) (segs : List Seg) :
    (putPieces b a c data poison source segs).clk = b.clk := by
  unfold putPieces
  simp

@[simp] theorem faultRecord_clk (b : Block) (a : Asker) (c : Ctx) (op : Access4) (va cause level : Nat) :
    (faultRecord b a c op va cause level).clk = b.clk := by
  unfold faultRecord
  simp

@[simp] theorem checkWord_clk (b : Block) (unit site pid addr word : Nat) :
    (checkWord b unit site pid addr word).1.clk = b.clk := by
  unfold checkWord
  (repeat' split) <;> simp

@[simp] theorem msAdmit_clk (b : Block) (pa : Nat) (c : Ctx) (cls : SrcClass) : (msAdmit b pa c cls).1.clk = b.clk := by
  unfold msAdmit
  grind [guardRecord_clk, !checkWord_clk]

@[simp] theorem admitSegs_clk (b : Block) (c : Ctx) (cls : SrcClass) (x' : List Seg) :
    (admitSegs b c cls x').1.clk = b.clk := by
  fun_induction admitSegs <;> grind [!msAdmit_clk]

@[simp] theorem pointRefusal_clk (b : Block) (a : Asker) (c : Ctx) (pa reason : Nat) :
    (pointRefusal b a c pa reason).clk = b.clk := by
  unfold pointRefusal
  simp

@[simp] theorem newTile_clk (b : Block) (segs : List Seg) : (newTile b segs).1.clk = b.clk := (rfl)

@[simp] theorem remoteRefusal_clk (b : Block) (a : Asker) (c : Ctx) (op : Access4) (va pa : Nat) :
    (remoteRefusal b a c op va pa).clk = b.clk := by
  unfold remoteRefusal
  simp [apply_ite Block.clk]

@[simp] theorem fill_clk (b : Block) (l : List TEntry) (cap : Nat) (e : TEntry) : (fill b l cap e).2.clk = b.clk := by
  unfold fill
  grind [!draw_clk]

@[simp] theorem fillES_clk (b : Block) (es : Nat) (e : TEntry) : (fillES b es e).clk = b.clk := by unfold fillES; simp

@[simp] theorem fillShared_clk (b : Block) (e : TEntry) : (fillShared b e).clk = b.clk := by unfold fillShared; simp

@[simp] theorem progressed_clk (b : Block) (unit : Nat) : (progressed b unit).clk = b.clk := (rfl)

@[simp] theorem endWalkLeaf_clk (b : Block) (w : Walk) (e : TEntry) (used : List TEntry) :
    (endWalkLeaf b w e used).clk = b.clk := by
  unfold endWalkLeaf
  simp [apply_ite Block.clk]

@[simp] theorem endWalkFault_clk (b : Block) (w : Walk) (st : Status) (cause level : Nat) :
    (endWalkFault b w st cause level).clk = b.clk := by
  unfold endWalkFault
  simp

@[simp] theorem walkAdvance_clk (b : Block) (w : Walk) : (walkAdvance b w).1.clk = b.clk := by
  unfold walkAdvance
  grind [setWalk_clk, issue_clk, !msAdmit_clk, endWalkLeaf_clk, endWalkFault_clk]

@[simp] theorem startWalk_clk (b : Block) (c : Ctx) (va : Nat) (a : Asker) : (startWalk b c va a).1.clk = b.clk := by
  unfold startWalk
  simp

@[simp] theorem miss_clk (b : Block) (c : Ctx) (va : Nat) (a : Asker) : (miss b c va a).clk = b.clk := by
  unfold miss
  (repeat' split) <;> simp

@[simp] theorem lookup_clk (b : Block) (a : Asker) (c : Ctx) (va : Nat) : (lookup b a c va).1.clk = b.clk := by
  unfold lookup
  grind [fillES_clk, !checkWord_clk, count_clk]

@[simp] theorem takeFault_clk (b : Block) (a : Asker) (c : Ctx) (va : Nat) : (takeFault b a c va).1.clk = b.clk := by
  unfold takeFault
  grind []

@[simp] theorem pages_clk (b : Block) (a : Asker) (c : Ctx) (op : Access4) (x' : Nat) (y' : Nat) (z' : List Seg) (w' : Nat) :
    (pages b a c op x' y' z' w').1.clk = b.clk := by
  fun_induction pages <;> grind [miss_clk, !lookup_clk, !takeFault_clk]

@[simp] theorem xlate_clk (b : Block) (a : Asker) (c : Ctx) (va len : Nat) (op : Access4) (remote : Bool) :
    (xlate b a c va len op remote).1.clk = b.clk := by
  unfold xlate
  grind [pointRefusal_clk, !newTile_clk, faultRecord_clk, remoteRefusal_clk, !pages_clk]

@[simp] theorem prepare_clk (b : Block) (a : Asker) (c : Ctx) (va len : Nat) (op : Access4) (remote : Bool) :
    (prepare b a c va len op remote).1.clk = b.clk := by
  unfold prepare
  grind [faultRecord_clk, !admitSegs_clk, !xlate_clk]

@[simp] theorem prepareRun_clk (b : Block) (a : Asker) (c : Ctx) (op : Access4) (x' : Nat) (y' : Nat) (z' : List Seg) (w' : Nat) :
    (prepareRun b a c op x' y' z' w').1.clk = b.clk := by
  fun_induction prepareRun <;> grind [!prepare_clk]

@[simp] theorem writeNow_clk (b : Block) (a : Asker) (c : Ctx) (va : Nat) (data : Bytes) (poison source : Nat) :
    (writeNow b a c va data poison source).1.clk = b.clk := by
  unfold writeNow
  grind [waitTag_clk, underTag_clk, putPieces_clk, !prepareRun_clk]

@[simp] theorem take_clk (b : Block) (a : Asker) (c : Ctx) (segs : List Seg) (outs : List Out) :
    (take b a c segs outs).clk = b.clk := by
  unfold take
  simp [apply_ite Block.clk]

@[simp] theorem goWrite_clk (b : Block) (a : Asker) (c : Ctx) (data : Bytes) (poison source : Nat) (segs : List Seg) :
    (goWrite b a c data poison source segs).clk = b.clk := by
  unfold goWrite
  simp

@[simp] theorem burstFail_clk (b : Block) (c : Nat) (u : Burst) (st : Status) (write : Bool) (va : Nat) :
    (burstFail b c u st write va).clk = b.clk := (rfl)

@[simp] theorem burstRead_clk (b : Block) (c n : Nat) : (burstRead b c n).clk = b.clk := by
  unfold burstRead
  grind [setChan_clk, !prepare_clk, burstFail_clk]

@[simp] theorem burstStart_clk (b : Block) (c : Nat) : (burstStart b c).clk = b.clk := by unfold burstStart; simp

@[simp] theorem chanPump_clk (b : Block) (c : Nat) : (chanPump b c).clk = b.clk := by
  unfold chanPump
  simp [apply_ite Block.clk]

@[simp] theorem goRead_clk (b : Block) (a : Asker) (c : Ctx) (segs : List Seg) : (goRead b a c segs).clk = b.clk := by
  unfold goRead
  simp

@[simp] theorem burstReadGo_clk (b : Block) (c : Nat) (u : Burst) : (burstReadGo b c u).clk = b.clk := by
  unfold burstReadGo
  simp

@[simp] theorem burstWriteGo_clk (b : Block) (c : Nat) (u : Burst) : (burstWriteGo b c u).clk = b.clk := by
  unfold burstWriteGo
  grind [foldl_clk, foldl_fst_clk, writeMem_clk, goWrite_clk, setChan_clk, !draw_clk]

@[simp] theorem preempt_clk (b : Block) (write : Bool) (c : Nat) : (preempt b write c).clk = b.clk := by
  unfold preempt
  simp [apply_ite Block.clk]

@[simp] theorem spendSlots_clk (b : Block) (write : Bool) (c n : Nat) : (spendSlots b write c n).clk = b.clk := by
  unfold spendSlots
  simp [apply_ite Block.clk]

theorem slotGrant_clk {b b' : Block} {write : Bool} (e : slotGrant b write = some b') : b'.clk = b.clk := by
  unfold slotGrant at e
  grind [burstWriteGo_clk, burstReadGo_clk, chanPump_clk, setChan_clk, count_clk, spendSlots_clk, preempt_clk]

@[simp] theorem beatsGo_clk (b : Block) (n : Nat) : (beatsGo b n).clk = b.clk := by
  induction n generalizing b with
  | zero => rfl
  | succ n ih =>
    unfold beatsGo
    split
    · next e => rw [ih, slotGrant_clk e]
    split
    · next e => rw [ih, slotGrant_clk e]
    · rfl

@[simp] theorem beats_clk (b : Block) : (beats b).clk = b.clk := by unfold beats; simp

@[simp] theorem startRead_clk (b : Block) (a : Asker) (c : Ctx) (va len : Nat) (remote : Bool) :
    (startRead b a c va len remote).1.clk = b.clk := by
  unfold startRead
  grind [goRead_clk, !prepare_clk]

@[simp] theorem paceRequest_clk (b : Block) (l : Nat) : (paceRequest b l).clk = b.clk := by
  unfold paceRequest
  simp [apply_ite Block.clk]

@[simp] theorem onStationES_clk (b : Block) (es : Nat) (f : Station → Station) : (onStationES b es f).clk = b.clk := (rfl)

@[simp] theorem flushCheck_clk (b : Block) (pid : Nat) : (flushCheck b pid).clk = b.clk := by
  unfold flushCheck
  (repeat' split) <;> simp

@[simp] theorem flushNote_clk (b : Block) (s : Step) : (flushNote b s).clk = b.clk := by
  unfold flushNote
  (repeat' split) <;> simp

@[simp] theorem setRing_clk (b : Block) (pid q : Nat) (l : Option (List Seg)) : (setRing b pid q l).clk = b.clk := (rfl)

@[simp] theorem ringFetch_clk (b : Block) (pid q : Nat) : (ringFetch b pid q).clk = b.clk := by
  unfold ringFetch
  grind [setRing_clk, !startRead_clk, wr_clk]

@[simp] theorem ringsGo_clk (b : Block) : (ringsGo b).clk = b.clk := by unfold ringsGo; simp

@[simp] theorem putResult_clk (b : Block) (r : StepResult) : (putResult b r).clk = b.clk := by
  unfold putResult
  grind [count_clk, !writeNow_clk]

@[simp] theorem stepResult_clk (b : Block) (num pid : Nat) (c : Ctx) (d cycles energy kills : Nat) (st : Status) :
    (stepResult b num pid c d cycles energy kills st).clk = b.clk := by
  unfold stepResult
  simp [apply_ite Block.clk]

@[simp] theorem endStep_clk (b : Block) (s : Step) (st : Status) : (endStep b s st).clk = b.clk :=
  (ringsGo_clk _).trans (by simp)

@[simp] theorem endRun_clk (b : Block) (s : Step) : (endRun b s).clk = b.clk := by
  unfold endRun
  simp [apply_ite Block.clk]

@[simp] theorem dropReq_clk (b : Block) (es num : Nat) : (dropReq b es num).clk = b.clk := by unfold dropReq; simp

@[simp] theorem eqStatus_clk (b : Block) (es : Nat) (st : Status) : (eqStatus b es st).clk = b.clk := (rfl)

@[simp] theorem refuseReq_clk (b : Block) (es : Nat) (r : EReq) (st : Status) : (refuseReq b es r st).clk = b.clk := by
  unfold refuseReq
  simp

@[simp] theorem bindStep_clk (b : Block) (es : Nat) : (bindStep b es).clk = b.clk := by
  unfold bindStep
  (repeat' split) <;> simp

@[simp] theorem releaseClusters_clk (b : Block) (s : Step) : (releaseClusters b s).clk = b.clk := by
  unfold releaseClusters
  simp

@[simp] theorem commitStep_clk (b : Block) (es : Nat) : (commitStep b es).clk = b.clk := by
  unfold commitStep
  grind [endRun_clk, releaseClusters_clk, endStep_clk, addTo_clk, setStep_clk]

@[simp] theorem commitNow_clk (b : Block) (es : Nat) (r : EReq) : (commitNow b es r).clk = b.clk := by
  unfold commitNow
  simp [apply_ite Block.clk]

@[simp] theorem paceNow_clk (b : Block) (es : Nat) (r : EReq) : (paceNow b es r).clk = b.clk := by
  unfold paceNow
  simp [apply_ite Block.clk]

@[simp] theorem noTarget_clk (b : Block) (es : Nat) (r : EReq) : (noTarget b es r).clk = b.clk := by
  unfold noTarget
  simp

@[simp] theorem remoteAtomic_clk (b : Block) (es : Nat) (r : EReq) : (remoteAtomic b es r).clk = b.clk := by
  unfold remoteAtomic
  (repeat' split) <;> simp

@[simp] theorem lockWait_clk (b : Block) (pa n : Nat) (who : LockWho) : (lockWait b pa n who).clk = b.clk := (rfl)

@[simp] theorem atomicAt_clk (b : Block) (pa aop operand compare : Nat) :
    (atomicAt b pa aop operand compare).1.clk = b.clk := by
  unfold atomicAt
  grind [present_clk]

@[simp] theorem engineAtomic_clk (b : Block) (es : Nat) (r : EReq) : (engineAtomic b es r).clk = b.clk := by
  unfold engineAtomic
  simp [apply_ite Block.clk]

@[simp] theorem engineLock_clk (b : Block) (es : Nat) (r : EReq) : (engineLock b es r).clk = b.clk := by
  unfold engineLock
  simp [apply_ite Block.clk]

@[simp] theorem engineStore_clk (b : Block) (es : Nat) (r : EReq) : (engineStore b es r).clk = b.clk := by
  unfold engineStore
  grind [engineLock_clk, grantTag_clk, waitTag_clk, putPieces_clk, dropReq_clk, !draw_clk]

@[simp] theorem setReq_clk (b : Block) (es : Nat) (r : EReq) : (setReq b es r).clk = b.clk := (rfl)

@[simp] theorem engineSend_clk (b : Block) (es : Nat) (r : EReq) (segs : List Seg) :
    (engineSend b es r segs).clk = b.clk := by
  unfold engineSend
  grind [goWrite_clk, noTarget_clk, remoteAtomic_clk, engineStore_clk, goRead_clk, bindStep_clk, setReq_clk]

@[simp] theorem engineTry_clk (b : Block) (es : Nat) (r : EReq) : (engineTry b es r).clk = b.clk := by
  unfold engineTry
  grind [engineSend_clk, refuseReq_clk, !prepare_clk, setReq_clk]

@[simp] theorem goOn_clk (b : Block) (es : Nat) (r : EReq) : (goOn b es r).clk = b.clk := by
  unfold goOn
  simp [apply_ite Block.clk]

@[simp] theorem releaseReqs_clk (b : Block) (es : Nat) (x' : Nat) : (releaseReqs b es x').clk = b.clk := by
  fun_induction releaseReqs <;> simp_all

@[simp] theorem release_clk (b : Block) (es : Nat) : (release b es).clk = b.clk := by unfold release; simp

@[simp] theorem memoryUe_clk (b : Block) (bad : Bool) (pa pid : Nat) : (memoryUe b bad pa pid).clk = b.clk := by
  unfold memoryUe
  simp [apply_ite Block.clk]

theorem arrive_clk {b b' : Block} {h : Holder} {segs : List Seg} {ans : Answer} {len : Nat} {st : Status} {d : Nat}
    (e : arrive b h segs ans len = some (b', st, d)) : b'.clk = b.clk := by
  unfold arrive at e
  split at e
  · cases e
  split at e
  · dsimp only at e
    simp only [Option.some.injEq, Prod.mk.injEq] at e
    rw [← e.1]
    simp
    split <;> split <;> simp
  · cases e

@[simp] theorem chanterTick_clk (b : Block) : (chanterTick b).clk = b.clk := by
  unfold chanterTick
  simp [apply_ite Block.clk]

@[simp] theorem engineAnswer_clk (b : Block) (es : Nat) (r : EReq) (st : Status) (d : Nat) :
    (engineAnswer b es r st d).clk = b.clk := by
  unfold engineAnswer
  simp [apply_ite Block.clk]

@[simp] theorem engineArrive_clk (b : Block) (es num : Nat) (ans : Answer) : (engineArrive b es num ans).clk = b.clk := by
  unfold engineArrive
  grind [engineAnswer_clk, !arrive_clk]

@[simp] theorem pumpEngines_clk (b : Block) : (pumpEngines b).clk = b.clk := by
  unfold pumpEngines
  simp [apply_ite Block.clk]

@[simp] theorem droneLook_clk (b : Block) (n : Nat) : (droneLook b n).clk = b.clk := (rfl)

@[simp] theorem droneTick_clk (b : Block) : (droneTick b).clk = b.clk := by unfold droneTick; simp

@[simp] theorem ladleCycle_clk (b : Block) : (ladleCycle b).clk = b.clk := by unfold ladleCycle; simp

/-- What a released block's idle cycle leaves of the clock: local time is one cycle on (01 R22). -/
theorem idleBlock_clk {b : Block} (h : b.clk.released = true) : (idleBlock b).clk = { b.clk with now := b.clk.now + 1 } := by
  simp [idleBlock, h, apply_ite Block.clk]

/-- Settles O3: the reset state is read off its definition; the units' work of an idle cycle leaves the clock to its end. -/
theorem resetIsCanonicalAndAnIdleBlockPassesTime : Obligations.ResetIsCanonicalAndAnIdleBlockPassesTime := by
  unfold Obligations.ResetIsCanonicalAndAnIdleBlockPassesTime
  refine ⟨rfl, rfl, fun i h => absurd h List.not_mem_nil, ?_⟩
  rintro ⟨b, q⟩ rfl
  refine ⟨fun h => ?_, fun h => ⟨_, rfl, rfl, idleBlock_clk h⟩⟩
  have h : b.clk.released = false := h
  simp [step, idle, idleBlock, h]

end Sys2Proof.Machine
end

section
/-! SUPPORT. What reads of the dictionary see of the keys: exchanging the keys commutes with every reading operation (O51). -/

namespace Sys2Proof.Machine

/-- The block with other keys. -/
def rekey (b : Block) (r : Keyring) : Block := { b with ring := r }

theorem unitView_rekey {b : Block} {r : Keyring} (h : keyStateWord r = keyStateWord b.ring) (idx sub : Nat) :
    unitView (rekey b r) idx sub = unitView b idx sub := by
  have e : (rekey b r).ring = r := rfl
  unfold unitView
  rw [e, h]
  rfl
theorem blobContent_rekey (b : Block) (r : Keyring) (idx sub : Nat) : blobContent (rekey b r) idx sub = blobContent b idx sub := by
  rfl
theorem firstChecks_rekey (b : Block) (r : Keyring) (acc : Access) (idx sub : Nat) (w : Bool): firstChecks (rekey b r) acc idx sub w = firstChecks b acc idx sub w := rfl
theorem readyRead_rekey (b : Block) (r : Keyring)  (idx sub : Nat) : readyRead (rekey b r) idx sub = readyRead b idx sub := rfl
theorem respond_rekey (b : Block) (r : Keyring) (acc : Access) (n : Nat) (c : Code) (d : Nat) (g : Option Nat) :
  respond (rekey b r) acc n c d g = rekey (respond b acc n c d g) r := by
  unfold respond
  cases acc.path <;> rfl
theorem answer_rekey (b : Block) (r : Keyring) (acc : Access) (c : Code) :
    answer (rekey b r) acc c = rekey (answer b acc c) r := respond_rekey ..

theorem msix_rekey (b : Block) (r : Keyring) (fn vec : Nat) : msix (rekey b r) fn vec = rekey (msix b fn vec) r := by
  unfold msix msixVia
  simp only [apply_ite (rekey · r)]
  rfl

theorem sendRecord_rekey (b : Block) (r : Keyring) (e : Path) (req : Bool) (w : Bytes) :
    sendRecord (rekey b r) e req w = rekey (sendRecord b e req w) r := by
  cases e <;> rfl

theorem notifyDone_rekey (b : Block) (r : Keyring) (acc : Access) (n : Nat) (c : Code) (d : Nat) :
    notifyDone (rekey b r) acc n c d = rekey (notifyDone b acc n c d) r := by
  unfold notifyDone
  split
  · rfl
  · cases acc.path with
    | host => exact msix_rekey ..
    | tenant => exact msix_rekey ..
    | _ => rfl

theorem finishCmd_rekey (b : Block) (r : Keyring) (i s : Nat) (c : Code) (d : Nat) :
    finishCmd (rekey b r) i s c d = rekey (finishCmd b i s c d) r := by
  have e : pendingCmd (rekey b r) i s = pendingCmd b i s := rfl
  unfold finishCmd
  rw [e]
  cases pendingCmd b i s with
  | none => rfl
  | some p =>
    let c' := wr b i (s + 0x80) (resultWord p.cmdSeq 2 c.num d)
    exact notifyDone_rekey { c' with dict := { c'.dict with cmds := b.dict.cmds.filter (·.key != objKey i s) } } r _ _ _ _

theorem busAccess_rekey (b : Block) (r : Keyring) : busAccess (rekey b r) = rekey (busAccess b) r := by
  have e : rd (count (rekey b r) 0x1402 5) 0xC000 6 = rd (count b 0x1402 5) 0xC000 6 := rfl
  unfold busAccess wakeBy
  rw [e]
  split
  · exact finishCmd_rekey (wr (count b 0x1402 5) 0xC000 6 0) r _ _ _ _
  · rfl
  · rfl

theorem readValue_rekey {b : Block} {r : Keyring} (h : keyStateWord r = keyStateWord b.ring) (role : Role) (idx sub : Nat) :
    readValue (rekey b r) role idx sub = readValue b role idx sub := by
  have e : value (rekey b r) idx sub = value b idx sub := by
    unfold value
    rw [unitView_rekey h]
    rfl
  unfold readValue
  simp only [e]
  rfl

theorem opRead_rekey {b : Block} {r : Keyring} (h : keyStateWord r = keyStateWord b.ring) (acc : Access) (idx sub n : Nat) :
    opRead (rekey b r) acc idx sub n = rekey (opRead b acc idx sub n) r := by
  have h' : keyStateWord r = keyStateWord (busAccess b).ring := by simpa using h
  have ready : dictReady (rekey (busAccess b) r) = dictReady (busAccess b) := rfl
  unfold opRead
  simp only [busAccess_rekey, ready, readyRead_rekey, firstChecks_rekey, readValue_rekey h', answer_rekey, respond_rekey]
  split
  · rfl
  · split
    · rfl
    · split <;> rfl

theorem blobRead_rekey (b : Block) (r : Keyring) (acc : Access) (idx sub n : Nat) :
    blobRead (rekey b r) acc idx sub n = rekey (blobRead b acc idx sub n) r := by
  have ready : dictReady (rekey (busAccess b) r) = dictReady (busAccess b) := rfl
  unfold blobRead blobOp
  simp only [busAccess_rekey, ready, readyRead_rekey, firstChecks_rekey, blobContent_rekey, answer_rekey, respond_rekey]
  split
  · rfl
  · split
    · rfl
    · split
      · rfl
      · split <;> rfl

theorem opReserved_rekey (b : Block) (r : Keyring) (acc : Access) (idx sub op : Nat) :
    opReserved (rekey b r) acc idx sub op = rekey (opReserved b acc idx sub op) r := by
  have ready : dictReady (rekey (busAccess b) r) = dictReady (busAccess b) := rfl
  have pid : pathPid (rekey (busAccess b) r) acc.path = pathPid (busAccess b) acc.path := rfl
  unfold opReserved
  simp only [busAccess_rekey, ready, pid, firstChecks_rekey, answer_rekey]
  split
  · rfl
  · split
    · rfl
    · split <;> rfl

/-- Settles O51: the reading operations commute with an exchange of the keys that keeps the KEY_STATE word. -/
theorem dictionaryReadsTellNothingOfAKey : Obligations.DictionaryReadsTellNothingOfAKey := by
  intro s r h other acc idx sub n
  refine ⟨⟨s.on (opRead s.dev acc idx sub n), rfl, ?_⟩, ⟨s.on (blobRead s.dev acc idx sub n), rfl, ?_⟩,
    ⟨s.on (opReserved s.dev acc idx sub n), rfl, ?_⟩⟩
  · exact congrArg (fun b => Host.Outcome.next (s.on b)) (opRead_rekey h acc idx sub n)
  · exact congrArg (fun b => Host.Outcome.next (s.on b)) (blobRead_rekey s.dev r acc idx sub n)
  · exact congrArg (fun b => Host.Outcome.next (s.on b)) (opReserved_rekey s.dev r acc idx sub n)

end Sys2Proof.Machine
end

section
/-! SUPPORT. Frames: byte order, the width of the cipher's blocks, counter mode undone, and the header and plain text read back (O34). -/

namespace Sys2Proof.Machine

/-! ### The order of bytes -/

theorem swapBytes_lt (n k : Nat) : swapBytes n k < 2 ^ (8 * k) := by
  induction k generalizing n with
  | zero => simp [swapBytes]
  | succ k ih =>
    have h := ih (n / 256)
    have : 2 ^ (8 * (k + 1)) = 256 * 2 ^ (8 * k) := by rw [Nat.mul_succ, Nat.pow_add]; omega
    have hn : n % 256 * 2 ^ (8 * k) ≤ 255 * 2 ^ (8 * k) := Nat.mul_le_mul_right _ (by omega)
    simp only [swapBytes]
    omega

/-- The last byte given is the first of the swapped ones. -/
theorem swapBytes_succ_low (n k : Nat) : swapBytes n (k + 1) = swapBytes n k * 256 + n / 2 ^ (8 * k) % 256 := by
  induction k generalizing n with
  | zero => simp [swapBytes]
  | succ k ih =>
    have e : 2 ^ (8 * (k + 1)) = 256 * 2 ^ (8 * k) := by rw [Nat.mul_succ, Nat.pow_add]; omega
    rw [swapBytes, ih, swapBytes, Nat.div_div_eq_div_mul, e]
    grind

theorem swapBytes_swapBytes (n k : Nat) : swapBytes (swapBytes n k) k = n % 2 ^ (8 * k) := by
  induction k with
  | zero => simp [swapBytes, Nat.mod_one]
  | succ k ih =>
    have e : 2 ^ (8 * (k + 1)) = 2 ^ (8 * k) * 256 := by rw [Nat.mul_succ, Nat.pow_add]
    have low : (swapBytes n k * 256 + n / 2 ^ (8 * k) % 256) % 256 = n / 2 ^ (8 * k) % 256 := by omega
    have high : (swapBytes n k * 256 + n / 2 ^ (8 * k) % 256) / 256 = swapBytes n k := by omega
    rw [swapBytes_succ_low n, swapBytes, low, high, ih, e, Nat.mod_mul]
    grind

/-! ### The cipher's blocks are of 128 bits -/

theorem foldl_base_lt {B : Nat} (l : List Nat) (hl : ∀ x ∈ l, x < B) (a k : Nat) (ha : a < B ^ k) :
    l.foldl (fun a x => a * B + x) a < B ^ (k + l.length) := by
  induction l generalizing a k with
  | nil => simpa using ha
  | cons x xs ih =>
    have hx : x < B := hl x (by simp)
    have h : a * B + x < B ^ (k + 1) := by
      calc a * B + x < (a + 1) * B := by rw [Nat.succ_mul]; omega
        _ ≤ B ^ k * B := Nat.mul_le_mul_right _ ha
        _ = B ^ (k + 1) := (Nat.pow_succ ..).symm
    simpa [Nat.add_assoc, Nat.add_comm 1] using ih (fun y hy => hl y (by simp [hy])) _ _ h

theorem blockOf_lt {l : List Nat} {k : Nat} (n : l.length = k) (hl : ∀ x ∈ l, x < 256) : blockOf l < 256 ^ k := by
  have h := foldl_base_lt (B := 256) l hl 0 0 (by simp)
  simpa [n, blockOf] using h

theorem sbox_lt (x : Nat) : sbox x < 256 := Nat.mod_lt _ (by decide)

theorem subWord_lt (w : Nat) : subWord w < 2 ^ 32 :=
  blockOf_lt (k := 4) (by simp [blockBytes]) (by simp only [List.mem_map]; rintro _ ⟨x, -, rfl⟩; exact sbox_lt x)

theorem xtime_lt {x : Nat} (h : x < 256) : xtime x < 256 := by
  unfold xtime
  split
  · omega
  · have hi : 2 * x / 2 ^ 8 = 1 := by omega
    have e : (2 * x ^^^ 0x11B) / 2 ^ 8 = 0 := by rw [Nat.xor_div_two_pow, hi]; rfl
    omega

theorem nextWord_lt {ws : List Nat} (h : ∀ x ∈ ws, x < 2 ^ 32) (i : Nat) {rcon : Nat} (hr : rcon < 256) :
    nextWord ws i rcon < 2 ^ 32 := by
  have head : ws.headD 0 < 2 ^ 32 := by
    cases ws with
    | nil => simp
    | cons x xs => exact h x (by simp)
  have seventh : ws.getD 7 0 < 2 ^ 32 := by
    rw [List.getD_eq_getElem?_getD]
    cases e : ws[7]? with
    | none => simp
    | some x => exact h x (List.mem_of_getElem? e)
  have shifted : rcon <<< 24 < 2 ^ 32 := by rw [Nat.shiftLeft_eq]; omega
  unfold nextWord
  refine Nat.xor_lt_two_pow seventh ?_
  split
  · exact Nat.xor_lt_two_pow (subWord_lt _) shifted
  · split
    · exact subWord_lt _
    · exact head

theorem keyWords_lt (n i : Nat) {rcon : Nat} (hr : rcon < 256) {ws : List Nat} (h : ∀ x ∈ ws, x < 2 ^ 32) :
    ∀ x ∈ keyWords n i rcon ws, x < 2 ^ 32 := by
  induction n generalizing i rcon ws with
  | zero => exact h
  | succ n ih =>
    refine ih (i + 1) ?_ ?_
    · split
      · exact xtime_lt hr
      · exact hr
    · simpa using ⟨nextWord_lt h i hr, h⟩

theorem getD_lt {l : List Nat} {B : Nat} (h : ∀ x ∈ l, x < B) (hB : 0 < B) (i : Nat) : l.getD i 0 < B := by
  rw [List.getD_eq_getElem?_getD]
  cases e : l[i]? with
  | none => exact hB
  | some x => exact h x (List.mem_of_getElem? e)

theorem roundKeys_lt (key : Nat) : ∀ x ∈ roundKeys key, x < 2 ^ 128 := by
  have start : ∀ x ∈ (List.range 8).map (fun i => bits key (32 * i) 32), x < 2 ^ 32 := by
    simp only [List.mem_map]
    rintro _ ⟨i, -, rfl⟩
    exact Nat.mod_lt _ (by decide)
  have words := keyWords_lt 52 8 (rcon := 1) (by decide) start
  unfold roundKeys
  simp only [List.mem_map]
  rintro _ ⟨r, -, rfl⟩
  have h := foldl_base_lt (B := 2 ^ 32) ((List.range 4).map fun j => (keyWords 52 8 1
    ((List.range 8).map fun i => bits key (32 * i) 32)).reverse.getD (4 * r + j) 0) ?_ 0 0 (by simp)
  · simpa [List.foldl_map] using h
  · simp only [List.mem_map]
    rintro _ ⟨j, -, rfl⟩
    exact getD_lt (by simpa using words) (by decide) _

theorem aesRounds_lt {ks : List Nat} (h : ∀ x ∈ ks, x < 2 ^ 128) (hk : ks ≠ []) (s : Nat) : aesRounds ks s < 2 ^ 128 := by
  induction ks generalizing s with
  | nil => exact absurd rfl hk
  | cons k ks ih =>
    cases ks with
    | nil =>
      refine Nat.xor_lt_two_pow (blockOf_lt (k := 16) (by simp [shiftRows]) ?_) (h k (by simp))
      simp only [shiftRows, List.mem_map]
      rintro _ ⟨i, -, rfl⟩
      refine getD_lt ?_ (by decide) _
      simp only [List.mem_map]
      rintro _ ⟨x, -, rfl⟩
      exact sbox_lt x
    | cons k' ks => exact ih (fun x hx => h x (by simp [hx])) (by simp) _

theorem aes_lt (key x : Nat) : aes key x < 2 ^ 128 := by
  have h := roundKeys_lt key
  have n : (roundKeys key).length = 15 := by simp [roundKeys]
  unfold aes
  generalize roundKeys key = l at h n
  match l, n with
  | k :: k' :: ks, _ => exact aesRounds_lt (fun x hx => h x (by simp at hx ⊢; exact .inr hx)) (by simp) _

theorem gfMul_lt (x i : Nat) {v z : Nat} (hv : v < 2 ^ 128) (hz : z < 2 ^ 128) : gfMul x i v z < 2 ^ 128 := by
  induction i generalizing v z with
  | zero => exact hz
  | succ i ih =>
    refine ih ?_ ?_
    · split
      · omega
      · exact Nat.xor_lt_two_pow (by omega) (by decide)
    · split
      · exact Nat.xor_lt_two_pow hz hv
      · exact hz

theorem gcmTag_lt (key iv : Nat) (aad c : Bytes) : gcmTag key iv aad c < 2 ^ 128 :=
  Nat.xor_lt_two_pow (gfMul_lt _ _ (aes_lt ..) (by decide)) (aes_lt ..)

/-- Counter mode undoes itself. -/
theorem ctrMode_ctrMode (key iv n : Nat) {p : Bytes} (h : p.val < 2 ^ (8 * p.len)) :
    ctrMode key iv n (ctrMode key iv n p) = p := by
  unfold ctrMode
  dsimp only
  generalize List.foldl _ _ _ = ks
  have e : (((p.val ^^^ ks) % 2 ^ (8 * p.len)) ^^^ ks) % 2 ^ (8 * p.len) = p.val := by
    rw [Nat.xor_mod_two_pow, Nat.mod_mod, ← Nat.xor_mod_two_pow, Nat.xor_assoc, Nat.xor_self, Nat.xor_zero,
      Nat.mod_eq_of_lt h]
  rw [e]

/-! ### The header -/

theorem bits_eq (n lo w : Nat) : bits n lo w = n / 2 ^ lo % 2 ^ w := by
  rw [bits, Nat.shiftRight_eq_div_pow]

theorem ofBool_lt (b : Bool) : ofBool b < 2 := by cases b <;> decide

theorem ofBool_eq_one (b : Bool) : (ofBool b == 1) = b := by cases b <;> rfl

theorem bitAt_eq (n i : Nat) : bitAt n i = (bits n i 1 == 1) := by
  rw [bitAt, Nat.testBit_eq_decide_div_mod_eq, bits_eq]
  rfl

/-- Where each field of the header lies (Table 6-2). -/
theorem bits_num {h : Bth} (l : h.legal) :
    bits h.num 124 4 = h.typ ∧ bits h.num 120 4 = 1 ∧ bits h.num 118 2 = h.tc ∧ bits h.num 117 1 = ofBool h.ackreq
      ∧ bits h.num 116 1 = ofBool h.rcq ∧ bits h.num 115 1 = ofBool h.retx ∧ bits h.num 114 1 = ofBool h.fence
      ∧ bits h.num 112 2 = 0 ∧ bits h.num 100 12 = h.src ∧ bits h.num 88 12 = h.dst ∧ bits h.num 72 16 = h.srcQp
      ∧ bits h.num 56 16 = h.dstQp ∧ bits h.num 32 24 = h.psn ∧ bits h.num 16 16 = h.entropy
      ∧ bits h.num 8 8 = h.gen ∧ bits h.num 0 8 = 0 ∧ h.num < 2 ^ 128 := by
  obtain ⟨htyp, htc, hsrc, hdst, hsq, hdq, hpsn, hent, hgen, -⟩ := l
  have := ofBool_lt h.ackreq
  have := ofBool_lt h.rcq
  have := ofBool_lt h.retx
  have := ofBool_lt h.fence
  simp only [Bth.num, bits_eq, Nat.shiftLeft_eq]
  refine ⟨?_, ?_, ?_, ?_, ?_, ?_, ?_, ?_, ?_, ?_, ?_, ?_, ?_, ?_, ?_, ?_, ?_⟩ <;> omega

theorem bthOf_num {h : Bth} (l : h.legal) : bthOf h.num = h := by
  obtain ⟨typ, -, tc, ack, rcq, retx, fence, -, src, dst, sq, dq, psn, ent, gen, -⟩ := bits_num l
  simp only [bthOf, bitAt_eq, typ, tc, ack, rcq, retx, fence, src, dst, sq, dq, psn, ent, gen, ofBool_eq_one]

/-- Four flags, or the two fields of a header without a queue pair, in one word. -/
theorem bits_join {n lo w v : Nat} (a : bits n lo w = 0) (b : bits n (lo + w) v = 0) : bits n lo (w + v) = 0 := by
  rw [bits_eq] at *
  rw [Nat.pow_add, Nat.mod_mul, a, Nat.div_div_eq_div_mul, ← Nat.pow_add, b]; rfl

theorem headOk_num {h : Bth} (l : h.legal) : headOk h.num = true := by
  obtain ⟨typ, ver, tc, ack, rcq, retx, fence, z, -, -, sq, dq, psn, -, gen, z', -⟩ := bits_num l
  obtain ⟨-, -, -, -, -, -, -, -, -, credit, request, quiet⟩ := l
  have flags : requestType h.typ = true ∨ bits h.num 114 4 = 0 := by
    refine request.imp_right fun ⟨a, b, c, d⟩ => ?_
    rw [a] at ack; rw [b] at rcq; rw [c] at retx; rw [d] at fence
    exact bits_join (w := 1) fence (bits_join (w := 1) retx (bits_join (w := 1) rcq ack))
  have fields : h.typ = tCREDIT ∨ h.typ = tDICT ∨ h.typ = tMIRROR ∨ h.typ = tSEALNAK →
      bits h.num 32 56 = 0 ∧ bits h.num 8 8 = 0 := by
    intro t
    obtain ⟨a, b, c, d⟩ := quiet t
    rw [a] at sq; rw [b] at dq; rw [c] at psn; rw [d] at gen
    exact ⟨bits_join (w := 24) psn (bits_join (w := 16) dq sq), gen⟩
  have fieldsOk : (!(h.typ == tCREDIT || h.typ == tDICT || h.typ == tMIRROR || h.typ == tSEALNAK)
      || (bits h.num 32 56 == 0 && bits h.num 8 8 == 0)) = true := by
    by_cases t : h.typ = tCREDIT ∨ h.typ = tDICT ∨ h.typ = tMIRROR ∨ h.typ = tSEALNAK
    · obtain ⟨x, y⟩ := fields t
      rw [x, y]; simp
    · obtain ⟨x, t⟩ := not_or.1 t
      obtain ⟨y, t⟩ := not_or.1 t
      obtain ⟨u, v⟩ := not_or.1 t
      simp [x, y, u, v]
  have creditOk : (creditType h.typ || h.tc == 0) = true := by simpa using credit
  have flagsOk : (requestType h.typ || bits h.num 114 4 == 0) = true := by simpa using flags
  simp only [headOk, zeroBits, typ, ver, tc, z, z', creditOk, flagsOk, fieldsOk]
  rfl

/-! ### The plain text -/

section
variable {h : Bth} {ext n : Nat} {pay : Bytes}

theorem plain_val : (plain h ext n pay).val
    = swapBytes h.num 16 + 2 ^ 128 * (swapBytes ext n + 2 ^ (8 * n) * pay.val) := by
  simp only [plain, Nat.shiftLeft_eq]
  grind

theorem plain_head : slice (plain h ext n pay).val 0 16 = swapBytes h.num 16 := by
  rw [slice, plain_val]
  simpa using Nat.mod_eq_of_lt (swapBytes_lt h.num 16)

theorem plain_shift : (plain h ext n pay).val / 2 ^ 128 = swapBytes ext n + 2 ^ (8 * n) * pay.val := by
  have z : swapBytes h.num 16 / 2 ^ 128 = 0 := Nat.div_eq_of_lt (swapBytes_lt h.num 16)
  rw [plain_val, Nat.add_mul_div_left _ _ (by decide), z, Nat.zero_add]

theorem plain_ext : slice (plain h ext n pay).val 16 n = swapBytes ext n := by
  rw [slice, Nat.shiftRight_eq_div_pow, plain_shift, Nat.add_mul_mod_self_left, Nat.mod_eq_of_lt (swapBytes_lt ext n)]

theorem plain_payload (hp : pay.val < 2 ^ (8 * pay.len)) :
    bytesSlice (plain h ext n pay) (16 + n) ((plain h ext n pay).len - 16 - n) = pay := by
  have len : (plain h ext n pay).len - 16 - n = pay.len := by simp only [plain]; omega
  have z : swapBytes ext n / 2 ^ (8 * n) = 0 := Nat.div_eq_of_lt (swapBytes_lt ext n)
  have val : slice (plain h ext n pay).val (16 + n) pay.len = pay.val := by
    rw [slice, Nat.shiftRight_eq_div_pow, Nat.mul_add, Nat.pow_add, ← Nat.div_div_eq_div_mul, plain_shift,
      Nat.add_mul_div_left _ _ (Nat.two_pow_pos _), z, Nat.zero_add, Nat.mod_eq_of_lt hp]
  rw [bytesSlice, len, val]

theorem plain_lt (hp : pay.val < 2 ^ (8 * pay.len)) : (plain h ext n pay).val < 2 ^ (8 * (plain h ext n pay).len) := by
  have a := swapBytes_lt h.num 16
  have b := swapBytes_lt ext n
  have c : swapBytes ext n + 2 ^ (8 * n) * pay.val < 2 ^ (8 * n) * 2 ^ (8 * pay.len) := by
    calc _ < 2 ^ (8 * n) * (pay.val + 1) := by rw [Nat.mul_succ]; omega
      _ ≤ _ := Nat.mul_le_mul_left _ hp
  have e : 2 ^ (8 * (plain h ext n pay).len) = 2 ^ 128 * (2 ^ (8 * n) * 2 ^ (8 * pay.len)) := by
    have len : (plain h ext n pay).len = 16 + n + pay.len := rfl
    rw [← Nat.pow_add, ← Nat.pow_add, len]; congr 1; omega
  rw [plain_val, e]
  omega

/-- Check 3 with what it reads of the plain text: the definition's body at an extension of `e` bytes. (The definition is
opened under its binder: opened at its argument, the kernel would evaluate the type's match.) -/
theorem parsePacket_eq {b : Block} {t : Bytes} {w e : Nat} (hw : swapBytes (slice t.val 0 16) 16 = w)
    (he : extLen (bits w 124 4) = some e) : parsePacket b t
      = if t.len < 16 + e || !headOk w || !((bthOf w).dst == chipId b
          || rd b 0xA000 0x11 != 0xFFFF && (bthOf w).dst == rd b 0xA000 0x11)
          || !lengthOk (bthOf w).typ (swapBytes (slice t.val 16 e) e) (bytesSlice t (16 + e) (t.len - 16 - e))
          || !extOk (bthOf w).typ (swapBytes (slice t.val 16 e) e) then none
        else some ⟨bthOf w, !((bthOf w).dst == chipId b), swapBytes (slice t.val 16 e) e,
          bytesSlice t (16 + e) (t.len - 16 - e)⟩ := by
  have body : parsePacket b = parsePacket b := rfl
  conv at body => rhs; delta parsePacket
  rw [congrFun body t]
  rw [hw]
  extract_lets n
  split
  · next none => exact absurd (he.symm.trans none) (by simp)
  · next e' he' =>
    obtain rfl : e = e' := Option.some.inj (he.symm.trans he')
    rfl

/-- Check 3 reads a legal packet to this chip as it was encoded. -/
theorem parsePacket_plain {b : Block} (l : h.legal) (hd : h.dst = chipId b) (he : extLen h.typ = some n)
    (hx : ext < 2 ^ (8 * n)) (hp : pay.val < 2 ^ (8 * pay.len)) (hl : lengthOk h.typ ext pay = true)
    (ho : extOk h.typ ext = true) : parsePacket b (plain h ext n pay) = some ⟨h, false, ext, pay⟩ := by
  obtain ⟨typ, -, -, -, -, -, -, -, -, -, -, -, -, -, -, -, lt⟩ := bits_num l
  have head : swapBytes (slice (plain h ext n pay).val 0 16) 16 = h.num := by
    have e : h.num % 2 ^ (8 * 16) = h.num := Nat.mod_eq_of_lt lt
    rw [plain_head, swapBytes_swapBytes, e]
  have xt : swapBytes (slice (plain h ext n pay).val 16 n) n = ext := by
    rw [plain_ext, swapBytes_swapBytes, Nat.mod_eq_of_lt hx]
  have long : ¬ (plain h ext n pay).len < 16 + n := Nat.not_lt.2 (Nat.le_add_right _ _)
  have payload := plain_payload (h := h) (ext := ext) (n := n) hp
  have own : (h.dst == chipId b) = true := by rw [hd]; exact beq_self_eq_true _
  rw [parsePacket_eq head (typ ▸ he), bthOf_num l, headOk_num l, xt, payload, hl, ho, own]
  exact if_neg (by simp [long])

end

/-- Checks 1 to 3 passed. (Opened under its binder, and with what it calls made opaque: the kernel would evaluate the
cipher.) -/
theorem verdict_packet {b : Block} {f : Frame} {k : Bool × Nat} {p : Packet} (ht : f.etherType.toNat = rd b 0x5000 2)
    (hk : (linkKeys b).find? (fun k => sealOk k.2 f) = some k)
    (hp : parsePacket b (gcmCrypt (linkKey k.2) f.iv.toNat f.body) = some p) : verdict b f = .packet k.1 p := by
  have body : verdict b = verdict b := rfl
  conv at body => rhs; delta verdict
  rw [congrFun body f]
  rw [if_neg (Classical.not_not.2 ht)]
  obtain ⟨parse, eparse⟩ : ∃ parse, parsePacket = parse := ⟨_, rfl⟩
  obtain ⟨opens, eopens⟩ : ∃ opens, sealOk = opens := ⟨_, rfl⟩
  rw [eparse] at hp ⊢
  rw [eopens] at hk ⊢
  cases e : linkKeys b with
  | nil => rw [e] at hk; cases hk
  | cons x xs => simp only [← e, hk, hp]
/-- Settles O34: counter mode undoes itself, the tag fits its 128 bits, and check 3 reads the plain text back. -/
theorem aSealedPacketOpensToWhatWasSealed : Obligations.ASealedPacketOpensToWhatWasSealed := by
  intro b r p ctr k t h ext n pay hb hr ht ht' hc hp hctr l hd he hx hpay hl ho hbody
  have iv : (sealFrame b p t ctr).iv.toNat = (chipId b <<< 84) + (p <<< 78) + ctr := by
    simp only [sealFrame, BitVec.toNat_ofNat, Nat.shiftLeft_eq]
    omega
  have body : (sealFrame b p t ctr).body = gcmCrypt (linkKey k) (sealFrame b p t ctr).iv.toNat t.body := by
    rw [iv]; simp only [sealFrame, hb, Option.getD_some]
  have tag : (sealFrame b p t ctr).tag.toNat = gcmTag (linkKey k) (sealFrame b p t ctr).iv.toNat
      (sealAad (sealFrame b p t ctr).iv.toNat) (sealFrame b p t ctr).body := by
    rw [iv]; simp only [sealFrame, hb, Option.getD_some, sealAad, BitVec.toNat_ofNat, Nat.mod_eq_of_lt (gcmTag_lt ..)]
  have etype : (sealFrame b p t ctr).etherType.toNat = rd r 0x5000 2 := by
    rw [ht]; exact Nat.mod_eq_of_lt ht'
  have opened : gcmCrypt (linkKey k) (sealFrame b p t ctr).iv.toNat (sealFrame b p t ctr).body = plain h ext n pay := by
    rw [body, hbody]
    exact ctrMode_ctrMode _ _ _ (plain_lt hpay)
  have parsed := parsePacket_plain (b := r) l hd he hx hpay hl ho
  generalize sealFrame b p t ctr = f at *
  have keys : linkKeys r = (false, k) :: (linkKeys r).tail := by simp [linkKeys, hr]
  have found : (linkKeys r).find? (fun k => sealOk k.2 f) = some (false, k) := by
    rw [keys, List.find?_cons_of_pos]
    simp [sealOk, tag]
  exact verdict_packet etype found (by rw [opened, parsed])

end Sys2Proof.Machine
end

section
/-! SUPPORT. What presenting a request leaves alone: the tags, the partitions and the dictionary. -/

namespace Sys2Proof.Machine

@[simp] theorem foldl_tags {α : Type} (f : Block → α → Block) (h : ∀ b a, (f b a).tags = b.tags) (l : List α) (b : Block) :
    (l.foldl f b).tags = b.tags := foldl_keeps (·.tags) f h l b

@[simp] theorem foldl_fst_tags {α β : Type} (f : Block × β → α → Block × β) (h : ∀ p a, (f p a).1.tags = p.1.tags) (l : List α)
    (p : Block × β) : (l.foldl f p).1.tags = p.1.tags := by
  induction l generalizing p with
  | nil => rfl
  | cons a l ih => rw [List.foldl_cons, ih, h]

@[simp] theorem writeBytes_tags (b : Block) (a v : Nat) (x' : Nat) : (writeBytes b a v x').tags = b.tags := by
  fun_induction writeBytes <;> simp_all

@[simp] theorem writeMem_tags (b : Block) (pa v len : Nat) : (writeMem b pa v len).tags = b.tags := by
  unfold writeMem
  simp

@[simp] theorem disturb_tags (b : Block) (pa len : Nat) : (disturb b pa len).tags = b.tags := by
  unfold disturb
  simp [apply_ite Block.tags]

@[simp] theorem present_tags (b : Block) (o : Out) : (present b o).tags = b.tags := by
  unfold present
  (repeat' split) <;> simp

@[simp] theorem foldl_ptb {α : Type} (f : Block → α → Block) (h : ∀ b a, (f b a).ptb = b.ptb) (l : List α) (b : Block) :
    (l.foldl f b).ptb = b.ptb := foldl_keeps (·.ptb) f h l b

@[simp] theorem foldl_fst_ptb {α β : Type} (f : Block × β → α → Block × β) (h : ∀ p a, (f p a).1.ptb = p.1.ptb) (l : List α)
    (p : Block × β) : (l.foldl f p).1.ptb = p.1.ptb := by
  induction l generalizing p with
  | nil => rfl
  | cons a l ih => rw [List.foldl_cons, ih, h]

@[simp] theorem writeBytes_ptb (b : Block) (a v : Nat) (x' : Nat) : (writeBytes b a v x').ptb = b.ptb := by
  fun_induction writeBytes <;> simp_all

@[simp] theorem writeMem_ptb (b : Block) (pa v len : Nat) : (writeMem b pa v len).ptb = b.ptb := by
  unfold writeMem
  simp

@[simp] theorem disturb_ptb (b : Block) (pa len : Nat) : (disturb b pa len).ptb = b.ptb := by
  unfold disturb
  simp [apply_ite Block.ptb]

@[simp] theorem present_ptb (b : Block) (o : Out) : (present b o).ptb = b.ptb := by
  unfold present
  (repeat' split) <;> simp

@[simp] theorem foldl_dict {α : Type} (f : Block → α → Block) (h : ∀ b a, (f b a).dict = b.dict) (l : List α) (b : Block) :
    (l.foldl f b).dict = b.dict := foldl_keeps (·.dict) f h l b

@[simp] theorem foldl_fst_dict {α β : Type} (f : Block × β → α → Block × β) (h : ∀ p a, (f p a).1.dict = p.1.dict) (l : List α)
    (p : Block × β) : (l.foldl f p).1.dict = p.1.dict := by
  induction l generalizing p with
  | nil => rfl
  | cons a l ih => rw [List.foldl_cons, ih, h]

@[simp] theorem writeBytes_dict (b : Block) (a v : Nat) (x' : Nat) : (writeBytes b a v x').dict = b.dict := by
  fun_induction writeBytes <;> simp_all

@[simp] theorem writeMem_dict (b : Block) (pa v len : Nat) : (writeMem b pa v len).dict = b.dict := by
  unfold writeMem
  simp

@[simp] theorem disturb_dict (b : Block) (pa len : Nat) : (disturb b pa len).dict = b.dict := by
  unfold disturb
  simp [apply_ite Block.dict]

@[simp] theorem present_dict (b : Block) (o : Out) : (present b o).dict = b.dict := by
  unfold present
  (repeat' split) <;> simp

end Sys2Proof.Machine
end

section
/-! SUPPORT. Tags: a grant takes one free tag of the pool and keeps the others' reserves free (O10). -/

namespace Sys2Proof.Machine

/-! ### The lowest free tag and the tags in use -/

theorem lowestFree_ge (l : List TagUse) (t : Nat) : t ≤ lowestFree l t := by
  fun_induction lowestFree l t <;> omega

theorem lowestFree_le (l : List TagUse) (t : Nat) : lowestFree l t ≤ t + l.length := by
  fun_induction lowestFree l t <;> simp only [List.length_cons, List.length_nil] at * <;> omega

theorem length_filter_insertTag (f : TagUse → Bool) (l : List TagUse) (u : TagUse) :
    ((insertTag l u).filter f).length = (l.filter f).length + if f u then 1 else 0 := by
  induction l with
  | nil => simp [insertTag, List.filter_cons]; split <;> rfl
  | cons v vs ih =>
    unfold insertTag
    split
    · rw [List.filter_cons]; split <;> simp
    · rw [List.filter_cons, List.filter_cons]; split <;> simp [ih] <;> omega

theorem grantTag_tags (b : Block) (w : TagWait) : (grantTag b w).tags = { b.tags with
    used := insertTag b.tags.used
      ⟨lowestFree (b.tags.used.filter fun u => inPool w.pool u.tag) (poolBase w.pool), w.ctx, w.segs, w.holder⟩ } := by
  simp [grantTag]

@[simp] theorem grantTag_ptb (b : Block) (w : TagWait) : (grantTag b w).ptb = b.ptb := by
  simp [grantTag]

@[simp] theorem setTurn_used (b : Block) (p : Pool) (t : Nat) : (setTurn b p t).tags.used = b.tags.used := by
  cases p <;> rfl

@[simp] theorem setTurn_ptb (b : Block) (p : Pool) (t : Nat) : (setTurn b p t).ptb = b.ptb := by
  cases p <;> rfl

/-! ### The waiting request that a grant serves -/

section
variable {b : Block} {p : Pool} {w : TagWait}

theorem nextWaiter_spec (h : nextWaiter b p = some w) : w.pool = p ∧ tagAllowed b p w.pid = true := by
  obtain ⟨pid, -, hw⟩ := List.exists_of_findSome?_eq_some h
  split at hw
  · next allowed =>
    have e := List.find?_some hw
    simp only [Bool.and_eq_true, beq_iff_eq] at e
    exact ⟨e.1, e.2 ▸ allowed⟩
  · cases hw

theorem tagGrant_of_waiter (h : nextWaiter b p = some w) :
    tagGrant b p = setTurn (grantTag { b with tags := { b.tags with waits := b.tags.waits.erase w } } w) p w.pid := by
  simp [tagGrant, h]

/-- TAG_GRANT with a request whose turn it is. -/
theorem exec_tagGrant {s : State} {pool : Nat} (hp : poolOfNum pool = some p) (h : nextWaiter s.dev p = some w) :
    exec (.tagGrant pool) s = .next (s.on (if w.holder.kind = .frame then frameGo (tagGrant s.dev p) w.holder.a w.holder.b
      else if w.msg.isEmpty then retryAsker (tagGrant s.dev p) w.holder else tagGrant s.dev p)) := by
  change execTagGrant pool s = _
  simp [execTagGrant, hp, grantRow, h, State.on]

/-- The tag granted lies in the pool: a pool with a free tag has one at or above its base and below its end. -/
theorem grantedTag_inPool (h : nextWaiter b p = some w) :
    inPool p (lowestFree (b.tags.used.filter fun u => inPool p u.tag) (poolBase p)) = true := by
  obtain ⟨-, allowed⟩ := nextWaiter_spec h
  have free : poolReserved b p w.pid < poolSize p - poolUsed b p := by
    simpa using (Bool.and_eq_true_iff.1 allowed).2
  have le := lowestFree_le (b.tags.used.filter fun u => inPool p u.tag) (poolBase p)
  have ge := lowestFree_ge (b.tags.used.filter fun u => inPool p u.tag) (poolBase p)
  simp only [poolUsed] at free
  exact Bool.and_eq_true_iff.2 ⟨decide_eq_true ge, decide_eq_true (by omega)⟩

theorem poolUsed_tagGrant (h : nextWaiter b p = some w) : poolUsed (tagGrant b p) p = poolUsed b p + 1 := by
  obtain ⟨pool, -⟩ := nextWaiter_spec h
  have inside := grantedTag_inPool h
  rw [tagGrant_of_waiter h]
  simp [poolUsed, grantTag_tags, length_filter_insertTag, pool, inside]

theorem poolHeld_tagGrant (h : nextWaiter b p = some w) (q : Nat) :
    poolHeld (tagGrant b p) p q = poolHeld b p q + if w.pid = q then 1 else 0 := by
  obtain ⟨pool, -⟩ := nextWaiter_spec h
  have inside := grantedTag_inPool h
  rw [tagGrant_of_waiter h]
  simp only [poolHeld, setTurn_used, grantTag_tags, length_filter_insertTag, pool, inside, Bool.true_and, beq_iff_eq]
  rfl

@[simp] theorem isLive_tagGrant : isLive (tagGrant b p) = isLive b := by
  have e : (tagGrant b p).ptb = b.ptb := by
    unfold tagGrant
    split <;> simp
  funext q
  rw [isLive, isLive, part_congr (congrArg (·.parts) e)]

end

/-! ### Sums of what is left of the reserves -/

theorem foldl_add_eq (f : Nat → Nat) (l : List Nat) (n : Nat) : l.foldl (fun n q => n + f q) n = n + (l.map f).sum := by
  induction l generalizing n with
  | nil => simp
  | cons a l ih => simp [ih, Nat.add_assoc]

/-- What all LIVE partitions have not taken of their reserves of 64. -/
def reservesLeft (b : Block) (p : Pool) : Nat := ((pids.filter (isLive b)).map fun q => 64 - poolHeld b p q).sum

/-- One partition's part of the sum, and the others'. -/
theorem reservesLeft_eq (b : Block) (p : Pool) (pid : Nat) : reservesLeft b p
    = poolReserved b p pid + if pid ∈ pids.filter (isLive b) then 64 - poolHeld b p pid else 0 := by
  have nodup : (pids.filter (isLive b)).Nodup := by
    refine List.Pairwise.filter _ ?_
    unfold pids
    exact List.Pairwise.map _ (fun _ _ ne e => ne (Nat.succ.inj e)) List.nodup_range
  have others : poolReserved b p pid = (((pids.filter (isLive b)).filter (· != pid)).map fun q => 64 - poolHeld b p q).sum := by
    rw [poolReserved, foldl_add_eq (fun q => 64 - poolHeld b p q), List.filter_filter, Nat.zero_add]
  rw [others, ← nodup.erase_eq_filter]
  split
  · next mem => rw [reservesLeft, ((List.perm_cons_erase mem).map _).sum_nat, List.map_cons, List.sum_cons, Nat.add_comm]
  · next absent => rw [List.erase_of_not_mem absent]; rfl

theorem poolReserved_tagGrant {b : Block} {p : Pool} {w : TagWait} (h : nextWaiter b p = some w) :
    poolReserved (tagGrant b p) p w.pid = poolReserved b p w.pid := by
  simp only [poolReserved, foldl_add_eq (fun q => 64 - poolHeld (tagGrant b p) p q),
    foldl_add_eq (fun q => 64 - poolHeld b p q), isLive_tagGrant]
  congr 2
  refine List.map_congr_left fun q hq => ?_
  have ne : w.pid ≠ q := by
    rintro rfl
    simp at hq
  rw [poolHeld_tagGrant h, if_neg ne]
  rfl

/-- Settles O10: the grant was allowed because the other partitions' reserves stay free, and its own shrinks by the tag. -/
theorem tagGrantsKeepEveryReserve : Obligations.TagGrantsKeepEveryReserve := by
  intro s pool p w hp h
  refine ⟨exec_tagGrant hp h, poolUsed_tagGrant h, fun covered => ?_⟩
  obtain ⟨-, allowed⟩ := nextWaiter_spec h
  have free : poolReserved s.dev p w.pid < poolSize p - poolUsed s.dev p := by
    simpa using (Bool.and_eq_true_iff.1 allowed).2
  have before := reservesLeft_eq s.dev p w.pid
  have after := reservesLeft_eq (tagGrant s.dev p) p w.pid
  simp only [foldl_add_eq (fun q => 64 - poolHeld s.dev p q), Nat.zero_add] at covered
  simp only [foldl_add_eq (fun q => 64 - poolHeld (tagGrant s.dev p) p q), Nat.zero_add]
  change reservesLeft s.dev p ≤ _ at covered
  change reservesLeft (tagGrant s.dev p) p ≤ _
  simp only [isLive_tagGrant, poolReserved_tagGrant h, poolHeld_tagGrant h, if_true] at after
  rw [poolUsed_tagGrant h]
  by_cases live : w.pid ∈ pids.filter (isLive s.dev)
  · rw [if_pos live] at before after
    omega
  · rw [if_neg live] at before after
    omega

end Sys2Proof.Machine
end

section
/-! SUPPORT. Accepted commands: their results, what they leave alone, and what has been presented staying presented. -/

namespace Sys2Proof.Machine

/-! ### Results -/

theorem Code.num_lt (c : Code) : c.num < 256 := by cases c <;> decide

theorem resultWord_lt {n st c : Nat} (d : Nat) (hn : n < 65536) (hs : st < 4) (hc : c < 256) : resultWord n st c d < 2 ^ 64 := by
  simp only [resultWord, Nat.shiftLeft_eq]
  omega

theorem resultWord_mod (n st : Nat) (c : Code) (d : Nat) (hs : st < 4) :
    resultWord (n % 65536) st c.num d % 2 ^ 64 = resultWord (n % 65536) st c.num d :=
  Nat.mod_eq_of_lt (resultWord_lt d (Nat.mod_lt _ (by decide)) hs c.num_lt)

/-- What is pending depends on the list of pending commands alone. -/
theorem pendingCmd_congr {b b' : Block} (h : b.dict.cmds = b'.dict.cmds) (i j : Nat) : pendingCmd b i j = pendingCmd b' i j := by
  simp [pendingCmd, h]

theorem memSame_of_mem {s t : State} (h : t.dev.mem = s.dev.mem) : memSame s t := fun a => by
  simp [readByte, h]

section
variable {s : State} {b : Block} {acc : Access} {i j a : Nat}

/-- The command that an acceptance adds. -/
theorem pendingCmd_accepted (h : canTake s.dev i j) : pendingCmd (accepted s.dev acc i j a) i j
    = some ⟨objKey i j, (s.dev.dict.cmdSeq + 1) % 65536, acc, a, s.dev.clk.now⟩ := by
  obtain ⟨-, -, -, none, -⟩ := h
  exact pendingCmd_acceptCmd (b := count s.dev 0x1402 5) none acc a

theorem pends_accepted : pends s (s.on (accepted s.dev acc i j a)) i j := by
  simp only [pends, State.on, accepted, acceptCmd, rd_respond]
  exact (rd_wr_self ..).trans (resultWord_mod _ 1 .pending 0 (by decide))

/-- A command still pending finishes with the code and detail given. -/
theorem finishes_finishCmd (h : canTake s.dev i j) (hb : b.dict.cmds = (accepted s.dev acc i j a).dict.cmds) (c : Code)
    (d : Nat) : finishes s (s.on (finishCmd b i j c d)) i j c d := by
  have p := (pendingCmd_congr hb i j).trans (pendingCmd_accepted h)
  exact (rd_finishCmd_self p c d).trans (resultWord_mod _ 2 c d (by decide))

theorem rd_accepted_other {k l : Nat} (h : objKey k l ≠ objKey i (j + 0x80)) (h' : objKey k l ≠ objKey 0x1402 5) :
    rd (accepted b acc i j a) k l = rd b k l := by
  rw [accepted, rd_acceptCmd_other _ _ _ h, rd_count_other _ h']

@[simp] theorem accepted_clk : (accepted b acc i j a).clk = b.clk := by simp [accepted]
@[simp] theorem accepted_straps : (accepted b acc i j a).straps = b.straps := by simp [accepted]
@[simp] theorem accepted_tags : (accepted b acc i j a).tags = b.tags := by simp [accepted]
@[simp] theorem accepted_ptb : (accepted b acc i j a).ptb = b.ptb := by simp [accepted]
@[simp] theorem accepted_mem : (accepted b acc i j a).mem = b.mem := by simp [accepted]
@[simp] theorem accepted_hub : (accepted b acc i j a).hub = b.hub := by simp [accepted]
@[simp] theorem accepted_ladle : (accepted b acc i j a).ladle = b.ladle := by simp [accepted]
@[simp] theorem accepted_tpe : (accepted b acc i j a).tpe = b.tpe := by simp [accepted]
@[simp] theorem accepted_replies : (accepted b acc i j a).replies = b.replies := by simp [accepted]
@[simp] theorem accepted_mirror : (accepted b acc i j a).mirror = b.mirror := by simp [accepted]
@[simp] theorem accepted_ring : (accepted b acc i j a).ring = b.ring := by simp [accepted]
@[simp] theorem accepted_ssu : (accepted b acc i j a).ssu = b.ssu := by simp [accepted]
@[simp] theorem accepted_cru : (accepted b acc i j a).cru = b.cru := by simp [accepted]
@[simp] theorem accepted_cha : (accepted b acc i j a).cha = b.cha := by simp [accepted]
@[simp] theorem accepted_fcu : (accepted b acc i j a).fcu = b.fcu := by simp [accepted]
@[simp] theorem accepted_held : (accepted b acc i j a).held = b.held := by simp [accepted]
@[simp] theorem accepted_fresh : (accepted b acc i j a).fresh = b.fresh := by simp [accepted]

@[simp] theorem part_accepted (q : Nat) : part (accepted b acc i j a) q = part b q := by simp [accepted]

/-- A command that fails no check is run on the block that has accepted it. -/
theorem command_accepted {fails : Block → CmdFails} {run : Block → Block} (h : canTake b i j)
    (ht : roleOf acc.path ≠ .tnt) (hk : objKey i (j + 0x80) ≠ objKey 0x1402 5) (hf : fails (count b 0x1402 5) = noFails) :
    command b acc i j a fails run = run (accepted b acc i j a) :=
  command_taken h (fencedTnt_host ht) hk hf

theorem commandNow_accepted {fails : Block → CmdFails} {run : Block → Block × Code × Nat} (h : canTake b i j)
    (ht : roleOf acc.path ≠ .tnt) (hk : objKey i (j + 0x80) ≠ objKey 0x1402 5) (hf : fails (count b 0x1402 5) = noFails) :
    commandNow b acc i j a fails run =
      finishCmd (run (accepted b acc i j a)).1 i j (run (accepted b acc i j a)).2.1 (run (accepted b acc i j a)).2.2 :=
  command_accepted h ht hk hf

end

/-! ### What has been presented at the boundary stays presented -/

theorem emit_out {b : Block} {o : Out} (h : o ∈ b.out) (p : Out) : o ∈ (emit b p).out := by simp [emit, h]

theorem msix_out {b : Block} {o : Out} (h : o ∈ b.out) (fn vec : Nat) : o ∈ (msix b fn vec).out := by
  unfold msix msixVia
  dsimp only
  split
  · exact h
  · exact emit_out h _

theorem notifyDone_out {b : Block} {o : Out} (h : o ∈ b.out) (acc : Access) (n : Nat) (c : Code) (r : Nat) :
    o ∈ (notifyDone b acc n c r).out := by
  unfold notifyDone
  split
  · exact h
  · cases acc.path with
    | host => exact msix_out h ..
    | tenant => exact msix_out h ..
    | mctp => exact emit_out (b := (draw b).2) h _
    | _ => exact h

theorem finishCmd_out {b : Block} {o : Out} (h : o ∈ b.out) (i j : Nat) (c : Code) (d : Nat) :
    o ∈ (finishCmd b i j c d).out := by
  unfold finishCmd
  split
  · exact h
  · exact notifyDone_out (by exact h) ..

end Sys2Proof.Machine
end

section
/-! SUPPORT. Start-up: one lemma per step and what ends it (O12). -/

namespace Sys2Proof.Machine

@[simp] theorem foldl_fcu_doms {α : Type} (f : Block → α → Block) (h : ∀ b a, (f b a).fcu.doms = b.fcu.doms) (l : List α) (b : Block) :
    (l.foldl f b).fcu.doms = b.fcu.doms := foldl_keeps (·.fcu.doms) f h l b

@[simp] theorem foldl_fst_fcu_doms {α β : Type} (f : Block × β → α → Block × β) (h : ∀ p a, (f p a).1.fcu.doms = p.1.fcu.doms) (l : List α)
    (p : Block × β) : (l.foldl f p).1.fcu.doms = p.1.fcu.doms := by
  induction l generalizing p with
  | nil => rfl
  | cons a l ih => rw [List.foldl_cons, ih, h]

@[simp] theorem finishWaits_fcu_doms (b : Block) (q : Nat) : (finishWaits b q).fcu.doms = b.fcu.doms := by
  unfold finishWaits
  refine foldl_keeps (·.fcu.doms) _ (fun b sub => ?_) _ b
  split
  · exact (apply_ite (fun b : Block => b.fcu.doms) _ _ _).trans (by rw [finishCmd_fcu]; exact ite_self _)
  · rfl

@[simp] theorem logEvent_fcu_doms (b : Block) (e : Event) (applied target : Nat) (promoted : Bool) :
    (logEvent b e applied target promoted).fcu.doms = b.fcu.doms := by
  unfold logEvent
  grind [finishWaits_fcu_doms, msix_fcu, wr_fcu, count_fcu]

@[simp] theorem startupEvent_fcu_doms (b : Block) (fsrc unit target : Nat) :
    (startupEvent b fsrc unit target).fcu.doms = b.fcu.doms := by
  unfold startupEvent
  simp

/-! ### A step of start-up that is done -/

@[simp] theorem startupStep_stepDone (b : Block) (n : Nat) (h : n < 255 := by decide) : startupStep (stepDone b n) = n + 1 := by
  rw [startupStep, stepDone, rd_wr_self]
  omega

@[simp] theorem stepDone_hub (b : Block) (n : Nat) : (stepDone b n).hub = b.hub := (rfl)
@[simp] theorem stepDone_tpe (b : Block) (n : Nat) : (stepDone b n).tpe = b.tpe := (rfl)
@[simp] theorem stepDone_fcu (b : Block) (n : Nat) : (stepDone b n).fcu = b.fcu := (rfl)
@[simp] theorem stepDone_straps (b : Block) (n : Nat) : (stepDone b n).straps = b.straps := (rfl)
@[simp] theorem stepDone_out (b : Block) (n : Nat) : (stepDone b n).out = b.out := (rfl)
@[simp] theorem stepDone_cmds (b : Block) (n : Nat) : (stepDone b n).dict.cmds = b.dict.cmds := (rfl)

/-- STARTUP_STEPS names the step done. -/
theorem dictReady_stepDone (b : Block) : dictReady (stepDone b 3) = true := by
  have e : rd (stepDone b 3) 0xC000 2 = setBit (rd b 0xC000 2) 3 true % 2 ^ 64 := by
    rw [stepDone, rd_wr_other _ _ (by decide)]
    exact rd_wr_self b 0xC000 2 _
  rw [dictReady, bitAt_eq, e, bits_eq, beq_iff_eq]
  simp only [setBit, setBits, ofBool, Nat.shiftLeft_eq, Nat.shiftRight_eq_div_pow, if_true]
  omega

theorem domain_congr {b b' : Block} (h : b.fcu.doms = b'.fcu.doms) (k : Nat) : domain b k = domain b' k := by
  simp [domain, h]

/-- Stations recorded and taken out after a start-up failure are OUT. -/
theorem out_startupOut (l : List Nat) (src : Nat) (b : Block) (u : Nat) (h : u ∈ l ∨ (domain b u).st = .out) :
    (domain (l.foldl (fun b u => startupEvent (startupOut b u) src u 1) b) u).st = .out := by
  induction l generalizing b with
  | nil => simpa using h
  | cons v l ih =>
    refine ih _ ?_
    have e : domain (startupEvent (startupOut b v) src v 1) u = domain (setDomain b v { freshDomain with st := .out }) u := by
      refine domain_congr ?_ u
      rw [startupEvent_fcu_doms]
      unfold startupOut
      dsimp only
      split <;> rfl
    rw [e]
    rcases Decidable.em (u = v) with rfl | ne
    · exact .inr (by rw [domain_setDomain_self])
    · rw [domain_setDomain_other _ _ ne]
      exact h.imp_left fun m => (List.mem_cons.1 m).resolve_left ne

theorem rd_faultLow_pin (b : Block) : rd (faultLow b) 0x9000 3 = 1 := by
  unfold faultLow
  dsimp only
  split
  · next h => exact h
  · exact rd_wr_self b 0x9000 3 1

theorem rd_faultLow_other (b : Block) {i j : Nat} (h : objKey i j ≠ objKey 0x9000 3) : rd (faultLow b) i j = rd b i j := by
  unfold faultLow
  dsimp only
  split
  · rfl
  · exact rd_wr_other b 1 h

/-- A block that HALTs names it, and drives FAULT_L low. -/
theorem halt_step (b : Block) (f u : Nat) : startupStep (halt b f u) = 0xFF ∧ rd (halt b f u) 0x9000 3 = 1 := by
  rw [halt]
  exact ⟨(rd_faultLow_other _ (by decide)).trans (rd_wr_self ..), rd_faultLow_pin _⟩

/-! ### The steps -/

theorem lockCheck_done {b : Block} (hr : b.clk.released = true) (hs : startupStep b = 1) (hc : b.clk.coreLock = true)
    (hu : unlockedUnits b = []) : lockCheck b = stepDone b 1 := by
  simp [lockCheck, hr, hs, hc, hu]

theorem pllLock_ends {s : State} {core : Bool} {die : Nat} (hr : s.dev.clk.released = true) (hs : startupStep s.dev = 1)
    (hd : core = true ∨ die < 16) {c : Clock}
    (hc : c = if core then { s.dev.clk with coreLock := true }
      else { s.dev.clk with dieLock := s.dev.clk.dieLock ||| BitVec.ofNat 16 (2 ^ die) })
    (hl : c.coreLock = true) (hu : unlockedUnits { s.dev with clk := c } = []) :
    Goes (exec (.pllLock core die) s) fun t => startupStep t.dev = 2 ∧ memSame s t := by
  have released : c.released = true := by rw [hc]; split <;> exact hr
  have e : pllLock s.dev core die = stepDone { s.dev with clk := c } 1 := by
    rw [← lockCheck_done (b := { s.dev with clk := c }) released hs hl hu]
    cases core with
    | true => simp [pllLock, hr, hc]
    | false => simp [pllLock, hr, hc, Nat.not_le.2 (hd.resolve_left (by decide))]
  refine ⟨s.on (pllLock s.dev core die), rfl, ?_, memSame_of_mem ?_⟩ <;> simp [State.on, e]

theorem startupPllTimeout_ends {s : State} (hr : s.dev.clk.released = true) (hs : startupStep s.dev = 1)
    (ht : micros 10000 ≤ s.dev.clk.now) : Goes (exec .startupPllTimeout s) fun t =>
      (s.dev.clk.coreLock = true → startupStep t.dev = 2 ∧ ∀ u ∈ unlockedUnits s.dev, (domain t.dev u).st = .out)
      ∧ (s.dev.clk.coreLock = false → startupStep t.dev = 0xFF ∧ rd t.dev 0x9000 3 = 1) := by
  refine ⟨s.on (pllTimeout s.dev), rfl, fun hl => ?_, fun hl => ?_⟩
  · have e : pllTimeout s.dev
        = stepDone ((unlockedUnits s.dev).foldl (fun b u => startupEvent (startupOut b u) 15 u 1) s.dev) 1 := by
      simp [pllTimeout, hr, hs, hl, Nat.not_lt.2 ht]
    refine ⟨by simp [State.on, e], fun u hu => ?_⟩
    rw [State.on, e, domain_congr (congrArg (·.doms) (stepDone_fcu ..))]
    exact out_startupOut _ _ _ _ (.inl hu)
  · have e : pllTimeout s.dev = halt s.dev 14 uFCU := by simp [pllTimeout, hr, hs, hl, Nat.not_lt.2 ht]
    rw [State.on, e]
    exact halt_step ..

theorem selfTestReport_ends {s : State} {failed : List Nat} {image : Option Bytes} (hs : startupStep s.dev = 2)
    (hb : rd s.dev 0x9000 1 ≠ 2) (hf : failed.filter (unitPresent s.dev) = []) :
    Goes (exec (.selfTestReport failed image) s) fun t => startupStep t.dev = 4 ∧ dictReady t.dev = true := by
  have e : selfTest s.dev failed image = stepDone (imageStep (useImage (stepDone (draw s.dev).2 2) image)) 3 := by
    have none : fatalFailure (failed.filter (unitPresent s.dev)) = none := by rw [hf]; rfl
    rw [hf] at none
    simp only [selfTest, hs, hb, none, ne_eq, not_true_eq_false, if_false, hf, List.foldl_nil]
  refine ⟨s.on (selfTest s.dev failed image), rfl, ?_, ?_⟩
  · simp [State.on, e]
  · simp [State.on, e, dictReady_stepDone]

theorem foldl_miTrain_out (l : List Nat) (b : Block) :
    (l.foldl (fun b m => emit b (.miTrain m)) b).out = b.out ++ l.map Out.miTrain := by
  induction l generalizing b with
  | nil => simp
  | cons m l ih => rw [List.foldl_cons, ih]; simp [emit]

/-- A station that is still to report keeps step 5 going. -/
theorem readyCheck_waits {b : Block} {m : Nat} (hm : m ∈ trained b) (hr : ready b m = false) : readyCheck b = b := by
  have notAll : (trained b).all (ready b) = false := List.all_eq_false.2 ⟨m, hm, by simp [hr]⟩
  simp [readyCheck, notAll]

/-- Step 4's end: MI_TRAIN is asserted at every station that start-up trains, and none has reported yet. -/
def keysDoneStep (b : Block) : Block :=
  (trained b).foldl (fun b m => emit b (.miTrain m)) { stepDone b 4 with clk := { b.clk with miReady := 0 } }

theorem keysDoneStep_keeps {β : Type} (g : Block → β) (h : ∀ b o, g (emit b o) = g b) (b : Block) :
    g (keysDoneStep b) = g { stepDone b 4 with clk := { b.clk with miReady := 0 } } :=
  foldl_keeps g (fun b m => emit b (.miTrain m)) (fun b m => h b _) (trained b) _

theorem trained_congr {b b' : Block} (hs : b.straps = b'.straps) (hd : b.fcu.doms = b'.fcu.doms) : trained b = trained b' := by
  simp [trained, starts, msPresent, hs, domain_congr hd]

theorem keysDoneStep_trained (b : Block) : trained (keysDoneStep b) = trained b :=
  trained_congr (keysDoneStep_keeps (·.straps) (fun _ _ => rfl) b) (keysDoneStep_keeps (·.fcu.doms) (fun _ _ => rfl) b)

theorem keysDone_ends {s : State} {acc : Access} (hs : startupStep s.dev = 4) (hk : s.dev.ring.spillCur ≠ none)
    (hc : canTake s.dev 0xC000 0x41) (ha : fromRot acc) (ht : trained s.dev ≠ []) :
    Goes (exec (.keysDone acc 0) s) fun t => startupStep t.dev = 5 ∧ finishes s t 0xC000 0x41 .ok 0
      ∧ ∀ m ∈ trained s.dev, .miTrain m ∈ t.dev.out := by
  have same : trained (accepted s.dev acc 0xC000 0x41 0) = trained s.dev := by
    exact trained_congr (by simp) (by simp)
  have waits : readyCheck (keysDoneStep (accepted s.dev acc 0xC000 0x41 0)) = keysDoneStep (accepted s.dev acc 0xC000 0x41 0) := by
    obtain ⟨m, hm⟩ := List.exists_mem_of_ne_nil _ ht
    refine readyCheck_waits (m := m) (by rw [keysDoneStep_trained, same]; exact hm) ?_
    have clk := keysDoneStep_keeps (·.clk) (fun _ _ => rfl) (accepted s.dev acc 0xC000 0x41 0)
    dsimp only at clk
    simp [ready, clk]
  have e : keysDone s.dev acc 0 = finishCmd (keysDoneStep (accepted s.dev acc 0xC000 0x41 0)) 0xC000 0x41 .ok 0 := by
    have step : startupStep (count s.dev 0x1402 5) = 4 := (rd_count_other _ (by decide)).trans hs
    rw [keysDone, commandNow_accepted hc (by rw [ha]; decide) (by decide)]
    · exact congrArg (finishCmd · 0xC000 0x41 .ok 0) waits
    · simp [notRot, show roleOf acc.path = .rot from ha, step, noFails, Option.isSome_iff_ne_none, hk]
  refine ⟨s.on (keysDone s.dev acc 0), rfl, ?_, ?_, fun m hm => ?_⟩
  · rw [State.on, e, startupStep, rd_finishCmd_other _ _ _ (by decide), rd_congr (keysDoneStep_keeps (·.dict.objs) (fun _ _ => rfl) _)]
    exact startupStep_stepDone _ 4
  · rw [e]
    exact finishes_finishCmd hc (keysDoneStep_keeps (·.dict.cmds) (fun _ _ => rfl) _) _ _
  · rw [State.on, e]
    refine finishCmd_out ?_ ..
    rw [keysDoneStep, foldl_miTrain_out, same]
    exact List.mem_append_right _ (List.mem_map_of_mem hm)

/-- Step 5: the report of a station is one more bit. -/
theorem ready_readyMs {b : Block} {ms m : Nat} (hm : ms < 32) : ready (readyMs b ms) m = (ready b m || ms == m) := by
  have lt : 2 ^ ms < 2 ^ 32 := Nat.pow_lt_pow_right (by decide) hm
  simp only [ready, readyMs, BitVec.toNat_or, Nat.testBit_or, BitVec.toNat_ofNat, Nat.mod_eq_of_lt lt, Nat.testBit_two_pow]
  rfl

theorem port_setPort_other (b : Block) {p q : Nat} (x : Port) (h : q ≠ p) : port (setPort b p x) q = port b q := by
  simp [port, setPort, h]

theorem foldl_realigning (l : List Nat) (b : Block) (p : Nat) (h : p ∈ l ∨ (port b p).realigning = true) :
    (port (l.foldl (fun b p => setPort b p { port b p with realigning := true }) b) p).realigning = true := by
  induction l generalizing b with
  | nil => simpa using h
  | cons q l ih =>
    refine ih _ ?_
    rcases Decidable.em (p = q) with rfl | ne
    · exact .inr (by rw [port_setPort_self])
    · rw [port_setPort_other _ _ ne]
      exact h.imp_left fun m => (List.mem_cons.1 m).resolve_left ne

theorem aligned_congr {b b' : Block} (hd : b.fcu.doms = b'.fcu.doms) : aligned b = aligned b' := by
  simp [aligned, starts, domain_congr hd]

/-- A port pipe that is to realign keeps step 6 going. -/
theorem alignCheck_waits {b : Block} {p : Nat} (hp : p ∈ aligned b) (hr : (port b p).realigning = true) : alignCheck b = b := by
  have notAll : ((aligned b).all fun p => !(port b p).realigning) = false := List.all_eq_false.2 ⟨p, hp, by simp [hr]⟩
  simp [alignCheck, notAll]

/-- The port pipes that start-up realigns begin to. -/
def realign (b : Block) : Block :=
  (aligned b).foldl (fun b p => setPort b p { port b p with realigning := true }) b

theorem realign_keeps {β : Type} (g : Block → β) (h : ∀ b p x, g (setPort b p x) = g b) (b : Block) : g (realign b) = g b :=
  foldl_keeps g _ (fun b p => h b p _) _ b

theorem miReady_ends {s : State} {ms : Nat} (hs : startupStep s.dev = 5) (hp : msPresent s.dev ms = true)
    (hst : starts s.dev (uMS ms) = true) (hd : (domain s.dev (uMS ms)).st ≠ .retraining)
    (hr : ∀ m ∈ trained s.dev, m ≠ ms → ready s.dev m = true) (ha : aligned s.dev ≠ []) :
    Goes (exec (.miReady ms) s) fun t => startupStep t.dev = 6 ∧ ∀ p ∈ aligned s.dev, (port t.dev p).realigning = true := by
  have lt : ms < 32 := by simp [msPresent] at hp; exact hp.1
  have all : (trained (readyMs s.dev ms)).all (ready (readyMs s.dev ms)) = true := by
    rw [List.all_eq_true, trained_congr (b := readyMs s.dev ms) (b' := s.dev) rfl rfl]
    intro m hm
    rw [ready_readyMs lt]
    rcases Decidable.em (m = ms) with rfl | ne
    · simp
    · simp [hr m hm ne]
  have same : aligned (stepDone (readyMs s.dev ms) 5) = aligned s.dev := aligned_congr rfl
  have realigning : ∀ p ∈ aligned s.dev, (port (realign (stepDone (readyMs s.dev ms) 5)) p).realigning = true :=
    fun p hp => foldl_realigning _ _ _ (.inl (by rw [same]; exact hp))
  have e : miReady s.dev ms = realign (stepDone (readyMs s.dev ms) 5) := by
    have step : startupStep (readyMs s.dev ms) = 5 := hs
    obtain ⟨p, hp'⟩ := List.exists_mem_of_ne_nil _ ha
    have waits := alignCheck_waits (b := realign (stepDone (readyMs s.dev ms) 5)) (p := p)
      (by rw [aligned_congr (realign_keeps (·.fcu.doms) (fun _ _ _ => rfl) _), same]; exact hp') (realigning p hp')
    have check : readyCheck (readyMs s.dev ms) = alignCheck (realign (stepDone (readyMs s.dev ms) 5)) := by
      simp [readyCheck, step, all, realign]
    simp [miReady, hp, hd, hs, hst, check, waits]
  refine ⟨s.on (miReady s.dev ms), rfl, ?_, by rw [State.on, e]; exact realigning⟩
  exact (congrArg startupStep e).trans ((realign_keeps startupStep (fun _ _ _ => rfl) _).trans (startupStep_stepDone _ 5))

/-- Step 6: the realigned pipe's link is as it was, and the last one ends the step. -/
theorem portRealigned_ends {s : State} {p : Nat} (hs : startupStep s.dev = 6) (hp : p < 36)
    (hst : starts s.dev (uPP p) = true) (hd : (domain s.dev (uPP p)).st ≠ .retraining) (hr : (port s.dev p).realigning = true) :
    exec (.portPipeRealigned p) s = .next (s.on (alignCheck (portLink (setPort s.dev p { port s.dev p with realigning := false }) p
      (port s.dev p).linkUp (port s.dev p).degraded))) := by
  change execPortPipeRealigned p s = _
  simp [execPortPipeRealigned, portRealigned, Nat.not_le.2 hp, hd, hs, hst, hr, State.on]

theorem alignCheck_ends {b : Block} (hs : startupStep b = 6) (h : ∀ q ∈ aligned b, (port b q).realigning = false) :
    startupStep (alignCheck b) = 7 := by
  have all : ((aligned b).all fun p => !(port b p).realigning) = true := List.all_eq_true.2 fun q hq => by simp [h q hq]
  simp [alignCheck, hs, all]

theorem retryHeld_none {b : Block} (h : b.tpe.noPath = []) : retryHeld b = b := by
  have e : { b with tpe := { b.tpe with noPath := b.tpe.noPath.filter (·.tracked) } } = b := by
    obtain ⟨clk, straps, tags, dict, ptb, mem, hub, ladle, tpe, rest⟩ := b
    obtain ⟨a⟩ := tpe
    simp only at h
    subst h
    rfl
  rw [retryHeld, e, h]
  rfl

/-- Step 7: no translation and no root is left. -/
def emptied (b : Block) : Block :=
  pids.foldl (fun b p => wr b (0x3100 + p) 4 0) { b with
    hub := { b.hub with esTlb := [], shared := [], inv := [] }
    ptb := { b.ptb with parts := b.ptb.parts.map fun e => (e.1, { e.2 with s1Roots := [] }) } }

theorem emptied_keeps {β : Type} (g : Block → β) (h : ∀ b p, g (wr b (0x3100 + p) 4 0) = g b) (b : Block) :
    g (emptied b) = g { b with
      hub := { b.hub with esTlb := [], shared := [], inv := [] }
      ptb := { b.ptb with parts := b.ptb.parts.map fun e => (e.1, { e.2 with s1Roots := [] }) } } :=
  foldl_keeps g _ h _ _

theorem rd_stepDone_other (b : Block) (n : Nat) {i j : Nat} (h : objKey i j ≠ objKey 0xC000 1) (h' : objKey i j ≠ objKey 0xC000 2) :
    rd (stepDone b n) i j = rd b i j := by
  rw [stepDone, rd_wr_other _ _ h]
  exact rd_wr_other b _ h'

theorem translationDone_emptied {b : Block} (hs : startupStep b = 7) (hb : rd (stepDone (emptied b) 7) 0x9000 1 ≠ 2) :
    translationDone b = retryHeld (stepDone (emptied b) 7) := by
  unfold translationDone
  rw [if_neg (Classical.not_not.2 hs)]
  exact congrArg retryHeld (if_neg hb)

theorem rd_emptied (b : Block) : rd (emptied b) 0x9000 1 = rd b 0x9000 1 :=
  (emptied_keeps (rd · 0x9000 1) (fun b p => rd_wr_other b 0 (by simp only [objKey]; omega)) b).trans (rd_congr rfl _ _)

theorem emptied_noPath (b : Block) : (emptied b).tpe.noPath = b.tpe.noPath := emptied_keeps (·.tpe.noPath) (fun _ _ => rfl) b

theorem emptied_mem (b : Block) : (emptied b).mem = b.mem := emptied_keeps (·.mem) (fun _ _ => rfl) b

theorem emptied_hub (b : Block) : (emptied b).hub = { b.hub with esTlb := [], shared := [], inv := [] } :=
  emptied_keeps (·.hub) (fun _ _ => rfl) b

theorem translationDone_ends {s : State} (hs : startupStep s.dev = 7) (hb : rd s.dev 0x9000 1 ≠ 2)
    (hn : s.dev.tpe.noPath = []) : Goes (exec .startupTranslationDone s) fun t =>
      startupStep t.dev = 8 ∧ t.dev.hub.esTlb = [] ∧ t.dev.hub.shared = [] ∧ memSame s t := by
  have mode : rd (stepDone (emptied s.dev) 7) 0x9000 1 ≠ 2 := by
    rw [rd_stepDone_other _ _ (by decide) (by decide), rd_emptied]
    exact hb
  have e : translationDone s.dev = stepDone (emptied s.dev) 7 := by
    rw [translationDone_emptied hs mode, retryHeld_none (by rw [stepDone_tpe, emptied_noPath, hn])]
  refine ⟨s.on (translationDone s.dev), rfl, ?_⟩
  rw [State.on, e]
  exact ⟨startupStep_stepDone _ 7, by rw [stepDone_hub, emptied_hub], by rw [stepDone_hub, emptied_hub],
    memSame_of_mem (by rw [stepDone_mem, emptied_mem])⟩

/-- Settles O12: one lemma per step. -/
theorem startupAdvancesThroughItsSteps : Obligations.StartupAdvancesThroughItsSteps :=
  ⟨fun _ _ _ hr hs hd hl hu => pllLock_ends hr hs hd rfl hl hu, fun _ hr hs ht => startupPllTimeout_ends hr hs ht,
    fun _ _ _ hs hb hf => selfTestReport_ends hs hb hf, fun _ _ hs hk hc ha ht => keysDone_ends hs hk hc ha ht,
    fun _ _ hs hp hst hd hr ha => miReady_ends hs hp hst hd hr ha,
    fun _ _ hs hp hst hd hr => ⟨portRealigned_ends hs hp hst hd hr, alignCheck_ends⟩,
    fun _ hs hb hn => translationDone_ends hs hb hn⟩

end Sys2Proof.Machine
end

section
/-! SUPPORT. Writes of objects: the row is OP_WRITE, and what each object's effect leaves (O16). -/

namespace Sys2Proof.Machine

@[simp] theorem foldl_dict_dictWin {α : Type} (f : Block → α → Block) (h : ∀ b a, (f b a).dict.dictWin = b.dict.dictWin) (l : List α) (b : Block) :
    (l.foldl f b).dict.dictWin = b.dict.dictWin := foldl_keeps (·.dict.dictWin) f h l b

@[simp] theorem foldl_fst_dict_dictWin {α β : Type} (f : Block × β → α → Block × β) (h : ∀ p a, (f p a).1.dict.dictWin = p.1.dict.dictWin) (l : List α)
    (p : Block × β) : (l.foldl f p).1.dict.dictWin = p.1.dict.dictWin := by
  induction l generalizing p with
  | nil => rfl
  | cons a l ih => rw [List.foldl_cons, ih, h]

@[simp] theorem sendRecord_dict_dictWin (b : Block) (p : Path) (owner : Bool) (r : Bytes) :
    (sendRecord b p owner r).dict.dictWin = b.dict.dictWin := by
  unfold sendRecord
  (repeat' split) <;> simp

@[simp] theorem keepResponse_dict_dictWin (b : Block) (k : Nat) (r : Kept) :
    (keepResponse b k r).dict.dictWin = b.dict.dictWin := by
  unfold keepResponse
  simp

@[simp] theorem setSlot_dict_dictWin (b : Block) (fn slot : Nat) (s : Slot) :
    (setSlot b fn slot s).dict.dictWin = b.dict.dictWin := by
  unfold setSlot
  simp

@[simp] theorem respond_dict_dictWin (b : Block) (acc : Access) (cmdSeq : Nat) (c : Code) (rdata : Nat) (seg : Option Nat) :
    (respond b acc cmdSeq c rdata seg).dict.dictWin = b.dict.dictWin := by
  unfold respond
  (repeat' split) <;> simp

@[simp] theorem answer_dict_dictWin (b : Block) (acc : Access) (c : Code) :
    (answer b acc c).dict.dictWin = b.dict.dictWin := by
  unfold answer
  simp

/-! ### Writes that pass their checks -/

/-- A size code stands for the object's size, where the object is a scalar. -/
theorem sizeOf4_sizeCode {idx sub : Nat} {r : ObjRow} (hs : 0 < sub) (hr : objRow idx sub = some r) (hb : r.ty ≠ .blob) :
    sizeOf4 (sizeCode idx sub) = some r.ty.size := by
  have e : objType idx sub = r.ty := by simp [objType, Nat.pos_iff_ne_zero.1 hs, hr]
  rw [sizeCode, e]
  cases h : r.ty <;> simp_all [OType.size, sizeOf4]

section
variable {s : State} {acc : Access} {idx sub : Nat} {v : Word} {r : ObjRow}

/-- A write that passes its checks is its effect, answered OK. -/
theorem opWrite_taken (h : writeTaken s.dev acc idx sub v.toNat r) :
    opWrite s.dev acc idx sub (sizeCode idx sub) v
      = answer (writeEffect (count s.dev 0x1402 5) r idx sub v.toNat) acc .ok := by
  obtain ⟨ha, hd, hs, hr, hc, hb, hf, hw⟩ := h
  have ty : objType idx sub = r.ty := by simp [objType, Nat.pos_iff_ne_zero.1 hs, hr]
  have ready : dictReady (count s.dev 0x1402 5) = true := by
    unfold dictReady at *; rw [rd_count_other _ (by decide)]; exact hd
  have notCmd : (r.ty == OType.cmd) = false := by simpa using hc
  simp [opWrite, ty, notCmd, busAccess_awake ha, ready, hf, hr, sizeOf4_sizeCode hs hr hb, scalarWrite, hw]

/-- The row that names the object does what OP_WRITE does. -/
theorem writeObj_taken (h : writeTaken s.dev acc idx sub v.toNat r) :
    writeObj s.dev acc idx sub v = answer (writeEffect (count s.dev 0x1402 5) r idx sub v.toNat) acc .ok :=
  opWrite_taken h

theorem objAt_lt {base n span : Nat} (h : n < span) : objAt base n span = base + n := if_pos h

/-- What is written is of 64 bits. -/
theorem rd_wr_word (b : Block) (i j : Nat) (v : Word) : rd (wr b i j v.toNat) i j = v.toNat := by
  rw [rd_wr_self, Nat.mod_eq_of_lt v.isLt]

theorem rd_wr_zero (b : Block) (i j : Nat) : rd (wr b i j 0) i j = 0 := rd_wr_self ..

/-! ### Effects by object -/

variable {b : Block}

theorem writeEffect_fmChip (hc : r.legal ≠ .counter) (w : Nat) : writeEffect b r 0x1400 1 w = clearDictWin (wr b 0x1400 1 w) := by
  simp [writeEffect, hc]

theorem writeEffect_logEnable (hc : r.legal ≠ .counter) {pid : Nat} (hp : isPid pid) (w : Nat) :
    writeEffect b r (0x2400 + pid) 3 w = logEnable b pid w := by
  obtain ⟨_, _⟩ := hp
  rw [writeEffect, if_neg hc]
  simp (disch := omega) only [Bool.and_eq_true, decide_eq_true_eq, and_true, true_and, if_neg, if_pos, if_true]
  rw [show (0x2400 + pid) % 256 = pid by omega]

theorem writeEffect_chanEnable (hc : r.legal ≠ .counter) {c : Nat} (h : c < 512) (w : Nat) :
    writeEffect b r (0x4200 + c) 3 w = chanEnable b c w := by
  rw [writeEffect, if_neg hc]
  simp (disch := omega) only [Bool.and_eq_true, decide_eq_true_eq, and_true, true_and, if_neg, if_pos, if_true]
  rw [Nat.add_sub_cancel_left]

theorem writeEffect_chanRing (hc : r.legal ≠ .counter) {c j : Nat} (h : c < 512) (hj : j = 1 ∨ j = 2) (w : Nat) :
    writeEffect b r (0x4200 + c) j w = wr (wr (wr b (0x4200 + c) j w) (0x4200 + c) 7 0) (0x4200 + c) 8 0 := by
  rw [writeEffect, if_neg hc]
  simp (disch := omega) only [Bool.and_eq_true, decide_eq_true_eq, and_true, true_and, if_neg, if_pos, if_true]

theorem writeEffect_transport (hc : r.legal ≠ .counter) {j : Nat} (w : Nat) :
    writeEffect b r 0x5000 j w = wr b 0x5000 j w := by
  rw [writeEffect, if_neg hc]
  simp (disch := omega) only [Bool.and_eq_true, decide_eq_true_eq, and_true, true_and, if_neg, if_pos, if_true]

theorem writeEffect_credit (hc : r.legal ≠ .counter) {j : Nat} (w : Nat) :
    writeEffect b r 0x5010 j w = grantCredit (wr b 0x5010 j w) := by
  rw [writeEffect, if_neg hc]
  simp (disch := omega) only [Bool.and_eq_true, decide_eq_true_eq, and_true, true_and, if_neg, if_pos, if_true]

theorem writeEffect_groupLimit (hc : r.legal ≠ .counter) {pid : Nat} (hp : isPid pid) (w : Nat) :
    writeEffect b r (0x6100 + pid) 0x40 w = setGroupLimit b pid w := by
  obtain ⟨_, _⟩ := hp
  rw [writeEffect, if_neg hc]
  simp (disch := omega) only [Bool.and_eq_true, decide_eq_true_eq, and_true, true_and, if_neg, if_pos, if_true]
  rw [show (0x6100 + pid) % 256 = pid by omega]

theorem writeEffect_progLimit (hc : r.legal ≠ .counter) {pid : Nat} (hp : isPid pid) (w : Nat) :
    writeEffect b r (0x6400 + pid) 0x20 w = wr b (0x6400 + pid) 0x20 w := by
  obtain ⟨_, _⟩ := hp
  rw [writeEffect, if_neg hc]
  simp (disch := omega) only [Bool.and_eq_true, decide_eq_true_eq, and_true, true_and, if_neg, if_pos, if_true]

theorem writeEffect_spill (hc : r.legal ≠ .counter) {pid : Nat} (hp : isPid pid) {j : Nat} (w : Nat) :
    writeEffect b r (0x7100 + pid) j w = wr b (0x7100 + pid) j w := by
  obtain ⟨_, _⟩ := hp
  rw [writeEffect, if_neg hc]
  simp (disch := omega) only [Bool.and_eq_true, decide_eq_true_eq, and_true, true_and, if_neg, if_pos, if_true]

theorem writeEffect_stepRing (hc : r.legal ≠ .counter) {pid : Nat} (hp : isPid pid) {j q : Nat} (hq : stepRing j = some q) (w : Nat) :
    writeEffect b r (0x8100 + pid) j w = wr (wr (wr b (0x8100 + pid) j w) (0x8100 + pid) (ringSub q 2) 0) (0x8100 + pid) (ringSub q 3) 0 := by
  obtain ⟨_, _⟩ := hp
  rw [writeEffect, if_neg hc]
  simp (disch := omega) only [Bool.and_eq_true, decide_eq_true_eq, and_true, true_and, if_neg, if_pos, if_true]
  rw [hq]

theorem writeEffect_source (hc : r.legal ≠ .counter) {src j : Nat} (h : src < 28) (hj : j ≠ 2) (w : Nat) :
    writeEffect b r (0x9200 + src) j w = sourceWritten (wr b (0x9200 + src) j w) src := by
  rw [writeEffect, if_neg hc]
  simp (disch := omega) only [Bool.and_eq_true, decide_eq_true_eq, if_neg, if_pos]
  rw [show (0x9200 + src) % 256 = src by omega]

theorem writeEffect_scope (hc : r.legal ≠ .counter) {src : Nat} (h : src < 28) (w : Nat) :
    writeEffect b r (0x9200 + src) 2 w = wr b (0x9200 + src) 2 w := by
  rw [writeEffect, if_neg hc]
  simp (disch := omega) only [Bool.and_eq_true, decide_eq_true_eq, if_neg]

theorem writeEffect_partner (hc : r.legal ≠ .counter) {j : Nat} (w : Nat) :
    writeEffect b r 0xA000 j w = wr b 0xA000 j w := by
  rw [writeEffect, if_neg hc]
  simp (disch := omega) only [Bool.and_eq_true, decide_eq_true_eq, and_true, true_and, if_neg, if_pos, if_true]

theorem writeEffect_mirrorEnable (hc : r.legal ≠ .counter) {pid : Nat} (hp : isPid pid) (w : Nat) :
    writeEffect b r (0xA100 + pid) 1 w = mirrorEnableSet (wr b (0xA100 + pid) 1 w) pid (rd b (0xA100 + pid) 1) := by
  obtain ⟨_, _⟩ := hp
  rw [writeEffect, if_neg hc]
  simp (disch := omega) only [Bool.and_eq_true, decide_eq_true_eq, and_true, true_and, if_neg, if_pos, if_true]
  rw [show (0xA100 + pid) % 256 = pid by omega]

theorem writeEffect_shadow (hc : r.legal ≠ .counter) {pid : Nat} (hp : isPid pid) {j : Nat} (w : Nat) :
    writeEffect b r (0xA200 + pid) j w = (shadowWrite b pid j w).1 := by
  obtain ⟨_, _⟩ := hp
  rw [writeEffect, if_neg hc]
  simp (disch := omega) only [Bool.and_eq_true, decide_eq_true_eq, and_true, true_and, if_neg, if_pos, if_true]
  rw [show (0xA200 + pid) % 256 = pid by omega]

theorem writeEffect_injectMode (hc : r.legal ≠ .counter)  (w : Nat) :
    writeEffect b r 0xF000 1 w = injectModeSet (wr b 0xF000 1 w) (rd b 0xF000 1) := by
  rw [writeEffect, if_neg hc]
  simp (disch := omega) only [Bool.and_eq_true, decide_eq_true_eq, and_true, true_and, if_neg, if_pos, if_true]

theorem writeEffect_injectLock (hc : r.legal ≠ .counter)  (w : Nat) :
    writeEffect b r 0xF000 2 w = injectLocked (wr b 0xF000 2 w) := by
  rw [writeEffect, if_neg hc]
  simp (disch := omega) only [Bool.and_eq_true, decide_eq_true_eq, and_true, true_and, if_neg, if_pos, if_true]


/-! ### What the effects leave -/

theorem objKey_sub_ne {i j k : Nat} (h : j ≠ k) (hj : j < 256) (hk : k < 256) : objKey i j ≠ objKey i k :=
  objKey_ne (.inr h) hk hj

theorem rd_logEnable (pid : Nat) (v : Word) : rd (logEnable b pid v.toNat) (0x2400 + pid) 3 = v.toNat := by
  have n4 : objKey (0x2400 + pid) 3 ≠ objKey (0x2400 + pid) 4 := objKey_sub_ne (by decide) (by decide) (by decide)
  have n5 : objKey (0x2400 + pid) 3 ≠ objKey (0x2400 + pid) 5 := objKey_sub_ne (by decide) (by decide) (by decide)
  have n6 : objKey (0x2400 + pid) 3 ≠ objKey (0x2400 + pid) 6 := objKey_sub_ne (by decide) (by decide) (by decide)
  unfold logEnable
  dsimp only
  split
  · rw [rd_wr_other _ _ n6, rd_wr_word]
  · split
    · rw [rd_wr_word]
    · rw [rd_wr_other _ _ n6, rd_wr_other _ _ n5, rd_wr_other _ _ n4, rd_setPart, rd_wr_word]

/-- LOG_ENABLE from 0 to 1. -/
theorem logEnable_starts (pid : Nat) (h : rd b (0x2400 + pid) 3 ≠ 1) :
    rd (logEnable b pid 1) (0x2400 + pid) 4 = 0 ∧ rd (logEnable b pid 1) (0x2400 + pid) 5 = 0
      ∧ bitAt (rd (logEnable b pid 1) (0x2400 + pid) 6) 1 = false ∧ (part (logEnable b pid 1) pid).logPhase = true := by
  have e : logEnable b pid 1 =
      let b := setPart (wr b (0x2400 + pid) 3 1) pid { part (wr b (0x2400 + pid) 3 1) pid with logPhase := true }
      wr (wr (wr b (0x2400 + pid) 4 0) (0x2400 + pid) 5 0) (0x2400 + pid) 6
        (setBit (setBit (rd b (0x2400 + pid) 6) 1 false) 0 true) := by
    rw [logEnable, if_neg (by decide), if_neg h]
  rw [e]
  refine ⟨?_, ?_, ?_, ?_⟩
  · rw [rd_wr_other _ _ (objKey_sub_ne (by decide) (by decide) (by decide)),
      rd_wr_other _ _ (objKey_sub_ne (by decide) (by decide) (by decide)), rd_wr_zero]
  · rw [rd_wr_other _ _ (objKey_sub_ne (by decide) (by decide) (by decide)), rd_wr_zero]
  · rw [rd_wr_self, bitAt_eq, bits_eq, beq_eq_false_iff_ne]
    simp only [setBit, setBits, ofBool, Nat.shiftLeft_eq, Nat.shiftRight_eq_div_pow, if_true, Bool.false_eq_true, if_false]
    omega
  · simp [part_setPart_self]

theorem chan_chanEnable (c : Nat) (w : Nat) : (chan (chanEnable b c w) c).st = if w = 1 then .idle else .off := by
  unfold chanEnable
  split
  · simp
  · simp [chanOff, freshChan]

/-- A channel's ring register holds its value, and HEAD and TAIL are 0. -/
theorem rd_chanRing {i j : Nat} (hj : j = 1 ∨ j = 2) (v : Word) (b : Block) : rd (wr (wr (wr b i j v.toNat) i 7 0) i 8 0) i j = v.toNat
    ∧ rd (wr (wr (wr b i j v.toNat) i 7 0) i 8 0) i 7 = 0 ∧ rd (wr (wr (wr b i j v.toNat) i 7 0) i 8 0) i 8 = 0 := by
  refine ⟨?_, ?_, rd_wr_zero ..⟩
  · rw [rd_wr_other _ _ (objKey_sub_ne (by omega) (by omega) (by decide)),
      rd_wr_other _ _ (objKey_sub_ne (by omega) (by omega) (by decide)), rd_wr_word]
  · rw [rd_wr_other _ _ (objKey_sub_ne (by decide) (by decide) (by decide)), rd_wr_zero]

theorem stepRing_bounds {j q : Nat} (h : stepRing j = some q) : q < 8 ∧ (j = ringSub q 0 ∨ j = ringSub q 1) := by
  unfold stepRing at h
  split at h
  · next c =>
    simp only [Bool.and_eq_true, decide_eq_true_eq] at c
    have := Option.some.inj h
    simp only [ringSub]
    omega
  · cases h

/-- A step queue's ring register holds its value, and HEAD and TAIL are 0. -/
theorem rd_stepRing {i j q : Nat} (h : stepRing j = some q) (v : Word) (b : Block) :
    rd (wr (wr (wr b i j v.toNat) i (ringSub q 2) 0) i (ringSub q 3) 0) i j = v.toNat
    ∧ rd (wr (wr (wr b i j v.toNat) i (ringSub q 2) 0) i (ringSub q 3) 0) i (ringSub q 2) = 0
    ∧ rd (wr (wr (wr b i j v.toNat) i (ringSub q 2) 0) i (ringSub q 3) 0) i (ringSub q 3) = 0 := by
  obtain ⟨hq, hj⟩ := stepRing_bounds h
  have subs : ringSub q 0 = 16 + 8 * q ∧ ringSub q 1 = 17 + 8 * q ∧ ringSub q 2 = 18 + 8 * q ∧ ringSub q 3 = 19 + 8 * q := by
    simp only [ringSub]; omega
  obtain ⟨s0, s1, s2, s3⟩ := subs
  refine ⟨?_, ?_, rd_wr_zero ..⟩
  · rw [rd_wr_other _ _ (objKey_sub_ne (by omega) (by omega) (by omega)),
      rd_wr_other _ _ (objKey_sub_ne (by omega) (by omega) (by omega)), rd_wr_word]
  · rw [rd_wr_other _ _ (objKey_sub_ne (by omega) (by omega) (by omega)), rd_wr_zero]

theorem rd_setGroupLimit (pid : Nat) (v : Word) : rd (setGroupLimit b pid v.toNat) (0x6100 + pid) 0x40 = v.toNat :=
  rd_wr_word ..

theorem accepted_of_checks {c d : Prop} [Decidable c] [Decidable d] {b b' : Block}
    (hs : (if c then (b, Code.state) else if d then (b, .conflict) else (b', .ok)).2 ≠ .state)
    (hc : (if c then (b, Code.state) else if d then (b, .conflict) else (b', .ok)).2 ≠ .conflict) :
    (if c then (b, Code.state) else if d then (b, .conflict) else (b', .ok)).1 = b' := by
  by_cases first : c
  · exact absurd (by rw [if_pos first]) hs
  · by_cases second : d
    · exact absurd (by rw [if_neg first, if_pos second]) hc
    · rw [if_neg first, if_neg second]

/-- A mapping that is neither refused for its state nor for a conflict is written. -/
theorem rd_shadowWrite {pid j : Nat} {v : Word} (hs : (shadowWrite b pid j v.toNat).2 ≠ .state)
    (hc : (shadowWrite b pid j v.toNat).2 ≠ .conflict) : rd (shadowWrite b pid j v.toNat).1 (0xA200 + pid) j = v.toNat := by
  have e := accepted_of_checks hs hc
  exact (congrArg (rd · (0xA200 + pid) j) e).trans (rd_wr_word ..)

theorem rd_sourceWritten_other (src : Nat) {i j : Nat} (h : objKey i j ≠ objKey (0x9200 + src) 5) :
    rd (sourceWritten b src) i j = rd b i j := rd_wr_other b _ h

theorem rd_sourceWritten_current (src : Nat) (v : Word) :
    rd (sourceWritten (wr b (0x9200 + src) 1 v.toNat) src) (0x9200 + src) 5 = v.toNat := by
  have e : rd (sourceWritten (wr b (0x9200 + src) 1 v.toNat) src) (0x9200 + src) 5
      = rd (wr b (0x9200 + src) 1 v.toNat) (0x9200 + src) 1 % 2 ^ 64 := rd_wr_self (wr b (0x9200 + src) 1 v.toNat) ..
  rw [e, rd_wr_word, Nat.mod_eq_of_lt v.isLt]

/-- INJECT_LOCK ends FACTORY, and the ports send again. -/
theorem injectLocked_factory (h : rd b 0xF000 1 = 2) (w : Nat) :
    injectLocked (wr b 0xF000 2 w) = retryHeld (wr (wr b 0xF000 2 w) 0xF000 1 0) := by
  have mode : rd (wr b 0xF000 2 w) 0xF000 1 = 2 := (rd_wr_other _ _ (by decide)).trans h
  have off : rd (wr (wr b 0xF000 2 w) 0xF000 1 0) 0xF000 1 = 0 := rd_wr_self ..
  rw [injectLocked, if_pos mode, injectModeSet, off]
  rfl

theorem injectLocked_other (h : rd b 0xF000 1 ≠ 2) (w : Nat) : injectLocked (wr b 0xF000 2 w) = wr b 0xF000 2 w :=
  if_neg (by rw [rd_wr_other _ _ (by decide)]; exact h)

/-- CURRENT of a fault source is read-only on every path (02 Table 2-2). -/
theorem objRow_current : ∀ src < 28, objRow (0x9200 + src) 5
    = some ⟨0x9200, 28, 0x05, 1, .enum8, .ro, .none, .ro, .ro, .ro, 0, .any⟩ := by
  decide +kernel

theorem not_current {src : Nat} (h : src < 28) (hw : writeTaken b acc (0x9200 + src) sub v.toNat r) : sub ≠ 5 := by
  rintro rfl
  obtain ⟨-, -, -, -, -, -, hf, -⟩ := hw
  revert hf
  have ro (role : Role) : canWrite (writeRight ⟨0x9200, 28, 0x05, 1, .enum8, .ro, .none, .ro, .ro, .ro, 0, .any⟩ role (0x9200 + src)) = false := by
    cases role <;> simp [writeRight, ObjRow.right, canWrite] <;> split <;> simp
  simp only [firstChecks, objRow_current src h, ro]
  split
  · simp
  · split <;> simp

/-- The checks of a mapping that has been taken. -/
theorem shadow_taken {pid : Nat} (hp : isPid pid) (hc : r.legal ≠ .counter) (hw : writeTaken b acc (0xA200 + pid) sub v.toNat r) :
    (shadowWrite (count b 0x1402 5) pid sub v.toNat).2 ≠ .state ∧ (shadowWrite (count b 0x1402 5) pid sub v.toNat).2 ≠ .conflict := by
  obtain ⟨_, _⟩ := hp
  obtain ⟨-, -, -, -, -, -, -, hf⟩ := hw
  have pp : (0xA200 + pid) % 256 = pid := by omega
  have notCounter : (r.legal != .counter) = true := by simpa using hc
  have state : writeState (count b 0x1402 5) (0xA200 + pid) sub v.toNat
      = ((shadowWrite (count b 0x1402 5) pid sub v.toNat).2 == .state) := by
    unfold writeState
    simp (disch := omega) only [Bool.and_eq_true, Bool.or_eq_true, decide_eq_true_eq, if_neg, if_pos, pp]
  have conflict : writeConflict (count b 0x1402 5) (0xA200 + pid) sub v.toNat
      = ((shadowWrite (count b 0x1402 5) pid sub v.toNat).2 == .conflict) := by
    unfold writeConflict
    simp (disch := omega) only [Bool.and_eq_true, Bool.or_eq_true, decide_eq_true_eq, if_neg, if_pos, pp]
  rw [writeFault, state, conflict, notCounter] at hf
  constructor
  · intro e
    simp [e] at hf
    split at hf <;> cases hf
  · intro e
    simp [e] at hf
    split at hf
    · cases hf
    · split at hf <;> cases hf

/-- What the state reads after a write that has been taken. -/
theorem rd_taken {idx' sub' n : Nat} (h : rd (writeEffect b r idx sub v.toNat) idx' sub' = n) :
    rd (s.on (answer (writeEffect b r idx sub v.toNat) acc .ok)).dev idx' sub' = n := by
  rw [State.on, rd_answer, h]

end

/-- Settles O16: every row that names an object is OP_WRITE at the object's size, and each object's effect has its lemma. -/
theorem configurationWritesTakeEffect : Obligations.ConfigurationWritesTakeEffect := by
  intro s acc idx sub v r hw hc b t holds
  have row (i : Nat) (hi : i = idx) :
      (.next (s.on (writeObj s.dev acc i sub v)) : Host.Outcome State Fault Refusal) = .next t := by
    rw [hi, writeObj_taken hw]
  refine ⟨row _ rfl, ?_, ?_, fun c hlt hidx => ⟨?_, ?_⟩, ?_, ?_, fun pid hp => ⟨?_, ?_, ?_, ?_, ?_, ?_, ?_⟩, ?_, ?_, ?_, ?_⟩
  · rintro rfl rfl
    refine ⟨row _ rfl, rd_taken ?_, (answer_dict_dictWin ..).trans ?_⟩ <;> rw [writeEffect_fmChip hc]
    · exact rd_wr_word ..
    · rfl
  · rintro pid hp rfl rfl
    refine ⟨row _ (objAt_lt hp.2), rd_taken ?_, ?_⟩
    · rw [writeEffect_logEnable hc hp]; exact rd_logEnable ..
    · rintro rfl h
      have off : rd b (0x2400 + pid) 3 ≠ 1 := by rw [rd_count_other _ (objKey_ne (.inr (by decide)) (by decide) (by decide))]; exact h
      obtain ⟨h4, h5, h6, hphase⟩ := logEnable_starts pid off
      have e : writeEffect b r (0x2400 + pid) 3 (1 : Word).toNat = logEnable b pid 1 := writeEffect_logEnable hc hp 1
      refine ⟨rd_taken (by rw [e, h4]), rd_taken (by rw [e, h5]), ?_, ?_⟩
      · rw [rd_taken rfl, e, h6]
      · exact (congrArg Part.logPhase (part_congr (congrArg (·.parts) (answer_ptb ..)) pid)).trans (by rw [e, hphase])
  · rintro rfl
    subst hidx
    refine ⟨row _ (objAt_lt hlt), ?_⟩
    have e := chan_chanEnable (b := b) c v.toNat
    rw [← writeEffect_chanEnable hc hlt] at e
    simp only [chan, t, State.on, answer_ladle] at e ⊢
    have one : v.toNat = 1 ↔ v = 1 := BitVec.toNat_inj (y := (1 : Word))
    simp only [e, one]
  · intro hj
    subst hidx
    obtain ⟨h, h7, h8⟩ := rd_chanRing hj v b (i := 0x4200 + c)
    rw [← writeEffect_chanRing hc hlt hj] at h h7 h8
    exact ⟨row _ (objAt_lt hlt), rd_taken h, rd_taken h7, rd_taken h8⟩
  · rintro rfl
    exact ⟨row _ rfl, rd_taken (by rw [writeEffect_transport hc]; exact rd_wr_word ..)⟩
  · rintro rfl
    exact ⟨row _ rfl, by simp only [t, writeEffect_credit hc]⟩
  · rintro rfl rfl
    exact ⟨row _ (objAt_lt hp.2), rd_taken (by rw [writeEffect_groupLimit hc hp]; exact rd_setGroupLimit ..)⟩
  · rintro rfl rfl
    exact ⟨row _ (objAt_lt hp.2), rd_taken (by rw [writeEffect_progLimit hc hp]; exact rd_wr_word ..)⟩
  · rintro rfl rfl
    exact ⟨row _ (objAt_lt hp.2), rd_taken (by rw [writeEffect_spill hc hp]; exact rd_wr_word ..)⟩
  · rintro rfl rfl
    exact ⟨row _ (objAt_lt hp.2), rd_taken (by rw [writeEffect_spill hc hp]; exact rd_wr_word ..)⟩
  · rintro rfl q hq
    obtain ⟨h, h2, h3⟩ := rd_stepRing hq v b (i := 0x8100 + pid)
    rw [← writeEffect_stepRing hc hp hq] at h h2 h3
    exact ⟨row _ (objAt_lt hp.2), rd_taken h, rd_taken h2, rd_taken h3⟩
  · rintro rfl rfl
    exact ⟨row _ (objAt_lt hp.2), by simp only [t, writeEffect_mirrorEnable hc hp]⟩
  · rintro rfl -
    obtain ⟨hs, hk⟩ := shadow_taken hp hc hw
    exact ⟨row _ (objAt_lt hp.2), rd_taken (by rw [writeEffect_shadow hc hp]; exact rd_shadowWrite hs hk)⟩
  · rintro src hlt rfl
    have ne5 := not_current hlt hw
    refine ⟨row _ (objAt_lt hlt), rd_taken ?_, ?_, ?_⟩
    · rcases Decidable.em (sub = 2) with rfl | ne
      · rw [writeEffect_scope hc hlt]; exact rd_wr_word ..
      · rw [writeEffect_source hc hlt ne, rd_sourceWritten_other _ (by simp only [objKey]; omega), rd_wr_word]
    · rintro rfl
      exact rd_taken (by rw [writeEffect_source hc hlt (by decide)]; exact rd_sourceWritten_current ..)
    · intro ne
      simp only [t, State.on, answer_fcu, writeEffect_source hc hlt ne]
      exact find?_erase_self ..
  · rintro rfl -
    exact ⟨row _ rfl, rd_taken (by rw [writeEffect_partner hc]; exact rd_wr_word ..)⟩
  · rintro rfl rfl
    exact ⟨row _ rfl, by simp only [t, writeEffect_injectMode hc]⟩
  · rintro rfl rfl
    refine ⟨row _ rfl, fun h => ?_, fun h => ?_⟩ <;> simp only [t, writeEffect_injectLock hc]
    · rw [injectLocked_other h]
    · rw [injectLocked_factory h]

end Sys2Proof.Machine
end

section
/-! SUPPORT. Accesses: readiness, reads and the codes of commands that are turned away (O15, O18). -/

namespace Sys2Proof.Machine

/-! ### Rows that change the block alone -/

theorem goes_on {s : State} {b b' : Block} {p : State → Prop} (e : b = b') (h : p (s.on b')) :
    Goes (.next (s.on b)) p := ⟨_, congrArg (fun b => Host.Outcome.next (s.on b)) e, h⟩

theorem next_on {s : State} {b b' : Block} (e : b = b') :
    (.next (s.on b) : Host.Outcome State Fault Refusal) = .next (s.on b') := by rw [e]

/-! ### Readiness and reads (02 R43, R48, R52) -/

theorem dictReady_count (b : Block) : dictReady (count b 0x1402 5) = dictReady b := by
  unfold dictReady
  rw [rd_count_other _ (by decide)]

section
variable {b : Block} {acc : Access} {idx sub : Nat}

theorem opWrite_notReady (ha : awake b) (hd : dictReady b = false) (size : Nat) (v : Word) :
    opWrite b acc idx sub size v = answer (count b 0x1402 5) acc .busy := by
  simp [opWrite, hd, busAccess_awake ha, dictReady_count]

theorem opRead_notReady (ha : awake b) (hd : dictReady b = false) (hr : readyRead (count b 0x1402 5) idx sub = false)
    (size : Nat) : opRead b acc idx sub size = answer (count b 0x1402 5) acc .busy := by
  simp [opRead, busAccess_awake ha, dictReady_count, hd, hr]

theorem opRead_ready (ha : awake b) (hd : dictReady b = true) {size : Nat}
    (hf : firstChecks (count b 0x1402 5) acc idx sub false = none) (hs : sizeOf4 size = some (objType idx sub).size) :
    opRead b acc idx sub size
      = respond (count b 0x1402 5) acc 0 .ok (readValue (count b 0x1402 5) (roleOf acc.path) idx sub) none := by
  simp [opRead, busAccess_awake ha, dictReady_count, hd, hf, hs]

theorem opReserved_ready (ha : awake b) (hd : dictReady b = true) {op : Nat} (h7 : 7 ≤ op) (h16 : op < 16)
    (ht : roleOf acc.path = .tnt → pathPid (count b 0x1402 5) acc.path ≠ 0)
    (ho : firstChecks (count b 0x1402 5) acc idx sub false ≠ some .noobj)
    (hs : firstChecks (count b 0x1402 5) acc idx sub false ≠ some .nosub) :
    opReserved b acc idx sub op = answer (count b 0x1402 5) acc .type := by
  have code : (op < 7 || 16 ≤ op : Bool) = false := by simp; omega
  have tenant : (roleOf acc.path == .tnt && pathPid (count b 0x1402 5) acc.path == 0) = false := by
    rw [Bool.and_eq_false_iff]
    by_cases h : roleOf acc.path = .tnt
    · exact .inr (by simpa using ht h)
    · exact .inl (by simpa using h)
  simp only [opReserved, code, busAccess_awake ha, dictReady_count, hd, Bool.not_true, Bool.and_assoc, tenant, Bool.and_false,
    Bool.false_eq_true, if_false]

/-- A command whose caller, argument and states pass gets no further than the first of BUSY, CONFLICT and RESOURCE. -/
theorem command_checked {arg : Nat} {fails : Block → CmdFails} {run : Block → Block} (ha : awake b) (hd : dictReady b = true)
    {c : Code} (hc : firstFail (count b 0x1402 5) idx sub { fails (count b 0x1402 5) with
      state := (fails (count b 0x1402 5)).state || fencedTnt (count b 0x1402 5) acc } = some c) :
    command b acc idx sub arg fails run = answer (count b 0x1402 5) acc c := by
  simp [command, busAccess_awake ha, dictReady_count, hd, hc]

end

/-- Settles O18: each code is the first check that fails. -/
theorem responseCodesFollowReadinessAndTheQueue : Obligations.ResponseCodesFollowReadinessAndTheQueue := by
  refine ⟨fun s acc idx sub size v ha hd => ⟨?_, fun hr => ?_⟩, ?_⟩
  · exact next_on (opWrite_notReady ha hd size v)
  · exact next_on (opRead_notReady ha hd hr size)
  · intro b acc idx sub arg fails run ha hd f hr hg hs ht
    refine ⟨fun busy key => command_checked ha hd ?_, fun nb nc nr full => command_checked ha hd ?_⟩
    · have pending : resultState (count b 0x1402 5) idx sub = 1 := by
        rw [resultState, rd_count_other _ key]
        exact busy
      simp only [f] at hr hg hs
      simp [firstFail, hr, hg, hs, ht, pending]
    · have full' : 256 ≤ (count b 0x1402 5).dict.cmds.length := full
      simp only [f] at hr hg hs nb nc
      simp [firstFail, hr, hg, hs, ht, nb, nc, nr, full']

/-- Settles O15: reads and the reserved codes, from their checks. -/
theorem readsAnswerTheObjectsValue : Obligations.ReadsAnswerTheObjectsValue := by
  intro s acc idx sub ha hd b
  refine ⟨fun size hf hs => ?_, fun op h7 h16 ht ho hs => ?_⟩
  · exact next_on (opRead_ready ha hd hf hs)
  · exact next_on (opReserved_ready ha hd h7 h16 ht ho hs)

end Sys2Proof.Machine
end

section
/-! SUPPORT. BLOB transfers: one lemma per operation (O19). -/

namespace Sys2Proof.Machine

@[simp] theorem respond_dict_cmdSeq (b : Block) (acc : Access) (n : Nat) (c : Code) (d : Nat) (g : Option Nat) :
    (respond b acc n c d g).dict.cmdSeq = b.dict.cmdSeq := by
  unfold respond
  cases acc.path <;> rfl

theorem acceptCmd_cmdSeq (b : Block) (acc : Access) (i j a : Nat) :
    (acceptCmd b acc i j a).dict.cmdSeq = (b.dict.cmdSeq + 1) % 65536 :=
  respond_dict_cmdSeq ..

theorem rd_acceptCmd_self (b : Block) (acc : Access) (i j a : Nat) : rd (acceptCmd b acc i j a) i (j + 0x80)
    = resultWord ((b.dict.cmdSeq + 1) % 65536) 1 Code.pending.num 0 := by
  rw [acceptCmd, rd_respond]
  exact (rd_wr_self ..).trans (resultWord_mod _ 1 .pending 0 (by decide))

/-! ### BLOB transfers (02 R57-R60) -/

@[simp] theorem xfer_setXfer_self (b : Block) (idx sub : Nat) (t : Option Transfer) : xfer (setXfer b idx sub t) idx sub = t := by
  cases t <;> simp [xfer, setXfer]

/-- What a transfer does not change. -/
theorem firstChecks_setXfer (b : Block) (acc : Access) (idx sub : Nat) (t : Option Transfer) (w : Bool) :
    firstChecks (setXfer b idx sub t) acc idx sub w = firstChecks b acc idx sub w := by
  rfl

theorem count_setXfer (b : Block) (i j idx sub : Nat) (t : Option Transfer) :
    count (setXfer b idx sub t) i j = setXfer (count b i j) idx sub t := rfl

@[simp] theorem respond_dict_xfers (b : Block) (acc : Access) (n : Nat) (c : Code) (d : Nat) (g : Option Nat) :
    (respond b acc n c d g).dict.xfers = b.dict.xfers := by
  unfold respond
  cases acc.path <;> rfl

@[simp] theorem respond_dict_blobs (b : Block) (acc : Access) (n : Nat) (c : Code) (d : Nat) (g : Option Nat) :
    (respond b acc n c d g).dict.blobs = b.dict.blobs := by
  unfold respond
  cases acc.path <;> rfl

theorem xfer_congr {b b' : Block} (h : b.dict.xfers = b'.dict.xfers) (idx sub : Nat) : xfer b idx sub = xfer b' idx sub := by
  simp [xfer, h]

@[simp] theorem xfer_answer (b : Block) (acc : Access) (c : Code) (idx sub : Nat) : xfer (answer b acc c) idx sub = xfer b idx sub :=
  xfer_congr (respond_dict_xfers ..) idx sub

section
variable {b : Block} {acc : Access} {idx sub : Nat} {x : Transfer}

theorem blobOp_taken {write : Bool} (h : blobTaken b acc idx sub write) (f : Block → Block) :
    blobOp b acc idx sub write f = f (count b 0x1402 5) := by
  obtain ⟨ha, hd, hf, ht, -⟩ := h
  simp [blobOp, busAccess_awake ha, dictReady_count, hd, hf, ht]

/-- The owner's operation marks the transfer's time, and is done. -/
theorem blobOwned_mine (h : blobTaken b acc idx sub true) (hx : blobMine (count b 0x1402 5) acc idx sub x)
    {range : Transfer → Bool} (hr : range { x with last := b.clk.now } = false) (f : Block → Transfer → Block) :
    blobOwned b acc idx sub range f
      = f (setXfer (count b 0x1402 5) idx sub (some { x with last := b.clk.now })) { x with last := b.clk.now } := by
  obtain ⟨hx, hv, ho⟩ := hx
  have hx' : xfer b idx sub = some x := hx
  have owner : (x.owner == ownerOf b acc.path) = true := beq_iff_eq.2 ho
  have touched : touchXfer b acc idx sub = setXfer b idx sub (some { x with last := b.clk.now }) := by
    simp only [touchXfer, hx', owner, if_true]
  have taken : blobTaken (setXfer b idx sub (some { x with last := b.clk.now })) acc idx sub true := h
  have notFenced : fencedTnt (setXfer (count b 0x1402 5) idx sub (some { x with last := b.clk.now })) acc = false :=
    h.2.2.2.2 rfl
  have mine : ({ x with last := b.clk.now } : Transfer).validating = none
      ∧ ({ x with last := b.clk.now } : Transfer).owner = ownerOf (count b 0x1402 5) acc.path := ⟨hv, ho⟩
  rw [blobOwned, touched, blobOp_taken taken, count_setXfer]
  generalize ({ x with last := b.clk.now } : Transfer) = y at *
  have owned : (y.validating.isNone && y.owner == ownerOf (setXfer (count b 0x1402 5) idx sub (some y)) acc.path) = true := by
    rw [mine.1, mine.2]
    exact beq_self_eq_true _
  simp only [xfer_setXfer_self, owned, hr, notFenced, Bool.and_false, Bool.not_true, Bool.false_eq_true, if_false]

theorem blobBegin_opens {r : ObjRow} (h : blobTaken b acc idx sub true) (hr : objRow idx sub = some r)
    (hx : xfer b idx sub = none) {n : Nat} (h1 : 1 ≤ n) (h2 : n ≤ r.dflt) : blobBegin b acc idx sub n
      = answer (setXfer (count b 0x1402 5) idx sub (some ⟨ownerOf b acc.path, acc, n, 0, 0, b.clk.now, none⟩)) acc .ok := by
  have hx' : xfer (count b 0x1402 5) idx sub = none := hx
  have len : (n = 0 || r.dflt < n : Bool) = false := by simp; omega
  rw [blobBegin, blobOp_taken h]
  simp only [hx', hr, Option.map_some, Option.getD_some, len, h.2.2.2.2 rfl, Bool.false_and, Bool.false_eq_true, if_false]
  rfl

theorem blobSeg_taken (h : blobTaken b acc idx sub true) (hx : blobMine (count b 0x1402 5) acc idx sub x) {data : Bytes}
    (hn : x.nextSeg < segments x.len) (hd : data.val < 2 ^ (8 * min 256 (x.len - 256 * x.nextSeg))) :
    blobSeg b acc idx sub x.nextSeg data = answer (setXfer (setXfer (count b 0x1402 5) idx sub (some { x with last := b.clk.now }))
      idx sub (some { x with nextSeg := x.nextSeg + 1, content := x.content + (data.val <<< (2048 * x.nextSeg)), last := b.clk.now }))
      acc .ok := by
  have lt : data.val < 2 ^ 2048 := Nat.lt_of_lt_of_le hd (Nat.pow_le_pow_right (by decide) (by omega))
  have padding : (x.len - 256 * x.nextSeg < 256 && data.val >>> (8 * (x.len - 256 * x.nextSeg)) ≠ 0 : Bool) = false := by
    rw [Bool.and_eq_false_iff]
    by_cases short : x.len - 256 * x.nextSeg < 256
    · rw [Nat.min_eq_right (by omega)] at hd
      exact .inr (by simp [Nat.shiftRight_eq_div_pow, Nat.div_eq_of_lt hd])
    · exact .inl (by simpa using short)
  rw [blobSeg, blobOwned_mine h hx]
  · rw [Nat.mod_eq_of_lt lt]
  · rw [Nat.mod_eq_of_lt lt]
    simp only [segBad, padding]
    simpa using hn

theorem blobEnd_commits (h : blobTaken b acc idx sub true) (hx : blobMine (count b 0x1402 5) acc idx sub x)
    (hn : segments x.len ≤ x.nextSeg) (hv : validates idx sub = false) : blobEnd b acc idx sub
      = answer (setXfer (blobCommit (setXfer (count b 0x1402 5) idx sub (some { x with last := b.clk.now })) idx sub
        ⟨x.len, x.content⟩) idx sub none) acc .ok := by
  rw [blobEnd, blobOwned_mine h hx rfl]
  simp [Nat.not_lt.2 hn, hv]

theorem blobEnd_validates (h : blobTaken b acc idx sub true) (hx : blobMine (count b 0x1402 5) acc idx sub x)
    (hn : segments x.len ≤ x.nextSeg) (hv : validates idx sub = true) (hc : b.dict.cmds.length < 256) :
    blobEnd b acc idx sub = setXfer (acceptCmd (setXfer (count b 0x1402 5) idx sub (some { x with last := b.clk.now })) acc idx sub 0)
      idx sub (some { x with last := b.clk.now, validating := some ((b.dict.cmdSeq + 1) % 65536) }) := by
  have room : ¬ 256 ≤ (setXfer (count b 0x1402 5) idx sub (some { x with last := b.clk.now })).dict.cmds.length :=
    Nat.not_le.2 hc
  rw [blobEnd, blobOwned_mine h hx rfl]
  simp only [Nat.not_lt.2 hn, hv, if_false, Bool.not_true, Bool.false_eq_true, room]
  rw [acceptCmd_cmdSeq]
  rfl

theorem blobAbort_drops (h : blobTaken b acc idx sub true) (hx : blobMine (count b 0x1402 5) acc idx sub x) : blobAbort b acc idx sub
      = answer (setXfer (setXfer (count b 0x1402 5) idx sub (some { x with last := b.clk.now })) idx sub none) acc .ok := by
  rw [blobAbort, blobOwned_mine h hx rfl]

theorem blobRead_segment {n : Nat} (h : blobTaken b acc idx sub false)
    (hn : n < segments (blobContent (count b 0x1402 5) idx sub).len) : blobRead b acc idx sub n
      = respond (count b 0x1402 5) acc 0 .ok (blobContent (count b 0x1402 5) idx sub).len
        (some (slice (blobContent (count b 0x1402 5) idx sub).val (256 * n)
          (min 256 ((blobContent (count b 0x1402 5) idx sub).len - 256 * n)))) := by
  rw [blobRead, blobOp_taken h]
  simp [Nat.not_le.2 hn]

theorem blobAbandon_drops (hx : xfer b idx sub = some x) (hv : x.validating = none) (he : elapsed b x.last (micros 100000) = true) :
    blobAbandon b idx sub = count (setXfer b idx sub none) 0x1402 6 := by
  simp [blobAbandon, hx, hv, he]

theorem validationDone_of (hx : xfer b idx sub = some x) (hv : x.validating ≠ none)
    (hp : progNumber idx sub = none ∨ b.cru.valid.contains (progKey (idx % 256) sub) = false) : validationDone b idx sub
      = match blobFault b idx sub ⟨x.len, x.content⟩ with
        | some off => validated (if (progNumber idx sub).isSome then count b 0x6010 5 else b) idx sub .range off
        | none => if (progNumber idx sub).isSome then loadProgram b (idx % 256) sub ⟨x.len, x.content⟩
          else validated (blobCommit b idx sub ⟨x.len, x.content⟩) idx sub .ok 0 := by
  have due : (x.validating.isNone || b.cru.valid.contains (progKey (idx % 256) sub) && (progNumber idx sub).isSome) = false := by
    rw [Bool.or_eq_false_iff, Bool.and_eq_false_iff]
    exact ⟨by simpa [Option.isSome_iff_ne_none] using hv, hp.symm.imp id fun h => by simp [h]⟩
  rw [validationDone, hx]
  simp only [due, Bool.false_eq_true, if_false] <;> rfl

theorem programMadeCurrent_of {pid n : Nat} (hc : b.cru.valid.contains (progKey pid n) = true)
    (hp : (progNumber (0x6200 + pid) n).isSome = true) (hx : xfer b (0x6200 + pid) n = some x) (hl : n ≤ progLimit b pid)
    (hf : placeFree b pid n = true) : programMadeCurrent b pid n
      = validated (makeCurrent b pid n ⟨x.len, x.content⟩) (0x6200 + pid) n .ok 0 := by
  simp only [programMadeCurrent, hp, hx, hc, Bool.not_true, Bool.or_self, Bool.false_eq_true, if_false, loadProgram, hf,
    Nat.not_lt.2 hl, if_true]

end

theorem exec_blobValidationDone (idx sub : Nat) (s : State) :
    exec (.blobValidationDone idx sub) s = .next (s.on (validationDone s.dev idx sub)) := rfl

/-- Settles O19: one lemma per operation on a transfer. -/
theorem blobTransfersOpenFillAndClose : Obligations.BlobTransfersOpenFillAndClose := by
  refine ⟨?_, ?_, ?_, ?_, ?_⟩
  · intro s acc idx sub n r h hr hx h1 h2
    exact goes_on (blobBegin_opens h hr hx h1 h2) ((xfer_answer ..).trans (xfer_setXfer_self ..))
  · intro s acc idx sub x h hx
    refine ⟨fun data hn hd => ?_, fun hn hv => ?_, fun hn hv hc _ => ?_, ?_⟩
    · exact goes_on (blobSeg_taken h hx hn hd) ((xfer_answer ..).trans (xfer_setXfer_self ..))
    · exact next_on (blobEnd_commits h hx hn hv)
    · exact goes_on (blobEnd_validates h hx hn hv hc) ⟨rd_acceptCmd_self .., xfer_setXfer_self ..⟩
    · exact goes_on (blobAbort_drops h hx) ⟨(xfer_answer ..).trans (xfer_setXfer_self ..), respond_dict_blobs ..⟩
  · intro s acc idx sub n h c hn
    exact next_on (blobRead_segment h hn)
  · intro s idx sub x hx
    refine ⟨fun hv he => next_on (blobAbandon_drops hx hv he), fun hv => ⟨fun hp hf => ?_, fun off hp hf => ?_, fun pid _ _ hp hc => ?_⟩⟩
    · rw [exec_blobValidationDone, validationDone_of hx hv (.inl hp), hf]
      simp only [hp, Option.isSome_none, Bool.false_eq_true, if_false]
    · rw [exec_blobValidationDone, validationDone_of hx hv (.inl hp), hf]
      simp only [hp, Option.isSome_none, Bool.false_eq_true, if_false]
    · rw [exec_blobValidationDone, validationDone_of hx hv (.inr hc)]
      simp only [hp, Option.isSome_some, if_true] <;> rfl
  · intro s pid n x hc hp hx hl hf
    exact next_on (programMadeCurrent_of hc hp hx hl hf)

end Sys2Proof.Machine
end

section
/-! SUPPORT. Commands of the Partition Table; the ADD_* commands stage into a descriptor (O24). -/

namespace Sys2Proof.Machine

@[simp] theorem emitRec_dict (b : Block) (kind pid index : Nat) (sync : Bool) (body : Bytes) :
    (emitRec b kind pid index sync body).dict = b.dict := by
  unfold emitRec
  simp [apply_ite Block.dict]

@[simp] theorem mirrorNote_dict (b : Block) (kind pid index : Nat) (body : Bytes) :
    (mirrorNote b kind pid index body).dict = b.dict := by
  unfold mirrorNote
  simp [apply_ite Block.dict]

@[simp] theorem notePart_dict (b : Block) (pid : Nat) : (notePart b pid).dict = b.dict := by unfold notePart; simp

@[simp] theorem keepForWindow_dict (b : Block) (p : Nat) : (keepForWindow b p).dict = b.dict := by
  unfold keepForWindow
  simp [apply_ite Block.dict]

@[simp] theorem emitRec_ptb (b : Block) (kind pid index : Nat) (sync : Bool) (body : Bytes) :
    (emitRec b kind pid index sync body).ptb = b.ptb := by
  unfold emitRec
  simp [apply_ite Block.ptb]

@[simp] theorem mirrorNote_ptb (b : Block) (kind pid index : Nat) (body : Bytes) :
    (mirrorNote b kind pid index body).ptb = b.ptb := by
  unfold mirrorNote
  simp [apply_ite Block.ptb]

@[simp] theorem notePart_ptb (b : Block) (pid : Nat) : (notePart b pid).ptb = b.ptb := by unfold notePart; simp

@[simp] theorem keepForWindow_ptb (b : Block) (p : Nat) : (keepForWindow b p).ptb = b.ptb := by
  unfold keepForWindow
  simp [apply_ite Block.ptb]

/-! ### Commands of the Partition Table -/

/-- A command of the Partition Table that finishes at once, once it is taken. -/
theorem partCommandNow_taken {b : Block} {acc : Access} {pid sub arg : Nat} {fails : Block → CmdFails}
    {run : Block → Block × Code × Nat} (hp : isPid pid) (h : canTake b (0x2100 + pid) sub) (hi : noInjection b)
    (hs : sub < 0x80) (ha : byHost acc) (hf : fails (count b 0x1402 5) = noFails) :
    partCommandNow b acc 0x2100 pid sub arg fails run
      = finishCmd (run (accepted b acc (0x2100 + pid) sub arg)).1 (0x2100 + pid) sub
        (run (accepted b acc (0x2100 + pid) sub arg)).2.1 (run (accepted b acc (0x2100 + pid) sub arg)).2.2 :=
  tableCommand_taken hp h hi hs (fencedTnt_host (byHost_notTnt ha)) hf

section
variable {s : State} {acc : Access} {pid sub arg : Nat} {f : Part → Part} {detail : Part → Nat} {live range : Bool}

/-- The block once an ADD_* command of a partition that is BUILDING has run. -/
def stagedBlock (b : Block) (acc : Access) (pid sub arg : Nat) (p : Part) (d : Nat) : Block :=
  finishCmd (setPart (accepted b acc (0x2100 + pid) sub arg) pid p) (0x2100 + pid) sub .ok d

theorem addCmd_building (h : mayStage s.dev acc pid sub) (hs : sub < 0x80) (hr : range = false)
    (hf : (f (part s.dev pid)).st = (part s.dev pid).st) : addCmd s.dev acc pid sub arg live range f detail
      = stagedBlock s.dev acc pid sub arg (f (part s.dev pid)) (detail (f (part s.dev pid))) := by
  obtain ⟨ha, hp, ht, hi, hb, hl, hc⟩ := h
  have notLive : isLive (accepted s.dev acc (0x2100 + pid) sub arg) pid = false := by simp [isLive, hb]
  have notLive' : isLive (setPart (accepted s.dev acc (0x2100 + pid) sub arg) pid (f (part s.dev pid))) pid = false := by
    simp [isLive, part_setPart_self, hf, hb]
  have commit : resultState (count s.dev 0x1402 5) (0x2100 + pid) 0x10 ≠ 1 := by
    rw [resultState, rd_count_other _ (partKey_ne (by decide) rfl)]
    exact hc
  have unlocked : tdispLocked (count s.dev 0x1402 5) pid = false := hl
  rw [addCmd, partCommandNow_taken hp ht hi hs ha]
  · simp only [notLive, part_accepted, notLive', part_setPart_self, stagedBlock, Bool.false_eq_true, if_false]
  · simp [noFails, byHost_notHostFw ha, hr, hb, unlocked, commit]

/-- The objects of an accepted command that finishes: its result and the count of accesses apart, they keep their values. -/
theorem rd_finished_other {b b' : Block} {i j k l : Nat} (hb : b'.dict.objs = (accepted b acc i j arg).dict.objs) (c : Code)
    (d : Nat) (h : objKey k l ≠ objKey i (j + 0x80)) (h' : objKey k l ≠ objKey 0x1402 5) :
    rd (finishCmd b' i j c d) k l = rd b k l := by
  rw [rd_finishCmd_other _ _ _ h, rd_congr hb, rd_accepted_other h h']

theorem staged_stagedBlock (ht : canTake s.dev (0x2100 + pid) sub) (p : Part) (d : Nat) :
    staged s (s.on (stagedBlock s.dev acc pid sub arg p d)) pid sub p d := by
  have dict : (setPart (accepted s.dev acc (0x2100 + pid) sub arg) pid p).dict
      = (accepted s.dev acc (0x2100 + pid) sub arg).dict := rfl
  refine ⟨?_, finishes_finishCmd (acc := acc) (a := arg) ht (congrArg (·.cmds) dict) .ok d, fun q hq => ?_,
    fun k l h h' => rd_finished_other (acc := acc) (arg := arg) (congrArg (·.objs) dict) .ok d h h', ?_⟩
  · simp [State.on, stagedBlock, part_setPart_self]
  · simp [State.on, stagedBlock, part_setPart_other _ _ hq]
  · simp [onlyManaged, State.on, stagedBlock]

/-- An ADD_* command stages. -/
theorem addCmd_staged (h : mayStage s.dev acc pid sub) (hs : sub < 0x80) (hr : range = false) {p : Part} {d : Nat}
    (hf : f (part s.dev pid) = p) (hd : detail p = d) (hst : p.st = (part s.dev pid).st) :
    staged s (s.on (addCmd s.dev acc pid sub arg live range f detail)) pid sub p d := by
  subst hf hd
  rw [addCmd_building h hs hr hst]
  exact staged_stagedBlock h.2.2.1 _ _

/-- ADD_SCHED and ADD_ENERGY of a LIVE partition. -/
theorem addCmd_live (ha : byHost acc) (hp : isPid pid) (ht : canTake s.dev (0x2100 + pid) sub) (hi : noInjection s.dev)
    (hl : (part s.dev pid).st = .live) (hc : resultState s.dev (0x2100 + pid) 0x10 ≠ 1) (hs : sub < 0x80) (hr : range = false)
    {p : Part} (hf : f (part s.dev pid) = p) (hst : p.st = (part s.dev pid).st) :
    let t := s.on (addCmd s.dev acc pid sub arg true range f noDetail)
    part t.dev pid = p ∧ finishes s t (0x2100 + pid) sub .ok 0 ∧ (∀ x, x ≠ pid → part t.dev x = part s.dev x) ∧ memSame s t := by
  subst hf
  have isLive' : isLive (accepted s.dev acc (0x2100 + pid) sub arg) pid = true := by simp [isLive, hl]
  let kept := keepForWindow (accepted s.dev acc (0x2100 + pid) sub arg) pid
  have keptPart (q : Nat) : part kept q = part s.dev q :=
    (part_congr (congrArg (·.parts) (keepForWindow_ptb ..)) q).trans (part_accepted q)
  have live' : isLive (setPart kept pid (f (part s.dev pid))) pid = true := by simp [isLive, part_setPart_self, hst, hl]
  have commit : resultState (count s.dev 0x1402 5) (0x2100 + pid) 0x10 ≠ 1 := by
    rw [resultState, rd_count_other _ (partKey_ne (by decide) rfl)]
    exact hc
  have e : addCmd s.dev acc pid sub arg true range f noDetail
      = finishCmd (notePart (setPart kept pid (f (part s.dev pid))) pid) (0x2100 + pid) sub .ok 0 := by
    rw [addCmd, partCommandNow_taken hp ht hi hs ha]
    · simp only [isLive', if_true]
      rw [show keepForWindow (accepted s.dev acc (0x2100 + pid) sub arg) pid = kept from rfl]
      simp only [keptPart, live', if_true, noDetail]
    · simp [noFails, byHost_notHostFw ha, hr, hl, commit]
  have notePart' (q : Nat) : part (notePart (setPart kept pid (f (part s.dev pid))) pid) q
      = part (setPart kept pid (f (part s.dev pid))) q := part_congr (congrArg (·.parts) (notePart_ptb ..)) q
  simp only [e]
  refine ⟨?_, finishes_finishCmd (acc := acc) (a := arg) ht ?_ .ok 0, fun q hq => ?_, memSame_of_mem ?_⟩
  · rw [State.on, part_finishCmd, notePart', part_setPart_self]
  · simp [kept]
  · rw [State.on, part_finishCmd, notePart', part_setPart_other _ _ hq, keptPart]
  · simp [State.on, kept]
end

/-! ### Arguments -/

theorem mem_bitList {n w i : Nat} (h : i ∈ bitList n w) : n.testBit i = true :=
  (List.mem_filter.1 h).2

theorem zeroBits_of_lt {n lo w k : Nat} (h : n < 2 ^ k) (hk : k ≤ lo) : zeroBits n lo w = true := by
  have z : n / 2 ^ lo = 0 := Nat.div_eq_of_lt (Nat.lt_of_lt_of_le h (Nat.pow_le_pow_right (by decide) hk))
  simp [zeroBits, bits_eq, z]

/-- The two halves of an argument. -/
theorem pair_halves {v : Word} {lo hi : Nat} (h : v = BitVec.ofNat 64 (lo + (hi <<< 32))) (hl : lo < 2 ^ 32) (hh : hi < 2 ^ 32) :
    v.toNat = lo + hi * 2 ^ 32 := by
  rw [h, BitVec.toNat_ofNat, Nat.shiftLeft_eq]
  omega

theorem bits_pair {n lo hi : Nat} (h : n = lo + hi * 2 ^ 32) (hl : lo < 2 ^ 32) (hh : hi < 2 ^ 32) :
    bits n 0 32 = lo ∧ bits n 32 32 = hi := by
  simp only [bits_eq]
  omega

theorem addGranules_staged {s : State} {acc : Access} {pid n first many : Nat} (h : mayStage s.dev acc pid 4)
    (hn : n = first + many * 2 ^ 32) (h1 : 1 ≤ many) (h2 : many ≤ 2048) (hf : first < 2048)
    (hg : ∀ i, i < many → granuleExists s.dev (first + i) = true) {q : Part}
    (hq : q = { part s.dev pid with granules := (part s.dev pid).granules ||| runMask first many }) :
    staged s (s.on (addGranules s.dev acc pid n)) pid 4 q (popCount q.granules 2048) := by
  have count : bits n 32 16 = many := by rw [bits_eq]; omega
  have base : bits n 0 11 = first := by rw [bits_eq]; omega
  have zero : zeroBits n 48 16 = true ∧ zeroBits n 11 21 = true := by simp only [zeroBits, bits_eq, beq_iff_eq]; omega
  have exist : ((List.range many).any fun i => !granuleExists s.dev (first + i)) = false :=
    List.any_eq_false.2 fun i hi => by simp [hg i (List.mem_range.1 hi)]
  have legal : (!zeroBits n 48 16 || !zeroBits n 11 21 || many == 0 || decide (2048 < many)
      || (List.range many).any fun i => !granuleExists s.dev (first + i)) = false := by
    simp [zero, exist, show many ≠ 0 by omega, h2]
  unfold addGranules
  rw [count, base]
  exact addCmd_staged (detail := fun p => popCount p.granules 2048) h (by decide) legal hq.symm (Eq.refl _) (by rw [hq])

/-- Settles O24: every command is `addCmd` with a range check that its argument passes. -/
theorem stagingCommandsFillTheDescriptor : Obligations.StagingCommandsFillTheDescriptor := by
  intro s acc pid v p n live retuned
  have tune {sub : Nat} (hl : live sub) (hs : sub < 0x80) {range : Bool} (hr : range = false) {f : Part → Part} {q : Part} (hf : f p = q) (hq : q.st = p.st) :
      retuned (s.on (addCmd s.dev acc pid sub n true range f noDetail)) sub q := by
    obtain ⟨ha, hp, ht, hi, hst, hc⟩ := hl
    exact addCmd_live ha hp ht hi hst hc hs hr hf hq
  have engines {base : Nat} (he : ∀ i, n.testBit i = true → esPresent s.dev (i + base) = true) :
      ((bitList n 64).any fun i => !esPresent s.dev (i + base)) = false :=
    List.any_eq_false.2 fun i hi => by simp [he i (mem_bitList hi)]
  refine ⟨fun h he => ?_, fun h he => ?_, fun h first many hv h1 h2 hf hg => ?_, fun h hn => ?_, fun base many hv hb hm => ?_,
    fun hn hq hc => ?_, fun hn => ?_, fun h se link dom hd hn => ?_, fun h h1 h2 => ?_⟩
  · exact ⟨_, rfl, addCmd_staged h (by decide) (engines (base := 0) he) rfl rfl rfl⟩
  · exact ⟨_, rfl, addCmd_staged h (by decide) (engines (base := 64) he) rfl rfl rfl⟩
  · exact ⟨_, rfl, addGranules_staged h (pair_halves hv (by omega) (by omega)) h1 h2 hf hg rfl⟩
  · exact ⟨_, rfl, addCmd_staged h (by decide) (decide_eq_false (by omega)) rfl rfl rfl⟩
  · have e : n = base + many * 2 ^ 32 := pair_halves hv hb hm
    obtain ⟨lo, hi⟩ := bits_pair e hb hm
    have range {top : Nat} (ht : base + many ≤ top) : badRange n top = false :=
      decide_eq_false (by rw [lo, hi]; omega)
    refine ⟨fun h ht => ⟨_, rfl, addCmd_staged h (by decide) (range ht) ?_ rfl rfl⟩,
      fun h ht => ⟨_, rfl, addCmd_staged h (by decide) (range ht) ?_ rfl rfl⟩,
      fun h ht => ⟨_, rfl, addCmd_staged h (by decide) (range ht) ?_ rfl rfl⟩⟩
    · change ({ p with qpBase := bits n 0 32, qpCount := bits n 32 32 } : Part) = _
      rw [lo, hi]
    · change ({ p with keyBase := bits n 0 32, keyCount := bits n 32 32 } : Part) = _
      rw [lo, hi]
    · change ({ p with chanBase := bits n 0 32, chanCount := bits n 32 32 } : Part) = _
      rw [lo, hi]
  · have high : zeroBits n 32 32 = true := zeroBits_of_lt hn (by decide)
    have weight : bits n 0 16 ≠ 0 := by simpa [bits_eq] using hq
    have range : (!zeroBits n 32 32 || bits n 0 16 == 0 || (bits n 24 8 != 0 && decide (bits n 24 8 < bits n 16 8))) = false := by
      rcases hc with c | c <;> simp [high, weight, c]
    exact ⟨fun h => ⟨_, rfl, addCmd_staged h (by decide) range rfl rfl rfl⟩, fun h => ⟨_, rfl, tune h (by decide) range rfl rfl⟩⟩
  · have range : (!zeroBits n 32 32) = false := by simp [zeroBits_of_lt hn (Nat.le_refl 32)]
    exact ⟨fun h => ⟨_, rfl, addCmd_staged h (by decide) range rfl rfl rfl⟩, fun h => ⟨_, rfl, tune h (by decide) range rfl rfl⟩⟩
  · have flag := ofBool_lt se
    have flag' := ofBool_lt link
    rw [Nat.shiftLeft_eq, Nat.shiftLeft_eq] at hn
    have fields : bits n 0 1 = ofBool se ∧ bits n 8 6 = dom ∧ bits n 24 1 = ofBool link := by simp only [bits_eq]; omega
    obtain ⟨f0, f8, f24⟩ := fields
    have zero : (!zeroBits n 25 39 || !zeroBits n 14 10 || !zeroBits n 1 7) = false := by
      have z : bits n 25 39 = 0 ∧ bits n 14 10 = 0 ∧ bits n 1 7 = 0 := by simp only [bits_eq]; omega
      simp [zeroBits, z]
    refine ⟨_, rfl, addCmd_staged h (by decide) zero ?_ rfl rfl⟩
    change ({ p with sealed := bitAt n 0, domain := bits n 8 6, hostLink := bitAt n 24 } : Part) = _
    rw [bitAt_eq, bitAt_eq, f0, f8, f24, ofBool_eq_one, ofBool_eq_one]
  · have range : (!zeroBits n 6 58 || n == 0) = false := by
      have some' : n ≠ 0 := by omega
      simp [zeroBits_of_lt (k := 6) h2 (Nat.le_refl 6), some']
    exact ⟨_, rfl, addCmd_staged h (by decide) range rfl rfl rfl⟩

end Sys2Proof.Machine
end

section
/-! SUPPORT. Partitions: CREATE, and COMMIT's two outcomes (O25). -/

namespace Sys2Proof.Machine

@[simp] theorem foldl_dict_cmds {α : Type} (f : Block → α → Block) (h : ∀ b a, (f b a).dict.cmds = b.dict.cmds) (l : List α) (b : Block) :
    (l.foldl f b).dict.cmds = b.dict.cmds := foldl_keeps (·.dict.cmds) f h l b

@[simp] theorem foldl_fst_dict_cmds {α β : Type} (f : Block × β → α → Block × β) (h : ∀ p a, (f p a).1.dict.cmds = p.1.dict.cmds) (l : List α)
    (p : Block × β) : (l.foldl f p).1.dict.cmds = p.1.dict.cmds := by
  induction l generalizing p with
  | nil => rfl
  | cons a l ih => rw [List.foldl_cons, ih, h]

@[simp] theorem wr_dict_cmds (b : Block) (idx sub v : Nat) : (wr b idx sub v).dict.cmds = b.dict.cmds := by
  unfold wr
  simp

@[simp] theorem chanterDefaults_dict_cmds (b : Block) (p : Nat) : (chanterDefaults b p).dict.cmds = b.dict.cmds := by
  unfold chanterDefaults
  grind [foldl_dict_cmds, foldl_fst_dict_cmds, wr_dict_cmds]

@[simp] theorem clearObjs_dict_cmds (b : Block) (idxs keep : List Nat) :
    (clearObjs b idxs keep).dict.cmds = b.dict.cmds := by
  unfold clearObjs
  simp

@[simp] theorem chanterDefaults_ptb (b : Block) (p : Nat) : (chanterDefaults b p).ptb = b.ptb := by
  unfold chanterDefaults
  simp

@[simp] theorem clearObjs_ptb (b : Block) (idxs keep : List Nat) : (clearObjs b idxs keep).ptb = b.ptb := by
  unfold clearObjs
  simp

@[simp] theorem foldl_ptb_owners {α : Type} (f : Block → α → Block) (h : ∀ b a, (f b a).ptb.owners = b.ptb.owners) (l : List α) (b : Block) :
    (l.foldl f b).ptb.owners = b.ptb.owners := foldl_keeps (·.ptb.owners) f h l b

@[simp] theorem foldl_fst_ptb_owners {α β : Type} (f : Block × β → α → Block × β) (h : ∀ p a, (f p a).1.ptb.owners = p.1.ptb.owners) (l : List α)
    (p : Block × β) : (l.foldl f p).1.ptb.owners = p.1.ptb.owners := by
  induction l generalizing p with
  | nil => rfl
  | cons a l ih => rw [List.foldl_cons, ih, h]

@[simp] theorem msixVia_ptb_owners (b : Block) (fn vec : Nat) (via : Via) (open' : Bool) :
    (msixVia b fn vec via open').ptb.owners = b.ptb.owners := by
  unfold msixVia
  grind [emit_ptb]

@[simp] theorem msix_ptb_owners (b : Block) (fn vec : Nat) : (msix b fn vec).ptb.owners = b.ptb.owners := by
  unfold msix
  simp

@[simp] theorem notifyDone_ptb_owners (b : Block) (acc : Access) (cmdSeq : Nat) (c : Code) (result : Nat) :
    (notifyDone b acc cmdSeq c result).ptb.owners = b.ptb.owners := by
  unfold notifyDone
  grind [sendRecord_ptb, !draw_ptb, msix_ptb_owners]

@[simp] theorem finishCmd_ptb_owners (b : Block) (idx sub : Nat) (c : Code) (detail : Nat) :
    (finishCmd b idx sub c detail).ptb.owners = b.ptb.owners := by
  unfold finishCmd
  (repeat' split) <;> simp

/-! ### CREATE (03 R81, R82) -/

theorem rd_lt (b : Block) (i j : Nat) : rd b i j < 2 ^ 64 := BitVec.isLt _

/-- CREATE's effect: everything the partition holds at its defaults. -/
def createEffect (b : Block) (pid : Nat) : Block :=
  let b := clearObjs b [0x2200 + pid, 0x2400 + pid, 0x3100 + pid, 0x8100 + pid] [objKey (0x2200 + pid) 0x10]
  let b := wr (wr b (0x7100 + pid) 1 0) (0x7100 + pid) 7 0xFF
  let b := setPart b pid { freePart with st := .building, ctxs := (part b pid).ctxs }
  chanterDefaults b pid

@[simp] theorem createEffect_cmds (b : Block) (pid : Nat) : (createEffect b pid).dict.cmds = b.dict.cmds := by
  simp [createEffect]

@[simp] theorem createEffect_mem (b : Block) (pid : Nat) : (createEffect b pid).mem = b.mem := by
  simp [createEffect]

theorem part_createEffect_self (b : Block) (pid : Nat) :
    part (createEffect b pid) pid = { freePart with st := .building, ctxs := (part b pid).ctxs } := by
  rw [createEffect, part_congr (congrArg (·.parts) (chanterDefaults_ptb ..)), part_setPart_self]
  rfl

theorem part_createEffect_other (b : Block) {pid q : Nat} (h : q ≠ pid) : part (createEffect b pid) q = part b q := by
  rw [createEffect, part_congr (congrArg (·.parts) (chanterDefaults_ptb ..)), part_setPart_other _ _ h]
  exact part_congr rfl q

section
variable {s : State} {acc : Access} {pid : Nat} (ha : byHost acc) (hp : isPid pid) (hi : noInjection s.dev)
include ha hp hi

theorem create_makes (ht : canTake s.dev (0x2100 + pid) 1) (hf : (part s.dev pid).st = .free) (hr : rd s.dev 0xC000 1 = 8) :
    create s.dev acc pid 0 = finishCmd (createEffect (accepted s.dev acc (0x2100 + pid) 1 0) pid) (0x2100 + pid) 1 .ok 0 := by
  have run : running (count s.dev 0x1402 5) = true := by
    rw [running, rd_count_other _ (by decide), hr]; rfl
  rw [create, partCommandNow_taken hp ht hi (by decide) ha]
  · rfl
  · simp [noFails, byHost_notHostFw ha, hf, run]

/-! ### COMMIT (03 R88-R90) -/

theorem partitionCommit_runs (ht : canTake s.dev (0x2100 + pid) 0x10) (hb : (part s.dev pid).st = .building) :
    partitionCommit s.dev acc pid 0 = finishCmd (commitRun (accepted s.dev acc (0x2100 + pid) 0x10 0) pid).1 (0x2100 + pid) 0x10
      (commitRun (accepted s.dev acc (0x2100 + pid) 0x10 0) pid).2.1
      (commitRun (accepted s.dev acc (0x2100 + pid) 0x10 0) pid).2.2 := by
  rw [partitionCommit, partCommandNow_taken hp ht hi (by decide) ha]
  simp [noFails, byHost_notHostFw ha, hb]

end

/-- The checks of Table 3-3 read the partition table alone. -/
theorem commitFault_congr {b b' : Block} (h : b.ptb = b'.ptb) (pid : Nat) : commitFault b pid = commitFault b' pid := by
  have parts : part b = part b' := funext fun q => part_congr (congrArg (·.parts) h) q
  have owners : owner b = owner b' := funext fun g => by rw [owner, owner, h]
  unfold commitFault rangeClash others
  rw [parts, owners, h]

theorem foldl_setOwner (l : List Nat) (e : OwnerEntry) (b : Block) (g : Nat) :
    owner (l.foldl (fun b g => setOwner b g e) b) g = if g ∈ l then e else owner b g := by
  induction l generalizing b with
  | nil => simp
  | cons a l ih =>
    rw [List.foldl_cons, ih]
    rcases Decidable.em (g = a) with rfl | ne
    · simp
    · simp [ne, owner_setOwner_other _ _ ne]

/-- The staged granules are the partition's and in use. -/
def granulesTaken (b : Block) (pid : Nat) (p : Part) : Block :=
  (bitList p.granules 2048).foldl (fun b g => setOwner b g ⟨pid, p.sealed, .inUse⟩) b

theorem granulesTaken_keeps {β : Type} (k : Block → β) (h : ∀ b g e, k (setOwner b g e) = k b) (b : Block) (pid : Nat) (p : Part) :
    k (granulesTaken b pid p) = k b :=
  foldl_keeps k _ (fun b g => h b g _) _ b

theorem owner_granulesTaken (b : Block) (pid : Nat) (p : Part) {g : Nat} (hg : g < 2048) :
    owner (granulesTaken b pid p) g = if p.granules.testBit g then ⟨pid, p.sealed, .inUse⟩ else owner b g := by
  have mem : g ∈ bitList p.granules 2048 ↔ p.granules.testBit g = true := by simp [bitList, hg]
  rw [granulesTaken, foldl_setOwner]
  simp only [mem]

/-- What R90 claims, before the partner learns of it. -/
def claimed (b : Block) (pid : Nat) : Block :=
  let p := part b pid
  let b := setPart (granulesTaken b pid p) pid { p with st := .live }
  if p.sealed && (spillRange b pid).2 ≠ 0 then wr b (0x7100 + pid) 2 1 else b

theorem owner_congr {b b' : Block} (h : b.ptb.owners = b'.ptb.owners) (g : Nat) : owner b g = owner b' g := by
  rw [owner, owner, h]

theorem owner_setPart (b : Block) (pid : Nat) (p : Part) (g : Nat) : owner (setPart b pid p) g = owner b g := rfl

theorem claim_eq (b : Block) (pid : Nat) : claim b pid = notePart (claimed b pid) pid := rfl

theorem claimed_keeps {β : Type} (k : Block → β) (hw : ∀ b i j v, k (wr b i j v) = k b) (b : Block) (pid : Nat) :
    k (claimed b pid) = k (setPart (granulesTaken b pid (part b pid)) pid { part b pid with st := .live }) := by
  unfold claimed
  dsimp only
  split
  · exact hw ..
  · rfl

theorem part_claim_self (b : Block) (pid : Nat) : part (claim b pid) pid = { part b pid with st := .live } := by
  rw [claim_eq, part_congr (congrArg (·.parts) (notePart_ptb ..))]
  exact (claimed_keeps (part · pid) (fun _ _ _ _ => rfl) b pid).trans (part_setPart_self ..)

theorem part_claim_other (b : Block) {pid q : Nat} (h : q ≠ pid) : part (claim b pid) q = part b q := by
  rw [claim_eq, part_congr (congrArg (·.parts) (notePart_ptb ..))]
  exact (claimed_keeps (part · q) (fun _ _ _ _ => rfl) b pid).trans
    ((part_setPart_other _ _ h).trans (granulesTaken_keeps (part · q) (fun _ _ _ => rfl) b pid _))

theorem owner_claim (b : Block) (pid : Nat) {g : Nat} (hg : g < 2048) : owner (claim b pid) g
    = if (part b pid).granules.testBit g then ⟨pid, (part b pid).sealed, .inUse⟩ else owner b g := by
  have e : owner (claim b pid) g = owner (claimed b pid) g :=
    owner_congr (congrArg (·.owners) (notePart_ptb ..)) g
  have e' := claimed_keeps (owner · g) (fun _ _ _ _ => rfl) b pid
  dsimp only at e'
  rw [e, e', owner_setPart, owner_granulesTaken _ _ _ hg]

theorem claim_cmds (b : Block) (pid : Nat) : (claim b pid).dict.cmds = b.dict.cmds := by
  have e := claimed_keeps (·.dict.cmds) (fun _ _ _ _ => rfl) b pid
  have e' := granulesTaken_keeps (·.dict.cmds) (fun _ _ _ => rfl) b pid (part b pid)
  dsimp only at e e'
  rw [claim_eq, notePart_dict, e, setPart_dict, e']

/-- What a COMMIT that fails a check writes. -/
def commitRefused (b : Block) (pid : Nat) (c : Code) (i : Nat) : Block :=
  if c = .conflict then count (wr b (0x2200 + pid) 0x11 i) 0x2000 6 else wr b (0x2200 + pid) 0x11 i

theorem commitRefused_keeps {β : Type} (k : Block → β) (hw : ∀ b i j v, k (wr b i j v) = k b) (b : Block) (pid : Nat) (c : Code)
    (i : Nat) : k (commitRefused b pid c i) = k b := by
  unfold commitRefused
  split
  · exact (hw ..).trans (hw ..)
  · exact hw ..

theorem rd_commitRefused (b : Block) {pid : Nat} (hp : isPid pid) (c : Code) (i : Nat) :
    rd (commitRefused b pid c i) (0x2200 + pid) 0x11 = i % 2 ^ 64
      ∧ rd (commitRefused b pid c i) 0x2000 6 = (rd b 0x2000 6 + if c = .conflict then 1 else 0) % 2 ^ 64 := by
  obtain ⟨_, _⟩ := hp
  have other : objKey 0x2000 6 ≠ objKey (0x2200 + pid) 0x11 := by simp only [objKey]; omega
  unfold commitRefused
  split
  · exact ⟨by rw [rd_count_other _ other.symm, rd_wr_self], by rw [rd_count_self, rd_wr_other _ _ other]⟩
  · exact ⟨rd_wr_self .., by rw [rd_wr_other _ _ other, Nat.add_zero, Nat.mod_eq_of_lt (rd_lt ..)]⟩

theorem commitRun_claims {b : Block} {pid : Nat} (h : commitFault b pid = none) : commitRun b pid = (claim b pid, .ok, 0) := by
  simp [commitRun, h]

theorem commitRun_fails {b : Block} {pid kind other i : Nat} {c : Code} (h : commitFault b pid = some (kind, c, other, i)) :
    commitRun b pid = (commitRefused b pid c i, c, (kind <<< 20) + (other <<< 14)) := by
  simp [commitRun, h, commitRefused]

/-- Settles O25: what CREATE and the two outcomes of COMMIT leave. -/
theorem partitionsAreCreatedAndCommitted : Obligations.PartitionsAreCreatedAndCommitted := by
  intro s acc pid ha hp hi p o
  refine ⟨fun ht hf hr => goes_on (create_makes ha hp hi ht hf hr) ⟨?_, finishes_finishCmd ht (createEffect_cmds ..) _ _,
    fun q hq => ?_, memSame_of_mem ?_⟩, fun ht hb => ⟨fun hn => ?_, fun kind c other i hk => ?_⟩⟩
  · rw [State.on, part_finishCmd, part_createEffect_self, part_accepted]
  · rw [State.on, part_finishCmd, part_createEffect_other _ hq, part_accepted]
  · simp [State.on]
  · have none : commitFault (accepted s.dev acc o 0x10 0) pid = none := (commitFault_congr (accepted_ptb ..) pid).trans hn
    have e := partitionCommit_runs ha hp hi ht hb
    rw [commitRun_claims none] at e
    refine goes_on e ⟨?_, finishes_finishCmd ht (claim_cmds ..) _ _, fun q hq => ?_, memSame_of_mem ?_, fun g hg => ?_⟩
    · rw [State.on, part_finishCmd, part_claim_self, part_accepted]
    · rw [State.on, part_finishCmd, part_claim_other _ hq, part_accepted]
    · simp [State.on]
    · have same : owner (accepted s.dev acc o 0x10 0) g = owner s.dev g :=
        owner_congr (congrArg (·.owners) (accepted_ptb ..)) g
      rw [State.on, owner_congr (finishCmd_ptb_owners ..), owner_claim _ _ hg, same, part_accepted]
  · have fails : commitFault (accepted s.dev acc o 0x10 0) pid = some (kind, c, other, i) :=
      (commitFault_congr (accepted_ptb ..) pid).trans hk
    have e := partitionCommit_runs ha hp hi ht hb
    rw [commitRun_fails fails] at e
    obtain ⟨index, conflicts⟩ := rd_commitRefused (accepted s.dev acc o 0x10 0) hp c i
    have here : objKey (0x2200 + pid) 0x11 ≠ objKey o (0x10 + 0x80) := by simp only [objKey, o]; omega
    have there : objKey 0x2000 6 ≠ objKey o (0x10 + 0x80) := by simp only [objKey, o]; omega
    refine goes_on e ⟨finishes_finishCmd ht (commitRefused_keeps (·.dict.cmds) (fun _ _ _ _ => rfl) ..) _ _, ?_, ?_, fun q => ?_,
      fun g => ?_, ?_⟩
    · rw [State.on, rd_finishCmd_other _ _ _ here, index]
    · rw [State.on, rd_finishCmd_other _ _ _ there, conflicts, rd_accepted_other there (by decide)]
    · rw [State.on, part_finishCmd]
      exact (commitRefused_keeps (part · q) (fun _ _ _ _ => rfl) ..).trans (part_accepted q)
    · rw [State.on, owner_congr (finishCmd_ptb_owners ..)]
      exact (commitRefused_keeps (owner · g) (fun _ _ _ _ => rfl) ..).trans (owner_congr (congrArg (·.owners) (accepted_ptb ..)) g)
    · simp only [onlyManaged, State.on, commitRefused]
      split <;> simp

end Sys2Proof.Machine
end

section
/-! SUPPORT. The root and invalidation commands of translation (O29). -/

namespace Sys2Proof.Machine

/-! ### What an invalidation leaves (04 R142) -/

/-- The buffers without the covered entries. -/
def dropEntries (b : Block) (c : Cover) : Block :=
  { b with hub := { b.hub with
      shared := b.hub.shared.filter fun e => !c.entry e
      esTlb := (b.hub.esTlb.map fun e => (e.1, e.2.filter fun e => !c.entry e)).filter fun e => !e.2.isEmpty } }

theorem invalidate_eq (b : Block) (c : Cover) :
    invalidate b c = (((dropEntries b c).hub.walks.filter c.walk).foldl restartWalk (dropEntries b c), tilesOf b c) := rfl

theorem invalidate_noWalk {b : Block} (h : b.hub.walks = []) (c : Cover) : invalidate b c = (dropEntries b c, tilesOf b c) := by
  have none : (dropEntries b c).hub.walks = [] := h
  rw [invalidate_eq, none]
  rfl

theorem dropEntries_shared (b : Block) (c : Cover) : ∀ e ∈ (dropEntries b c).hub.shared, c.entry e = false := by
  simp [dropEntries]

theorem dropEntries_esTlb (b : Block) (c : Cover) : ∀ k ∈ (dropEntries b c).hub.esTlb, ∀ e ∈ k.2, c.entry e = false := by
  intro k hk e he
  simp only [dropEntries, List.mem_filter, List.mem_map] at hk
  obtain ⟨⟨k', -, rfl⟩, -⟩ := hk
  simpa using (List.mem_filter.1 he).2

/-- With no walk under way and no tile to wait for, the command finishes in the step that invalidates for it. -/
theorem invalidateFor_quiet {b : Block} {idx sub : Nat} {c : Cover} (hw : b.hub.walks = []) (hi : b.hub.invCmds = [])
    (ht : tilesOf b c = []) (hs : sub < 256) (undo : Option (Nat × Nat × Option Nat)) :
    invalidateFor b idx sub undo c = finishCmd (dropEntries b c) idx sub .ok 0 := by
  have key : objKey idx sub / 256 = idx ∧ objKey idx sub % 256 = sub := by simp only [objKey]; omega
  have kept : ({ dropEntries b c with hub := { (dropEntries b c).hub with invCmds := [] } } : Block) = dropEntries b c := by
    rw [dropEntries, ← hi]
  have cmds : (dropEntries b c).hub.invCmds = [] := hi
  rw [invalidateFor, invalidate_noWalk hw, ht]
  unfold pumpInv
  simp [cmds, key, kept]

theorem retryEnded_noWalk {b0 : Block} (h : b0.hub.walks = []) (b : Block) : retryEnded b0 b = b := by
  rw [retryEnded, h]
  rfl

/-- The tiles to wait for depend on what the requesters hold. -/
theorem tilesOf_congr {b b' : Block} (c : Cover) (ht : b.tags = b'.tags) (hc : b.cha = b'.cha) (hl : b.ladle = b'.ladle)
    (hq : b.tpe = b'.tpe) (hg : b.cru = b'.cru) : tilesOf b c = tilesOf b' c := by
  unfold tilesOf piecesOut
  rw [ht, hc, hl, hq, hg]

/-! ### The root commands (04 R137, R138, R145) -/

section
variable {s : State} {acc : Access} {pid : Nat} {n : Nat} (hp : isPid pid)
include hp

theorem s2RootSet_taken (ha : byHost acc) (ht : canTake s.dev (0x3100 + pid) 1)
    (hst : (part s.dev pid).st = .building ∨ (part s.dev pid).st = .live) (hz : zeroBits n 44 19 = true)
    (hr : bitAt n 63 = true → isRemote s.dev (bits n 0 44 <<< 12) = false ∧ regionOf (bits n 0 44 <<< 12) = .aperture) :
    s2RootSet s.dev acc pid n = retryEnded s.dev (invalidateFor (wr (accepted s.dev acc (0x3100 + pid) 1 n) (0x3100 + pid) 4
      (if bitAt n 63 then n else 0)) (0x3100 + pid) 1 none ⟨.partition, pid, 0, 0, 0⟩) := by
  have place : (bitAt n 63 && (isRemote (count s.dev 0x1402 5) (bits n 0 44 <<< 12) || regionOf (bits n 0 44 <<< 12) != .aperture))
      = false := by
    have remote (pa : Nat) : isRemote (count s.dev 0x1402 5) pa = isRemote s.dev pa := by
      simp only [isRemote, chipId, rd_count_other s.dev (show objKey 0x1000 3 ≠ objKey 0x1402 5 by decide)]
      rfl
    cases h : bitAt n 63
    · rfl
    · simp [remote, hr h]
  have state : ((part (count s.dev 0x1402 5) pid).st != .building && (part (count s.dev 0x1402 5) pid).st != .live) = false := by
    rcases hst with h | h <;> simp [h]
  rw [s2RootSet, partCommand_taken hp (by decide) ht (fencedTnt_host (byHost_notTnt ha))]
  · rfl
  · simp only [byHost_notHostFw ha, hz, place, state]
    rfl

theorem s1RootSet_taken (ha : mayCommand s.dev acc pid) (ht : canTake s.dev (0x3100 + pid) 2) (hl : isLive s.dev pid = true)
    (hc : ctxOpen s.dev pid (n % 1024) = true) (hz : zeroBits n 46 17 = true) :
    s1RootSet s.dev acc pid n = retryEnded s.dev (invalidateFor (setRoot1 (accepted s.dev acc (0x3100 + pid) 2 n) pid (n % 1024)
      (if bitAt n 63 then some (bits n 10 36) else none)) (0x3100 + pid) 2
      (some (pid, n % 1024, find? (part s.dev pid).s1Roots (n % 1024))) ⟨.s1Context, pid, n % 1024, 0, 0⟩) := by
  have cx : bits n 0 10 = n % 1024 := by simp [bits_eq]
  have live : isLive (count s.dev 0x1402 5) pid = true := hl
  have opened : ctxOpen (count s.dev 0x1402 5) pid (n % 1024) = true := hc
  rw [s1RootSet, partCommand_taken hp (by decide) ht (mayCommand_fence ha), cx]
  · rw [← accepted, part_accepted]
  · rw [cx, notHostTntFw_count, mayCommand_rights hp ha, hz, live, opened]
    rfl

theorem s1Invalidate_taken (ha : mayCommand s.dev acc pid) (ht : canTake s.dev (0x3100 + pid) 3) (hl : isLive s.dev pid = true)
    (hc : ctxOpen s.dev pid (n % 1024) = true) (hz : zeroBits n 12 13 = true) (hs : bits n 10 2 = 1 ∨ bits n 10 2 = 2) :
    s1Invalidate s.dev acc pid n = retryEnded s.dev (invalidateFor (accepted s.dev acc (0x3100 + pid) 3 n) (0x3100 + pid) 3 none
      ⟨if bits n 10 2 = 1 then .s1Range else .s1Context, pid, n % 1024, bits n 25 27, bits n 52 12 + 1⟩) := by
  have cx : bits n 0 10 = n % 1024 := by simp [bits_eq]
  have live : isLive (count s.dev 0x1402 5) pid = true := hl
  have opened : ctxOpen (count s.dev 0x1402 5) pid (n % 1024) = true := hc
  have scope : (bits n 10 2 != 1 && bits n 10 2 != 2) = false := by rcases hs with h | h <;> simp [h]
  rw [s1Invalidate, partCommand_taken hp (by decide) ht (mayCommand_fence ha), cx]
  · rfl
  · rw [cx, notHostTntFw_count, mayCommand_rights hp ha, hz, live, opened, scope]
    rfl
end

/-- Does no buffered translation that the invalidation covers remain? -/
def coveredGone (b : Block) (c : Cover) : Prop :=
  (∀ e ∈ b.hub.shared, c.entry e = false) ∧ ∀ k ∈ b.hub.esTlb, ∀ e ∈ k.2, c.entry e = false

/-- What a root or invalidation command leaves when no walk runs and no tile is in flight. -/
theorem retryEnded_invalidateFor_quiet {b0 b : Block} {idx sub : Nat} {c : Cover} (hw : b0.hub.walks = [])
    (hi : b0.hub.invCmds = []) (ht : tilesOf b c = []) (hb : b.hub = b0.hub) (hs : sub < 256)
    (undo : Option (Nat × Nat × Option Nat)) :
    retryEnded b0 (invalidateFor b idx sub undo c) = finishCmd (dropEntries b c) idx sub .ok 0 := by
  rw [retryEnded_noWalk hw, invalidateFor_quiet (hb ▸ hw) (hb ▸ hi) ht hs]

theorem coveredGone_finished (b : Block) (c : Cover) (idx sub : Nat) : coveredGone (finishCmd (dropEntries b c) idx sub .ok 0) c := by
  rw [coveredGone, finishCmd_hub]
  exact ⟨dropEntries_shared b c, dropEntries_esTlb b c⟩

theorem find?_part_setRoot1 (b : Block) {pid : Nat} (hp : isPid pid) (cx : Nat) (root : Option Nat) :
    find? (part (setRoot1 b pid cx root) pid).s1Roots cx = root
    ∧ (∀ x, x ≠ cx → find? (part (setRoot1 b pid cx root) pid).s1Roots x = find? (part b pid).s1Roots x)
    ∧ ∀ q, q ≠ pid → part (setRoot1 b pid cx root) q = part b q := by
  refine ⟨?_, fun x hx => ?_, fun q hq => part_setPart_other b _ hq⟩
  · cases root <;> simp [setRoot1]
  · cases root
    · simpa [setRoot1] using find?_erase_other _ hx
    · simpa [setRoot1] using find?_insert_other _ _ hx

section
variable {s : State} {b : Block} {acc : Access} {pid j n : Nat} {c : Cover} (ht : canTake s.dev (0x3100 + pid) j)
include ht

/-- The outcome of a root or invalidation command with nothing to wait for, whatever root it has set. -/
theorem finishes_dropEntries (hb : b.dict.cmds = (accepted s.dev acc (0x3100 + pid) j n).dict.cmds) (hm : b.mem = s.dev.mem) :
    let t := s.on (finishCmd (dropEntries b c) (0x3100 + pid) j .ok 0)
    coveredGone t.dev c ∧ finishes s t (0x3100 + pid) j .ok 0 ∧ memSame s t :=
  ⟨coveredGone_finished .., finishes_finishCmd (b := dropEntries b c) ht hb .ok 0,
    memSame_of_mem (by rw [State.on, finishCmd_mem]; exact hm)⟩
end

theorem part_finished (b : Block) (c : Cover) (i j q : Nat) : part (finishCmd (dropEntries b c) i j .ok 0) q = part b q :=
  part_finishCmd ..

/-- Settles O29: the three commands share what their invalidation leaves (`retryEnded_invalidateFor_quiet`). -/
theorem rootsAreSetAndContextsInvalidated : Obligations.RootsAreSetAndContextsInvalidated := by
  unfold Obligations.RootsAreSetAndContextsInvalidated
  intro s acc pid v hp
  refine ⟨fun ha ht hst hz hr => ?_, fun ha ht hl hc hz => ?_, fun ha ht hl hc hz hs => ?_⟩
  · have run := s2RootSet_taken hp ha ht hst hz hr
    refine ⟨next_on run, fun ⟨hw, hi, tiles⟩ => ?_⟩
    have left := retryEnded_invalidateFor_quiet (b := wr (accepted s.dev acc (0x3100 + pid) 1 v.toNat) (0x3100 + pid) 4
      (if bitAt v.toNat 63 then v.toNat else 0)) (idx := 0x3100 + pid) (sub := 1) hw hi
      (c := ⟨.partition, pid, 0, 0, 0⟩) ((tilesOf_congr _ (by simp) (by simp) (by simp) (by simp) (by simp)).trans tiles)
      (by simp) (by decide) none
    refine goes_on (run.trans left) ?_
    obtain ⟨gone, fin, mem⟩ := finishes_dropEntries (b := wr (accepted s.dev acc (0x3100 + pid) 1 v.toNat) (0x3100 + pid) 4
      (if bitAt v.toNat 63 then v.toNat else 0)) (c := ⟨.partition, pid, 0, 0, 0⟩) (acc := acc) (n := v.toNat) ht (Eq.refl _)
      (by simp)
    refine ⟨?_, gone, fin, mem, fun q => (part_finished ..).trans (part_accepted q)⟩
    rw [State.on, rd_finishCmd_other _ _ _ (by simp only [objKey]; omega)]
    exact (rd_wr_self ..).trans (Nat.mod_eq_of_lt (by split <;> omega))
  · have run := s1RootSet_taken hp ha ht hl hc hz
    refine ⟨next_on run, fun ⟨hw, hi, tiles⟩ => ?_⟩
    have left := retryEnded_invalidateFor_quiet (b := setRoot1 (accepted s.dev acc (0x3100 + pid) 2 v.toNat) pid (v.toNat % 1024)
      (if bitAt v.toNat 63 then some (bits v.toNat 10 36) else none)) (idx := 0x3100 + pid) (sub := 2) hw hi
      (c := ⟨.s1Context, pid, v.toNat % 1024, 0, 0⟩)
      ((tilesOf_congr _ (by simp [setRoot1]) (by simp [setRoot1]) (by simp [setRoot1]) (by simp [setRoot1]) (by simp [setRoot1])).trans tiles)
      (by simp [setRoot1]) (by decide) (some (pid, v.toNat % 1024, find? (part s.dev pid).s1Roots (v.toNat % 1024)))
    refine goes_on (run.trans left) ?_
    obtain ⟨gone, fin, mem⟩ := finishes_dropEntries (b := setRoot1 (accepted s.dev acc (0x3100 + pid) 2 v.toNat) pid
      (v.toNat % 1024) (if bitAt v.toNat 63 then some (bits v.toNat 10 36) else none))
      (c := ⟨.s1Context, pid, v.toNat % 1024, 0, 0⟩) (acc := acc) (n := v.toNat) ht (Eq.refl _) (by simp [setRoot1])
    obtain ⟨root, otherRoots, otherParts⟩ := find?_part_setRoot1 (accepted s.dev acc (0x3100 + pid) 2 v.toNat) hp
      (v.toNat % 1024) (if bitAt v.toNat 63 then some (bits v.toNat 10 36) else none)
    simp only [part_accepted] at otherRoots otherParts
    refine ⟨?_, gone, fin, mem, fun x hx => ?_, fun q hq => (part_finished ..).trans (otherParts q hq)⟩
    · rw [State.on, part_finished, root]
    · rw [State.on, part_finished, otherRoots x hx]
  · have run := s1Invalidate_taken hp ha ht hl hc hz hs
    refine ⟨next_on run, fun ⟨hw, hi, tiles⟩ => ?_⟩
    have left := retryEnded_invalidateFor_quiet (b := accepted s.dev acc (0x3100 + pid) 3 v.toNat) (idx := 0x3100 + pid)
      (sub := 3) hw hi (c := ⟨if bits v.toNat 10 2 = 1 then .s1Range else .s1Context, pid, v.toNat % 1024, bits v.toNat 25 27,
        bits v.toNat 52 12 + 1⟩)
      ((tilesOf_congr _ (by simp) (by simp) (by simp) (by simp) (by simp)).trans tiles) (by simp) (by decide) none
    refine goes_on (run.trans left) ?_
    obtain ⟨gone, fin, mem⟩ := finishes_dropEntries (b := accepted s.dev acc (0x3100 + pid) 3 v.toNat)
      (c := ⟨if bits v.toNat 10 2 = 1 then .s1Range else .s1Context, pid, v.toNat % 1024, bits v.toNat 25 27,
        bits v.toNat 52 12 + 1⟩) (acc := acc) (n := v.toNat) ht (Eq.refl _) (by simp)
    exact ⟨gone, fin, mem, fun q => (part_finished ..).trans (part_accepted q)⟩

end Sys2Proof.Machine
end

section
/-! SUPPORT. The invalidation window (O30). -/

namespace Sys2Proof.Machine

/-! ### The slots of the invalidation window (04 R139-R143) -/

@[simp] theorem invSlot_setInv_self (b : Block) (i : Nat) (x : InvSlot) : invSlot (setInv b i x) i = x := by
  simp [invSlot, setInv]

theorem invSlot_setInv_other (b : Block) {i k : Nat} (x : InvSlot) (h : k ≠ i) : invSlot (setInv b i x) k = invSlot b k := by
  simp [invSlot, setInv, h]

theorem invSlot_congr {b b' : Block} (h : b.hub = b'.hub) (k : Nat) : invSlot b k = invSlot b' k := by
  rw [invSlot, h, invSlot]

@[simp] theorem rd_setInv (b : Block) (i : Nat) (x : InvSlot) (j k : Nat) : rd (setInv b i x) j k = rd b j k := (rfl)

/-! ### Publishing the oldest record -/

/-- A slot after its oldest record has been published. -/
def published (x : InvSlot) (r : InvRec) : InvSlot := { x with queue := x.queue.drop 1, seq := r.seq, rejected := r.rejected }

section
variable (b : Block) (i : Nat) (r : InvRec)

theorem invPublish_eq : invPublish b i r = (let b' := count (setInv b i (published (invSlot b i) r)) 0x3000 9
    if rd b 0x3000 6 = 0 then b'
    else emit b' (.hostWrite (rd b 0x3000 6 + 8 * i) ⟨8, doneWord (published (invSlot b i) r)⟩ false plainVia)) := by
  have base (x : InvSlot) : rd (count (setInv b i x) 0x3000 9) 0x3000 6 = rd b 0x3000 6 :=
    rd_count_other _ (by decide)
  simp only [invPublish, base]
  rfl

@[simp] theorem invPublish_hub : (invPublish b i r).hub = (setInv b i (published (invSlot b i) r)).hub := by
  rw [invPublish_eq]; dsimp only; split <;> rfl

theorem rd_invPublish (j k : Nat) : rd (invPublish b i r) j k = rd (count b 0x3000 9) j k := by
  rw [invPublish_eq]; dsimp only; split <;> rfl

theorem invPublish_out : (invPublish b i r).out = b.out ++ (if rd b 0x3000 6 = 0 then [] else
    [.hostWrite (rd b 0x3000 6 + 8 * i) ⟨8, doneWord (published (invSlot b i) r)⟩ false plainVia]) := by
  rw [invPublish_eq]; dsimp only; split <;> simp [emit]

@[simp] theorem invSlot_invPublish_self : invSlot (invPublish b i r) i = published (invSlot b i) r :=
  (invSlot_congr (invPublish_hub b i r) i).trans (invSlot_setInv_self ..)

theorem invSlot_invPublish_other {k : Nat} (h : k ≠ i) : invSlot (invPublish b i r) k = invSlot b k :=
  (invSlot_congr (invPublish_hub b i r) k).trans (invSlot_setInv_other _ _ h)
end

/-- Nothing more is published where the oldest record is not rejected. -/
theorem invRejects_none {b : Block} {i : Nat} (h : ∀ q ∈ (invSlot b i).queue.head?, q.rejected = false) :
    ∀ fuel, invRejects b i fuel = b
  | 0 => rfl
  | fuel + 1 => by
    rw [invRejects]
    split
    · next r _ e => rw [if_neg (by simp [h r (by simp [e])])]
    · rfl

/-! ### A record's arrival -/

section
variable {s : State} {i r : Nat}

theorem invWrite_record {b : Block} (hi : i < 256) (h7 : bitAt (rd b 0xC000 2) 7 = true) :
    invWrite b i 0 ⟨16, r⟩ = invTake b i r := by
  rw [invWrite, if_neg (by simp [h7]; omega), if_pos (by simp)]

theorem exec_record (hi : i < 256) (ha : awake s.dev) (h7 : bitAt (rd s.dev 0xC000 2) 7 = true) :
    exec (.invalidationRecord i 0 ⟨16, r⟩) s = .next (s.on (invTake s.dev i r)) :=
  next_on ((wakeEvent_awake ha ..).trans (invWrite_record hi h7))

theorem invTake_legal {b : Block} (hr : (invSlot b i).queue.length < 16) {c : Cover} (hc : recCover r = some c) :
    invTake b i r = retryEnded b (setInv (invalidate b c).1 i
      { invSlot b i with queue := (invSlot b i).queue ++ [⟨bits r 96 32, false, (invalidate b c).2⟩] }) := by
  simp only [invTake, if_neg (Nat.not_le.2 hr), hc]

theorem invTake_full {b : Block} (hr : 16 ≤ (invSlot b i).queue.length) :
    invTake b i r = count (setInv b i { invSlot b i with overflow := true }) 0x3000 0x0B := by
  simp only [invTake, if_pos hr]

theorem invTake_illegal {b : Block} (hr : (invSlot b i).queue = []) (hc : recCover r = none) :
    let x := invSlot b i
    invTake b i r = invPublish (count (setInv b i { x with queue := [⟨bits r 96 32, true, []⟩] }) 0x3000 0x0A) i
      ⟨bits r 96 32, true, []⟩ := by
  intro x
  have queued (y : InvSlot) : invSlot (count (setInv b i y) 0x3000 0x0A) i = y := invSlot_setInv_self ..
  simp only [invTake, hr, hc, List.length_nil, List.nil_append, Nat.reduceLeDiff, if_false]
  rw [invRejects, queued]
  simp only [if_true]
  refine invRejects_none ?_ 15
  rw [invSlot_invPublish_self, queued]
  simp [published]
end

/-- Settles O30: by the equations of a record's arrival and of its publication. -/
theorem invalidationRecordsAreTakenPublishedAndCleared : Obligations.InvalidationRecordsAreTakenPublishedAndCleared := by
  unfold Obligations.InvalidationRecordsAreTakenPublishedAndCleared
  intro s slot hs
  refine ⟨fun ha h7 r => ⟨fun hl c hc => ?_, fun he hc => ?_, fun hl => ?_⟩, fun r rest hq hw hh => ?_, fun v ha hv => ?_⟩
  · rw [exec_record hs ha h7, invTake_legal hl hc]
  · refine ⟨_, exec_record hs ha h7, ?_⟩
    rw [State.on, invTake_illegal he hc]
    refine ⟨?_, ?_, memSame_of_mem (by simp)⟩
    · rw [invSlot_invPublish_self, invSlot_congr (count_hub ..), invSlot_setInv_self]
      rfl
    · rw [rd_invPublish, rd_count_other _ (by decide), rd_count_self, rd_setInv]
  · rw [exec_record hs ha h7, invTake_full hl]
  · have waits : r.waitOn.any (tileOut s.dev) = false := by simpa using hw
    have next : published (invSlot s.dev slot) r = { invSlot s.dev slot with queue := rest, seq := r.seq, rejected := r.rejected } := by
      rw [published, hq, List.drop_one, List.tail_cons]
    have run : invComplete s.dev slot = invPublish s.dev slot r := by
      simp only [invComplete, hq, waits]
      refine invRejects_none ?_ 16
      rw [invSlot_invPublish_self, next]
      exact hh
    refine goes_on run ⟨?_, fun k hk => ?_, ?_, ?_, memSame_of_mem (by simp [State.on])⟩
    · rw [State.on, invSlot_invPublish_self, next]
    · exact invSlot_invPublish_other _ _ _ hk
    · rw [State.on, rd_invPublish, rd_count_self]
    · rw [State.on, invPublish_out, next]
  · have run : doneClear s.dev slot 8 v.toNat = setInv s.dev slot { invSlot s.dev slot with overflow := false } := by
      simp [doneClear, hs, hv]
    refine goes_on ((wakeEvent_awake ha ..).trans run) ⟨?_, fun k hk => ?_, rfl⟩
    · exact invSlot_setInv_self ..
    · exact invSlot_setInv_other _ _ hk

end Sys2Proof.Machine
end

section
/-! SUPPORT. The halt of a Ladle channel (O33). -/

namespace Sys2Proof.Machine

/-! ### The first failing burst (05 R167) -/

/-- The burst kept while the flights are looked through for the failing one of the lowest number. -/
def earlierFailed (m : Option Burst) (u : Burst) : Option Burst :=
  if burstFailed u && (match m with
    | none => true
    | some v => u.num < v.num) then some u else m

/-- Is `v` no later than every failing burst of the list? -/
def firstOf (m : Option Burst) (l : List Burst) : Prop :=
  ∀ u ∈ l, burstFailed u = true → ∃ v, m = some v ∧ v.num ≤ u.num

theorem earlierFailed_spec (m : Option Burst) (u : Burst) :
    (∀ v, m = some v → ∃ w, earlierFailed m u = some w ∧ w.num ≤ v.num)
    ∧ (burstFailed u = true → ∃ w, earlierFailed m u = some w ∧ w.num ≤ u.num) := by
  cases hf : burstFailed u <;> cases m with
  | none => simp [earlierFailed, hf]
  | some v =>
    by_cases hl : u.num < v.num
    · simp [earlierFailed, hf, hl]; try omega
    · simp [earlierFailed, hf, hl]; try omega

theorem foldl_earlierFailed (l : List Burst) : ∀ m : Option Burst,
    (∀ v, m = some v → ∃ w, l.foldl earlierFailed m = some w ∧ w.num ≤ v.num) ∧ firstOf (l.foldl earlierFailed m) l := by
  induction l with
  | nil => exact fun m => ⟨fun v h => ⟨v, h, Nat.le_refl _⟩, fun u h => absurd h List.not_mem_nil⟩
  | cons a l ih =>
    intro m
    obtain ⟨kept, first⟩ := ih (earlierFailed m a)
    obtain ⟨lower, taken⟩ := earlierFailed_spec m a
    refine ⟨fun v hv => ?_, fun u hu hf => ?_⟩
    · obtain ⟨w, hw, le⟩ := lower v hv
      obtain ⟨w', hw', le'⟩ := kept w hw
      exact ⟨w', hw', Nat.le_trans le' le⟩
    · rcases List.mem_cons.1 hu with rfl | hu
      · obtain ⟨w, hw, le⟩ := taken hf
        obtain ⟨w', hw', le'⟩ := kept w hw
        exact ⟨w', hw', Nat.le_trans le' le⟩
      · exact first u hu hf

theorem firstFailed_le {x : Chan} {u v : Burst} (hu : u ∈ x.flights) (hv : firstFailed x = some v)
    (hf : burstFailed u = true) : v.num ≤ u.num := by
  obtain ⟨w, hw, le⟩ := (foldl_earlierFailed x.flights none).2 u hu hf
  have e : firstFailed x = some w := hw
  rw [hv] at e
  exact Option.some.inj e ▸ le

/-! ### The halt -/

/-- A halted channel. -/
def halted (x : Chan) (kind burst : Nat) : Chan :=
  { x with st := .halted, phase := .rest, flights := [], io := [], haltKind := kind, haltBurst := burst, stop := none
           rejected := x.rejected && kind == 4 }

/-- The registers of a channel's halt written and the halt counted. -/
def haltRegs (b : Block) (c kind va : Nat) (st : Status) (write : Bool) : Block :=
  count (wr (wr b (chanIndex c) 9 va) (chanIndex c) 0x0A ((statusCode st <<< 24) + (ofBool write <<< 23) + (kind <<< 20)))
    (chanIndex c) 0x14

/-- The interrupt of a halt, which a pending ABORT keeps back. -/
def haltIrq (b : Block) (c : Nat) (irq : Bool) : Block :=
  if irq && (chan b c).abort.isNone then msixPart b (chanPid b c) (rd b (chanIndex c) 5) else b

@[simp] theorem haltIrq_ladle (b : Block) (c : Nat) (irq : Bool) : (haltIrq b c irq).ladle = b.ladle := by
  unfold haltIrq; split <;> simp
@[simp] theorem haltIrq_mem (b : Block) (c : Nat) (irq : Bool) : (haltIrq b c irq).mem = b.mem := by
  unfold haltIrq; split <;> simp
@[simp] theorem haltIrq_dict (b : Block) (c : Nat) (irq : Bool) : (haltIrq b c irq).dict = b.dict := by
  unfold haltIrq; split <;> simp

theorem chanHalt_eq (b : Block) (c kind burst va : Nat) (st : Status) (w irq : Bool) : chanHalt b c kind burst va st w irq =
    if chanFenced b c then b else
      let b := haltIrq (haltRegs b c kind va st w) c irq
      if (chan b c).offAfter then chanOff b c else setChan b c (halted (chan b c) kind burst) := rfl

section
variable {b : Block} {c : Nat} (hf : chanFenced b c = false) (ho : (chan b c).offAfter = false)
include hf ho

theorem chanHalt_stays (kind burst va : Nat) (st : Status) (w irq : Bool) :
    ∃ b', chanHalt b c kind burst va st w irq = setChan b' c (halted (chan b c) kind burst)
      ∧ b'.dict = (haltRegs b c kind va st w).dict ∧ b'.ladle = b.ladle ∧ b'.mem = b.mem := by
  have same : chan (haltIrq (haltRegs b c kind va st w) c irq) c = chan b c := by
    rw [chan, haltIrq_ladle]
    rfl
  refine ⟨haltIrq (haltRegs b c kind va st w) c irq, ?_, haltIrq_dict .., by simp [haltRegs], by simp [haltRegs]⟩
  rw [chanHalt_eq, if_neg (by simp [hf])]
  dsimp only
  rw [same, if_neg (by simp [ho])]
end

/-- A channel with no abort pending halts on a burst and does nothing more. -/
theorem haltOnBurst_noAbort {b : Block} {c : Nat} (hf : chanFenced b c = false) (ho : (chan b c).offAfter = false)
    (ha : (chan b c).abort = none) (kind burst va : Nat) (st : Status) (w : Bool) :
    haltOnBurst b c kind burst va st w = chanHalt b c kind burst va st w true := by
  obtain ⟨b', e, -, -, -⟩ := chanHalt_stays hf ho kind burst va st w true
  have none : (chan (chanHalt b c kind burst va st w true) c).abort = none := by simp [e, halted, ha]
  unfold haltOnBurst
  dsimp only
  rw [none]

/-- Settles O33. -/
theorem channelsHaltOnTheFirstFailedBurst : Obligations.ChannelsHaltOnTheFirstFailedBurst := by
  unfold Obligations.ChannelsHaltOnTheFirstFailedBurst
  intro s c
  refine ⟨fun u st w va hu hp hf hall ha ho hc => ?_, fun u v hu hv hf => firstFailed_le hu hv hf, fun h => ?_⟩
  · have run : chanHaltNow s.dev c = chanHalt s.dev c 0 u.num va st w true := by
      simp only [chanHaltNow, hu, hf, hall, hp]
      exact haltOnBurst_noAbort hf ho ha ..
    obtain ⟨b', e, dict, ladle, mem⟩ := chanHalt_stays hf ho 0 u.num va st w true
    have regs (i j : Nat) : rd (setChan b' c (halted (chan s.dev c) 0 u.num)) i j = rd (haltRegs s.dev c 0 va st w) i j := by
      simp [rd, dict]
    have info : (statusCode st <<< 24) + (ofBool w <<< 23) < 2 ^ 64 := by
      cases st <;> cases w <;> decide
    have other {j k : Nat} (h9 : objKey j k ≠ objKey (chanIndex c) 9) (hA : objKey j k ≠ objKey (chanIndex c) 0x0A)
        (h14 : objKey j k ≠ objKey (chanIndex c) 0x14) : rd (haltRegs s.dev c 0 va st w) j k = rd s.dev j k := by
      rw [haltRegs, rd_count_other _ h14, rd_wr_other _ _ hA, rd_wr_other _ _ h9]
    refine goes_on (run.trans e) ⟨?_, ?_, ?_, ?_, fun j k hj hk => ?_, ?_, ?_, fun d hd => ?_, memSame_of_mem mem⟩
    · simp [State.on, halted]
    all_goals rw [State.on]; dsimp only
    · rw [regs, haltRegs, rd_count_other _ (by simp [objKey]), rd_wr_other _ _ (by simp [objKey]), rd_wr_self]
    · rw [regs, haltRegs, rd_count_other _ (by simp [objKey]), rd_wr_self]
      simpa using Nat.mod_eq_of_lt info
    · rw [regs, haltRegs, rd_count_self, rd_wr_other _ _ (by simp [objKey]), rd_wr_other _ _ (by simp [objKey])]
    · rw [regs]
      exact other (by simp only [objKey]; omega) (by simp only [objKey]; omega) (by simp only [objKey]; omega)
    · rw [regs]
      exact other (by simp [objKey]) (by simp [objKey]) (by simp [objKey])
    · rw [regs]
      exact other (by simp [objKey]) (by simp [objKey]) (by simp [objKey])
    · rw [chan, setChan, look_store_other _ _ _ _ hd, ladle, chan]
  · refine next_on (s := s) (b := chanHaltNow s.dev c) (b' := s.dev) ?_
    unfold chanHaltNow
    dsimp only
    rcases h with h | h
    · rw [h]
    · split
      · rfl
      · rw [if_pos (by simp [h])]

end Sys2Proof.Machine
end

section
/-! SUPPORT. The checks of an arriving frame (O35). -/

namespace Sys2Proof.Machine

/-! ### The checks of an arriving frame (06 R197) -/

theorem rd_raiseFree_other (b : Block) {f u q i j : Nat} (h6 : objKey i j ≠ objKey (0x9200 + f) 6)
    (h7 : objKey i j ≠ objKey 0x9000 7) : rd (raiseFree b f u q) i j = rd b i j := by
  unfold raiseFree raise raiseEvent
  dsimp only
  split
  · rfl
  split
  · rfl
  · rw [rd_count_other _ h7, rd_count_other _ h6]
    rfl

section
variable {b : Block} {p : Nat} {f : Frame}

theorem receive_off (h : receives b p = false) : receive b p f = b := by
  rw [receive, if_pos (by simp [h])]

variable (h : receives b p = true)
include h

theorem receive_noType (hv : verdict b f = .noType) : receive b p f = count (countArrival b p f) (0x5100 + p) 0x0A := by
  rw [receive, if_neg (by simp [h])]
  dsimp only
  rw [hv]

theorem receive_noKey (hv : verdict b f = .noKey) : receive b p f = count (countArrival b p f) (0x5100 + p) 0x0B := by
  rw [receive, if_neg (by simp [h])]
  dsimp only
  rw [hv]

theorem receive_badSeal (hv : verdict b f = .badSeal) : receive b p f = secAlarm (sendSealNak
    (count (countArrival b p f) (0x5100 + p) 0x0B) p f.iv.toNat) 1 [] p 0 (uPP p) := by
  rw [receive, if_neg (by simp [h])]
  dsimp only
  rw [hv]

theorem receive_malformed {o : Bool} (hv : verdict b f = .malformed o) :
    receive b p f = raiseFree (count (counted b p f o) (0x5100 + p) 9) 10 (uPP p) 0 := by
  rw [receive, if_neg (by simp [h])]
  dsimp only
  rw [hv]
  rfl

theorem receive_packet {o : Bool} {k : Packet} (hv : verdict b f = .packet o k) (ha : awake b) (h9 : rd b 0x9000 1 = 0) :
    receive b p f = deliver (counted b p f o) p (bits f.iv.toNat 0 78) (bits f.iv.toNat 78 6) k := by
  rw [receive, if_neg (by simp [h])]
  dsimp only
  rw [hv]
  simp only [wakeBy_awake ha, wakeEvent_awake ha, h9]
  split
  · rfl
  split
  · contradiction
  · exact ite_self _

theorem receive_fenced {o : Bool} {k : Packet} (hv : verdict b f = .packet o k) (h9 : rd b 0x9000 1 ≠ 0)
    (ht : k.head.typ ≠ tDICT) : receive b p f = counted b p f o := by
  rw [receive, if_neg (by simp [h])]
  dsimp only
  rw [hv]
  dsimp only
  rw [if_neg (by simpa using ht), if_pos (by simpa using h9)]
  rfl
end

/-- Every row that brings a frame acts alike: what the frame is, its header says. -/
theorem exec_rx {row : Nat → Frame → Instr} (hr : row ∈ [Instr.rxWrite, Instr.rxReduce,
      Instr.rxReadReq, Instr.rxReadResp, Instr.rxAtomic, Instr.rxAtomicResp, Instr.rxAck, Instr.rxNak, Instr.rxCredit,
      Instr.rxDict, Instr.rxMirror, Instr.rxSealNak, Instr.rxMalformedFrame]) (s : State) (p : Nat) (f : Frame) :
    exec (row p f) s = .next (s.on (receive s.dev p f)) := by
  simp only [List.mem_cons, List.not_mem_nil, or_false] at hr
  rcases hr with rfl | rfl | rfl | rfl | rfl | rfl | rfl | rfl | rfl | rfl | rfl | rfl | rfl <;> rfl

section
variable (b : Block) (p : Nat) (f : Frame)

theorem rd_countArrival_other {i j : Nat} (h3 : objKey i j ≠ objKey (0x5100 + p) 3) (h5 : objKey i j ≠ objKey (0x5100 + p) 5) :
    rd (countArrival b p f) i j = rd b i j := by
  rw [countArrival, rd_addTo_other _ _ h5, rd_count_other _ h3]

theorem rd_countArrival_frames : rd (countArrival b p f) (0x5100 + p) 3 = (rd b (0x5100 + p) 3 + 1) % 2 ^ 64 := by
  rw [countArrival, rd_addTo_other _ _ (by simp [objKey]), rd_count_self]

@[simp] theorem countArrival_tpe : (countArrival b p f).tpe = b.tpe := (rfl)

@[simp] theorem counted_tpe (o : Bool) : (counted b p f o).tpe = b.tpe := by unfold counted; split <;> simp
@[simp] theorem counted_mem (o : Bool) : (counted b p f o).mem = b.mem := by unfold counted; split <;> simp

theorem rd_counted_other (o : Bool) {i j : Nat} (h3 : objKey i j ≠ objKey (0x5100 + p) 3)
    (h5 : objKey i j ≠ objKey (0x5100 + p) 5) (h7 : objKey i j ≠ objKey 0x7000 0x15) : rd (counted b p f o) i j = rd b i j := by
  unfold counted
  split
  · rw [rd_count_other _ h7, rd_countArrival_other _ _ _ h3 h5]
  · exact rd_countArrival_other _ _ _ h3 h5

theorem rd_counted_grace (o : Bool) (h : rd b 0x7000 0x15 < 2 ^ 64) :
    rd (counted b p f o) 0x7000 0x15 = (rd b 0x7000 0x15 + ofBool o) % 2 ^ 64 := by
  have arrival : rd (countArrival b p f) 0x7000 0x15 = rd b 0x7000 0x15 :=
    rd_countArrival_other _ _ _ (by simp only [objKey]; omega) (by simp only [objKey]; omega)
  cases o
  · exact arrival.trans (Nat.mod_eq_of_lt h).symm
  · exact (rd_count_self ..).trans (by rw [arrival]; rfl)
end

/-- Settles O35: by the equation of each outcome of the checks; what they count are objects of different keys. -/
theorem arrivingFramesAreCheckedInOrder : Obligations.ArrivingFramesAreCheckedInOrder := by
  unfold Obligations.ArrivingFramesAreCheckedInOrder
  intro row hrow s p f
  have run := exec_rx hrow s p f
  refine ⟨fun h => run.trans (next_on (receive_off h)), fun h => ⟨fun hv => ?_, fun hv => ?_, fun hv => ?_, fun o hv => ?_,
    fun o k hv ha => ⟨fun h9 => ?_, fun h9 ht => ?_⟩⟩⟩
  · refine ⟨_, run.trans (next_on (receive_noType h hv)), memSame_of_mem ?_, ?_, ?_, ?_⟩ <;> rw [State.on]
    · simp
    · simp
    · rw [rd_count_self, rd_countArrival_other _ _ _ (by simp [objKey]) (by simp [objKey])]
    · rw [rd_count_other _ (by simp [objKey]), rd_countArrival_frames]
  · refine ⟨_, run.trans (next_on (receive_noKey h hv)), memSame_of_mem ?_, ?_, ?_⟩ <;> rw [State.on]
    · simp
    · simp
    · rw [rd_count_self, rd_countArrival_other _ _ _ (by simp [objKey]) (by simp [objKey])]
  · exact run.trans (next_on (receive_badSeal h hv))
  · refine ⟨_, run.trans (next_on (receive_malformed h hv)), memSame_of_mem ?_, ?_, ?_, ?_⟩ <;> rw [State.on]
    · simp
    · simp
    · rw [rd_raiseFree_other _ (by simp only [objKey]; omega) (by simp only [objKey]; omega), rd_count_self,
        rd_counted_other _ _ _ _ (by simp [objKey]) (by simp [objKey]) (by simp only [objKey]; omega)]
    · rw [rd_raiseFree_other _ (by decide) (by decide), rd_count_other _ (by simp only [objKey]; omega),
        rd_counted_grace _ _ _ _ (rd_lt ..)]
  · exact run.trans (next_on (receive_packet h hv ha h9))
  · exact run.trans (next_on (receive_fenced h hv h9 ht))

end Sys2Proof.Machine
end

section
/-! SUPPORT. Arriving fabric requests, checks 5 to 12 (O36). -/

namespace Sys2Proof.Machine

/-! ### A packet that reaches the Transport Engine (06 R197, checks 4 to 6) -/

/-- Is the packet one that queue pairs take? -/
def qpType (t : Nat) : Prop := t ≠ tCREDIT ∧ t ≠ tDICT ∧ t ≠ tSEALNAK ∧ t ≠ tMIRROR

theorem qpType_of_request {t : Nat} (h : requestType t = true) : qpType t ∧ creditType t = true := by
  simp only [requestType, Bool.or_eq_true, beq_iff_eq] at h
  rcases h with ((rfl | rfl) | rfl) | rfl <;> exact ⟨by unfold qpType; decide, rfl⟩

theorem receive_reachesTpe {s : State} {p : Nat} {f : Frame} {k : Packet} {a : Block} (h : reachesTpe s.dev p f k a)
    (ht : qpType k.head.typ) :
    receive s.dev p f = pumpEngines (qpArrival a p k.aliased k.head k.ext k.pay 0) := by
  obtain ⟨o, ⟨rec, ver, wake, open9⟩, inj, tpe, credit⟩ := h
  obtain ⟨h1, h2, h3, h4⟩ := ht
  rw [receive_packet rec ver wake open9, deliver]
  dsimp only
  rw [if_neg h1, if_neg h2, if_neg h3, if_neg h4]
  split at credit
  · next hc => simp only [credit, hc, if_true, checkFlits_clean inj, tpe, Bool.not_true, Bool.false_eq_true, if_false]
  · next hc => simp only [← credit, hc, checkFlits_clean inj, tpe, Bool.not_true, Bool.false_eq_true, if_false]

theorem exec_reachesTpe {s : State} {p : Nat} {f : Frame} {k : Packet} {a : Block} {row : Nat → Frame → Instr}
    (hr : exec (row p f) s = .next (s.on (receive s.dev p f))) (h : reachesTpe s.dev p f k a) (ht : qpType k.head.typ) :
    exec (row p f) s = .next (s.on (pumpEngines (qpArrival a p k.aliased k.head k.ext k.pay 0))) :=
  hr.trans (next_on (receive_reachesTpe h ht))

section
variable {a : Block} {p i : Nat} {aliased : Bool} {h : Bth} {ext : Nat} {pay : Bytes} (hd : dstQp a aliased h.dstQp = some i)
  (hn : noInjection a)
include hd hn

/-- A packet of a chip or queue pair that this one is not connected to is counted only. -/
theorem qpArrival_stranger (hp : (qp a i).peerIs h.src h.srcQp = false) (hr : requestType h.typ = true) (m : Nat) :
    qpArrival a p aliased h ext pay m = freeSlot (count a (0x5100 + p) 9) := by
  simp only [qpArrival, hd, qpWordBad, checkWord_clean hn, hp, hr, Bool.not_false, if_true]

theorem qpArrival_oldGen (hp : (qp a i).peerIs h.src h.srcQp = true) (hg : genOk a (qp a i) h.gen = false)
    (hr : requestType h.typ = true) (m : Nat) :
    qpArrival a p aliased h ext pay m = freeSlot (count a (0x2200 + (qp a i).pid) 0x13) := by
  simp only [qpArrival, hd, qpWordBad, checkWord_clean hn, hp, hg, hr, Bool.not_false, Bool.not_true, Bool.false_eq_true, if_true, if_false]

theorem qpArrival_taken (hp : (qp a i).peerIs h.src h.srcQp = true) (hg : genOk a (qp a i) h.gen = true) (m : Nat) :
    qpArrival a p aliased h ext pay m
      = if requestType h.typ then request a i (reqOf p h ext pay m) else response a p i h ext pay m := by
  simp only [qpArrival, hd, qpWordBad, checkWord_clean hn, hp, hg, Bool.not_true, Bool.false_eq_true, if_false]
end

/-! ### A request's checks 7 to 12 (06 R197, R205) -/

section
variable {b : Block} {i : Nat} {r : Req} (h1 : screen b i r = none) (h2 : (qp b i).refusing = none)
  (h3 : stateStatus b (qp b i) = none) (h4 : msnOk (qp b i) r = true) (h5 : reqStatus b i r = none)
  (h6 : noInjection (acceptReq b i r))
include h1 h2 h3 h4 h5 h6

theorem request_refused {st : Status} (h7 : keyCheck (acceptReq b i r) i r = .error st) :
    request b i r = freeSlot (refuse (keyNak (acceptReq b i r) (qp b i).pid st) i r.psn r.msn st) := by
  simp only [request, h1, h2, h3, h4, h5, h7, checkWord_clean h6, Bool.not_true, Bool.false_eq_true, if_false]

theorem request_passes {j : Nat} (h7 : keyCheck (acceptReq b i r) i r = .ok j) : request b i r
    = if r.typ = tREDUCE then reduceGo (onKey b i r j) i j r
      else workGo (addWork (onKey b i r j) (workOf (onKey b i r j) i j r)) (workOf (onKey b i r j) i j r) := by
  simp only [request, h1, h2, h3, h4, h5, h7, checkWord_clean h6, Bool.not_true, Bool.false_eq_true, if_false]
  rfl
end

theorem reqOf_typ (p : Nat) (h : Bth) (ext : Nat) (pay : Bytes) (m : Nat) : (reqOf p h ext pay m).typ = h.typ := by
  unfold reqOf
  split <;> rfl

/-- Settles O36: a request's frame reaches its queue pair (`exec_reachesTpe`, `qpArrival_taken`), whose checks decide. -/
theorem fabricRequestsPassChecksFiveToTwelve : Obligations.FabricRequestsPassChecksFiveToTwelve := by
  unfold Obligations.FabricRequestsPassChecksFiveToTwelve
  refine ⟨fun s p f k b i ⟨reach, dst, peer, gen⟩ => ?_, fun s p f k b i reach req dst => ?_⟩
  · have inj : noInjection b := by obtain ⟨-, -, inj, -⟩ := reach; exact inj
    have go {row : Nat → Frame → Instr} (hr : exec (row p f) s = .next (s.on (receive s.dev p f)))
        (req : requestType k.head.typ = true) : exec (row p f) s
          = .next (s.on (pumpEngines (request b i (reqOf p k.head k.ext k.pay 0)))) := by
      rw [exec_reachesTpe hr reach (qpType_of_request req).1, qpArrival_taken dst inj peer gen, if_pos req]
    refine ⟨fun j ⟨h1, h2, h3, h4, h5, h6, h7⟩ => ?_, fun req h1 h2 h3 h4 h5 h6 st h7 => ?_⟩
    · have passes := request_passes h1 h2 h3 h4 h5 h6 h7
      rw [reqOf_typ] at passes
      refine ⟨fun ht => ?_, fun ht => ?_, fun ht => ?_, fun ht => ?_⟩
      · rw [go rfl (by rw [ht]; rfl), passes, if_neg (by rw [ht]; decide)]
      · rw [go rfl (by rw [ht]; rfl), passes, if_neg (by rw [ht]; decide)]
      · rw [go rfl (by rw [ht]; rfl), passes, if_neg (by rw [ht]; decide)]
      · rw [go rfl (by rw [ht]; rfl), passes, if_pos ht]
    · rw [go rfl req, request_refused h1 h2 h3 h4 h5 h6 h7]
  · have inj : noInjection b := by obtain ⟨-, -, inj, -⟩ := reach; exact inj
    refine ⟨fun hp => ?_, fun hp hg => ?_⟩
    · rw [exec_reachesTpe rfl reach (qpType_of_request req).1, qpArrival_stranger dst inj hp req]
    · rw [exec_reachesTpe rfl reach (qpType_of_request req).1, qpArrival_oldGen dst inj hp hg req]

end Sys2Proof.Machine
end

section
/-! SUPPORT. Arriving answers and control packets (O37). -/

namespace Sys2Proof.Machine

/-! ### Counting a credit packet leaves INJECT_MODE (12 R408) -/

/-- INJECT_MODE. -/
def Block.injMode (b : Block) : Nat := rd b 0xF000 1

theorem noInjection_congr {b b' : Block} (h : b'.injMode = b.injMode) (hn : noInjection b) : noInjection b' := by
  rw [noInjection, show rd b' 0xF000 1 = rd b 0xF000 1 from h]
  exact hn

theorem injMode_of_dict {b b' : Block} (h : b'.dict = b.dict) : b'.injMode = b.injMode := rd_congr (by rw [h]) ..

theorem count_injMode (b : Block) {i j : Nat} (h : objKey 0xF000 1 ≠ objKey i j) : (count b i j).injMode = b.injMode :=
  rd_count_other b h

theorem wr_injMode (b : Block) {i j : Nat} (v : Nat) (h : objKey 0xF000 1 ≠ objKey i j) : (wr b i j v).injMode = b.injMode :=
  rd_wr_other b v h

theorem raiseFree_injMode (b : Block) (f u q : Nat) : (raiseFree b f u q).injMode = b.injMode :=
  rd_raiseFree_other b (by simp only [objKey]; omega) (by decide)

theorem countSat_injMode (b : Block) {i j k l : Nat} (w bit u q : Nat) (h : objKey 0xF000 1 ≠ objKey i j)
    (h' : objKey 0xF000 1 ≠ objKey k l) : (countSat b i j w k l bit u q).injMode = b.injMode := by
  unfold countSat
  dsimp only
  split
  · exact wr_injMode b _ h
  split
  · rfl
  · rw [raiseFree_injMode, wr_injMode _ _ h']

@[simp] theorem startTimers_dict (b : Block) (t : Tx) : (startTimers b t).dict = b.dict := by
  unfold startTimers
  simp [onQp, apply_ite Block.dict]

theorem noteWait_injMode (b : Block) (t : Tx) : (noteWait b t).1.injMode = b.injMode := by
  unfold noteWait
  split
  · split
    · refine (injMode_of_dict (startTimers_dict ..)).trans ?_
      split
      · exact count_injMode b (by decide)
      · exact (count_injMode _ (by simp only [objKey]; omega)).trans (count_injMode b (by decide))
    · rfl
  · rfl

@[simp] theorem hold_dict (b : Block) (t : Tx) : (hold b t).dict = b.dict := startTimers_dict ..

theorem enqueue_injMode (b : Block) (t : Tx) : (enqueue b t).injMode = b.injMode := by
  unfold enqueue
  split
  · split
    · exact injMode_of_dict (hold_dict b t)
    · rfl
  split
  · next p r _ =>
    refine Eq.trans (b := (noteWait b { t with port := p, rport := r }).1.injMode) (injMode_of_dict ?_) (noteWait_injMode b _)
    dsimp only
    split <;> simp
  · exact injMode_of_dict (hold_dict b t)

theorem sendCredit_injMode (b : Block) (chip : Nat) : (sendCredit b chip).injMode = b.injMode := by
  unfold sendCredit
  split
  · rfl
  · exact (enqueue_injMode ..).trans (count_injMode b (by decide))

@[simp] theorem grantUnits_dict (b : Block) (rose : List Nat) (n : Nat) : (grantUnits b rose n).1.dict = b.dict := by
  fun_induction grantUnits <;> grind [setRx_dict]

theorem grantCredit_injMode (b : Block) : (grantCredit b).injMode = b.injMode := by
  unfold grantCredit
  split
  · rfl
  · have kept := grantUnits_dict b [] 6144
    obtain ⟨g, hg⟩ : ∃ g, grantUnits b [] 6144 = g := ⟨_, rfl⟩
    rw [hg] at kept ⊢
    exact (foldl_keeps Block.injMode sendCredit sendCredit_injMode _ _).trans (injMode_of_dict kept)

theorem creditArrival_injMode (b : Block) (p chip c : Nat) : (creditArrival b p chip c).1.injMode = b.injMode := by
  have overrun (b : Block) : (raiseFree (countSat b 0x5010 0x0B 32 0x5010 0x0D 0 (uPP p) 0) 10 (uPP p) 0).injMode = b.injMode :=
    (raiseFree_injMode ..).trans (countSat_injMode b _ _ _ _ (by decide) (by decide))
  unfold creditArrival
  dsimp only
  split
  · split <;> exact overrun b
  · split
    · refine (grantCredit_injMode _).trans ?_
      split <;> exact (overrun _).trans (injMode_of_dict (setRx_dict ..))
    · next x _ _ => exact (grantCredit_injMode _).trans (injMode_of_dict (setRx_dict b chip (creditSeen b x c)))

/-! ### The control packets -/

theorem counted_injMode (b : Block) (p : Nat) (f : Frame) (o : Bool) : (counted b p f o).injMode = b.injMode :=
  rd_counted_other _ _ _ _ (by simp only [objKey]; omega) (by simp only [objKey]; omega) (by decide)

theorem awake_counted {b : Block} (h : awake b) (p : Nat) (f : Frame) (o : Bool) : awake (counted b p f o) := by
  rw [awake, rd_counted_other _ _ _ _ (by simp only [objKey]; omega) (by simp only [objKey]; omega) (by decide)]
  exact h

theorem setTxCredit_self (b : Block) (chip : Nat) (x : TxCredit) : txCredit (setTxCredit b chip x) chip = x := by
  simp [txCredit, setTxCredit]

theorem setTxCredit_other (b : Block) {chip c : Nat} (x : TxCredit) (h : c ≠ chip) :
    txCredit (setTxCredit b chip x) c = txCredit b c := by
  simp [txCredit, setTxCredit, h]

theorem takeCredit_live {b : Block} {chip : Nat} (h : leaseLive b (txCredit b chip) = true) (ext : Nat) :
    takeCredit b chip ext = setTxCredit b chip { txCredit b chip with
      limit := (List.range 4).map fun c =>
        if (2 ^ 32 + bits ext (32 * c) 32 - (txCredit b chip).limit.getD c 0) % 2 ^ 32 < 2 ^ 31 then bits ext (32 * c) 32
        else (txCredit b chip).limit.getD c 0
      leaseAt := b.clk.now } := by
  unfold takeCredit
  exact if_pos h

theorem takeCredit_lapsed {b : Block} {chip : Nat} (h : leaseLive b (txCredit b chip) = false) (ext : Nat) :
    takeCredit b chip ext = setTxCredit b chip ⟨true, (List.range 4).map fun c => bits ext (32 * c) 32,
      (List.range 4).map fun c => (2 ^ 32 + bits ext (32 * c) 32 - floorOf b c) % 2 ^ 32, b.clk.now⟩ := by
  unfold takeCredit
  exact if_neg (by simp [h])

section
variable {s : State} {p : Nat} {f : Frame} {o : Bool} {k : Packet} (h : arrives s.dev p f o k)
include h

theorem receive_arrives : receive s.dev p f
    = deliver (counted s.dev p f o) p (bits f.iv.toNat 0 78) (bits f.iv.toNat 78 6) k := by
  obtain ⟨rec, ver, wake, open9⟩ := h
  exact receive_packet rec ver wake open9

theorem receive_credit (ht : k.head.typ = tCREDIT) :
    receive s.dev p f = takeCredit (counted s.dev p f o) k.head.src k.ext := by
  rw [receive_arrives h, deliver]
  exact if_pos ht

theorem receive_dict (ht : k.head.typ = tDICT) (hn : noInjection s.dev) : receive s.dev p f
    = dictPacket (count (counted s.dev p f o) 0x1402 5) k.head.src (bits f.iv.toNat 78 6) (bits f.iv.toNat 0 78) k.pay := by
  have clean := noInjection_congr (counted_injMode s.dev p f o) hn
  obtain ⟨-, -, wake, -⟩ := id h
  rw [receive_arrives h, deliver]
  dsimp only
  rw [if_neg (by rw [ht]; decide), if_pos ht, checkFlits_clean clean, ← busAccess_awake (awake_counted wake p f o)]
  rfl

theorem receive_mirror (ht : k.head.typ = tMIRROR) (hn : noInjection s.dev) {a : Block}
    (ha : creditArrival (counted s.dev p f o) p k.head.src 3 = (a, true)) :
    receive s.dev p f = freeSlot (mirrorArrival a k.head.src k.pay) := by
  have clean : noInjection a := by
    refine noInjection_congr (Eq.trans ?_ (counted_injMode s.dev p f o)) hn
    rw [← creditArrival_injMode (counted s.dev p f o) p k.head.src 3, ha]
  rw [receive_arrives h, deliver]
  dsimp only
  rw [if_neg (by rw [ht]; decide), if_neg (by rw [ht]; decide), if_neg (by rw [ht]; decide), if_pos ht, ha]
  dsimp only
  rw [checkFlits_clean clean]
  rfl

theorem receive_sealNak (ht : k.head.typ = tSEALNAK) : receive s.dev p f = takeSealNak (counted s.dev p f o) (k.ext >>> 32) := by
  rw [receive_arrives h, deliver]
  dsimp only
  rw [if_neg (by rw [ht]; decide), if_neg (by rw [ht]; decide), if_pos ht]
end

/-- Settles O37: each answer by its queue pair (`qpArrival_taken`), each control packet by its own unit. -/
theorem fabricAnswersAndControlPacketsAreTaken : Obligations.FabricAnswersAndControlPacketsAreTaken := by
  unfold Obligations.FabricAnswersAndControlPacketsAreTaken
  refine ⟨fun s p f k b i ⟨reach, dst, peer, gen⟩ => ?_, fun s p f o k h => ⟨fun ht => ?_, fun ht hn => ?_, fun ht hn a ha => ?_, fun ht => ?_⟩⟩
  · have inj : noInjection b := by obtain ⟨-, -, inj, -⟩ := reach; exact inj
    have go {row : Nat → Frame → Instr} (hr : exec (row p f) s = .next (s.on (receive s.dev p f)))
        (ht : qpType k.head.typ) (req : requestType k.head.typ = false) : exec (row p f) s
          = .next (s.on (pumpEngines (response b p i k.head k.ext k.pay 0))) := by
      rw [exec_reachesTpe hr reach ht, qpArrival_taken dst inj peer gen, req]
      rfl
    refine ⟨fun ht => ?_, fun ht => ?_, fun ht => ?_, fun ht => ?_⟩
    all_goals rw [go rfl (by rw [ht]; unfold qpType; decide) (by rw [ht]; rfl), response, ht]
    · rw [if_pos rfl]
    · rw [if_neg (by decide), if_pos rfl]
    · rw [if_neg (by decide), if_neg (by decide), if_pos rfl]
    · rw [if_neg (by decide), if_neg (by decide), if_neg (by decide)]
  · have clk : (counted s.dev p f o).clk = s.dev.clk := by unfold counted; split <;> rfl
    have lease : leaseLive (counted s.dev p f o) (txCredit s.dev k.head.src) = leaseLive s.dev (txCredit s.dev k.head.src) := by
      unfold leaseLive
      rw [rd_counted_other _ _ _ _ (by simp only [objKey]; omega) (by simp only [objKey]; omega) (by decide)]
      unfold elapsed
      rw [clk]
    have floor (c : Nat) : floorOf (counted s.dev p f o) c = floorOf s.dev c := by
      unfold floorOf
      rw [rd_counted_other _ _ _ _ (by simp only [objKey]; omega) (by simp only [objKey]; omega) (by decide)]
    have credit (c : Nat) : txCredit (counted s.dev p f o) c = txCredit s.dev c := by
      rw [txCredit, counted_tpe, txCredit]
    have run : exec (.rxCredit p f) s = .next (s.on (takeCredit (counted s.dev p f o) k.head.src k.ext)) :=
      (exec_rx (by simp) s p f).trans (next_on (receive_credit h ht))
    refine ⟨_, run, memSame_of_mem (by simp [State.on]), ?_⟩
    rw [State.on]
    by_cases hl : leaseLive s.dev (txCredit s.dev k.head.src) = true
    · rw [takeCredit_live (by rw [credit, lease]; exact hl)]
      refine ⟨rfl, fun c hc => (setTxCredit_other _ _ hc).trans (credit c), fun _ => ?_, fun hf => absurd (hf.symm.trans hl) (by decide)⟩
      rw [setTxCredit_self, credit, clk]
    · have lapsed : leaseLive s.dev (txCredit s.dev k.head.src) = false := by simpa using hl
      rw [takeCredit_lapsed (by rw [credit, lease]; exact lapsed)]
      refine ⟨rfl, fun c hc => (setTxCredit_other _ _ hc).trans (credit c), fun hf => absurd hf hl, fun _ => ?_⟩
      simp only [setTxCredit_self, floor, clk]
  · exact (exec_rx (by simp) s p f).trans (next_on (receive_dict h ht hn))
  · exact (exec_rx (by simp) s p f).trans (next_on (receive_mirror h ht hn ha))
  · exact (exec_rx (by simp) s p f).trans (next_on (receive_sealNak h ht))

end Sys2Proof.Machine
end

section
/-! SUPPORT. Keys: revocation and queries (O41). -/

namespace Sys2Proof.Machine

/-! ### Commands of queue pairs and keys run in order (02 R53) -/

@[simp] theorem mirrorNote_tpe (b : Block) (kind pid index : Nat) (body : Bytes) :
    (mirrorNote b kind pid index body).tpe = b.tpe := by
  unfold mirrorNote emitRec
  simp [apply_ite Block.tpe]

theorem noInjection_accepted {b : Block} {acc : Access} {i j a : Nat} (h : objKey 0xF000 1 ≠ objKey i (j + 0x80))
    (hn : noInjection b) : noInjection (accepted b acc i j a) :=
  noInjection_congr (rd_accepted_other h (by decide)) hn

/-- A command does not wait for itself. -/
theorem setupBefore_accepted (b : Block) (acc : Access) (pid sub a arg : Nat) (hs : sub < 256) :
    setupBefore (accepted b acc (0x5200 + pid) sub a) pid sub arg = setupBefore b pid sub arg := by
  have self : objKey (0x5200 + pid) sub % 256 = sub := by simp only [objKey]; omega
  simp [setupBefore, accepted, self]
  rfl

theorem inOrder_clean {b : Block} {pid sub arg : Nat} (hn : noInjection b) (hs : setupBefore b pid sub arg = false)
    (run : Block → Block) : inOrder b pid sub arg run = run b := by
  rw [inOrder, hs, objectRead]
  simp only [keyWordBad, qpWordBad, checkWord_clean hn, ite_self, Bool.false_eq_true, if_false]

/-! ### Keys -/

theorem key_congr {b b' : Block} (h : b.tpe = b'.tpe) (j : Nat) : key b j = key b' j := by rw [key, h, key]

@[simp] theorem key_setKey_self (b : Block) (j : Nat) (k : Key) : key (setKey b j k) j = k :=
  (key_congr (mirrorNote_tpe ..) j).trans (key_putKey_self b j k)

theorem key_setKey_other (b : Block) {j i : Nat} (k : Key) (h : i ≠ j) : key (setKey b j k) i = key b i :=
  (key_congr (mirrorNote_tpe ..) i).trans (key_putKey_other b k h)

@[simp] theorem setKey_dict (b : Block) (j : Nat) (k : Key) : (setKey b j k).dict = b.dict := by simp [setKey]

@[simp] theorem finishKey_tpe (b : Block) (j detail : Nat) : (finishKey b j detail).tpe = b.tpe := by
  unfold finishKey
  dsimp only
  split
  · split <;> simp
  · rfl

section
variable {s : State} {acc : Access} {pid n : Nat} (ha : mayCommand s.dev acc pid) (hp : isPid pid)
  (hl : isLive s.dev pid = true) (hn : noInjection s.dev)
include ha hp hl hn

theorem keyRevokeCmd_taken (ho : setupBefore s.dev pid 9 n = false) (hr : n < 2 ^ 18) (hk : n < (part s.dev pid).keyCount)
    (ht : canTake s.dev (0x5200 + pid) 9) (hv : (key s.dev ((part s.dev pid).keyBase + n)).st = .valid) :
    keyRevokeCmd s.dev acc pid n = setKey (accepted s.dev acc (0x5200 + pid) 9 n) ((part s.dev pid).keyBase + n)
      { key s.dev ((part s.dev pid).keyBase + n) with st := .revoking, since := s.dev.clk.now } := by
  have live : isLive (count s.dev 0x1402 5) pid = true := hl
  have held : key (accepted s.dev acc (0x5200 + pid) 9 n) ((part s.dev pid).keyBase + n)
      = key s.dev ((part s.dev pid).keyBase + n) := key_congr (by simp) _
  rw [keyRevokeCmd, partCommand_taken hp (by decide) ht (mayCommand_fence ha), ← accepted,
    inOrder_clean (noInjection_accepted (by simp only [objKey]; omega) hn)
      ((setupBefore_accepted s.dev acc pid 9 n n (by decide)).trans ho)]
  · rw [part_accepted, revokeKey]
    dsimp only
    rw [held, if_pos hv, accepted_clk]
  · simp only [notHostTntFw_count, mayCommand_rights hp ha, live, part_count, key_congr (count_tpe s.dev 0x1402 5), hv, Nat.not_le.2 hr, Nat.not_le.2 hk]
    rfl

theorem queryCmd_taken {sub : Nat} (hs : sub < 128) (ho : setupBefore s.dev pid sub n = false) (ht : canTake s.dev (0x5200 + pid) sub)
    (hr : if sub = 5 then bits n 16 40 = 0 ∧ bits n 0 16 < (part s.dev pid).qpCount
      else bits n 18 38 = 0 ∧ bits n 0 18 < (part s.dev pid).keyCount) :
    queryCmd s.dev acc pid sub n = queryWrite (accepted s.dev acc (0x5200 + pid) sub n) pid sub := by
  have live : isLive (count s.dev 0x1402 5) pid = true := hl
  rw [queryCmd, partCommand_taken hp (by decide) ht (mayCommand_fence ha), ← accepted,
    inOrder_clean (noInjection_accepted (by simp only [objKey]; omega) hn)
      ((setupBefore_accepted s.dev acc pid sub n n (by omega)).trans ho)]
  · simp only [notHostTntFw_count, mayCommand_rights hp ha, live, part_count]
    split at hr
    · next h5 =>
      obtain ⟨z, lt⟩ := hr
      simp only [h5, if_true, z, Nat.not_le.2 lt]
      rfl
    · next h5 =>
      obtain ⟨z, lt⟩ := hr
      simp only [h5, if_false, z, Nat.not_le.2 lt]
      rfl
end

/-- Settles O41. -/
theorem keysAreRevokedAndQueried : Obligations.KeysAreRevokedAndQueried := by
  unfold Obligations.KeysAreRevokedAndQueried
  refine ⟨fun s acc pid v ha hp hl hn => ⟨fun ho hr hk ht hv => ?_, fun ho ht hz hr => ?_, fun ho ht hz hr => ?_⟩,
    fun s j => ⟨fun hr ho => ?_, fun h => ?_, fun hr ho he => ?_, fun he => ?_⟩, fun s pid sub ans hs hc hi => ?_⟩
  · refine goes_on (keyRevokeCmd_taken ha hp hl hn ho hr hk ht hv) ⟨?_, fun j hj => ?_, ?_, memSame_of_mem ?_⟩
    · exact key_setKey_self ..
    · exact (key_setKey_other _ _ hj).trans (key_congr (by simp) j)
    · have pend := pends_accepted (s := s) (acc := acc) (i := 0x5200 + pid) (j := 9) (a := v.toNat)
      exact (rd_congr (by rw [State.on, setKey_dict, State.on]) _ _).trans pend
    · simp [State.on]
  · exact next_on (queryCmd_taken ha hp hl hn (by decide) ho ht (by rw [if_pos rfl]; exact ⟨hz, hr⟩))
  · exact next_on (queryCmd_taken ha hp hl hn (by decide) ho ht (by rw [if_neg (by decide)]; exact ⟨hz, hr⟩))
  · have run : revokeDone s.dev j = freeKey s.dev j 0 := by simp [revokeDone, hr, ho]
    refine goes_on run ⟨?_, fun x hx => ?_, memSame_of_mem (by simp [State.on])⟩
    · exact (key_congr (finishKey_tpe ..) j).trans (key_setKey_self ..)
    · exact (key_congr (finishKey_tpe ..) x).trans (key_setKey_other _ _ hx)
  · refine next_on (s := s) (b := revokeDone s.dev j) (b' := s.dev) (if_neg ?_)
    rcases h with h | h <;> simp [h]
  · refine next_on (s := s) (b := revokeTimeout s.dev j) (if_neg ?_)
    simp [hr, ho, he]
  · refine next_on (s := s) (b := revokeTimeout s.dev j) (b' := s.dev) (if_pos ?_)
    simp [he]
  · have run : queryDone s.dev pid sub ans = if ans.st = .ok
        then finishCmd (settleTile s.dev ⟨.queryWrite, pid, sub⟩) (0x5200 + pid) sub .ok 0
        else failCmd (settleTile s.dev ⟨.queryWrite, pid, sub⟩) pid sub ans.st := by
      have legal : (sub = 5 || sub = 0x0A : Bool) = true := by simpa using hs
      simp only [queryDone, legal, Option.isNone_eq_false_iff.2 hc, hi, Bool.not_true, Bool.or_self, Bool.false_eq_true, if_false]
    exact next_on run

end Sys2Proof.Machine
end

section
/-! SUPPORT. Queue-pair doorbells (O42). -/

namespace Sys2Proof.Machine

/-! ### A doorbell word reaches its unit (03 R105, R106; 07 R224) -/

theorem doorbell_reaches {b : Block} {vf rel pid : Nat} (hv : pidOfVf b vf = pid) (h0 : pid ≠ 0) (hl : isLive b pid = true)
    (hs : partServed b pid = true) (ha : hostAdmitted b pid = true) (limit : Part → Nat) (hr : rel < limit (part b pid)) :
    doorbell b vf rel limit = (b, some pid) := by
  unfold doorbell
  simp [hv, h0, hl, hs, ha, hr]

/-! ### Words of queue pairs -/

/-- A doorbell word of command `cmd` with `v` in its low 16 bits. -/
theorem word_fields {v cmd : Nat} (hv : v < 65536) (hc : cmd < 4) :
    let w := (BitVec.ofNat 64 (v + (cmd <<< 62))).toNat
    zeroBits w 16 46 = true ∧ bits w 62 2 = cmd ∧ bits w 0 16 = v := by
  have e : (BitVec.ofNat 64 (v + (cmd <<< 62))).toNat = v + cmd * 2 ^ 62 := by
    rw [BitVec.toNat_ofNat, Nat.shiftLeft_eq]
    omega
  simp only [e, zeroBits, bits_eq, beq_iff_eq]
  omega

section
variable {b : Block} {pid rel w : Nat} (hn : noInjection b)
include hn

theorem qpWord_reserved (hz : zeroBits w 16 46 = false) : qpWord b pid rel w = doorbellDiscard b pid := by
  simp only [qpWord, qpWordBad, checkWord_clean hn, hz, Bool.not_false, Bool.or_true, Bool.true_or, if_true]

variable (hr : rel < (part b pid).qpCount) (hz : zeroBits w 16 46 = true)
include hr hz

theorem qpWord_tail (hc : bits w 62 2 = 0) : qpWord b pid rel w =
    (let q := qp b ((part b pid).qpBase + rel)
    if !(q.st == .init || q.runs || q.st == .error) || 2 ^ q.sqLog ≤ bits w 0 16 then doorbellDiscard b pid
    else sqRun (setQp b ((part b pid).qpBase + rel) { q with sqTail := bits w 0 16 }) ((part b pid).qpBase + rel)) := by
  simp only [qpWord, qpWordBad, checkWord_clean hn, hz, Nat.not_le.2 hr, hc, Bool.not_true, decide_false, Bool.or_self,
    Bool.false_eq_true, if_false]

theorem qpWord_cons (hc : bits w 62 2 = 1) : qpWord b pid rel w =
    (let q := qp b ((part b pid).qpBase + rel)
    if !((q.st == .init || q.runs || q.st == .error) || q.st == .draining) || cqSize q ≤ bits w 0 16 then doorbellDiscard b pid
    else setQp b ((part b pid).qpBase + rel) { q with cqCons := bits w 0 16 }) := by
  simp only [qpWord, qpWordBad, checkWord_clean hn, hz, Nat.not_le.2 hr, hc, Bool.not_true, decide_false, Bool.or_self,
    Bool.false_eq_true, if_false]

theorem qpWord_arm (hc : bits w 62 2 = 2) : qpWord b pid rel w =
    (let q := qp b ((part b pid).qpBase + rel)
    if !((q.st == .init || q.runs || q.st == .error) || q.st == .draining) || bits w 0 16 ≠ 0 then doorbellDiscard b pid
    else setQp b ((part b pid).qpBase + rel) { q with armed := true }) := by
  simp only [qpWord, qpWordBad, checkWord_clean hn, hz, Nat.not_le.2 hr, hc, Bool.not_true, decide_false, Bool.or_self,
    Bool.false_eq_true, if_false]
end

/-- Does the queue pair take doorbells? -/
def Qp.rings (q : Qp) : Prop := q.st = .init ∨ q.st = .ready ∨ q.st = .takenOver ∨ q.st = .error

theorem Qp.rings_eq {q : Qp} (h : q.rings) : (q.st == .init || q.runs || q.st == .error) = true := by
  rcases h with h | h | h | h <;> simp [Qp.runs, h]

theorem Qp.rings_or_draining {q : Qp} (h : q.rings ∨ q.st = .draining) :
    ((q.st == .init || q.runs || q.st == .error) || q.st == .draining) = true := by
  rcases h with h | h
  · rw [Qp.rings_eq h, Bool.true_or]
  · simp [h]

section
variable {s : State} {vf rel pid : Nat} (wake : awake s.dev) (hv : pidOfVf s.dev vf = pid) (h0 : pid ≠ 0)
  (hl : isLive s.dev pid = true) (hs : partServed s.dev pid = true) (ha : hostAdmitted s.dev pid = true)
  (hr : rel < (part s.dev pid).qpCount) (ht : served s.dev uTPE = true) {w : Word}
include wake hv h0 hl hs ha hr ht

/-- A word that reaches the Transport Engine is served by `qpWord`. -/
theorem wakeEvent_qpDoorbell (i : Instr) :
    wakeEvent s.dev 1 i (fun b => qpDoorbell b vf rel w) = qpWord s.dev pid rel w.toNat := by
  rw [wakeEvent_awake wake, qpDoorbell, doorbell_reaches hv h0 hl hs ha _ hr]
  exact if_pos ht

theorem exec_sqTail : exec (.sqTail vf rel w) s = .next (s.on (qpWord s.dev pid rel w.toNat)) :=
  next_on (wakeEvent_qpDoorbell wake hv h0 hl hs ha hr ht _)

theorem exec_cqCons : exec (.cqCons vf rel w) s = .next (s.on (qpWord s.dev pid rel w.toNat)) :=
  next_on (wakeEvent_qpDoorbell wake hv h0 hl hs ha hr ht _)

theorem exec_cqArm : exec (.cqArm vf rel w) s = .next (s.on (qpWord s.dev pid rel w.toNat)) :=
  next_on (wakeEvent_qpDoorbell wake hv h0 hl hs ha hr ht _)
end

/-- Settles O42: every row hands its word to `qpWord`, whose command field decides. -/
theorem queuePairDoorbellsMoveTailConsumerAndArm : Obligations.QueuePairDoorbellsMoveTailConsumerAndArm := by
  unfold Obligations.QueuePairDoorbellsMoveTailConsumerAndArm
  intro s vf rel pid wake hv h0 hl hs ha hr ht hn
  refine ⟨fun v hb => ⟨fun live lt => ?_, fun live lt => ?_, fun ge => ?_, fun ge => ?_⟩, fun live => ?_, fun w hz => ?_, fun x => ?_⟩
  · obtain ⟨z, c, f⟩ := word_fields (cmd := 0) hb (by decide)
    rw [exec_sqTail wake hv h0 hl hs ha hr ht, qpWord_tail hn hr z c]
    simp only [f, Qp.rings_eq live, Nat.not_le.2 lt, Bool.not_true, decide_false, Bool.or_self, Bool.false_eq_true, if_false]
  · obtain ⟨z, c, f⟩ := word_fields (cmd := 1) hb (by decide)
    rw [exec_cqCons wake hv h0 hl hs ha hr ht, qpWord_cons hn hr z c]
    simp only [f, Qp.rings_or_draining live, cqSize, Nat.not_le.2 lt, Bool.not_true, decide_false, Bool.or_self, Bool.false_eq_true, if_false]
  · obtain ⟨z, c, f⟩ := word_fields (cmd := 0) hb (by decide)
    rw [exec_sqTail wake hv h0 hl hs ha hr ht, qpWord_tail hn hr z c]
    simp only [f, ge, decide_true, Bool.or_true, if_true]
    rfl
  · obtain ⟨z, c, f⟩ := word_fields (cmd := 1) hb (by decide)
    rw [exec_cqCons wake hv h0 hl hs ha hr ht, qpWord_cons hn hr z c]
    simp only [f, cqSize, ge, decide_true, Bool.or_true, if_true]
    rfl
  · obtain ⟨z, c, f⟩ := word_fields (v := 0) (cmd := 2) (by decide) (by decide)
    rw [exec_cqArm wake hv h0 hl hs ha hr ht, qpWord_arm hn hr z c]
    simp only [f, Qp.rings_or_draining live, ne_eq, not_true_eq_false, Bool.not_true, decide_false, Bool.or_self, Bool.false_eq_true,
      if_false]
  · have drop := qpWord_reserved (pid := pid) (rel := rel) hn hz
    refine ⟨?_, ?_, ?_⟩
    · rw [exec_sqTail wake hv h0 hl hs ha hr ht, drop]; rfl
    · rw [exec_cqCons wake hv h0 hl hs ha hr ht, drop]; rfl
    · rw [exec_cqArm wake hv h0 hl hs ha hr ht, drop]; rfl
  · exact ⟨qp_setQp_self .., fun j hj => qp_setQp_other _ _ hj⟩

end Sys2Proof.Machine
end

section
/-! SUPPORT. Credit: the timers, the refresh and granting (O44). -/

namespace Sys2Proof.Machine

/-! ### The timers of the credit table (07 R238-R242) -/

@[simp] theorem foldl_tpe_txCredit {α : Type} (f : Block → α → Block) (h : ∀ b a, (f b a).tpe.txCredit = b.tpe.txCredit) (l : List α) (b : Block) :
    (l.foldl f b).tpe.txCredit = b.tpe.txCredit := foldl_keeps (·.tpe.txCredit) f h l b

@[simp] theorem foldl_fst_tpe_txCredit {α β : Type} (f : Block × β → α → Block × β) (h : ∀ p a, (f p a).1.tpe.txCredit = p.1.tpe.txCredit) (l : List α)
    (p : Block × β) : (l.foldl f p).1.tpe.txCredit = p.1.tpe.txCredit := by
  induction l generalizing p with
  | nil => rfl
  | cons a l ih => rw [List.foldl_cons, ih, h]

@[simp] theorem setQp_tpe_txCredit (b : Block) (i : Nat) (q : Qp) : (setQp b i q).tpe.txCredit = b.tpe.txCredit := by
  unfold setQp
  simp

@[simp] theorem onQp_tpe_txCredit (b : Block) (i : Nat) (f : Qp → Qp) : (onQp b i f).tpe.txCredit = b.tpe.txCredit := by
  unfold onQp
  simp

@[simp] theorem startTimers_tpe_txCredit (b : Block) (t : Tx) : (startTimers b t).tpe.txCredit = b.tpe.txCredit := by
  unfold startTimers
  (repeat' split) <;> simp

@[simp] theorem noteWait_tpe_txCredit (b : Block) (t : Tx) : (noteWait b t).1.tpe.txCredit = b.tpe.txCredit := by
  unfold noteWait
  (repeat' split) <;> simp

@[simp] theorem noteCredit_tpe_txCredit (b : Block) : (noteCredit b).tpe.txCredit = b.tpe.txCredit := by
  unfold noteCredit
  simp

theorem txCredit_noteCredit (b : Block) (c : Nat) : txCredit (noteCredit b) c = txCredit b c := by
  rw [txCredit, noteCredit_tpe_txCredit, txCredit]

theorem exec_creditIdleExpiry (chip : Nat) (s : State) : exec (.creditIdleExpiry chip) s = .next (s.on (creditIdle s.dev chip)) := rfl

theorem exec_quietPeriodEnd (chip : Nat) (s : State) : exec (.quietPeriodEnd chip) s = .next (s.on (quietEnd s.dev chip)) := rfl

section
variable {b : Block} {chip : Nat} {x : RxCredit} (hx : find? b.tpe.rxCredit chip = some x)
include hx

theorem goQuiet_of (h : x.st ≠ .quiet) : goQuiet b chip = setRx b chip { x with st := .quiet, entered := b.clk.now } := by
  simp only [goQuiet, hx, h, if_false]

theorem creditIdle_due (ha : x.st = .active) (he : elapsed b x.arrivedAt (micros (rd b 0x5010 8)) = true) :
    creditIdle b chip = setRx b chip { x with st := .quiet, entered := b.clk.now } := by
  rw [creditIdle, hx]
  exact (if_pos (by simp [ha, he])).trans (goQuiet_of hx (by simp [ha]))

theorem creditIdle_early (h : x.st ≠ .active ∨ elapsed b x.arrivedAt (micros (rd b 0x5010 8)) = false) : creditIdle b chip = b := by
  rw [creditIdle, hx]
  refine if_neg ?_
  rcases h with h | h <;> simp [h]

theorem quietEnd_early (h : x.st ≠ .quiet ∨ elapsed b (if x.sent then x.sentAt else x.entered) (quietTime b) = false) :
    quietEnd b chip = b := by
  rw [quietEnd, hx]
  refine if_pos ?_
  rcases h with h | h <;> simp [h]

variable (hq : x.st = .quiet) (he : elapsed b (if x.sent then x.sentAt else x.entered) (quietTime b) = true)
  (ha : asleep b = false)
include hq he ha

theorem quietEnd_dropped (hp : isPeer b chip = false) : quietEnd b chip
    = grantCredit { count b 0x5010 0x0C with tpe := { b.tpe with rxCredit := erase b.tpe.rxCredit chip } } := by
  rw [quietEnd, hx]
  have due : (decide (x.st ≠ .quiet) || !elapsed b (if x.sent then x.sentAt else x.entered) (quietTime b)
      || (asleep b && isPeer b chip)) = false := by
    simp [hq, he, ha]
  refine (if_neg (by rw [due]; decide)).trans (if_neg ?_)
  rw [show isPeer (count b 0x5010 0x0C) chip = false from hp]
  decide

theorem quietEnd_peer (hp : isPeer b chip = true) : quietEnd b chip
    = (let b' := count b 0x5010 0x0C
      let fl := (List.range 4).map (floorOf b')
      let g := List.zipWith (fun g f => (g + f) % 2 ^ 32) x.g fl
      let y : RxCredit := { x with st := .base, u := x.g, g := g, t := fl, entered := b.clk.now, arrivedAt := b.clk.now,
                                   seen := [false, false, false, false], refreshed := b.clk.now }
      finishResync (sendCredit (setRx b' chip y) chip) chip .ok) := by
  rw [quietEnd, hx]
  have due : (decide (x.st ≠ .quiet) || !elapsed b (if x.sent then x.sentAt else x.entered) (quietTime b)
      || (asleep b && isPeer b chip)) = false := by
    simp [hq, he, ha]
  exact (if_neg (by rw [due]; decide)).trans (if_pos hp)
end

/-! ### The refresh -/

/-- A fold that changes nothing at any element changes nothing. -/
theorem foldl_fixed {α β : Type} {f : β → α → β} {b : β} {l : List α} (h : ∀ a ∈ l, f b a = b) : l.foldl f b = b := by
  induction l with
  | nil => rfl
  | cons a l ih =>
    rw [List.foldl_cons, h a List.mem_cons_self]
    exact ih fun a ha => h a (List.mem_cons_of_mem _ ha)

theorem refreshChip_early {b : Block} {chip : Nat} (h : ∀ y, find? b.tpe.rxCredit chip = some y →
    y.st = .quiet ∨ elapsed b y.refreshed (micros (rd b 0x5010 5)) = false) : refreshChip b chip = b := by
  rw [refreshChip]
  split
  · rfl
  · next x hx =>
    refine if_pos ?_
    rcases h x hx with h | h <;> simp [h]

/-! ### Granting (R237) -/

theorem mem_of_find? {α : Type} {m : SMap α} {k : Nat} {v : α} (h : find? m k = some v) : (k, v) ∈ m := by
  induction m with
  | nil => cases h
  | cons e m ih =>
    rw [find?] at h
    split at h
    · next hk => cases h; subst hk; exact List.mem_cons_self
    · exact List.mem_cons_of_mem _ (ih h)

theorem foldl_add_le {l : List Int} {a a' : Int} (h : a ≤ a' + 1) : l.foldl (· + ·) a ≤ l.foldl (· + ·) a' + 1 := by
  induction l generalizing a a' with
  | nil => exact h
  | cons x l ih =>
    rw [List.foldl_cons, List.foldl_cons]
    exact ih (by omega)

/-- Replacing one entry by one that weighs at most one more adds at most one to the sum. -/
theorem sum_insert_le {α : Type} {f : Nat × α → Int} {m : SMap α} {k n : Nat} {x y : α} (hm : risingFrom n m = true)
    (hx : find? m k = some x) (hf : f (k, y) ≤ f (k, x) + 1) (a : Int) :
    ((insert m k y).map f).foldl (· + ·) a ≤ (m.map f).foldl (· + ·) a + 1 := by
  induction m generalizing n a with
  | nil => cases hx
  | cons e m ih =>
    obtain ⟨k', v⟩ := e
    simp only [risingFrom, Bool.and_eq_true, decide_eq_true_eq] at hm
    rw [find?] at hx
    rw [insert]
    split
    · next hlt => rw [if_neg (by omega), find?_below hm.2 (by omega)] at hx; cases hx
    split
    · next hk =>
      rw [if_pos hk] at hx
      cases hx
      subst hk
      rw [List.map_cons, List.map_cons, List.foldl_cons, List.foldl_cons]
      exact foldl_add_le (by omega)
    · next hk =>
      rw [if_neg hk] at hx
      exact ih hm.2 hx _

/-- One more unit of credit raises what a class holds by at most one. -/
theorem toSigned_grant {g u : Nat} (hg : g < 2 ^ 32) (hu : u < 2 ^ 32) :
    toSigned 32 (2 ^ 32 + (g + 1) % 2 ^ 32 - u) ≤ toSigned 32 (2 ^ 32 + g - u) + 1 := by
  simp only [toSigned]
  omega

/-- A source with one more unit granted in class `c`. -/
def grantOne (x : RxCredit) (c : Nat) : RxCredit := { x with g := x.g.set c ((x.g.getD c 0 + 1) % 2 ^ 32) }

/-- What a source weighs in the sum of R237. -/
def creditWeight (b : Block) (e : Nat × RxCredit) : Int :=
  (classes.map (held e.2)).foldl (· + ·) 0 + (if e.2.st == .quiet then (sumFloors b : Int) else 0)

theorem poolSum_eq (b : Block) : poolSum b
    = (b.tpe.rxCredit.map (creditWeight b)).foldl (· + ·) ((b.tpe.occupied + b.tpe.reserved : Nat) : Int) := rfl

section
variable {x : RxCredit} (hu : ∀ v ∈ x.u, v < 2 ^ 32) (hg : ∀ v ∈ x.g, v < 2 ^ 32)

theorem getD_lt_of_mem {l : List Nat} {n : Nat} (h : ∀ v ∈ l, v < n) (hn : 0 < n) (i : Nat) : l.getD i 0 < n := by
  rw [List.getD_eq_getElem?_getD]
  cases e : l[i]? with
  | none => exact hn
  | some v => exact h v (List.mem_of_getElem? e)

theorem held_grantOne_other {c c' : Nat} (h : c' ≠ c) : held (grantOne x c) c' = held x c' := by
  simp [held, grantOne, List.getD_eq_getElem?_getD, List.getElem?_set, Ne.symm h]

include hu hg

theorem held_grantOne_self (c : Nat) : held (grantOne x c) c ≤ held x c + 1 := by
  have u := getD_lt_of_mem hu (by decide) c
  have g := getD_lt_of_mem hg (by decide) c
  by_cases hc : c < x.g.length
  · have e : (grantOne x c).g.getD c 0 = (x.g.getD c 0 + 1) % 2 ^ 32 := by
      simp [grantOne, List.getD_eq_getElem?_getD, hc]
    rw [held, e]
    exact toSigned_grant g u
  · have e : grantOne x c = x := by
      rw [grantOne, List.set_eq_of_length_le (by omega)]
    rw [e]
    omega

theorem creditWeight_grantOne (b : Block) (k c : Nat) : creditWeight b (k, grantOne x c) ≤ creditWeight b (k, x) + 1 := by
  have self := held_grantOne_self hu hg c
  have other (c' : Nat) (h : c' ≠ c) : held (grantOne x c) c' = held x c' := held_grantOne_other h
  have sum : (classes.map (held (grantOne x c))).foldl (· + ·) 0 ≤ (classes.map (held x)).foldl (· + ·) 0 + 1 := by
    have h3 := other 3
    have h2 := other 2
    have h1 := other 1
    have h0 := other 0
    simp only [classes, List.map_cons, List.map_nil, List.foldl_cons, List.foldl_nil]
    by_cases e3 : c = 3
    · subst e3; omega
    by_cases e2 : c = 2
    · subst e2; omega
    by_cases e1 : c = 1
    · subst e1; omega
    by_cases e0 : c = 0
    · subst e0; omega
    omega
  have st : (grantOne x c).st = x.st := rfl
  simp only [creditWeight, st]
  omega

theorem mem_grantOne {c v : Nat} (h : v ∈ (grantOne x c).g) : v < 2 ^ 32 := by
  rcases List.mem_or_eq_of_mem_set h with h | rfl
  · exact hg v h
  · exact Nat.mod_lt _ (by decide)
end

/-- One grant to a source of the table. -/
def grantTo (b : Block) (s c : Nat) (x : RxCredit) : Block :=
  let b := setRx b s (grantOne x c)
  { b with tpe := { b.tpe with creditTurn := s } }

theorem grantTo_keeps {b : Block} {s : Nat} {x : RxCredit} (hx : find? b.tpe.rxCredit s = some x) (hb : creditOk b)
    (hp : poolSum b < 6144) (c : Nat) : creditOk (grantTo b s c x) ∧ poolSum (grantTo b s c x) ≤ 6144 := by
  obtain ⟨rising, small⟩ := hb
  obtain ⟨hu, hg⟩ : (∀ v ∈ x.u, v < 2 ^ 32) ∧ ∀ v ∈ x.g, v < 2 ^ 32 := small _ (mem_of_find? hx)
  refine ⟨⟨risingFrom_insert _ rising (Nat.zero_le _), fun e he => ?_⟩, ?_⟩
  · rcases mem_insert he with rfl | he
    · exact ⟨hu, fun v hv => mem_grantOne hu hg hv⟩
    · exact small e he
  · have le := sum_insert_le (f := creditWeight b) rising hx (creditWeight_grantOne hu hg b s c) ((b.tpe.occupied + b.tpe.reserved : Nat) : Int)
    rw [poolSum_eq] at hp
    have e : poolSum (grantTo b s c x) = ((insert b.tpe.rxCredit s (grantOne x c)).map (creditWeight b)).foldl (· + ·)
      ((b.tpe.occupied + b.tpe.reserved : Nat) : Int) := rfl
    omega

/-- Granting keeps the table's form and the bound of R237: it stops at 6,144, and each grant adds at most one. -/
theorem grantUnits_keeps {b : Block} (rose : List Nat) (n : Nat) (hb : creditOk b) (hp : poolSum b ≤ 6144) :
    creditOk (grantUnits b rose n).1 ∧ poolSum (grantUnits b rose n).1 ≤ 6144 := by
  induction n generalizing b rose with
  | zero => exact ⟨hb, hp⟩
  | succ n ih =>
    rw [grantUnits]
    split
    · exact ⟨hb, hp⟩
    dsimp only
    split
    · exact ⟨hb, hp⟩
    · next s c x hn =>
      obtain ⟨k, -, hk⟩ := List.exists_of_findSome?_eq_some hn
      have hx : find? b.tpe.rxCredit s = some x := by
        split at hk
        · next y hy =>
          split at hk
          · obtain ⟨c', -, e⟩ := Option.map_eq_some_iff.1 hk
            cases e
            exact hy
          · cases hk
        · cases hk
      obtain ⟨ok, pool⟩ := grantTo_keeps hx hb (by omega) c
      exact ih _ ok pool

/-! ### Resynchronisation (R241) -/

theorem notFmFw_notTnt {acc : Access} (h : notFmFw acc = false) : roleOf acc.path ≠ .tnt := by
  intro e
  simp [notFmFw, e] at h

theorem creditResyncCmd_taken {s : State} {acc : Access} {n : Nat} {x : RxCredit} (ht : canTake s.dev 0x5010 0x20)
    (ha : notFmFw acc = false) (hn : n < 4096) (hp : isPeer s.dev n = true) (hx : find? s.dev.tpe.rxCredit n = some x)
    (hq : x.st ≠ .quiet) : creditResyncCmd s.dev acc n
      = setRx (accepted s.dev acc 0x5010 0x20 n) n { x with st := .quiet, entered := s.dev.clk.now } := by
  have same : (accepted s.dev acc 0x5010 0x20 n).tpe = s.dev.tpe := by simp
  rw [creditResyncCmd, command_accepted ht (notFmFw_notTnt ha) (by decide), goQuiet_of (x := x) (by rw [same]; exact hx) hq,
    accepted_clk]
  simp only [ha, Nat.not_le.2 hn, show isPeer (count s.dev 0x1402 5) n = true from hp]
  rfl

/-- Settles O44. -/
theorem creditIsGrantedRefreshedAndResynchronised : Obligations.CreditIsGrantedRefreshedAndResynchronised := by
  unfold Obligations.CreditIsGrantedRefreshedAndResynchronised
  refine ⟨fun s chip hs => ⟨fun hl => ?_, fun hl => ?_⟩, fun s chip x hx => ⟨fun ha he => ?_, fun h => ?_, fun h => ?_, fun hq he ha => ⟨fun hp => ?_, fun hp => ?_⟩⟩,
    fun s => ⟨rfl, fun h => ?_⟩, fun s acc v x ht ha hn hp hx hq => ?_, fun b rose n hb hp => grantUnits_keeps rose n hb hp⟩
  · have run : creditLapse s.dev chip = noteCredit (setTxCredit s.dev chip { txCredit s.dev chip with synced := false }) :=
      if_pos (by simp [hs, hl])
    refine goes_on run ⟨?_, fun c hc => ?_, memSame_of_mem ?_, rfl⟩
    · rw [State.on, txCredit_noteCredit, setTxCredit_self]
    · rw [State.on, txCredit_noteCredit, setTxCredit_other _ _ hc]
    · simp [State.on]
  · exact next_on (s := s) (b := creditLapse s.dev chip) (b' := s.dev) (if_neg (by simp [hl]))
  · refine goes_on (creditIdle_due hx ha he) ⟨?_, rfl⟩
    exact find?_insert_self ..
  · rw [exec_creditIdleExpiry, creditIdle_early hx h]; rfl
  · rw [exec_quietPeriodEnd, quietEnd_early hx h]; rfl
  · rw [exec_quietPeriodEnd, quietEnd_dropped hx hq he ha hp]; rfl
  · rw [exec_quietPeriodEnd, quietEnd_peer hx hq he ha hp]
  · refine next_on (s := s) (b := creditRefresh s.dev) (b' := s.dev) (foldl_fixed fun a ha => ?_)
    obtain ⟨e, he, rfl⟩ := List.mem_map.1 ha
    exact refreshChip_early (h e he)
  · refine goes_on (creditResyncCmd_taken ht ha hn hp hx hq) ⟨?_, memSame_of_mem ?_, ?_⟩
    · exact pends_accepted (s := s) (acc := acc) (i := 0x5010) (j := 0x20) (a := v.toNat)
    · simp [State.on]
    · exact find?_insert_self ..

end Sys2Proof.Machine
end

section
/-! SUPPORT. Applying contributions (O46). -/

namespace Sys2Proof.Machine

/-! ### Accumulating does not depend on the order (08 Table 8-8) -/

/-- The value of the larger key. -/
def largerBy (κ : Nat → Int) (a x : Nat) : Nat := if κ a < κ x then x else a

theorem largerBy_mem (κ : Nat → Int) (a x : Nat) : largerBy κ a x = a ∨ largerBy κ a x = x := by
  unfold largerBy
  split
  · exact .inr rfl
  · exact .inl rfl

theorem key_largerBy (κ : Nat → Int) (a x : Nat) : κ (largerBy κ a x) = max (κ a) (κ x) := by
  unfold largerBy
  split <;> omega

/-- Values below `n` with a key of their own. -/
def keyed (κ : Nat → Int) (n : Nat) : Prop := ∀ a x, a < n → x < n → κ a = κ x → a = x

theorem keyed_neg {κ : Nat → Int} {n : Nat} (h : keyed κ n) : keyed (fun a => -κ a) n :=
  fun a x ha hx e => h a x ha hx (by simpa using e)

section
variable {κ : Nat → Int} {n a x y : Nat} (hκ : keyed κ n) (ha : a < n) (hx : x < n)
include ha hx

theorem largerBy_lt : largerBy κ a x < n := by
  rcases largerBy_mem κ a x with e | e <;> rw [e] <;> assumption

include hκ

theorem largerBy_comm : largerBy κ a x = largerBy κ x a :=
  hκ _ _ (largerBy_lt ha hx) (largerBy_lt hx ha) (by rw [key_largerBy κ, key_largerBy κ, Int.max_comm])

theorem largerBy_right_comm (hy : y < n) : largerBy κ (largerBy κ a x) y = largerBy κ (largerBy κ a y) x :=
  hκ _ _ (largerBy_lt (largerBy_lt ha hx) hy) (largerBy_lt (largerBy_lt ha hy) hx)
    (by simp only [key_largerBy κ, Int.max_assoc, Int.max_comm (κ x)])
end

theorem keyed_toSigned {w : Nat} (hw : w = 32 ∨ w = 64) : keyed (toSigned w) (2 ^ w) := by
  intro a x ha hx e
  rcases hw with rfl | rfl <;> simp only [toSigned] at e <;> omega

theorem keyed_key32 : keyed key32 (2 ^ 32) := by
  intro a x ha hx e
  simp only [key32, Nat.testBit_eq_decide_div_mod_eq, decide_eq_true_eq] at e
  omega

theorem accInt_max (aw a x : Nat) : accInt 1 aw a x = largerBy (toSigned (8 * aw)) a x := rfl

theorem accInt_min (aw a x : Nat) : accInt 2 aw a x = largerBy (fun a => -toSigned (8 * aw) a) a x := by
  simp only [accInt, largerBy, Int.neg_lt_neg_iff]

theorem accInt_sum {op : Nat} (h1 : op ≠ 1) (h2 : op ≠ 2) (aw a x : Nat) : accInt op aw a x = (a + x) % 2 ^ (8 * aw) := by
  unfold accInt
  split
  · exact absurd rfl h1
  · exact absurd rfl h2
  · rfl

/-- Both laws that make the order of contributions irrelevant. -/
def orderFree (f : Nat → Nat → Nat) (n : Nat) : Prop :=
  ∀ a x y, a < n → x < n → y < n → f a x = f x a ∧ f (f a x) y = f (f a y) x

theorem orderFree_largerBy {κ : Nat → Int} {n : Nat} (h : keyed κ n) : orderFree (largerBy κ) n :=
  fun _ _ _ ha hx hy => ⟨largerBy_comm h ha hx, largerBy_right_comm h ha hx hy⟩

theorem orderFree_accInt (op : Nat) {aw : Nat} (h : aw = 4 ∨ aw = 8) : orderFree (accInt op aw) (2 ^ (8 * aw)) := by
  have signed := keyed_toSigned (w := 8 * aw) (by omega)
  by_cases h1 : op = 1
  · subst h1
    exact orderFree_largerBy signed
  by_cases h2 : op = 2
  · subst h2
    have := orderFree_largerBy (keyed_neg signed)
    simpa only [orderFree, accInt_min] using this
  · intro a x y _ _ _
    simp only [accInt_sum h1 h2, Nat.mod_add_mod]
    exact ⟨by rw [Nat.add_comm], by rw [Nat.add_right_comm]⟩

theorem isNan32_nan32 : isNan32 nan32 = true := by decide

/-- A choice between two numbers that a NaN makes the canonical one. -/
def nanOr (f : Nat → Nat → Nat) (a x : Nat) : Nat := if isNan32 a || isNan32 x then nan32 else f a x

theorem nanOr_right_comm {f : Nat → Nat → Nat} {a x y : Nat} (hm : ∀ a x, f a x = a ∨ f a x = x)
    (hf : f (f a x) y = f (f a y) x) : nanOr f (nanOr f a x) y = nanOr f (nanOr f a y) x := by
  have number {a x : Nat} (ha : isNan32 a = false) (hx : isNan32 x = false) : isNan32 (f a x) = false := by
    rcases hm a x with e | e <;> rw [e] <;> assumption
  cases ha : isNan32 a <;> cases hx : isNan32 x <;> cases hy : isNan32 y <;>
    simp [nanOr, ha, hx, hy, isNan32_nan32, number, hf]

theorem orderFree_nanOr {κ : Nat → Int} {n : Nat} (h : keyed κ n) : orderFree (nanOr (largerBy κ)) n := by
  intro a x y ha hx hy
  refine ⟨?_, nanOr_right_comm (largerBy_mem κ) (largerBy_right_comm h ha hx hy)⟩
  rw [nanOr, nanOr, Bool.or_comm, largerBy_comm h ha hx]

theorem fMax_eq : fMax = nanOr (largerBy key32) := rfl

theorem fMin_eq : fMin = nanOr (largerBy fun a => -key32 a) := by
  funext a x
  simp only [fMin, nanOr, largerBy, Int.neg_lt_neg_iff]

theorem orderFree_accumulate {acc op : Nat} (scale : Nat) (h : (acc = 2 ∨ acc = 3) ∨ acc = 0 ∧ (op = 1 ∨ op = 2)) :
    orderFree (accumulate acc op scale) (2 ^ (8 * accWidth acc)) := by
  rcases h with (rfl | rfl) | ⟨rfl, rfl | rfl⟩
  · exact orderFree_accInt op (.inl rfl)
  · exact orderFree_accInt op (.inr rfl)
  · have e : accumulate 0 1 scale = nanOr (largerBy key32) := fMax_eq
    rw [e]
    exact orderFree_nanOr keyed_key32
  · have e : accumulate 0 2 scale = nanOr (largerBy fun a => -key32 a) := fMin_eq
    rw [e]
    exact orderFree_nanOr (keyed_neg keyed_key32)

/-! ### Bytes read after a write -/

theorem readBytes_congr {b b' : Block} {a n : Nat} (h : ∀ i < n, readByte b (a + i) = readByte b' (a + i)) :
    readBytes b a n = readBytes b' a n := by
  induction n generalizing a with
  | zero => rfl
  | succ n ih =>
    rw [readBytes, readBytes, ih fun i hi => by rw [Nat.add_assoc, Nat.add_comm 1]; exact h (i + 1) (by omega)]
    rw [show readByte b a = readByte b' a from h 0 (by omega)]

theorem readBytes_of_digits {b : Block} {a v n : Nat} (h : ∀ i < n, readByte b (a + i) = BitVec.ofNat 8 (v / 256 ^ i)) :
    readBytes b a n = v % 2 ^ (8 * n) := by
  induction n generalizing a v with
  | zero => simp [readBytes, Nat.mod_one]
  | succ n ih =>
    rw [readBytes, ih (v := v / 256) fun i hi => by
      rw [Nat.add_assoc, Nat.add_comm 1, h (i + 1) (by omega), Nat.pow_succ', Nat.div_div_eq_div_mul]]
    have low : readByte b a = BitVec.ofNat 8 v := by simpa using h 0 (by omega)
    rw [low, BitVec.toNat_ofNat, show 2 ^ (8 * (n + 1)) = 256 * 2 ^ (8 * n) by rw [Nat.mul_add, Nat.pow_add]; omega, Nat.mod_mul]

theorem readBytes_writeBytes_self (b : Block) (a v n : Nat) : readBytes (writeBytes b a v n) a n = v % 2 ^ (8 * n) :=
  readBytes_of_digits fun _ hi => readByte_writeBytes_inside hi

theorem readBytes_writeBytes_outside (b : Block) {a v n a' n' : Nat} (h : a' + n' ≤ a ∨ a + n ≤ a') :
    readBytes (writeBytes b a v n) a' n' = readBytes b a' n' :=
  readBytes_congr fun i hi => readByte_writeBytes_outside (by omega)

/-- A write disturbs nothing while no completion program runs (09 R300). -/
theorem disturb_quiet {b : Block} (h : ∀ e ∈ b.cru.groups, e.2.running = false) (pa len : Nat) : disturb b pa len = b := by
  unfold disturb
  refine foldl_fixed fun e he => ?_
  simp [h e he]

@[simp] theorem writeBytes_cru (b : Block) (a v n : Nat) : (writeBytes b a v n).cru = b.cru := by
  induction n generalizing b a v with
  | zero => rfl
  | succ n ih => rw [writeBytes, ih, writeByte_cru]

@[simp] theorem writeMem_cru (b : Block) (pa v n : Nat) : (writeMem b pa v n).cru = b.cru := writeBytes_cru ..

theorem present_write_quiet {b : Block} (h : ∀ e ∈ b.cru.groups, e.2.running = false) (pa : Nat) (d : Bytes) (m : Nat) :
    (present b (.memWrite pa d m)).mem = (writeMem b pa d.val d.len).mem ∧ (present b (.memWrite pa d m)).cru = b.cru := by
  have quiet : disturb (writeMem b pa d.val d.len) pa d.len = writeMem b pa d.val d.len :=
    disturb_quiet (by rw [writeMem_cru]; exact h) pa d.len
  rw [present, quiet, emit_mem, emit_cru]
  exact ⟨rfl, writeMem_cru ..⟩

theorem writeBytes_mem_congr {b b' : Block} (h : b.mem = b'.mem) (a v n : Nat) :
    (writeBytes b a v n).mem = (writeBytes b' a v n).mem := by
  induction n generalizing b b' a v with
  | zero => exact h
  | succ n ih => exact ih (by simp only [writeByte, h]) ..

/-- What two writes leave where nothing runs that they disturb. -/
theorem present_twoWrites {b : Block} (h : ∀ e ∈ b.cru.groups, e.2.running = false) (pa pa' : Nat) (d d' : Bytes) :
    let t := present (present b (.memWrite pa d 0)) (.memWrite pa' d' 0)
    t.mem = (writeMem (writeMem b pa d.val d.len) pa' d'.val d'.len).mem ∧ t.cru = b.cru := by
  obtain ⟨mem1, cru1⟩ := present_write_quiet h pa d 0
  obtain ⟨mem2, cru2⟩ := present_write_quiet (b := present b (.memWrite pa d 0)) (by rw [cru1]; exact h) pa' d' 0
  exact ⟨mem2.trans (writeBytes_mem_congr mem1 ..), cru2.trans cru1⟩

theorem readByte_congr {b b' : Block} (h : b.mem = b'.mem) (a : Nat) : readByte b a = readByte b' a := by
  rw [readByte, h, readByte]

theorem readMem_congr {b b' : Block} (h : b.mem = b'.mem) (pa n : Nat) : readMem b pa n = readMem b' pa n :=
  readBytes_congr fun _ _ => readByte_congr h _

/-! ### Applying a contribution under its line's lock (Table 8-8) -/

/-- The block once the lock is freed and the application counted. -/
def appCounted (b : Block) (a : App) : Block := count (unlock b a.pa (appLines b a)) (0x6300 + stationOf a.pa) 1

@[simp] theorem appCounted_mem (b : Block) (a : App) : (appCounted b a).mem = b.mem := (rfl)

/-- The new accumulator values and the row with its bit set are written, and the application is done. -/
def applied (b : Block) (a : App) (r row : Nat) (xs : List Nat) : Block :=
  let n := slotElems r a.slot
  let new := applyValues r (readMem b (a.pa + gL r) (n * gA r)) (!gKeep r && row == 0) xs
  setApp (present (present b (.memWrite (a.pa + gL r) ⟨n * gA r, new⟩ 0)) (.memWrite a.pa ⟨gL r, row ||| 2 ^ a.contrib⟩ 0))
    { a with st := .applied }

theorem memoryUe_none (b : Block) (pa pid : Nat) : memoryUe b false pa pid = b := rfl

section
variable {b : Block} {a : App} (hs : served b (uMS (stationOf a.pa)) = true)

theorem applyAt_poison (h : served (memoryUe (appCounted b a) true a.pa a.pid) (uMS (stationOf a.pa)) = true) :
    applyAt b a true = appRefuse (memoryUe (appCounted b a) true a.pa a.pid) a .poison := by
  unfold applyAt
  dsimp only
  rw [← appCounted, h]
  rfl

include hs

theorem applyAt_hit (hr : (readMem b a.pa (gL (group b a.pid a.group).r)).testBit a.contrib = true) :
    applyAt b a false = ledgerHit (cacheBit (dropApp (appCounted b a) a) a) a := by
  have same : readMem (appCounted b a) a.pa (gL (group b a.pid a.group).r) = readMem b a.pa (gL (group b a.pid a.group).r) :=
    readMem_congr (appCounted_mem b a) ..
  unfold applyAt
  dsimp only
  rw [← appCounted, memoryUe_none, if_neg (by rw [show served (appCounted b a) (uMS (stationOf a.pa)) = true from hs]; decide),
    if_neg (by decide), same, if_pos hr]

variable (hr : (readMem b a.pa (gL (group b a.pid a.group).r)).testBit a.contrib = false)
include hr

theorem applyAt_values (hx : (group b a.pid a.group).arr = none) :
    applyAt b a false = applied (appCounted b a) a (group b a.pid a.group).r (readMem b a.pa (gL (group b a.pid a.group).r))
      (incoming (group b a.pid a.group).r a.slot a.payload.val) := by
  have same : readMem (appCounted b a) a.pa (gL (group b a.pid a.group).r) = readMem b a.pa (gL (group b a.pid a.group).r) :=
    readMem_congr (appCounted_mem b a) ..
  unfold applyAt
  dsimp only
  rw [← appCounted, memoryUe_none, if_neg (by rw [show served (appCounted b a) (uMS (stationOf a.pa)) = true from hs]; decide),
    if_neg (by decide), same, if_neg (by rw [hr]; decide), hx]
  rfl

theorem applyAt_program {v : Version} (hx : (group b a.pid a.group).arr = some v) :
    applyAt b a false =
      (let r := (group b a.pid a.group).r
      let n := slotElems r a.slot
      let q := arrivalRun (addTo (addTo (appCounted b a) 0x6010 6 (progCost v.image.val * n)) (0x6400 + a.pid) 0x26 n) r v.image.val
        a.contrib a.slot 0 (incoming r a.slot a.payload.val) (n / 32 + 1)
      applied q.1 a r (readMem b a.pa (gL r)) q.2) := by
  have same : readMem (appCounted b a) a.pa (gL (group b a.pid a.group).r) = readMem b a.pa (gL (group b a.pid a.group).r) :=
    readMem_congr (appCounted_mem b a) ..
  unfold applyAt
  dsimp only
  rw [← appCounted, memoryUe_none, if_neg (by rw [show served (appCounted b a) (uMS (stationOf a.pa)) = true from hs]; decide),
    if_neg (by decide), same, if_neg (by rw [hr]; decide), hx]
  rfl
end

theorem rowBit_lt {r contrib row : Nat} (hr : row < 2 ^ (8 * gL r)) (hc : contrib < gCount r) :
    row ||| 2 ^ contrib < 2 ^ (8 * gL r) := by
  refine Nat.or_lt_two_pow hr (Nat.pow_lt_pow_right (by decide) ?_)
  simp only [gL]
  omega

theorem readBytes_lt (b : Block) (a n : Nat) : readBytes b a n < 2 ^ (8 * n) := by
  induction n generalizing a with
  | zero => simp [readBytes]
  | succ n ih =>
    have low := (readByte b a).isLt
    have high := ih (a + 1)
    rw [readBytes, show 2 ^ (8 * (n + 1)) = 256 * 2 ^ (8 * n) by rw [Nat.mul_add, Nat.pow_add]; omega]
    omega

/-- What an application without an arrival program leaves, where nothing runs that its writes disturb. -/
theorem applied_spec {b : Block} {a : App} {r row : Nat} (xs : List Nat) (hq : ∀ e ∈ b.cru.groups, e.2.running = false)
    (hrow : row < 2 ^ (8 * gL r)) (hc : a.contrib < gCount r) :
    let t := applied b a r row xs
    let n := slotElems r a.slot
    readMem t a.pa (gL r) = row ||| 2 ^ a.contrib
    ∧ (localAddr a.pa + gBlock r ≤ 2 ^ 44 → readMem t (a.pa + gL r) (n * gA r)
        = applyValues r (readMem b (a.pa + gL r) (n * gA r)) (!gKeep r && row == 0) xs % 2 ^ (8 * (n * gA r)))
    ∧ (∀ z, ¬(localAddr a.pa ≤ z ∧ z < localAddr a.pa + gL r) →
        ¬(localAddr (a.pa + gL r) ≤ z ∧ z < localAddr (a.pa + gL r) + n * gA r) → readByte t z = readByte b z)
    ∧ t.cru.apps = b.cru.apps.map (fun y => if y.num = a.num then { a with st := .applied } else y)
    ∧ t.cru.groups = b.cru.groups := by
  intro t n
  obtain ⟨mem, cru⟩ := present_twoWrites hq (a.pa + gL r) a.pa
    ⟨n * gA r, applyValues r (readMem b (a.pa + gL r) (n * gA r)) (!gKeep r && row == 0) xs⟩ ⟨gL r, row ||| 2 ^ a.contrib⟩
  replace mem : t.mem = (writeMem (writeMem b (a.pa + gL r)
    (applyValues r (readMem b (a.pa + gL r) (n * gA r)) (!gKeep r && row == 0) xs) (n * gA r)) a.pa (row ||| 2 ^ a.contrib) (gL r)).mem := mem
  refine ⟨?_, fun hw => ?_, fun z hr hd => ?_, ?_, ?_⟩
  · refine (readMem_congr mem ..).trans ((readBytes_writeBytes_self ..).trans (Nat.mod_eq_of_lt (rowBit_lt hrow hc)))
  · have fits : n * gA r ≤ gD r := Nat.mul_le_mul_right _ (Nat.min_le_left ..)
    have place : 0 < n * gA r → localAddr (a.pa + gL r) = localAddr a.pa + gL r := by
      intro h0
      simp only [gBlock, localAddr] at hw ⊢
      omega
    refine (readMem_congr mem ..).trans ?_
    rcases Nat.eq_zero_or_pos (n * gA r) with h0 | h0
    · rw [h0]; simp [readMem, readBytes, Nat.mod_one]
    · exact (readBytes_writeBytes_outside _ (.inr (Nat.le_of_eq (place h0).symm))).trans (readBytes_writeBytes_self ..)
  · refine (readByte_congr mem z).trans ?_
    rw [writeMem, readByte_writeBytes_outside (by omega), writeMem, readByte_writeBytes_outside (by omega)]
  · exact congrArg (fun c : Crucible => c.apps.map fun y => if y.num = a.num then { a with st := .applied } else y) cru
  · exact congrArg (·.groups) cru

theorem gAddr_found {b : Block} {ms pid g slot contrib : Nat} {a : App} (h : b.cru.apps.find? (fun a => a.pid == pid && a.group == g
    && a.slot == slot && a.contrib == contrib && a.st == .locked && stationOf a.pa == ms) = some a) :
    a.pid = pid ∧ a.group = g ∧ a.slot = slot ∧ a.contrib = contrib ∧ stationOf a.pa = ms := by
  have := List.find?_some h
  simp only [Bool.and_eq_true, beq_iff_eq] at this
  obtain ⟨⟨⟨⟨⟨hp, hg⟩, hs⟩, hc⟩, -⟩, hm⟩ := this
  exact ⟨hp, hg, hs, hc, hm⟩

/-- A group after an application's bytes have been added. -/
def withApplied (x : Group) (n : Nat) : Group := { x with applied := x.applied + n }

theorem addApplied_eq (b : Block) (a : App) : addApplied b a =
    (let c := addTo (count b 0x6000 5) (0x6100 + a.pid) 0x45 a.payload.len
    let x := group c a.pid a.group
    let d := setGroup c a.pid a.group (withApplied x a.payload.len)
    if x.st == .armed && x.applied + a.payload.len == gCount x.r * gContribBytes x.r then completeGroup d a.pid a.group else d) := by
  unfold addApplied
  rfl

theorem addApplied_armed {b : Block} {a : App} {x : Group} (hx : group b a.pid a.group = x) (h : x.st = .armed) :
    let c := setGroup (addTo (count b 0x6000 5) (0x6100 + a.pid) 0x45 a.payload.len) a.pid a.group (withApplied x a.payload.len)
    (x.applied + a.payload.len ≠ gCount x.r * gContribBytes x.r → addApplied b a = c)
    ∧ (x.applied + a.payload.len = gCount x.r * gContribBytes x.r → addApplied b a = completeGroup c a.pid a.group) := by
  have same : group (addTo (count b 0x6000 5) (0x6100 + a.pid) 0x45 a.payload.len) a.pid a.group = x := hx
  rw [addApplied_eq]
  dsimp only
  rw [same, h]
  refine ⟨fun hn => ?_, fun he => ?_⟩
  · rw [if_neg (by simpa using hn)]
  · rw [if_pos (by simpa using he)]

theorem localSlotDone_arrived {b b' : Block} {pid g slot : Nat} {ans : Answer} {st : Status} {d : Nat}
    (ha : (group b pid g).st = .armed) (hl : (group b pid g).localSlot = slot)
    (h : arrive b ⟨.localSlot, groupKey pid g, slot⟩ (group b pid g).localIo ans (slotBytes (group b pid g).r slot) = some (b', st, d)) :
    localSlotDone b pid g slot ans =
      (let c := onGroup b' pid g fun x => { x with localIo := [], localSlot := slot + 1 }
      if st != .ok then endGroup c pid g st true
      else localRead (startApp c ⟨0, pid, g, slot, gCount (group b pid g).r - 1, ⟨slotBytes (group b pid g).r slot, d⟩, false, true,
        0, 0, 0, 0, false, 0, 0, noSeg, .xlate⟩) pid g) := by
  unfold localSlotDone
  dsimp only
  rw [if_neg (by simp [ha, hl]), h]

/-- Settles O46. -/
theorem contributionsAreAppliedOnce : Obligations.ContributionsAreAppliedOnce := by
  unfold Obligations.ContributionsAreAppliedOnce
  refine ⟨fun s ms pid g slot contrib a hf hs => ?_, fun s pid g slot contrib a hf => ?_, fun b a ha => ⟨fun hn => ?_, fun he => ?_⟩,
    fun s pid g slot ans b st d ha hl harr => ⟨fun ho => ?_, fun ho => ?_⟩, fun acc op scale a x y h ha hx hy => orderFree_accumulate scale h a x y ha hx hy⟩
  · obtain ⟨rfl, rfl, rfl, rfl, rfl⟩ := gAddr_found hf
    have run (poison : Bool) : exec (.application (stationOf a.pa) a.pid a.group a.slot a.contrib poison) s
        = .next (s.on (applyAt s.dev a poison)) := by
      refine next_on (b := application s.dev (stationOf a.pa) a.pid a.group a.slot a.contrib poison) ?_
      rw [application, hf]
    refine ⟨fun hr => ?_, fun hr hc hx hq => ?_, fun v hr hx => ?_, fun hm => ?_⟩
    · rw [run, applyAt_hit hs hr]; rfl
    · obtain ⟨row, data, other, apps, groups⟩ := applied_spec (b := appCounted s.dev a) (a := a) (r := (group s.dev a.pid a.group).r)
        (incoming (group s.dev a.pid a.group).r a.slot a.payload.val) hq (readBytes_lt s.dev (localAddr a.pa) _) hc
      refine ⟨_, (run false).trans (next_on (applyAt_values hs hr hx)), row, data, other, apps, groups⟩
    · rw [run, applyAt_program hs hr hx]; rfl
    · rw [run, applyAt_poison hm]; rfl
  · refine next_on (b := applicationReport s.dev pid g slot contrib) ?_
    rw [applicationReport, hf]
  · have e := (addApplied_armed rfl ha).1 hn
    refine ⟨e, ?_⟩
    rw [e]
    exact group_setGroup_self ..
  · exact (addApplied_armed rfl ha).2 he
  · refine next_on (b := localSlotDone s.dev pid g slot ans) ?_
    rw [localSlotDone_arrived ha hl harr, if_neg (by simp [ho])]
  · refine next_on (b := localSlotDone s.dev pid g slot ans) ?_
    rw [localSlotDone_arrived ha hl harr, if_pos (by simpa using ho)]

end Sys2Proof.Machine
end

section
/-! SUPPORT. The lanes' arithmetic (O49). -/

namespace Sys2Proof.Machine

/-! ### The integer operations are the 32-bit machine's (09 Table 9-5) -/

theorem toSigned_eq_toInt (a : Nat) : toSigned 32 a = (BitVec.ofNat 32 a).toInt := by
  simp only [toSigned, BitVec.toInt_eq_toNat_cond, BitVec.toNat_ofNat]
  omega

theorem ofSigned_toSigned {i : Int} (hl : -2 ^ 31 ≤ i) (hu : i < 2 ^ 31) : toSigned 32 (ofSigned 32 i) = i := by
  simp only [toSigned, ofSigned]
  omega

theorem toNat_eq_ofSigned (x : BitVec 32) : x.toNat = ofSigned 32 x.toInt := by
  have := x.isLt
  simp only [ofSigned, BitVec.toInt_eq_toNat_cond]
  omega

section
variable {a b : Nat} (ha : a < 2 ^ 32) (hb : b < 2 ^ 32)

theorem condI_signed : condI 0 a b = (toSigned 32 a == toSigned 32 b) ∧ condI 1 a b = (toSigned 32 a != toSigned 32 b)
    ∧ condI 2 a b = (BitVec.ofNat 32 a).slt (BitVec.ofNat 32 b) ∧ condI 3 a b = (BitVec.ofNat 32 a).sle (BitVec.ofNat 32 b)
    ∧ condI 4 a b = (BitVec.ofNat 32 b).slt (BitVec.ofNat 32 a) ∧ condI 5 a b = (BitVec.ofNat 32 b).sle (BitVec.ofNat 32 a) := by
  simp only [condI, BitVec.slt_eq_decide, BitVec.sle_eq_decide, toSigned_eq_toInt, and_self]

theorem iSra_eq {n : Nat} : iSra a n = ((BitVec.ofNat 32 a).sshiftRight n).toNat := by
  rw [toNat_eq_ofSigned, BitVec.toInt_sshiftRight, iSra, toSigned_eq_toInt, Int.shiftRight_eq_div_pow]

include ha hb

theorem toNat_ofNat_self : (BitVec.ofNat 32 a).toNat = a ∧ (BitVec.ofNat 32 b).toNat = b :=
  ⟨Nat.mod_eq_of_lt ha, Nat.mod_eq_of_lt hb⟩

theorem beq_toSigned : (toSigned 32 a == toSigned 32 b) = (BitVec.ofNat 32 a == BitVec.ofNat 32 b) := by
  obtain ⟨ea, eb⟩ := toNat_ofNat_self ha hb
  rw [Bool.eq_iff_iff, beq_iff_eq, beq_iff_eq, toSigned_eq_toInt, toSigned_eq_toInt, BitVec.toInt_inj]

theorem alu_integers (c sc : Nat) :
    let x : BitVec 32 := BitVec.ofNat 32 a
    let y : BitVec 32 := BitVec.ofNat 32 b
    aluOp 0x10 a b c sc = some (x + y).toNat ∧ aluOp 0x11 a b c sc = some (x - y).toNat
      ∧ aluOp 0x12 a b c sc = some (x * y).toNat
      ∧ aluOp 0x13 a b c sc = some (if x.slt y then x else y).toNat ∧ aluOp 0x14 a b c sc = some (if x.slt y then y else x).toNat
      ∧ aluOp 0x15 a b c sc = some (x &&& y).toNat ∧ aluOp 0x16 a b c sc = some (x ||| y).toNat
      ∧ aluOp 0x17 a b c sc = some (x ^^^ y).toNat ∧ aluOp 0x18 a b c sc = some (x <<< (b % 32)).toNat
      ∧ aluOp 0x19 a b c sc = some (x >>> (b % 32)).toNat ∧ aluOp 0x1A a b c sc = some (x.sshiftRight (b % 32)).toNat := by
  intro x y
  obtain ⟨ea, eb⟩ := toNat_ofNat_self ha hb
  have ex : x.toNat = a := ea
  have ey : y.toNat = b := eb
  have slt : x.slt y = decide (toSigned 32 a < toSigned 32 b) := by
    rw [BitVec.slt_eq_decide, toSigned_eq_toInt, toSigned_eq_toInt]
  have inj : toSigned 32 a = toSigned 32 b → a = b := keyed_toSigned (.inl rfl) a b ha hb
  refine ⟨?_, ?_, ?_, ?_, ?_, ?_, ?_, ?_, ?_, ?_, ?_⟩ <;> refine congrArg some ?_
  · rw [BitVec.toNat_add, ea, eb]; rfl
  · rw [BitVec.toNat_sub, ea, eb, w32]; omega
  · rw [BitVec.toNat_mul, ea, eb]; rfl
  · rw [slt, iMin, apply_ite BitVec.toNat, ex, ey]
    by_cases hba : toSigned 32 b < toSigned 32 a
    · rw [if_pos hba, if_neg (by simp; omega)]
    · rw [if_neg hba]
      split
      · rfl
      · next h => exact inj (by simp at h; omega)
  · simp only [slt, iMax, apply_ite BitVec.toNat, ex, ey, decide_eq_true_eq]
  · rw [BitVec.toNat_and, ea, eb]
  · rw [BitVec.toNat_or, ea, eb]
  · rw [BitVec.toNat_xor, ea, eb]
  · rw [BitVec.toNat_shiftLeft, ea]; rfl
  · rw [BitVec.toNat_ushiftRight, ea]
  · exact iSra_eq
end


/-! ### binary32 codes -/

/-- A binary32 result: a code of 32 bits, its NaN the canonical one. -/
def result32 (v : Nat) : Prop := v < 2 ^ 32 ∧ (isNan32 v = true → v = nan32)

theorem isNan32_iff (c : Nat) : isNan32 c = true ↔ 255 * 2 ^ 23 < c % 2 ^ 31 := by
  rw [isNan32, decide_eq_true_eq]
  rfl

theorem signed_eq (n : Bool) (m : Nat) : signed f32 n m = m + ofBool n * 2 ^ 31 := by
  rw [signed, Nat.shiftLeft_eq]
  rfl

theorem result32_nan : result32 nan32 := ⟨by decide, fun _ => rfl⟩

theorem result32_of_number {v : Nat} (hv : v < 2 ^ 32) (hn : isNan32 v = false) : result32 v :=
  ⟨hv, fun h => absurd (hn.symm.trans h) (by decide)⟩

theorem result32_signed (n : Bool) {m : Nat} (hm : m ≤ 255 * 2 ^ 23) : result32 (signed f32 n m) := by
  have hb := ofBool_lt n
  rw [signed_eq]
  refine result32_of_number (by omega) ?_
  rw [← Bool.not_eq_true, isNan32_iff]
  omega

theorem result32_round32 (v : FVal) : result32 (round32 v) := by
  cases v with
  | nan => exact result32_nan
  | inf n => exact result32_signed n (Nat.le_refl _)
  | fin n m e => exact result32_signed n (Nat.min_le_right ..)

section
variable {a b : Nat} (ha : a < 2 ^ 32) (hb : b < 2 ^ 32)

theorem result32_nanOr {κ : Nat → Int} (ha : a < 2 ^ 32) (hb : b < 2 ^ 32) : result32 (nanOr (largerBy κ) a b) := by
  unfold nanOr
  split
  · exact result32_nan
  · next h =>
    simp only [Bool.or_eq_true, not_or, Bool.not_eq_true] at h
    rcases largerBy_mem κ a b with e | e <;> rw [e]
    · exact result32_of_number ha h.1
    · exact result32_of_number hb h.2

theorem xor_sign (a : Nat) : (a ^^^ 2 ^ 31) % 2 ^ 31 = a % 2 ^ 31 ∧ (a ^^^ 2 ^ 31).testBit 31 = !a.testBit 31 := by
  refine ⟨?_, by rw [Nat.testBit_xor, Nat.testBit_two_pow_self, Bool.xor_true]⟩
  rw [Nat.xor_mod_two_pow, Nat.mod_self, Nat.xor_zero]

theorem isNan32_congr (h : a % 2 ^ 31 = b % 2 ^ 31) : isNan32 a = isNan32 b := by rw [isNan32, isNan32, h]

theorem xor_sign_lt (ha : a < 2 ^ 32) : a ^^^ 2 ^ 31 < 2 ^ 32 := Nat.xor_lt_two_pow ha (by decide)

theorem result32_fNeg (ha : a < 2 ^ 32) : result32 (fNeg a) := by
  unfold fNeg
  split
  · exact result32_nan
  · next h => exact result32_of_number (xor_sign_lt ha) ((isNan32_congr (xor_sign a).1).trans (by simpa using h))

theorem result32_fAbs (a : Nat) : result32 (fAbs a) := by
  unfold fAbs
  split
  · exact result32_nan
  · next h => exact result32_of_number (by omega) ((isNan32_congr (Nat.mod_mod _ _)).trans (by simpa using h))

theorem result32_fMax (ha : a < 2 ^ 32) (hb : b < 2 ^ 32) : result32 (fMax a b) := by
  rw [fMax_eq]
  exact result32_nanOr ha hb

theorem result32_fMin (ha : a < 2 ^ 32) (hb : b < 2 ^ 32) : result32 (fMin a b) := by
  rw [fMin_eq]
  exact result32_nanOr ha hb

theorem result32_fClip (ha : a < 2 ^ 32) (b : Nat) : result32 (fClip a b) := by
  obtain ⟨abs, -⟩ := result32_fAbs b
  obtain ⟨neg, -⟩ := result32_fNeg abs
  obtain ⟨lower, -⟩ := result32_fMax ha neg
  exact result32_fMin lower abs

theorem result32_sqrtFixed (v : FVal) : result32 (sqrtFixed v) := by
  unfold sqrtFixed
  split
  · exact result32_nan
  · split
    · exact result32_nan
    · exact result32_signed false (Nat.le_refl _)
  · split
    · exact result32_signed _ (Nat.zero_le _)
    · split
      · exact result32_nan
      · unfold sqrtRound
        exact result32_round32 _

theorem result32_scalB (a b : Nat) : result32 (scalB a b) := by
  unfold scalB
  split
  · exact result32_round32 _
  · exact result32_round32 _

theorem result32_cvt {code : Nat} (h : 3 ≤ code) (a : Nat) : result32 (cvt code a) := by
  unfold cvt
  split
  · omega
  · omega
  · omega
  all_goals exact result32_round32 _

theorem alu_results {opc : Nat} (h : opc ∈ [0x01, 0x02, 0x03, 0x04, 0x05, 0x06, 0x07, 0x08, 0x09, 0x0A, 0x2A, 0x33])
    (ha : a < 2 ^ 32) (hb : b < 2 ^ 32) {c sc v : Nat} (hv : aluOp opc a b c sc = some v) : result32 v := by
  simp only [List.mem_cons, List.not_mem_nil, or_false] at h
  rcases h with rfl | rfl | rfl | rfl | rfl | rfl | rfl | rfl | rfl | rfl | rfl | rfl <;> cases hv
  · exact result32_round32 _
  · exact result32_round32 _
  · exact result32_round32 _
  · exact result32_round32 _
  · exact result32_round32 _
  · exact result32_fMin ha hb
  · exact result32_fMax ha hb
  · exact result32_fAbs a
  · exact result32_fNeg ha
  · exact result32_fClip ha b
  · exact result32_sqrtFixed _
  · exact result32_scalB a b
end

/-! ### Values of binary32 codes -/

/-- The value of a number's code: an infinity, a subnormal, or a normal number. -/
theorem val32_cases {a : Nat} (hn : isNan32 a = false) : ∃ f E, f < 2 ^ 23 ∧ E < 256 ∧ a % 2 ^ 31 = E * 2 ^ 23 + f
    ∧ (E = 255 ∧ f = 0 ∧ val32 a = .inf (a.testBit 31) ∨ E = 0 ∧ val32 a = .fin (a.testBit 31) f (-149)
      ∨ 1 ≤ E ∧ E < 255 ∧ val32 a = .fin (a.testBit 31) (f + 2 ^ 23) (E - 150)) := by
  have number : ¬ 255 * 2 ^ 23 < a % 2 ^ 31 := by rw [← isNan32_iff, hn]; decide
  have eE : (a % 2 ^ 31) >>> 23 = a % 2 ^ 31 / 2 ^ 23 := Nat.shiftRight_eq_div_pow ..
  refine ⟨a % 2 ^ 31 % 2 ^ 23, a % 2 ^ 31 / 2 ^ 23, by omega, by omega, by omega, ?_⟩
  have value : val32 a = if a % 2 ^ 31 = 255 * 2 ^ 23 then .inf (a.testBit 31)
      else if a % 2 ^ 31 / 2 ^ 23 = 0 then .fin (a.testBit 31) (a % 2 ^ 31 % 2 ^ 23) (-149)
      else .fin (a.testBit 31) (a % 2 ^ 31 % 2 ^ 23 + 2 ^ 23) ((a % 2 ^ 31 / 2 ^ 23 : Nat) - 150) := by
    have inf : f32.infCode = 255 * 2 ^ 23 := rfl
    have width : f32.ew + f32.mw = 31 := rfl
    have mw : f32.mw = 23 := rfl
    unfold val32 decodeF
    dsimp only
    rw [width, inf, mw, eE, if_neg (by simpa [f32] using number)]
    simp only [f32, Fmt.isE4m3, Bool.true_and, decide_eq_true_eq]
    have exponent (z : Int) : z - ((127 : Nat) : Int) - ((23 : Nat) : Int) = z - 150 := by omega
    simp only [Nat.reduceBEq, Bool.false_and, Bool.false_eq_true, if_false, exponent, Int.reduceSub]
  rw [value]
  by_cases h255 : a % 2 ^ 31 = 255 * 2 ^ 23
  · exact .inl ⟨by omega, by omega, if_pos h255⟩
  · rw [if_neg h255]
    by_cases h0 : a % 2 ^ 31 / 2 ^ 23 = 0
    · exact .inr (.inl ⟨h0, if_pos h0⟩)
    · exact .inr (.inr ⟨by omega, by omega, if_neg h0⟩)

/-- A code is its sign and its magnitude. -/
theorem code_eq {a : Nat} (ha : a < 2 ^ 32) : a = a % 2 ^ 31 + ofBool (a.testBit 31) * 2 ^ 31 := by
  rw [Nat.testBit_eq_decide_div_mod_eq]
  by_cases h : a / 2 ^ 31 % 2 = 1
  · simp only [h, decide_true, ofBool, if_true]; omega
  · simp only [h, decide_false, ofBool, Bool.false_eq_true, if_false]; omega

/-- The magnitude code of a nonzero value whose least place is `q`. -/
theorem magCode_place {m : Nat} {e q : Int} (h0 : m ≠ 0) (hq : max (e + Nat.log2 m) (-126) - 23 = q) (he : q ≤ e) :
    magCode f32 .even m e = if q = -149 then m <<< (e - q).toNat
      else (q + 150).toNat * 2 ^ 23 + (m <<< (e - q).toNat - 2 ^ 23) := by
  have place : max (e + Nat.log2 m) (1 - (f32.bias : Int)) - (f32.mw : Int) = q := hq
  have least : (1 - (f32.bias : Int)) - (f32.mw : Int) = -149 := rfl
  have bias : q + (f32.mw : Int) + (f32.bias : Int) = q + 150 := by
    rw [show (f32.mw : Int) = 23 from rfl, show (f32.bias : Int) = 127 from rfl]
    omega
  unfold magCode
  dsimp only
  rw [if_neg h0, place, least, if_pos he, bias]
  rfl

/-- The magnitude code of a subnormal value is its fraction. -/
theorem magCode_subnormal {f : Nat} (hf : f < 2 ^ 23) : magCode f32 .even f (-149) = f := by
  by_cases h0 : f = 0
  · rw [magCode, if_pos h0, h0]
  · have log : Nat.log2 f < 23 := (Nat.log2_lt h0).2 hf
    rw [magCode_place h0 (q := -149) (by omega) (Int.le_refl _), if_pos rfl]
    rfl

theorem magCode_normal {f E : Nat} (hf : f < 2 ^ 23) (hE : 1 ≤ E) : magCode f32 .even (f + 2 ^ 23) ((E : Int) - 150) = E * 2 ^ 23 + f := by
  have log : Nat.log2 (f + 2 ^ 23) = 23 := (Nat.log2_eq_iff (by omega)).2 (by omega)
  rw [magCode_place (by omega) (q := (E : Int) - 150) (by rw [log]; omega) (Int.le_refl _), Int.sub_self,
    show ((E : Int) - 150 + 150).toNat = E by omega, show (0 : Int).toNat = 0 from rfl, Nat.shiftLeft_zero]
  split <;> omega

/-- Rounding the value of a number gives the number back. -/
theorem round32_val32 {a : Nat} (ha : a < 2 ^ 32) (hn : isNan32 a = false) : round32 (val32 a) = a := by
  obtain ⟨f, E, hf, hE, code, h⟩ := val32_cases hn
  have whole := code_eq ha
  rcases h with ⟨rfl, rfl, v⟩ | ⟨rfl, v⟩ | ⟨h1, h255, v⟩ <;> rw [v, round32]
  · rw [signed_eq, show f32.infCode = 255 * 2 ^ 23 from rfl]
    omega
  · rw [magCode_subnormal hf, signed_eq, show f32.infCode = 255 * 2 ^ 23 from rfl, Nat.min_eq_left (by omega)]
    omega
  · rw [magCode_normal hf h1, signed_eq, show f32.infCode = 255 * 2 ^ 23 from rfl, Nat.min_eq_left (by omega)]
    omega

/-! ### The laws of the formats -/

section
variable {a b : Nat} (ha : a < 2 ^ 32) (hn : isNan32 a = false)

theorem fNeg_eq (hn : isNan32 a = false) : fNeg a = a ^^^ 2 ^ 31 := by simp [fNeg, hn]

theorem fNeg_fNeg (hn : isNan32 a = false) : fNeg (fNeg a) = a := by
  have hn' : isNan32 (a ^^^ 2 ^ 31) = false := (isNan32_congr (xor_sign a).1).trans hn
  rw [fNeg_eq hn, fNeg_eq hn', Nat.xor_assoc, Nat.xor_self, Nat.xor_zero]

/-- Flipping the sign negates the value. -/
theorem val32_xor_sign (a : Nat) : val32 (a ^^^ 2 ^ 31) = negV (val32 a) := by
  obtain ⟨low, high⟩ := xor_sign a
  have width : f32.ew + f32.mw = 31 := rfl
  unfold val32 decodeF
  dsimp only
  rw [width, low, high]
  repeat' split
  all_goals rfl

theorem fSub_eq (hn : isNan32 a = false) (b : Nat) : fSub b a = fAdd b (fNeg a) := by
  rw [fSub, fAdd, fNeg_eq hn, val32_xor_sign]

include ha hn

theorem scalB_zero : scalB a 0 = a := by
  have e := round32_val32 ha hn
  unfold scalB
  split
  · next n m x hv =>
    rw [hv] at e
    rw [show x + max (-400) (min 400 (toSigned 32 0)) = x by
      have : toSigned 32 0 = 0 := rfl
      omega]
    exact e
  · exact e
end

/-- The bounds of FCLIP: −|b| is below |b| in the order of binary32 numbers. -/
theorem key32_bounds {b : Nat} (hb : isNan32 b = false) : isNan32 (fAbs b) = false ∧ isNan32 (fNeg (fAbs b)) = false
    ∧ key32 (fNeg (fAbs b)) ≤ key32 (fAbs b) := by
  have abs : fAbs b = b % 2 ^ 31 := by simp [fAbs, hb]
  have hb' : isNan32 (fAbs b) = false := by rw [abs]; exact (isNan32_congr (Nat.mod_mod _ _)).trans hb
  refine ⟨hb', ?_, ?_⟩
  · rw [fNeg_eq hb']
    exact (isNan32_congr (xor_sign _).1).trans hb'
  · obtain ⟨low, high⟩ := xor_sign (fAbs b)
    have plus : (fAbs b).testBit 31 = false := by rw [abs, Nat.testBit_mod_two_pow]; rfl
    rw [fNeg_eq hb', key32, key32, low, high, plus]
    simp only [Bool.not_false, if_true, Bool.false_eq_true, if_false]
    omega

theorem nanOr_numbers {a b : Nat} (ha : isNan32 a = false) (hb : isNan32 b = false) (f : Nat → Nat → Nat) : nanOr f a b = f a b := by
  simp [nanOr, ha, hb]

theorem fClip_bounds {a b : Nat} (ha : isNan32 a = false) (hb : isNan32 b = false) :
    key32 (fNeg (fAbs b)) ≤ key32 (fClip a b) ∧ key32 (fClip a b) ≤ key32 (fAbs b) := by
  obtain ⟨abs, neg, le⟩ := key32_bounds hb
  have lower : fMax a (fNeg (fAbs b)) = largerBy key32 a (fNeg (fAbs b)) := by rw [fMax_eq, nanOr_numbers ha neg]
  have number : isNan32 (largerBy key32 a (fNeg (fAbs b))) = false := by
    rcases largerBy_mem key32 a (fNeg (fAbs b)) with e | e <;> rw [e] <;> assumption
  have top := key_largerBy key32 a (fNeg (fAbs b))
  have clip : fClip a b = largerBy (fun a => -key32 a) (largerBy key32 a (fNeg (fAbs b))) (fAbs b) := by
    rw [fClip, lower, fMin_eq, nanOr_numbers number abs]
  have bottom := key_largerBy (fun a => -key32 a) (largerBy key32 a (fNeg (fAbs b))) (fAbs b)
  rw [clip]
  omega

/-- EXPB of a nonzero number is its binary exponent. -/
theorem expB_spec {a m : Nat} {n : Bool} {e : Int} (hn : isNan32 a = false) (hv : val32 a = .fin n m e) (hm : m ≠ 0) :
    toSigned 32 (expB a) = e + Nat.log2 m ∧ -149 ≤ toSigned 32 (expB a) ∧ toSigned 32 (expB a) ≤ 127 := by
  obtain ⟨f, E, hf, hE, code, h⟩ := val32_cases hn
  have bounds : a % 2 ^ 31 ≠ 0 ∧ a % 2 ^ 31 ≠ 255 * 2 ^ 23 ∧ -149 ≤ e + Nat.log2 m ∧ e + Nat.log2 m ≤ 127 := by
    rcases h with ⟨rfl, rfl, v⟩ | ⟨rfl, v⟩ | ⟨h1, h255, v⟩ <;> rw [hv] at v
    · cases v
    · cases v
      have log : Nat.log2 m < 23 := (Nat.log2_lt hm).2 hf
      omega
    · cases v
      have log : Nat.log2 (f + 2 ^ 23) = 23 := (Nat.log2_eq_iff (by omega)).2 (by omega)
      omega
  obtain ⟨h0, hinf, lo, hi⟩ := bounds
  have finite : isInf32 a = false := by
    rw [isInf32, show f32.infCode = 255 * 2 ^ 23 from rfl]
    simpa using hinf
  have value : expB a = ofSigned 32 (e + Nat.log2 m) := by
    rw [expB, if_neg h0, hn, finite, if_neg (by decide), ilog32, hv]
  rw [value, ofSigned_toSigned (by omega) (by omega)]
  exact ⟨rfl, lo, hi⟩

/-- A comparison with a NaN is true for NE and UN alone. -/
theorem condF_unordered {a b : Nat} (h : isNan32 a = true ∨ isNan32 b = true) (cond : Nat) :
    condF cond a b = (cond == 1 || cond == 6) := by
  have un : (isNan32 a || isNan32 b) = true := by rcases h with h | h <;> simp [h]
  unfold condF
  dsimp only
  rw [un]
  split <;> simp_all

/-! ### An integer of 24 bits survives I2F and F2I -/

/-- A number whose leading bit is bit `L`, moved up to bit 23. -/
theorem shiftLeft_leading {a L : Nat} (hL : L ≤ 23) (low : 2 ^ L ≤ a) (high : a < 2 ^ (L + 1)) :
    2 ^ 23 ≤ a <<< (23 - L) ∧ a <<< (23 - L) < 2 ^ 24 := by
  have e : 2 ^ L * 2 ^ (23 - L) = 2 ^ 23 := by rw [← Nat.pow_add, Nat.add_sub_of_le hL]
  have e' : 2 ^ (L + 1) * 2 ^ (23 - L) = 2 ^ 24 := by rw [← Nat.pow_add, show L + 1 + (23 - L) = 24 by omega]
  rw [Nat.shiftLeft_eq, ← e, ← e']
  exact ⟨Nat.mul_le_mul_right _ low, Nat.mul_lt_mul_of_pos_right high (Nat.two_pow_pos _)⟩

/-- The value of the code of a nonzero integer below 2^24: its bits moved up to bit 23. -/
theorem val32_round32_int {a : Nat} (h0 : a ≠ 0) (ha : a < 2 ^ 24) : ∃ L, Nat.log2 a = L ∧ L ≤ 23
    ∧ val32 (round32 (.fin false a 0)) = .fin false (a <<< (23 - L)) ((L : Int) - 23) := by
  have log : Nat.log2 a < 24 := (Nat.log2_lt h0).2 ha
  refine ⟨Nat.log2 a, rfl, by omega, ?_⟩
  have low : 2 ^ Nat.log2 a ≤ a := Nat.log2_self_le h0
  have high : a < 2 ^ (Nat.log2 a + 1) := Nat.lt_log2_self
  obtain ⟨L, hL⟩ : ∃ L, Nat.log2 a = L := ⟨_, rfl⟩
  rw [hL] at log low high ⊢
  have up := shiftLeft_leading (Nat.le_of_lt_succ log) low high
  have code : magCode f32 .even a 0 = (L + 127) * 2 ^ 23 + (a <<< (23 - L) - 2 ^ 23) := by
    rw [magCode_place h0 (q := (L : Int) - 23) (by omega) (by omega), if_neg (by omega), show (0 - ((L : Int) - 23)).toNat = 23 - L by omega,
      show ((L : Int) - 23 + 150).toNat = L + 127 by omega]
  have value : round32 (.fin false a 0) = (L + 127) * 2 ^ 23 + (a <<< (23 - L) - 2 ^ 23) := by
    rw [round32, code, signed_eq, show f32.infCode = 255 * 2 ^ 23 from rfl, Nat.min_eq_left (by omega),
      show ofBool false = 0 from rfl, Nat.zero_mul, Nat.add_zero]
  obtain ⟨c, hc⟩ : ∃ c, round32 (.fin false a 0) = c := ⟨_, rfl⟩
  rw [hc] at value ⊢
  have sign : c.testBit 31 = false := by
    rw [Nat.testBit_eq_decide_div_mod_eq, decide_eq_false_iff_not]
    omega
  have number : isNan32 c = false := by
    rw [← Bool.not_eq_true, isNan32_iff]
    omega
  obtain ⟨f, E, hf, hE, mag, h⟩ := val32_cases number
  have fields : E = L + 127 ∧ f + 2 ^ 23 = a <<< (23 - L) := by omega
  obtain ⟨rfl, hf'⟩ := fields
  rcases h with ⟨h, -⟩ | ⟨h, -⟩ | ⟨-, -, v⟩
  · omega
  · omega
  · rw [v, sign, hf', show ((L + 127 : Nat) : Int) - 150 = (L : Int) - 23 by omega]

theorem roundShift_exact (a s : Nat) : roundShift .even (a <<< s) s = a := by
  have keep : (a <<< s) >>> s = a := Nat.shiftLeft_shiftRight ..
  have rem : a <<< s % 2 ^ s = 0 := by rw [Nat.shiftLeft_eq, Nat.mul_mod_left]
  have pos : 0 < 2 ^ s := Nat.two_pow_pos _
  simp only [roundShift, keep, rem]
  rw [if_neg]
  simp only [Bool.or_eq_true, Bool.and_eq_true, decide_eq_true_eq]
  omega

theorem toInt32_ofInt32 {a : Nat} (ha : a < 2 ^ 24) : toInt32 false (ofInt32 a) = a := by
  have plain : ofInt32 a = round32 (.fin false a 0) := by
    have : toSigned 32 a = a := by simp only [toSigned]; omega
    have nonneg : decide ((a : Int) < 0) = false := by simpa using Int.natCast_nonneg a
    rw [ofInt32, this, nonneg, Int.natAbs_natCast]
  have back : ofSigned 32 (max (-(2 ^ 31)) (min (2 ^ 31 - 1) (a : Int))) = a := by
    simp only [ofSigned]
    omega
  by_cases h0 : a = 0
  · subst h0
    decide +kernel
  · obtain ⟨L, -, hL, value⟩ := val32_round32_int h0 ha
    rw [plain, toInt32, value]
    dsimp only
    have mag : (if 0 ≤ (L : Int) - 23 then (a <<< (23 - L)) <<< ((L : Int) - 23).toNat
        else if false = true then (a <<< (23 - L)) >>> (-((L : Int) - 23)).toNat
        else roundShift .even (a <<< (23 - L)) (-((L : Int) - 23)).toNat) = a := by
      by_cases h23 : L = 23
      · subst h23
        rfl
      · rw [if_neg (by omega), if_neg (by decide), show (-((L : Int) - 23)).toNat = 23 - L by omega, roundShift_exact]
    rw [mag, if_neg (by decide)]
    exact back

theorem cvt_floatToInt (x : Nat) : cvt 0 x = toInt32 false x := rfl

theorem cvt_intToFloat (x : Nat) : cvt 2 x = ofInt32 x := rfl

/-! ### One lane -/

theorem bitAt_setBit (p n k : Nat) (v : Bool) : bitAt (setBit p n v) k = if k = n then v else bitAt p k := by
  have split : setBit p n v = 2 ^ n * (2 * (p >>> (n + 1)) + ofBool v) + p % 2 ^ n := by
    have hv : ofBool v % 2 ^ 1 = ofBool v := Nat.mod_eq_of_lt (ofBool_lt v)
    rw [setBit, setBits, hv, Nat.shiftLeft_eq, Nat.shiftLeft_eq, Nat.pow_succ]
    grind
  rw [bitAt, split, Nat.testBit_two_pow_mul_add _ (Nat.mod_lt _ (Nat.two_pow_pos _))]
  rcases Nat.lt_trichotomy k n with h | rfl | h
  · rw [if_pos h, if_neg (by omega), Nat.testBit_mod_two_pow, bitAt]
    simp [h]
  · rw [if_neg (by omega), if_pos rfl, Nat.sub_self, Nat.testBit_zero]
    cases v <;> simp [ofBool]
  · obtain ⟨j, rfl⟩ : ∃ j, k = n + 1 + j := ⟨k - (n + 1), by omega⟩
    have half : (2 * (p >>> (n + 1)) + ofBool v) / 2 = p >>> (n + 1) := by
      have := ofBool_lt v
      omega
    rw [if_neg (by omega), if_neg (by omega), show n + 1 + j - n = j + 1 by omega, Nat.testBit_succ, half, Nat.testBit_shiftRight,
      bitAt]

theorem pred_setPred (l : Lane) (n : Nat) (v : Bool) : (l.setPred n v).pred 0 = true
    ∧ (0 < n → (l.setPred n v).pred n = v) ∧ ∀ k, k ≠ n → (l.setPred n v).pred k = l.pred k := by
  refine ⟨rfl, fun hn => ?_, fun k hk => ?_⟩
  · rw [Lane.setPred, if_neg (by omega), Lane.pred, bitAt_setBit, if_pos rfl]
    simp; omega
  · unfold Lane.setPred
    split
    · rfl
    · rw [Lane.pred, bitAt_setBit, if_neg hk, Lane.pred]

theorem reg_setReg (l : Lane) {n : Nat} (v : Nat) (h : n < l.regs.length) :
    (l.setReg n v).reg n = v ∧ ∀ k, k ≠ n → (l.setReg n v).reg k = l.reg k := by
  refine ⟨?_, fun k hk => ?_⟩
  · simp [Lane.reg, Lane.setReg, List.getD_eq_getElem?_getD, h]
  · simp [Lane.reg, Lane.setReg, List.getD_eq_getElem?_getD, List.getElem?_set, Ne.symm hk]

section
variable {b : Block} {img opc : Nat} {o : RunnerOp} {l : Lane}

theorem laneStep_idle (h : l.active = false ∨ l.pred o.pg = o.pn) : laneStep b img opc o l = (b, l) := by
  unfold laneStep
  refine if_pos ?_
  rcases h with h | h <;> simp [Lane.guarded, h]

theorem opB_eq (h : o.sb < 128) :
    opB img l o = if 64 ≤ o.sb then progConst img (o.sb % 64) else l.reg (o.sb % 32) := by
  have bit : bitAt o.sb 6 = decide (64 ≤ o.sb) := by
    rw [bitAt, Nat.testBit_eq_decide_div_mod_eq]
    exact decide_eq_decide.2 (by omega)
  simp only [opB, bit, decide_eq_true_eq, bits_eq, Nat.pow_zero, Nat.div_one] <;> rfl

variable (ha : l.active = true) (hg : l.pred o.pg ≠ o.pn)
include ha hg

theorem laneStep_value {v : Nat} (h : aluOp opc (opA l o) (opB img l o) (opC l o) o.sc = some v) :
    laneStep b img opc o l = (b, l.setReg o.vd v) := by
  unfold laneStep
  rw [if_neg (by simp [Lane.guarded, ha, hg])]
  dsimp only
  rw [h]

/-- The operations with a result of their own: SEL, FCMP, ICMP and PLOG. -/
theorem laneStep_predicates :
    laneStep b img 0x22 o l = (b, l.setReg o.vd (if l.pred (o.sc % 4) then opA l o else opB img l o))
    ∧ laneStep b img 0x20 o l = (b, l.setPred (o.vd % 4) (condF o.sc (opA l o) (opB img l o)))
    ∧ laneStep b img 0x21 o l = (b, l.setPred (o.vd % 4) (condI o.sc (opA l o) (opB img l o)))
    ∧ laneStep b img 0x23 o l
      = (b, l.setPred (o.vd % 4) (predOp (o.sb % 8) (l.pred (o.sa % 4)) (l.pred (o.sc % 4)))) := by
  have guarded : ¬ (!l.guarded o) = true := by simp [Lane.guarded, ha, hg]
  exact ⟨if_neg guarded, if_neg guarded, if_neg guarded, if_neg guarded⟩
end

/-- Settles O49. -/
theorem lanesComputeWhatTheTableSays : Obligations.LanesComputeWhatTheTableSays := by
  unfold Obligations.LanesComputeWhatTheTableSays
  refine ⟨fun a b c sc ha hb => ?_, fun opc ho a b c sc v ha hb hc hv => alu_results ho ha hb hv, fun a sc v ha hs hv hn => ?_,
    fun a b ha hb hn => ⟨round32_val32 ha hn, scalB_zero ha hn, fNeg_fNeg hn, fSub_eq hn b, fun hb' => fClip_bounds hn hb',
      fun n m e hv hm => expB_spec hn hv hm⟩, fun a b cond h => condF_unordered h cond, fun a ha => ?_, fun b img opc o l => ?_⟩
  · obtain ⟨add, sub, mul, min, max, and, or, xor, shl, shr, sra⟩ := alu_integers ha hb c sc
    obtain ⟨-, -, lt, le, gt, ge⟩ := condI_signed (a := a) (b := b)
    obtain ⟨ea, eb⟩ := toNat_ofNat_self ha hb
    have eq : condI 0 a b = (BitVec.ofNat 32 a == BitVec.ofNat 32 b) := beq_toSigned ha hb
    have ne : condI 1 a b = (BitVec.ofNat 32 a != BitVec.ofNat 32 b) := congrArg (! ·) (beq_toSigned ha hb)
    refine ⟨add, sub, mul, min, max, and, or, xor, shl, shr, sra, eq, ne, lt, le, gt, ge, ?_, ?_⟩
    · rw [BitVec.ult_eq_decide, ea, eb]; rfl
    · rw [BitVec.ule_eq_decide, ea, eb]; rfl
  · obtain ⟨-, canonical⟩ := result32_cvt hs a
    cases hv
    exact canonical hn
  · rw [cvt_intToFloat, cvt_floatToInt, toInt32_ofInt32 ha]
  · refine ⟨laneStep_idle, fun ha hg hs => ?_, pred_setPred l, fun n v hn => reg_setReg l v hn⟩
    rw [← opB_eq (img := img) hs]
    exact ⟨fun v hv => laneStep_value ha hg hv, laneStep_predicates ha hg⟩

end Sys2Proof.Machine
end

section
/-! SUPPORT. Spill lines (O52). -/

namespace Sys2Proof.Machine

/-! ### The seal of a spill line (10 R317-R320) -/

/-- Masking a number of `w` bits twice with one stream gives it back. -/
theorem xor_mask_twice {n w : Nat} (k : Nat) (h : n < 2 ^ w) : (((n ^^^ k) % 2 ^ w) ^^^ k) % 2 ^ w = n := by
  rw [Nat.xor_mod_two_pow, Nat.mod_mod, ← Nat.xor_mod_two_pow, Nat.xor_assoc, Nat.xor_self, Nat.xor_zero, Nat.mod_eq_of_lt h]

/-- The key stream of a line. -/
def lineStream (key line major minor : Nat) : Nat :=
  ((List.range 16).map fun i => swapBytes (aes (spillEnc key) (lineBlock 1 line major minor i)) 16).reverse.foldl
    (fun a x => a * 2 ^ 128 + x) 0

theorem cryptLine_eq (key line major minor data : Nat) :
    cryptLine key line major minor data = (data ^^^ lineStream key line major minor) % 2 ^ 2048 := rfl

theorem cryptLine_lt (key line major minor data : Nat) : cryptLine key line major minor data < 2 ^ 2048 := by
  rw [cryptLine_eq]
  exact Nat.mod_lt _ (Nat.two_pow_pos _)

theorem cryptLine_cryptLine {data : Nat} (key line major minor : Nat) (h : data < 2 ^ 2048) :
    cryptLine key line major minor (cryptLine key line major minor data) = data := by
  rw [cryptLine_eq, cryptLine_eq]
  exact xor_mask_twice _ h

theorem poisonTag_lt (key line major minor : Nat) : poisonTag key line major minor < 2 ^ 64 := by
  rw [poisonTag, Nat.shiftRight_eq_div_pow]
  have := aes_lt (spillTag key) (lineBlock 3 line major minor 0)
  omega

theorem ghash_lt {h : Nat} (hh : h < 2 ^ 128) (a c : Bytes) : ghash h a c < 2 ^ 128 := gfMul_lt _ _ hh (by decide)

theorem lineTag_lt (key line major minor cipher : Nat) : lineTag key line major minor cipher < 2 ^ 64 := by
  have mask := aes_lt (spillTag key) (lineBlock 2 line major minor 0)
  have hash := ghash_lt (aes_lt (spillTag key) 0) ⟨16, swapBytes (lineBlock 0 line major minor 0) 16⟩ ⟨256, cipher⟩
  have := Nat.xor_lt_two_pow hash mask
  rw [lineTag, Nat.shiftRight_eq_div_pow]
  omega

theorem slice_whole {c n : Nat} (h : c < 2 ^ (8 * n)) : slice c 0 n = c := by
  rw [slice, Nat.mul_zero, Nat.shiftRight_zero, Nat.mod_eq_of_lt h]

theorem verifyLine_good {key line major minor : Nat} {ans : Answer} {tag : Word} (hp : tag.toNat ≠ poisonTag key line major minor)
    (hs : ans.st = .ok) (ht : tag.toNat = lineTag key line major minor (slice ans.data.val 0 256)) :
    verifyLine key line major minor ans tag = .good (cryptLine key line major minor (slice ans.data.val 0 256)) := by
  have good : (decide (ans.st = .ok) && decide (tag.toNat = lineTag key line major minor (slice ans.data.val 0 256))) = true := by
    rw [decide_eq_true hs, decide_eq_true ht, Bool.and_self]
  rw [verifyLine, if_neg hp, if_pos good]

theorem verifyLine_poisoned {key line major minor : Nat} {tag : Word} (hp : tag.toNat = poisonTag key line major minor)
    (ans : Answer) : verifyLine key line major minor ans tag = .poisoned := by
  rw [verifyLine, if_pos hp]

/-- A word holds the tag of 64 bits it is made of. -/
theorem toNat_tag {n : Nat} (h : n < 2 ^ 64) : (BitVec.ofNat 64 n).toNat = n := by
  rw [BitVec.toNat_ofNat, Nat.mod_eq_of_lt h]

theorem verifyLine_sealed {key line major minor data : Nat} (h : data < 2 ^ 2048)
    (hp : lineTag key line major minor (cryptLine key line major minor data) ≠ poisonTag key line major minor) :
    verifyLine key line major minor ⟨.ok, ⟨256, cryptLine key line major minor data⟩, false⟩
      (BitVec.ofNat 64 (lineTag key line major minor (cryptLine key line major minor data))) = .good data := by
  have small : cryptLine key line major minor data < 2 ^ (8 * 256) := by
    rw [show 8 * 256 = 2048 from rfl]
    exact cryptLine_lt key line major minor data
  have whole := slice_whole small
  have tag := toNat_tag (lineTag_lt key line major minor (cryptLine key line major minor data))
  rw [verifyLine_good (by rw [tag]; exact hp) rfl (by rw [tag, whole]), whole, cryptLine_cryptLine key line major minor h]

/-! ### An access of a row (Table 10-6) -/

/-- The lines of an access of `n` lines from line `first`. -/
def opLines (num first n : Nat) : List LineOp := (List.range n).map fun k => ⟨num, first + k, false, false, none⟩

/-- The block with an access queued. -/
def spillQueued (b : Block) (h : Holder) (c : Ctx) (off len : Nat) (write : Bool) (data : Nat) : Block :=
  let n := (off + len - 1) / 256 - off / 256 + 1
  { b with ssu := { b.ssu with
      ops := b.ssu.ops ++ [⟨b.ssu.nextOp, h, c, write, off, len, data, 0, n, .ok, 0⟩]
      lines := b.ssu.lines ++ opLines b.ssu.nextOp (off / 256) n, nextOp := b.ssu.nextOp + 1 } }

section
variable {b : Block} {h : Holder} {c : Ctx} {off len data : Nat} (hl : len ≠ 0)
include hl

theorem spillAccess_queued {write : Bool} (hc : spillCheck b c.pid off len = none) (hn : write = true → noInjection b) :
    spillAccess b h c off len write data 0 =
      (let n := (off + len - 1) / 256 - off / 256 + 1
      pumpSpill (addTo (addTo (spillQueued b h c off len write data) 0x7000 (if write then 0x0E else 0x0D) n) (0x7100 + c.pid)
        (if write then 4 else 3) n)) := by
  have clean : (if write then checkPath b c.pid (spillPa b off) ((len + 63) / 64) [(uSSU, 1)] else (b, 0)) = (b, 0) := by
    split
    · next hw => exact checkPath_clean (hn hw) ..
    · rfl
  unfold spillAccess
  dsimp only
  rw [if_neg hl, hc]
  dsimp only
  rw [clean]
  dsimp only
  rw [Nat.or_self]
  rfl

theorem spillAccess_refused {st : Status} (hc : spillCheck b c.pid off len = some st) (write : Bool) :
    spillAccess b h c off len write data 0
      = putReply (if st = .guardFault then guardRecord b uSSU (spillPa b off) c 1 .core 0 else b) ⟨h, st, ⟨0, 0⟩, false⟩ := by
  unfold spillAccess
  dsimp only
  rw [if_neg hl, hc]
  cases st <;> rfl
end

theorem spillRow_legal {b : Block} {pid cx off len : Nat} (hp : isPid pid) (hc : cx < 1024) (h1 : 1 ≤ len) (h2 : len ≤ 4096)
    (h3 : off + len ≤ 2 ^ 42) (write : Bool) (data : Nat) :
    spillRow b pid cx off len write data = spillAccess b (rowHolder b) (ctxNow b pid cx) off len write data 0 := by
  obtain ⟨_, _⟩ := hp
  refine if_neg ?_
  simp only [Bool.or_eq_true, decide_eq_true_eq]
  omega

/-! ### A line's turn (R321-R324) -/

theorem nodeUse_clean {b : Block} (h : noInjection b) (l n pid : Nat) : nodeUse b l n pid = (b, false) := by
  have clean : checkFlit b uSSU 0x15 pid 0 = (b, false) := by
    unfold noInjection at h
    simp [checkFlit, injectHere, h]
  rw [nodeUse, clean]

section
variable {b : Block} {l : LineOp} {o : SpillOp} (ho : opOf b l.op = some o) (hp : spillPstate b o.pid ≠ 2)
  (hc : isCondemned b 0 (l.line / 32) = false) (hf : b.ssu.lines.find? (·.line == l.line) = some l) (hb : l.beyond = false)
include ho hp hc hf

theorem lineStep_miss (hm : cached b 0 (l.line / 32) = none) : lineStep b l =
    if l.asked || (o.write && wholeLine o l.line) then fetchPath b (l.line / 32) else askLine (fetchPath b (l.line / 32)) l o := by
  simp only [lineStep, ho, hp, hc, hf, hm, decide_false, Bool.or_self, Bool.false_eq_true, bne_self_eq_false, if_false]

include hb

theorem lineStep_hit {x : TreeNode} (hx : cached b 0 (l.line / 32) = some x) (hn : noInjection b)
    (ha : l.asked = true → l.ans ≠ none) (hk : l.asked = false → leafLocked b (l.line / 32) = false) :
    lineStep b l = lineDo b l o x := by
  have free : ((l.asked && l.ans.isNone) || (!l.asked && leafLocked b (l.line / 32))) = false := by
    cases h : l.asked
    · simp [hk h]
    · simpa [Option.isSome_iff_ne_none] using ha h
  simp only [lineStep, ho, hp, hc, hf, hx, hb, free, nodeUse_clean hn, decide_false, Bool.or_self, Bool.false_eq_true,
    bne_self_eq_false, if_false]
end

section
variable {b : Block} {l : LineOp} {o : SpillOp} {x : TreeNode}

theorem lineDo_unwritten (hw : o.write = false) (hm : leafMinor x.val (l.line % 32) = 0) : lineDo b l o x = endLine b l .ok 0 :=
  if_pos (by simp [hw, hm])

theorem lineDo_overflow (hw : o.write = true) (hm : 4095 ≤ leafMinor x.val (l.line % 32)) : lineDo b l o x
    = settle (markLine b l { l with asked := false, beyond := true, ans := none }) (lineHolder l) :=
  (if_neg (by simp [hw])).trans (if_pos (by simp [hw, hm]))

theorem lineDo_put (hw : o.write = true) (hm : leafMinor x.val (l.line % 32) < 4095)
    (h : wholeLine o l.line = true ∨ leafMinor x.val (l.line % 32) = 0) : lineDo b l o x
      = endLine (putLine b o.pid l.line x (mergeLine o l.line 0) (linePoison o l.line)) l .ok 0 := by
  refine (if_neg (by simp [hw])).trans ((if_neg (by simp [hm])).trans (if_pos ?_))
  rcases h with h | h <;> simp [hw, h]

theorem lineDo_read (hm : leafMinor x.val (l.line % 32) ≠ 0)
    (h : o.write = true → leafMinor x.val (l.line % 32) < 4095 ∧ wholeLine o l.line = false) :
    (l.ans = none → lineDo b l o x = askLine b l o) ∧ ∀ a, l.ans = some a → lineDo b l o x = lineServe b l o x a := by
  have rest : lineDo b l o x = match l.ans with
      | none => askLine b l o
      | some a => lineServe b l o x a := by
    refine (if_neg (by simp [hm])).trans ((if_neg ?_).trans (if_neg ?_))
    · simp only [Bool.and_eq_true, decide_eq_true_eq, not_and, Nat.not_le]
      exact fun hw => (h hw).1
    · simp only [Bool.and_eq_true, Bool.or_eq_true, decide_eq_true_eq, not_and, not_or]
      exact fun hw => ⟨by simp [(h hw).2], hm⟩
  exact ⟨fun ha => by rw [rest, ha], fun a ha => by rw [rest, ha]⟩
end

/-- Settles O52. -/
theorem spillLinesAreSealedAndVerified : Obligations.SpillLinesAreSealedAndVerified := by
  unfold Obligations.SpillLinesAreSealedAndVerified
  refine ⟨fun key line major minor data h => ⟨cryptLine_cryptLine _ _ _ _ h, verifyLine_sealed h, verifyLine_poisoned (toNat_tag (poisonTag_lt ..))⟩,
    fun s pid cx off data hp hcx h1 h2 h3 => ⟨fun hc => ⟨?_, fun hn => ?_⟩, fun st hc => ⟨?_, ?_⟩⟩,
    fun b l o ho hp hc hf hb => ⟨fun hm => ⟨fun h => ?_, fun h1 h2 => ?_⟩, fun x hx hn ha hk => ?_⟩,
    fun b l o x a => ⟨fun d hr => ?_, fun hr => ?_, fun hr hw => ?_, fun hr hw => ?_⟩,
    fun s line ans tag => ⟨fun l hl hi => ?_, fun hl => ?_⟩⟩
  · have run := (spillRow_legal hp hcx h1 h2 h3 false 0).trans (spillAccess_queued (write := false) (h := rowHolder s.dev) (c := ctxNow s.dev pid cx) (Nat.ne_of_gt h1) hc (by simp))
    exact next_on (b := spillRow s.dev pid cx off data.len false 0) run
  · have run := (spillRow_legal hp hcx h1 h2 h3 true data.val).trans (spillAccess_queued (write := true) (h := rowHolder s.dev) (c := ctxNow s.dev pid cx) (Nat.ne_of_gt h1) hc fun _ => hn)
    exact next_on (b := spillRow s.dev pid cx off data.len true data.val) run
  · have run := (spillRow_legal hp hcx h1 h2 h3 false 0).trans (spillAccess_refused (h := rowHolder s.dev) (c := ctxNow s.dev pid cx) (Nat.ne_of_gt h1) hc false)
    exact next_on (b := spillRow s.dev pid cx off data.len false 0) run
  · have run := (spillRow_legal hp hcx h1 h2 h3 true data.val).trans (spillAccess_refused (h := rowHolder s.dev) (c := ctxNow s.dev pid cx) (Nat.ne_of_gt h1) hc true)
    exact next_on (b := spillRow s.dev pid cx off data.len true data.val) run
  · rw [lineStep_miss ho hp hc hf hm, if_pos]
    rcases h with h | ⟨hw, h⟩ <;> simp [*]
  · rw [lineStep_miss ho hp hc hf hm, if_neg]
    simp only [h1, Bool.false_or, Bool.and_eq_true, not_and]
    exact fun hw => by simp [h2 hw]
  · rw [lineStep_hit ho hp hc hf hb hx hn ha hk]
    exact ⟨lineDo_unwritten, lineDo_put, lineDo_overflow, lineDo_read⟩
  · unfold lineServe; dsimp only; rw [hr]
  · unfold lineServe; dsimp only; rw [hr]
  · unfold lineServe; dsimp only; rw [hr]; exact if_neg (by simp [hw])
  · unfold lineServe; dsimp only; rw [hr]; exact if_pos hw
  · refine next_on (b := pumpEngines (spillLineReturn s.dev line ans tag)) (congrArg pumpEngines ?_)
    rw [spillLineReturn, hl]
    exact if_neg (by simp [hi])
  · refine next_on (b := pumpEngines (spillLineReturn s.dev line ans tag)) (congrArg pumpEngines ?_)
    rw [spillLineReturn, hl]

end Sys2Proof.Machine
end

section
/-! SUPPORT. Dispatch, kills and flushes (O55). -/

namespace Sys2Proof.Machine

/-! ### The steps of the Chanter -/

theorem stepOf_congr {b b' : Block} (h : b.cha.steps = b'.cha.steps) (n : Nat) : stepOf b n = stepOf b' n := by
  rw [stepOf, h, stepOf]

/-- A step that is replaced is found under its number. -/
theorem stepOf_setStep {b : Block} {x y : Step} {n : Nat} (h : stepOf b n = some x) (hy : y.num = n) : stepOf (setStep b y) n = some y := by
  subst hy
  unfold stepOf at h ⊢
  unfold setStep
  dsimp only
  generalize b.cha.steps = steps at h ⊢
  induction steps with
  | nil => cases h
  | cons a l ih =>
    rw [List.map_cons]
    by_cases ha : a.num = y.num
    · rw [if_pos ha, List.find?_cons_of_pos (by simp)]
    · rw [if_neg ha, List.find?_cons_of_neg (by simpa using ha)]
      rw [List.find?_cons_of_neg (by simpa using ha)] at h
      exact ih h

theorem stepOf_num {b : Block} {n : Nat} {x : Step} (h : stepOf b n = some x) : x.num = n := by
  simpa using List.find?_some h

/-! ### Stations that are changed one after another -/

theorem station_setStation_other (b : Block) {es k : Nat} (x : Station) (h : k ≠ es) : station (setStation b es x) k = station b k := by
  simp [station, setStation, h]

theorem station_congr {b b' : Block} (h : b.cha.stations = b'.cha.stations) (k : Nat) : station b k = station b' k := by
  rw [station, h, station]

/-- Changes of different stations: each station of the list is changed once, every other keeps its state. -/
theorem foldl_stations {α : Type} {f : Block → α → Block} {key : α → Nat} {R : Station → Station → Prop}
    (self : ∀ b a, R (station b (key a)) (station (f b a) (key a)))
    (other : ∀ b a k, k ≠ key a → station (f b a) k = station b k) {l : List α} (hl : (l.map key).Nodup) (b : Block) :
    (∀ a ∈ l, R (station b (key a)) (station (l.foldl f b) (key a)))
    ∧ ∀ k, k ∉ l.map key → station (l.foldl f b) k = station b k := by
  induction l generalizing b with
  | nil => exact ⟨fun a h => absurd h List.not_mem_nil, fun k _ => rfl⟩
  | cons a l ih =>
    rw [List.map_cons, List.nodup_cons] at hl
    obtain ⟨first, rest⟩ := hl
    obtain ⟨changed, kept⟩ := ih rest (f b a)
    refine ⟨fun a' ha' => ?_, fun k hk => ?_⟩
    · rcases List.mem_cons.1 ha' with rfl | ha'
      · rw [List.foldl_cons, kept _ first]
        exact self b a'
      · have ne : key a' ≠ key a := fun e => first (e ▸ List.mem_map_of_mem ha')
        have := changed a' ha'
        rw [other b a _ ne] at this
        exact this
    · rw [List.map_cons, List.mem_cons, not_or] at hk
      obtain ⟨ne, out⟩ := hk
      exact (kept k out).trans (other b a k ne)

/-! ### Kills (11 R355, R86) -/

/-- What KILL_REQ does to its station. -/
def underKill (x y : Station) : Prop :=
  y.killing = true ∧ y.waiting = x.waiting ∧ y.step = x.step ∧ y.pid = x.pid ∧ y.lastPid = x.lastPid

theorem killStation_cha (b : Block) (es : Nat) : (killStation b es).cha = (setStation b es { station b es with
    killing := true, killAt := b.clk.now, reqs := (station b es).reqs.filter (·.issued) }).cha := by
  have cha : ((((station b es).reqs.filter fun r => !r.issued).foldl (fun b _ => emit b (.eqStatus es .aborted)) b)).cha = b.cha :=
    foldl_keeps (·.cha) (fun b _ => emit b (.eqStatus es .aborted)) (fun _ _ => rfl) _ _
  have clk : ((((station b es).reqs.filter fun r => !r.issued).foldl (fun b _ => emit b (.eqStatus es .aborted)) b)).clk = b.clk :=
    foldl_keeps (·.clk) (fun b _ => emit b (.eqStatus es .aborted)) (fun _ _ => rfl) _ _
  unfold killStation
  dsimp only
  rw [emit_cha]
  unfold setStation
  dsimp only
  rw [cha, clk]

theorem killStation_self (b : Block) (es : Nat) : underKill (station b es) (station (killStation b es) es) := by
  rw [station_congr (congrArg (·.stations) (killStation_cha b es)), station_setStation_self]
  exact ⟨rfl, rfl, rfl, rfl, rfl⟩

theorem killStation_other (b : Block) {es k : Nat} (h : k ≠ es) : station (killStation b es) k = station b k := by
  rw [station_congr (congrArg (·.stations) (killStation_cha b es)), station_setStation_other _ _ h]

theorem killStation_steps (b : Block) (es : Nat) : (killStation b es).cha.steps = b.cha.steps :=
  congrArg (·.steps) (killStation_cha b es)

@[simp] theorem killStation_dict (b : Block) (es : Nat) : (killStation b es).dict = b.dict := by
  unfold killStation
  dsimp only
  rw [emit_dict, setStation_dict]
  exact foldl_keeps (·.dict) (fun b _ => emit b (.eqStatus es .aborted)) (fun _ _ => rfl) _ _

/-- A kill's effect on one of the step's clusters. -/
def killCluster (b : Block) (es : Nat) : Block :=
  let b := onStationES b es fun x => { x with waiting := false }
  if (station b es).killing then b else killStation b es

theorem killCluster_self (b : Block) (es : Nat) : (station (killCluster b es) es).killing = true
    ∧ (station (killCluster b es) es).waiting = false ∧ (station (killCluster b es) es).step = (station b es).step := by
  unfold killCluster
  dsimp only
  have idle : station (onStationES b es fun x => { x with waiting := false }) es = { station b es with waiting := false } :=
    station_setStation_self ..
  split
  · next h => rw [idle] at h ⊢; exact ⟨h, rfl, rfl⟩
  · obtain ⟨killing, waiting, step, -, -⟩ := killStation_self (onStationES b es fun x => { x with waiting := false }) es
    rw [waiting, step, idle]
    exact ⟨killing, rfl, rfl⟩

theorem killCluster_other (b : Block) {es k : Nat} (h : k ≠ es) : station (killCluster b es) k = station b k := by
  unfold killCluster
  dsimp only
  split
  · exact station_setStation_other _ _ h
  · rw [killStation_other _ h]
    exact station_setStation_other _ _ h

theorem killCluster_steps (b : Block) (es : Nat) : (killCluster b es).cha.steps = b.cha.steps := by
  unfold killCluster
  dsimp only
  split
  · rfl
  · exact killStation_steps ..

theorem killCluster_dict (b : Block) (es : Nat) : (killCluster b es).dict = b.dict := by
  unfold killCluster
  dsimp only
  split
  · rfl
  · exact killStation_dict ..

theorem killStep_eq {b : Block} {x : Step} (h : x.kill = none) (k : KillEnd) : killStep b x k
    = x.clusters.foldl killCluster (setStep (count (count b 0x8000 0x0E) (0x8100 + x.pid) 8) { x with kill := some k, left := x.clusters }) := by
  unfold killStep
  rw [h]
  rfl

theorem foldl_killCluster_steps (l : List Nat) (b : Block) : (l.foldl killCluster b).cha.steps = b.cha.steps :=
  foldl_keeps (·.cha.steps) killCluster killCluster_steps l b

theorem foldl_killCluster_dict (l : List Nat) (b : Block) : (l.foldl killCluster b).dict = b.dict :=
  foldl_keeps (·.dict) killCluster killCluster_dict l b

/-! ### Starting and dispatching a step (R349-R351) -/

/-- A station whose WAIT is answered. -/
def startCluster (s : Step) (b : Block) (e : Nat × Nat) : Block :=
  let b := onStationES b e.1 fun x => { x with waiting := false, pid := s.pid, lastPid := s.pid }
  emit b (.edData e.1 ⟨64, dispatchRecord s e.2⟩)

theorem startStep_eq (b : Block) (s : Step) : startStep b s
    = (s.clusters.zip (List.range s.clusters.length)).foldl (startCluster s) (setStep b { s with st := .running, since := b.clk.now }) := rfl

/-- What the start does to a station: its WAIT is answered for the step's partition. -/
def startedFor (s : Step) (x y : Station) : Prop := y.waiting = false ∧ y.pid = s.pid ∧ y.lastPid = s.pid ∧ y.step = x.step

theorem startStep_spec {b : Block} {s x : Step} (hs : stepOf b s.num = some x) (hn : s.clusters.Nodup) :
    stepOf (startStep b s) s.num = some { s with st := .running, since := b.clk.now }
    ∧ (∀ k ∈ s.clusters, startedFor s (station b k) (station (startStep b s) k))
    ∧ ∀ k, k ∉ s.clusters → station (startStep b s) k = station b k := by
  have keys : (s.clusters.zip (List.range s.clusters.length)).map (·.1) = s.clusters := List.map_fst_zip (by simp)
  obtain ⟨changed, kept⟩ := foldl_stations (f := startCluster s) (key := (·.1)) (R := startedFor s)
    (fun b e => by
      have : station (startCluster s b e) e.1 = { station b e.1 with waiting := false, pid := s.pid, lastPid := s.pid } :=
        station_setStation_self ..
      rw [this]
      exact ⟨rfl, rfl, rfl, rfl⟩)
    (fun b e k hk => station_setStation_other _ _ hk) (keys.symm ▸ hn) (setStep b { s with st := .running, since := b.clk.now })
  rw [keys] at kept
  rw [startStep_eq]
  refine ⟨?_, fun k hk => ?_, fun k hk => kept k hk⟩
  · rw [stepOf_congr (foldl_keeps (·.cha.steps) (startCluster s) (fun _ _ => rfl) _ _)]
    exact stepOf_setStep hs rfl
  · obtain ⟨e, he, rfl⟩ := List.mem_map.1 (keys.symm ▸ hk)
    exact changed e he

/-- A station that a dispatch has taken. -/
def takenBy (n : Nat) (x y : Station) : Prop := y = { x with step := some n }

/-- A cluster is given to a step. -/
def takeCluster (n : Nat) (b : Block) (k : Nat) : Block := onStationES b k fun y => { y with step := some n }

/-- The block with a step's clusters taken. -/
def taken (b : Block) (x : Step) (cs : List Nat) : Block :=
  let kills := cs.filter fun k => (station b k).lastPid != x.pid && (station b k).lastPid != 0
  let s := { x with st := .dispatching, clusters := cs, before := kills }
  let b := { setStep b s with cha := { (setStep b s).cha with
    turn := s.pid, queueTurn := store b.cha.queueTurn 0 s.pid ((s.queue + 1) % 8) } }
  cs.foldl (takeCluster x.num) (count b 0x8000 0x0D)

theorem dispatch_eq (b : Block) (x : Step) (cs : List Nat) : dispatch b x cs =
    (let kills := cs.filter fun k => (station b k).lastPid != x.pid && (station b k).lastPid != 0
    if kills.isEmpty then startStep (taken b x cs) { x with st := .dispatching, clusters := cs, before := kills }
    else kills.foldl killStation (taken b x cs)) := rfl

theorem taken_spec {b : Block} {x : Step} {cs : List Nat} (hx : stepOf b x.num = some x) (hn : cs.Nodup) :
    let kills := cs.filter fun k => (station b k).lastPid != x.pid && (station b k).lastPid != 0
    stepOf (taken b x cs) x.num = some { x with st := .dispatching, clusters := cs, before := kills }
    ∧ (∀ k ∈ cs, station (taken b x cs) k = { station b k with step := some x.num })
    ∧ (∀ k, k ∉ cs → station (taken b x cs) k = station b k) ∧ (taken b x cs).clk = b.clk := by
  intro kills
  have hn' : (cs.map id).Nodup := by rw [List.map_id]; exact hn
  obtain ⟨changed, kept⟩ := foldl_stations (f := takeCluster x.num) (key := id)
    (R := takenBy x.num) (fun b k => station_setStation_self ..) (fun b k j hj => station_setStation_other _ _ hj) hn'
    (count { setStep b { x with st := .dispatching, clusters := cs, before := kills } with
      cha := { (setStep b { x with st := .dispatching, clusters := cs, before := kills }).cha with
        turn := x.pid, queueTurn := store b.cha.queueTurn 0 x.pid ((x.queue + 1) % 8) } } 0x8000 0x0D)
  rw [List.map_id] at kept
  refine ⟨?_, changed, kept, ?_⟩
  · refine (stepOf_congr (foldl_keeps (·.cha.steps) (takeCluster x.num) (fun _ _ => rfl) _ _) _).trans ?_
    exact stepOf_setStep hx rfl
  · exact foldl_keeps (·.clk) (takeCluster x.num) (fun _ _ => rfl) _ _

theorem dispatch_spec {b : Block} {x : Step} {cs : List Nat} (hx : stepOf b x.num = some x) (hn : cs.Nodup) :
    let t := dispatch b x cs
    let kills := cs.filter fun k => (station b k).lastPid != x.pid && (station b k).lastPid != 0
    (∀ k ∈ cs, (station t k).step = some x.num) ∧ (∀ k, k ∉ cs → station t k = station b k)
    ∧ (kills = [] → stepOf t x.num = some { x with st := .running, clusters := cs, before := [], since := b.clk.now }
      ∧ ∀ k ∈ cs, (station t k).waiting = false ∧ (station t k).pid = x.pid ∧ (station t k).lastPid = x.pid)
    ∧ (kills ≠ [] → stepOf t x.num = some { x with st := .dispatching, clusters := cs, before := kills }
      ∧ ∀ k ∈ kills, (station t k).killing = true) := by
  intro t kills
  obtain ⟨step, mine, others, clk⟩ := taken_spec hx hn
  have ht : t = _ := dispatch_eq b x cs
  by_cases hk : kills = []
  · have run : t = startStep (taken b x cs) { x with st := .dispatching, clusters := cs, before := kills } := by
      rw [ht]
      exact if_pos (by rw [List.isEmpty_iff]; exact hk)
    obtain ⟨started, changed, kept⟩ := startStep_spec (s := { x with st := .dispatching, clusters := cs, before := kills }) step hn
    rw [← run] at started changed kept
    refine ⟨fun k h => ?_, fun k h => (kept k h).trans (others k h), fun _ => ⟨?_, fun k h => ?_⟩, fun h => absurd hk h⟩
    · obtain ⟨-, -, -, e⟩ := changed k h
      rw [e, mine k h]
    · rw [started, hk, clk]
    · obtain ⟨w, p, q, -⟩ := changed k h
      exact ⟨w, p, q⟩
  · have run : t = kills.foldl killStation (taken b x cs) := by
      rw [ht]
      exact if_neg (by rw [List.isEmpty_iff]; exact hk)
    have hn' : (kills.map id).Nodup := by rw [List.map_id]; exact hn.filter _
    obtain ⟨killed, kept⟩ := foldl_stations (f := killStation) (key := id) (R := underKill) killStation_self
      (fun b es k h => killStation_other b h) hn' (taken b x cs)
    rw [List.map_id] at kept
    rw [← run] at killed kept
    refine ⟨fun k h => ?_, fun k h => ?_, fun h => absurd h hk, fun _ => ⟨?_, fun k h => ?_⟩⟩
    · by_cases hm : k ∈ kills
      · obtain ⟨-, -, e, -, -⟩ := killed k hm
        exact e.trans (by rw [id, mine k h])
      · rw [kept k hm, mine k h]
    · rw [kept k fun hm => h ((List.mem_filter.1 hm).1)]
      exact others k h
    · rw [run]
      exact (stepOf_congr (foldl_keeps (·.cha.steps) killStation killStation_steps _ _) _).trans step
    · obtain ⟨e, -⟩ := killed k h
      exact e

theorem killStep_spec {b : Block} {x : Step} (k : KillEnd) (hx : stepOf b x.num = some x) (hn : x.clusters.Nodup) (h : x.kill = none) :
    let t := killStep b x k
    stepOf t x.num = some { x with kill := some k, left := x.clusters }
    ∧ (∀ es ∈ x.clusters, (station t es).killing = true ∧ (station t es).waiting = false
      ∧ (station t es).step = (station b es).step)
    ∧ (∀ es, es ∉ x.clusters → station t es = station b es)
    ∧ t.dict = (count (count b 0x8000 0x0E) (0x8100 + x.pid) 8).dict := by
  intro t
  have run : t = _ := killStep_eq h k
  have hn' : (x.clusters.map id).Nodup := by rw [List.map_id]; exact hn
  obtain ⟨killed, kept⟩ := foldl_stations (f := killCluster) (key := id)
    (R := fun y z => z.killing = true ∧ z.waiting = false ∧ z.step = y.step) killCluster_self (fun b es k h => killCluster_other b h) hn'
    (setStep (count (count b 0x8000 0x0E) (0x8100 + x.pid) 8) { x with kill := some k, left := x.clusters })
  rw [List.map_id] at kept
  rw [run]
  refine ⟨?_, killed, kept, foldl_killCluster_dict ..⟩
  exact (stepOf_congr (foldl_killCluster_steps ..) _).trans (stepOf_setStep hx rfl)

/-! ### The clusters a step may have (R349, R350) -/

theorem clustersFor_spec {b : Block} {x : Step} {cs : List Nat} (h : clustersFor b x [] = some cs) : cs.length = sK x.desc ∧ cs.Nodup
    ∧ ∀ k ∈ cs, k < 128 ∧ inMask b x.pid k = true ∧ esPresent b k = true ∧ served b (uES k) = true
      ∧ (station b k).waiting = true ∧ (station b k).step = none ∧ (station b k).killing = false
      ∧ capped b x.pid k = false ∧ zoneOf b k ∉ b.cha.tripped := by
  unfold clustersFor at h
  dsimp only at h
  split at h
  · cases h
  · next enough =>
    cases h
    refine ⟨by rw [List.length_take]; omega, ?_, fun k hk => ?_⟩
    · refine List.Nodup.sublist (List.take_sublist ..) (List.nodup_append.2 ⟨?_, ?_, fun a ha c hc e => ?_⟩)
      · exact (List.nodup_range.filter _).filter _
      · exact (List.nodup_range.filter _).filter _
      · have mine := (List.mem_filter.1 ha).2
        have theirs := (List.mem_filter.1 hc).2
        subst e
        simp only [bne, mine] at theirs
        cases theirs
    · have := List.mem_of_mem_take hk
      have ok := (List.mem_append.1 this).elim (fun m => (List.mem_filter.1 m).1) fun m => (List.mem_filter.1 m).1
      rw [List.mem_filter, List.mem_range] at ok
      simpa [clusterFree, esServed, and_assoc] using ok

/-! ### The ends of kills, quanta and runs -/

theorem killDone_of {b : Block} {es : Nat} {x : Step} (hk : (station b es).killing = true)
    (hx : (station b es).step.bind (stepOf b) = some x) :
    let y := { x with before := x.before.erase es }
    let c := setStep (setStation b es { station b es with killing := false }) y
    (x.kill = none → x.st = .dispatching → killDone b es = startReady c y)
    ∧ (x.kill ≠ none ∨ x.st ≠ .dispatching →
      let left := { y with left := x.left.erase es }
      let e := setStep (onStationES c es fun y => { y with step := none }) left
      killDone b es = if x.kill.isSome && left.left.isEmpty then killOver e left else e) := by
  intro y c
  have same : (station b es).step.bind (stepOf (setStation b es { station b es with killing := false })) = some x := hx
  unfold killDone
  dsimp only
  rw [if_neg (by rw [hk]; decide), same]
  refine ⟨fun hn hs => if_pos (by simp [hn, hs]), fun h => if_neg ?_⟩
  rcases h with h | h <;> simp [h]

theorem startReady_dispatching {b : Block} {y : Step} (hs : y.st = .dispatching) (hn : y.kill = none) :
    (y.before = [] → (∀ k ∈ y.clusters, zoneOf b k ∉ b.cha.tripped) → startReady b y = startStep b y)
    ∧ (y.before ≠ [] ∨ (∃ k ∈ y.clusters, zoneOf b k ∈ b.cha.tripped) → startReady b y = b) := by
  refine ⟨fun hb hz => if_pos ?_, fun h => if_neg ?_⟩
  · simpa [hs, hn, hb] using hz
  · rcases h with h | h
    · simp [h]
    · simp only [hs, hn, decide_true, Option.isNone_none, Bool.true_and, Bool.and_eq_true, Bool.not_eq_true', not_and, Bool.not_eq_false]
      exact fun _ => by simpa using h

theorem killTimeout_early {b : Block} {es : Nat} (h : elapsed b (station b es).killAt (micros (rd b 0x8000 4)) = false) :
    killTimeout b es = b := if_pos (by simp [h])

theorem killTimeout_due {b : Block} {es : Nat} {y : Step} (hk : (station b es).killing = true)
    (h : elapsed b (station b es).killAt (micros (rd b 0x8000 4)) = true)
    (hy : (station b es).step.bind (stepOf (raiseFree (setStation b es { station b es with killing := false }) 17 (uES es)
      (station b es).pid)) = some y) :
    killTimeout b es = endStep (y.clusters.foldl (fun b c => onStationES b c fun z => if z.killing then z else { z with step := none })
      (killedRun (raiseFree (setStation b es { station b es with killing := false }) 17 (uES es) (station b es).pid) y)) y .fenced := by
  unfold killTimeout
  dsimp only
  rw [if_neg (by simp [hk, h]), hy]

section
variable {s : State} {acc : Access} {pid n : Nat} (hp : isPid pid)
include hp

theorem queueFlush_taken (ha : mayCommand s.dev acc pid) (ht : canTake s.dev (0x8100 + pid) 1) (hn : n < 8)
    (hl : isLive s.dev pid = true) : queueFlush s.dev acc pid n =
      (let b := accepted s.dev acc (0x8100 + pid) 1 n
      flushCheck (stopSteps { b with cha := { b.cha with flushed := erase b.cha.flushed pid } }
        (fun x => x.pid == pid && x.queue == n && x.st != .bound) .aborted) pid) := by
  have live : isLive (count s.dev 0x1402 5) pid = true := hl
  rw [queueFlush, partCommand_taken hp (by decide) ht (mayCommand_fence ha)]
  · rfl
  · rw [notHostTntFw_count, mayCommand_rights hp ha, live, decide_eq_false (Nat.not_le.2 hn)]
    rfl
end

/-- Settles O55. -/
theorem stepsAreDispatchedKilledAndFlushed : Obligations.StepsAreDispatchedKilledAndFlushed := by
  unfold Obligations.StepsAreDispatchedKilledAndFlushed
  refine ⟨fun s => ⟨fun h => ?_, fun h => ?_⟩, fun b x cs h => clustersFor_spec h, fun b x cs hx hn => dispatch_spec hx hn,
    fun b x k hx hn h => ?_, fun s es h => ?_, fun s es x hk hx => ⟨fun hn hs => ⟨fun hb hz => ?_, fun h => ?_⟩, fun h => ?_⟩,
    fun b x => ⟨fun st h => ?_, fun h => ?_⟩, fun s es hk => ⟨fun h => ?_, fun h y hy => ?_⟩,
    fun s num x hx hs => ⟨fun hp he => ?_, fun h => ?_, fun he => ?_, fun he => ?_⟩, fun s acc pid arg ha hp ht hn hl => ?_⟩
  · exact next_on (b := opportunity s.dev) (if_neg (by simp [h]))
  · exact next_on (b := opportunity s.dev) (b' := s.dev) (if_pos (by simp [h]))
  · obtain ⟨step, killed, kept, dict⟩ := killStep_spec k hx hn h
    refine ⟨step, killed, kept, ?_, ?_⟩
    · rw [rd_congr (congrArg (·.objs) dict), rd_count_other _ (by simp only [objKey]; omega)]
    · exact rd_congr (congrArg (·.objs) dict) ..
  · exact next_on (b := killDone s.dev es) (b' := s.dev) (if_pos (by rw [h]; rfl))
  · obtain ⟨start, -⟩ := startReady_dispatching (b := setStep (setStation s.dev es { station s.dev es with killing := false })
      { x with before := x.before.erase es }) (y := { x with before := x.before.erase es }) hs hn
    exact next_on (((killDone_of hk hx).1 hn hs).trans (start hb hz))
  · obtain ⟨-, wait⟩ := startReady_dispatching (b := setStep (setStation s.dev es { station s.dev es with killing := false })
      { x with before := x.before.erase es }) (y := { x with before := x.before.erase es }) hs hn
    exact next_on (((killDone_of hk hx).1 hn hs).trans (wait h))
  · exact next_on ((killDone_of hk hx).2 h)
  · unfold killOver
    rw [h]
    rfl
  · unfold killOver
    rw [h]
    rfl
  · exact next_on (killTimeout_early h)
  · exact next_on (killTimeout_due hk h hy)
  · refine next_on (b := quantumEnd s.dev num) ?_
    rw [quantumEnd, hx]
    exact if_pos (by simp [hs, hp, he])
  · refine next_on (b := quantumEnd s.dev num) (b' := s.dev) ?_
    rw [quantumEnd, hx]
    refine if_neg ?_
    rcases h with h | h <;> simp [h]
  · refine next_on (b := stepTimeout s.dev num) ?_
    rw [stepTimeout, hx]
    exact if_pos (by simp [hs, he])
  · refine next_on (b := stepTimeout s.dev num) (b' := s.dev) ?_
    rw [stepTimeout, hx]
    exact if_neg (by simp [he])
  · exact next_on (queueFlush_taken hp ha ht hn hl)

end Sys2Proof.Machine
end

section
/-! SUPPORT. Windows, shares, entitlements and budgets (O56). -/

namespace Sys2Proof.Machine

/-! Shares and entitlements (R358) -/

theorem foldl_add_eq_sum (l : List Nat) : l.foldl (· + ·) 0 = l.sum := List.sum_eq_foldl.symm

theorem sum_div_le {α : Type} (l : List α) (f : α → Nat) (d : Nat) : (l.map fun a => f a / d).sum ≤ (l.map f).sum / d := by
  induction l with
  | nil => simp
  | cons a l ih => simpa using Nat.le_trans (Nat.add_le_add_left ih _) (Nat.div_add_div_le_add_div)

theorem sum_map_mul {α : Type} (l : List α) (f : α → Nat) (t : Nat) : (l.map fun a => f a * t).sum = (l.map f).sum * t := by
  induction l with
  | nil => simp
  | cons a l ih => simp only [List.map_cons, List.sum_cons, ih, Nat.add_mul]

theorem sum_map_sum {α : Type} (l : List α) (f g : α → Nat) :
    (l.map fun a => f a + g a).sum = (l.map f).sum + (l.map g).sum := by
  induction l with
  | nil => simp
  | cons a l ih => simp only [List.map_cons, List.sum_cons, ih]; omega

theorem le_sum_of_mem {l : List Nat} {n : Nat} (h : n ∈ l) : n ≤ l.sum := by
  rw [(List.perm_cons_erase h).sum_nat, List.sum_cons]
  exact Nat.le_add_right ..

/-- Parts of a whole in proportion to weights do not exceed it together. -/
theorem sum_parts_le {α : Type} (l : List α) (f : α → Nat) (t : Nat) {d : Nat} (h : (l.map f).sum ≤ d) :
    (l.map fun a => f a * t / d).sum ≤ t := by
  refine Nat.le_trans (sum_div_le l (fun a => f a * t) d) (Nat.div_le_of_le_mul ?_)
  rw [sum_map_mul]
  exact Nat.mul_le_mul_right t h

/-- Shares never exceed the reserve parts and what is left together. -/
theorem shareOut_sum (l : List (Nat × Nat × Nat × Nat)) (rest fuel : Nat) :
    ((shareOut l rest fuel).map (·.2)).sum ≤ (l.map (·.2.1)).sum + rest := by
  induction fuel generalizing l rest with
  | zero => simp [shareOut]
  | succ fuel ih =>
    rw [shareOut, foldl_add_eq_sum]
    split
    next e he =>
      have hb := List.find?_some he
      have mem := List.mem_of_find?_eq_some he
      have hw : rest * e.2.2.1 / (l.map (·.2.2.1)).sum ≤ rest := by
        refine Nat.div_le_of_le_mul ?_
        rw [Nat.mul_comm]
        exact Nat.mul_le_mul_right _ (le_sum_of_mem (List.mem_map_of_mem mem))
      have sum : (l.map (·.2.1)).sum = e.2.1 + ((l.erase e).map (·.2.1)).sum :=
        ((List.perm_cons_erase mem).map (·.2.1)).sum_nat
      have := ih (l.erase e) (rest - (e.2.2.2 - e.2.1))
      simp only [decide_eq_true_eq] at hb
      rw [List.map_cons, List.sum_cons, sum]
      omega
    next =>
      have := sum_parts_le l (·.2.2.1) rest (Nat.le_refl _)
      simp only [List.map_map, Function.comp_def, sum_map_sum, Nat.mul_comm rest] at this ⊢
      omega

/-- A share is its partition's bound or at least its reserve part. -/
theorem shareOut_least (l : List (Nat × Nat × Nat × Nat)) (rest fuel : Nat) :
    ∀ x ∈ shareOut l rest fuel, ∃ e ∈ l, x.1 = e.1 ∧ (x.2 = e.2.2.2 ∨ e.2.1 ≤ x.2) := by
  induction fuel generalizing l rest with
  | zero => simp [shareOut]
  | succ fuel ih =>
    rw [shareOut]
    split
    next e he =>
      intro x hx
      rcases List.mem_cons.mp hx with rfl | hx
      · exact ⟨e, List.mem_of_find?_eq_some he, rfl, Or.inl rfl⟩
      · obtain ⟨e', he', h⟩ := ih _ _ x hx
        exact ⟨e', List.mem_of_mem_erase he', h⟩
    next =>
      intro x hx
      obtain ⟨e, he, rfl⟩ := List.mem_map.mp hx
      exact ⟨e, he, rfl, Or.inr (Nat.le_add_right ..)⟩

/-- The partitions backlogged on a cluster in a window. -/
def waited (w : Window) (k : Nat) : List Nat := pids.filter fun p => look w.backlogged 0 (acctKey p k) != 0

/-- A backlogged partition's reserve part of a cluster's contended cycles. -/
def reservePart (b : Block) (w : Window) (k p : Nat) : Nat :=
  if ((waited w k).map (reserve b)).sum ≤ 256 then reserve b p * look w.contended 0 k / 256
  else reserve b p * look w.contended 0 k / ((waited w k).map (reserve b)).sum

theorem entitled_eq (b : Block) (w : Window) (k : Nat) : entitled b w k
    = shareOut ((waited w k).map fun p => (p, reservePart b w k p, weight b p,
        if cap b p = 0 then look w.contended 0 k else max (reservePart b w k p) (160000 * cap b p / 256)))
      (look w.contended 0 k - ((waited w k).map (reservePart b w k)).sum) ((waited w k).length + 1) := by
  unfold entitled
  simp only [foldl_add_eq_sum]
  rfl

theorem reservePart_sum (b : Block) (w : Window) (k : Nat) :
    ((waited w k).map (reservePart b w k)).sum ≤ look w.contended 0 k := by
  by_cases h : ((waited w k).map (reserve b)).sum ≤ 256
  · rw [show reservePart b w k = fun p => _ from funext fun p => if_pos h]
    exact sum_parts_le _ _ _ h
  · rw [show reservePart b w k = fun p => _ from funext fun p => if_neg h]
    exact sum_parts_le _ _ _ (Nat.le_refl _)

theorem entitled_sum (b : Block) (w : Window) (k : Nat) : ((entitled b w k).map (·.2)).sum ≤ look w.contended 0 k := by
  rw [entitled_eq]
  refine Nat.le_trans (shareOut_sum ..) ?_
  rw [List.map_map]
  exact Nat.le_of_eq (Nat.add_sub_of_le (reservePart_sum b w k))

theorem reservePart_le (b : Block) (w : Window) (k p : Nat) (h : ((waited w k).map (reserve b)).sum ≤ 256) :
    reservePart b w k p = reserve b p * look w.contended 0 k / 256
    ∧ reserve b p * look w.contended 0 k / 256 ≤ look w.contended 0 k := by
  refine ⟨if_pos h, Nat.div_le_of_le_mul (Nat.mul_le_mul_right _ ?_)⟩
  unfold reserve bits
  omega

theorem entitled_least (b : Block) (w : Window) (k : Nat) : ∀ e ∈ entitled b w k,
    isPid e.1 ∧ look w.backlogged 0 (acctKey e.1 k) ≠ 0
    ∧ (((waited w k).map (reserve b)).sum ≤ 256 → reserve b e.1 * look w.contended 0 k / 256 ≤ e.2) := by
  intro x hx
  rw [entitled_eq] at hx
  obtain ⟨e, he, e1, least⟩ := shareOut_least _ _ _ x hx
  obtain ⟨p, hp, rfl⟩ := List.mem_map.mp he
  obtain ⟨hpid, hback⟩ := List.mem_filter.mp hp
  rw [e1]
  refine ⟨mem_pids.mp hpid, by simpa using hback, fun h => ?_⟩
  obtain ⟨part, le⟩ := reservePart_le b w k p h
  rcases least with eq | ge
  · rw [eq]
    dsimp only
    split
    · exact le
    · exact part ▸ Nat.le_max_left ..
  · exact part ▸ ge

theorem clamp_within (lim : Nat) (v : Int) : -(lim : Int) ≤ clamp lim v ∧ clamp lim v ≤ (lim : Int) := by
  unfold clamp
  split
  · omega
  · split <;> omega

/-! The window's budgets (R365) -/

/-- The engines' part of the package's average power in a window. -/
def sparePower (w : Window) : Int :=
  (if w.power.2 = 0 then 0 else average w.power) - ((w.energy.map (·.2)).foldl (· + ·) 0 : Nat)

/-- The package's budget set from a window. -/
def packageBudgeted (b : Block) (w : Window) : Block :=
  let pkg : Int := if w.power.2 = 0 then 0 else average w.power
  let budget : Nat := ((65536 * rd b 0x8000 9 : Nat) - sparePower w).toNat * 10000
  let b := if w.power.2 = 0 then b else wr b 0x8000 0x0A (pkg / 65536).toNat
  let has := rd b 0x8000 9 ≠ 0
  let b := wr b 0x8000 0x0B (if has then (toMicro budget).toNat % 2 ^ 32 else 0)
  { b with cha := { b.cha with pkgBudget := if has then some budget else none } }

/-- A zone's budget set from a window. -/
def zoneBudgeted (w : Window) (b : Block) (z : Nat) : Block :=
  let e := ((w.energy.filter fun e => zoneOf b e.1 == z).map (·.2)).foldl (· + ·) 0
  let t := look w.temps ((0 : Int), 0) z
  let a : Nat := if t.2 = 0 then 0 else (rd b (0x8020 + z) 4 * (fxSigned (rd b (0x8020 + z) 2) - average t)).toNat
  let b := wr (wr b (0x8020 + z) 5 (a / 65536 % 2 ^ 32)) (0x8020 + z) 6 (e / 65536 % 2 ^ 32)
  { b with cha := { b.cha with zoneBudget := store b.cha.zoneBudget 0 z (10000 * a) } }

/-- A partition's energy of a window written. -/
def energyTold (w : Window) (b : Block) (p : Nat) : Block :=
  if isLive b p then wr b (0x8100 + p) 0x0D (look w.partEnergy 0 p / 65536 % 2 ^ 32) else b

theorem setBudgets_eq (b : Block) (w : Window) : setBudgets b w
    = pids.foldl (energyTold w) ((List.range (packageBudgeted b w).straps.zones).foldl (zoneBudgeted w)
        (packageBudgeted b w)) := by
  unfold setBudgets
  exact Eq.refl _

/-- What neither a dictionary write nor the budgets themselves touch stays as it is. -/
theorem setBudgets_keeps {α : Type} (g : Block → α) (b : Block) (w : Window)
    (hw : ∀ b i j v, j ∈ [0x0A, 0x0B, 5, 6, 0x0D] → g (wr b i j v) = g b)
    (hp : ∀ b x z, g { b with cha := { b.cha with pkgBudget := x, zoneBudget := z } } = g b) :
    g (setBudgets b w) = g b := by
  have energy (b : Block) (p : Nat) : g (energyTold w b p) = g b := by
    unfold energyTold
    split
    · exact hw _ _ _ _ (by decide)
    · rfl
  have zone (b : Block) (z : Nat) : g (zoneBudgeted w b z) = g b := by
    unfold zoneBudgeted
    exact ((hp _ _ _).trans (hw _ _ _ _ (by decide))).trans (hw _ _ _ _ (by decide))
  have package : g (packageBudgeted b w) = g b := by
    unfold packageBudgeted
    refine ((hp _ _ _).trans (hw _ _ _ _ (by decide))).trans ?_
    split
    · rfl
    · exact hw _ _ _ _ (by decide)
  rw [setBudgets_eq]
  exact ((foldl_keeps g _ energy _ _).trans (foldl_keeps g _ zone _ _)).trans package

theorem packageBudgeted_pkgBudget (b : Block) (w : Window) : (packageBudgeted b w).cha.pkgBudget
    = if rd b 0x8000 9 = 0 then none else some (((65536 * rd b 0x8000 9 : Nat) - sparePower w).toNat * 10000) := by
  have has : rd (if w.power.2 = 0 then b else wr b 0x8000 0x0A
      ((if w.power.2 = 0 then 0 else average w.power) / 65536).toNat) 0x8000 9 = rd b 0x8000 9 := by
    split
    · rfl
    · exact rd_wr_other b _ (by decide)
  unfold packageBudgeted
  simp only [has, ne_eq, ite_not]

theorem setBudgets_pkgBudget (b : Block) (w : Window) : (setBudgets b w).cha.pkgBudget
    = if rd b 0x8000 9 = 0 then none
      else some (10000 * ((65536 * rd b 0x8000 9 : Nat) - ((if w.power.2 = 0 then 0 else w.power.1 / (w.power.2 : Int))
        - ((w.energy.map (·.2)).sum : Nat) : Int)).toNat) := by
  have energy (b : Block) (p : Nat) : (energyTold w b p).cha.pkgBudget = b.cha.pkgBudget := by
    unfold energyTold
    split <;> rfl
  rw [setBudgets_eq, foldl_keeps (·.cha.pkgBudget) _ energy, foldl_keeps (·.cha.pkgBudget) (zoneBudgeted w) (fun _ _ => rfl),
    packageBudgeted_pkgBudget, sparePower, foldl_add_eq_sum, Nat.mul_comm]
  rfl

/-- The objects that a window's budgets do not write. -/
theorem rd_setBudgets (b : Block) (w : Window) (i : Nat) {j : Nat} (hj : j < 256) (h : j ∉ [0x0A, 0x0B, 5, 6, 0x0D]) :
    rd (setBudgets b w) i j = rd b i j := by
  refine setBudgets_keeps (rd · i j) b w (fun b k l v hl => rd_wr_other b v ?_) (fun _ _ _ => rfl)
  exact objKey_ne (Or.inr fun e => h (e ▸ hl)) ((by decide : ∀ l ∈ [0x0A, 0x0B, 5, 6, 0x0D], l < 256) l hl) hj

/-! The update of a window (R358-R360, R371) -/

/-- The deficits of a window's update. -/
theorem settleWindow_deficit (b : Block) (x : PastWindow) (p : Nat) (hp : p ∈ pids) (hl : isLive b p = true) :
    look (settleWindow b x).cha.deficit 0 p = newDeficit b x.win x.excess
      ((bitList b.straps.esMask.toNat 128).map fun k => (k, entitled b x.win k)) p := by
  unfold settleWindow
  dsimp only
  rw [List.foldl_map]
  exact look_foldl_store (fun p => p) _ 0 _ p _ _ (fun a _ e => e ▸ rfl) (Or.inr ⟨p, List.mem_filter.mpr ⟨hp, hl⟩, rfl⟩)

/-- A partition's guarantee debt grown by a window. -/
def debtGrown (w : Window) (ks : List Nat) (b : Block) (p : Nat) : Block :=
  addTo b (0x8100 + p) 4 (newDebt b w ks p)

theorem newDebt_congr {b b' : Block} (hc : b'.cha = b.cha) (hp : b'.ptb = b.ptb) (w : Window) (ks : List Nat) (p : Nat) :
    newDebt b' w ks p = newDebt b w ks p := by
  simp only [newDebt, reserve, schedNow, part, hc, hp]

theorem rd_debts_other (w : Window) (ks : List Nat) (p : Nat) (l : List Nat) (b : Block) (hp : p ∉ l) :
    rd (l.foldl (debtGrown w ks) b) (0x8100 + p) 4 = rd b (0x8100 + p) 4 := by
  induction l generalizing b with
  | nil => rfl
  | cons a l ih =>
    obtain ⟨hne, hl⟩ := not_or.mp (fun h => hp (List.mem_cons.mpr h))
    exact (ih _ hl).trans (rd_wr_other _ _ (objKey_ne (Or.inl (by omega)) (by decide) (by decide)))

theorem rd_debts (w : Window) (ks : List Nat) (p : Nat) (l : List Nat) (nodup : l.Nodup) (b : Block) (hp : p ∈ l) :
    rd (l.foldl (debtGrown w ks) b) (0x8100 + p) 4 = rd (addTo b (0x8100 + p) 4 (newDebt b w ks p)) (0x8100 + p) 4 := by
  induction l generalizing b with
  | nil => cases hp
  | cons a l ih =>
    have nodup := List.nodup_cons.mp nodup
    rw [List.foldl_cons]
    by_cases e : p = a
    · subst e
      exact rd_debts_other w ks p l (debtGrown w ks b p) nodup.1
    · rw [ih nodup.2 _ ((List.mem_cons.mp hp).resolve_left e)]
      have same : rd (debtGrown w ks b a) (0x8100 + p) 4 = rd b (0x8100 + p) 4 :=
        rd_wr_other _ _ (objKey_ne (Or.inl (by omega)) (by decide) (by decide))
      simp only [addTo, rd_wr_self, same]
      rw [newDebt_congr (b := b) (b' := debtGrown w ks b a) rfl rfl]

theorem settleWindow_debt (b : Block) (x : PastWindow) (p : Nat) (hp : p ∈ pids) (hl : isLive b p = true) :
    rd (settleWindow b x) (0x8100 + p) 4 = rd (addTo b (0x8100 + p) 4
      (newDebt b x.win (bitList b.straps.esMask.toNat 128) p)) (0x8100 + p) 4 :=
  rd_debts x.win _ p _ (List.Pairwise.filter _ (by decide)) b (List.mem_filter.mpr ⟨hp, hl⟩)

theorem rd_settleWindow_other (b : Block) (x : PastWindow) {i j : Nat} (h : j ≠ 4) (hj : j < 256) :
    rd (settleWindow b x) i j = rd b i j :=
  foldl_keeps (rd · i j) _ (fun _ _ => rd_wr_other _ _ (objKey_ne (Or.inr h) (by decide) hj)) _ b

/-- What counting and the update do not touch stays as it is. -/
theorem settleWindow_keeps {α : Type} (g : Block → α) (b : Block) (x : PastWindow)
    (hw : ∀ b i j v, g (wr b i j v) = g b)
    (hc : ∀ b x z, g { b with cha := { b.cha with deficit := x, capCut := z } } = g b) :
    g (settleWindow b x) = g b :=
  (hc _ _ _).trans (foldl_keeps g _ (fun b p => hw b _ _ _) _ b)

/-- The block whose lateness is counted, if the update is late. -/
def latenessCounted (b : Block) (x : PastWindow) : Block :=
  if x.since + 2000 < b.clk.now then count b 0x8000 0x11 else b

/-- The block in which an update's values stand. -/
def putInForce (b : Block) (x : PastWindow) (rest : List PastWindow) : Block :=
  progressed { b with cha := { b.cha with past := rest, inForce := x.set } } uChanter

theorem putInForce_cha (b : Block) (x : PastWindow) (rest : List PastWindow) :
    (putInForce b x rest).cha = { b.cha with past := rest, inForce := x.set } := rfl

theorem putInForce_mem (b : Block) (x : PastWindow) (rest : List PastWindow) : (putInForce b x rest).mem = b.mem := rfl

theorem rd_putInForce (b : Block) (x : PastWindow) (rest : List PastWindow) (i j : Nat) :
    rd (putInForce b x rest) i j = rd b i j := rfl

theorem policyDone_eq {b : Block} {x : PastWindow} {rest : List PastWindow} (h : b.cha.past = x :: rest) :
    policyDone b = setBudgets (putInForce (settleWindow (latenessCounted b x) x) x rest) x.win := by
  unfold policyDone
  rw [h]
  exact Eq.refl _

theorem newDeficit_congr {b b' : Block} (hc : b'.cha = b.cha) (hl : rd b' 0x8000 6 = rd b 0x8000 6) (w : Window)
    (excess : SMap Nat) (ent : List (Nat × List (Nat × Nat))) (p : Nat) :
    newDeficit b' w excess ent p = newDeficit b w excess ent p := by
  simp only [newDeficit, deficit, hc, hl]

theorem entitled_congr {b b' : Block} (hc : b'.cha = b.cha) (hp : b'.ptb = b.ptb) (w : Window) (k : Nat) :
    entitled b' w k = entitled b w k := by
  have now : schedNow b' = schedNow b := funext fun p => by simp only [schedNow, part, hc, hp]
  have r : reserve b' = reserve b := funext fun p => by simp only [reserve, now]
  have c : cap b' = cap b := funext fun p => by simp only [cap, now]
  have we : weight b' = weight b := funext fun p => by simp only [weight, now]
  simp only [entitled, r, c, we]

theorem policyDone_spec {b : Block} {x : PastWindow} {rest : List PastWindow} (h : b.cha.past = x :: rest) :
    let t := policyDone b
    let ks := bitList b.straps.esMask.toNat 128
    let ent := ks.map fun k => (k, entitled b x.win k)
    t.cha.past = rest ∧ t.cha.inForce = x.set
    ∧ t.cha.steps = b.cha.steps ∧ t.cha.stations = b.cha.stations ∧ t.mem = b.mem
    ∧ (∀ p ∈ pids, isLive b p = true → look t.cha.deficit 0 p = newDeficit b x.win x.excess ent p
      ∧ rd t (0x8100 + p) 4 = rd (addTo b (0x8100 + p) 4 (newDebt b x.win ks p)) (0x8100 + p) 4)
    ∧ rd t 0x8000 0x11 = if x.since + 2000 < b.clk.now then rd (count b 0x8000 0x11) 0x8000 0x11
      else rd b 0x8000 0x11 := by
  intro t ks ent
  have late {α : Type} (g : Block → α) (hg : ∀ b i j v, g (wr b i j v) = g b) : g (latenessCounted b x) = g b := by
    unfold latenessCounted
    split
    · exact hg _ _ _ _
    · rfl
  have hcha : (latenessCounted b x).cha = b.cha := late _ fun _ _ _ _ => rfl
  have hptb : (latenessCounted b x).ptb = b.ptb := late _ fun _ _ _ _ => rfl
  have hstraps : (latenessCounted b x).straps = b.straps := late _ fun _ _ _ _ => rfl
  have hrd {i j : Nat} (hj : j < 256) (hne : j ≠ 0x11) : rd (latenessCounted b x) i j = rd b i j := by
    unfold latenessCounted
    split
    · exact rd_wr_other _ _ (objKey_ne (Or.inr hne) (by decide) hj)
    · rfl
  have hmem : (latenessCounted b x).mem = b.mem := late _ fun _ _ _ _ => rfl
  have h11 : rd (latenessCounted b x) 0x8000 0x11
      = if x.since + 2000 < b.clk.now then rd (count b 0x8000 0x11) 0x8000 0x11 else rd b 0x8000 0x11 :=
    apply_ite (rd · 0x8000 0x11) _ _ _
  have et : t = _ := policyDone_eq h
  clear_value t
  rw [et]
  generalize latenessCounted b x = c at *
  have kept {α : Type} (g : Chanter → α) (hp : ∀ c x z, g { c with pkgBudget := x, zoneBudget := z } = g c) :
      g (setBudgets (putInForce (settleWindow c x) x rest) x.win).cha
        = g { (settleWindow c x).cha with past := rest, inForce := x.set } :=
    (setBudgets_keeps (fun b => g b.cha) _ _ (fun _ _ _ _ _ => rfl) (fun _ _ _ => hp _ _ _)).trans
      (congrArg g (putInForce_cha _ _ _))
  refine ⟨kept (·.past) (fun _ _ _ => rfl), kept (·.inForce) (fun _ _ _ => rfl), ?_, ?_, ?_, fun p hp hl => ⟨?_, ?_⟩, ?_⟩
  · rw [kept (·.steps) (fun _ _ _ => rfl), ← hcha]
    exact settleWindow_keeps (·.cha.steps) c x (fun _ _ _ _ => rfl) (fun _ _ _ => rfl)
  · rw [kept (·.stations) (fun _ _ _ => rfl), ← hcha]
    exact settleWindow_keeps (·.cha.stations) c x (fun _ _ _ _ => rfl) (fun _ _ _ => rfl)
  · rw [setBudgets_keeps (·.mem) _ _ (fun _ _ _ _ _ => rfl) (fun _ _ _ => rfl), putInForce_mem, ← hmem]
    exact settleWindow_keeps (·.mem) c x (fun _ _ _ _ => rfl) (fun _ _ _ => rfl)
  · have live : isLive c p = true := by simpa only [isLive, part, hptb] using hl
    rw [kept (·.deficit) (fun _ _ _ => rfl)]
    dsimp only
    rw [settleWindow_deficit c x p hp live, newDeficit_congr hcha (hrd (by decide) (by decide)), hstraps]
    simp only [entitled_congr hcha hptb, ent, ks]
  · have live : isLive c p = true := by simpa only [isLive, part, hptb] using hl
    rw [rd_setBudgets _ _ _ (by decide) (by decide), rd_putInForce, settleWindow_debt c x p hp live,
      newDebt_congr hcha hptb, hstraps]
    simp only [addTo, rd_wr_self]
    rw [hrd (by decide) (by decide)]
  · rw [rd_setBudgets _ _ _ (by decide) (by decide), rd_putInForce, rd_settleWindow_other c x (by decide) (by decide), h11]

@[simp] theorem emitRec_cha (b : Block) (kind pid index : Nat) (sync : Bool) (body : Bytes) :
    (emitRec b kind pid index sync body).cha = b.cha := by
  unfold emitRec
  simp [apply_ite Block.cha]

@[simp] theorem mirrorNote_cha (b : Block) (kind pid index : Nat) (body : Bytes) :
    (mirrorNote b kind pid index body).cha = b.cha := by
  unfold mirrorNote
  simp [apply_ite Block.cha]

@[simp] theorem emitRec_clk (b : Block) (kind pid index : Nat) (sync : Bool) (body : Bytes) :
    (emitRec b kind pid index sync body).clk = b.clk := by
  unfold emitRec
  simp [apply_ite Block.clk]

@[simp] theorem mirrorNote_clk (b : Block) (kind pid index : Nat) (body : Bytes) :
    (mirrorNote b kind pid index body).clk = b.clk := by
  unfold mirrorNote
  simp [apply_ite Block.clk]

/-- The block once the accounts of the LIVE partitions are mirrored. -/
def accountsMirrored (b : Block) : Block :=
  (pids.filter (isLive b)).foldl (fun b p => mirrorNote b 7 p 0 ⟨64, acctBody b p⟩) b

theorem accountsMirrored_keeps {α : Type} (g : Block → α) (h : ∀ b p body, g (mirrorNote b 7 p 0 body) = g b) (b : Block) :
    g (accountsMirrored b) = g b := foldl_keeps g _ (fun b p => h b p _) _ b

theorem windowStart_starts {b : Block} (hm : b.clk.now % 10000 = 0) (hw : b.cha.windowAt ≠ b.clk.now) (ha : asleep b = false) :
    windowStart b = { accountsMirrored b with cha := { b.cha with
      windowAt := b.clk.now, now := Window.fresh, counted := [], overDue := []
      past := b.cha.past ++ [⟨b.clk.now, b.cha.now, b.cha.overDue,
        (pids.filter (isLive b)).map fun p => (p, ((part b p).sched, (part b p).energy))⟩] } } := by
  have hcha : (accountsMirrored b).cha = b.cha := accountsMirrored_keeps _ (fun b p _ => mirrorNote_cha ..) b
  have hclk : (accountsMirrored b).clk = b.clk := accountsMirrored_keeps _ (fun b p _ => mirrorNote_clk ..) b
  have hptb : (accountsMirrored b).ptb = b.ptb := accountsMirrored_keeps _ (fun b p _ => mirrorNote_ptb ..) b
  have hpart (p : Nat) : part (accountsMirrored b) p = part b p := by simp only [part, hptb]
  unfold windowStart
  rw [if_neg (by simp [hm, hw, ha])]
  change { accountsMirrored b with cha := { (accountsMirrored b).cha with
    windowAt := (accountsMirrored b).clk.now, now := Window.fresh, counted := [], overDue := []
    past := (accountsMirrored b).cha.past ++ [PastWindow.mk (accountsMirrored b).clk.now (accountsMirrored b).cha.now
      (accountsMirrored b).cha.overDue ((pids.filter (isLive b)).map fun p =>
        (p, ((part (accountsMirrored b) p).sched, (part (accountsMirrored b) p).energy)))] } } = _
  simp only [hcha, hclk, hpart]

/-- Settles O56: the window's sums by the sharing's two invariants, the update field by field. -/
theorem accountsBudgetsAndEntitlementsOfAWindow : Obligations.AccountsBudgetsAndEntitlementsOfAWindow := by
  unfold Obligations.AccountsBudgetsAndEntitlementsOfAWindow
  refine ⟨?telemetry, ?start, ?done, fun b w => setBudgets_pkgBudget b w,
    fun b w k => ⟨entitled_sum b w k, entitled_least b w k⟩, fun b w excess ent p => clamp_within _ _⟩
  case telemetry => exact fun s counts power temps => rfl
  case start =>
    refine fun s => ⟨fun hm hw ha => ?_, fun h => ?_⟩
    · refine goes_on (windowStart_starts hm hw ha) ?_
      exact ⟨rfl, accountsMirrored_keeps (·.mem) (fun b p _ => mirrorNote_mem ..) _, rfl⟩
    · refine next_on (b := windowStart s.dev) (b' := s.dev) (if_pos ?_)
      rcases h with h | h | h <;> simp [h]
  case done =>
    refine fun s => ⟨fun h => ?_, fun x rest h => ⟨_, rfl, policyDone_spec h⟩⟩
    refine next_on (b := policyDone s.dev) (b' := s.dev) ?_
    unfold policyDone
    rw [h]

end Sys2Proof.Machine
end

section
/-! SUPPORT. Fault events, their log and their counts (O57). -/

namespace Sys2Proof.Machine

@[simp] theorem sendRecord_dict_cmds (b : Block) (p : Path) (owner : Bool) (r : Bytes) :
    (sendRecord b p owner r).dict.cmds = b.dict.cmds := by
  unfold sendRecord
  (repeat' split) <;> simp

@[simp] theorem notifyDone_dict_cmds (b : Block) (acc : Access) (cmdSeq : Nat) (c : Code) (result : Nat) :
    (notifyDone b acc cmdSeq c result).dict.cmds = b.dict.cmds := by
  unfold notifyDone
  grind [sendRecord_dict_cmds, !draw_dict, msix_dict]

/-! Finishing the waiting commands (R384) -/

/-- A command that finishes leaves what is pending on other objects. -/
theorem pendingCmd_finishCmd_other (b : Block) {i j k l : Nat} (h : objKey k l ≠ objKey i j) (c : Code) (d : Nat) :
    pendingCmd (finishCmd b i j c d) k l = pendingCmd b k l := by
  unfold finishCmd
  split
  · rfl
  · unfold pendingCmd
    rw [notifyDone_dict_cmds, wr_dict_cmds, List.find?_filter]
    congr 1
    funext x
    by_cases e : x.key = objKey k l <;> simp [e, h]

/-- One FAULT_WAIT command answered, if it waits for a SEQ that a new one passes. -/
def finishWait (b : Block) (q sub : Nat) : Block :=
  match pendingCmd b 0x9000 sub with
  | some c =>
    let d := (2 ^ 32 + q - c.arg % 2 ^ 32) % 2 ^ 32
    if 1 ≤ d && d < 2 ^ 31 then finishCmd b 0x9000 sub .ok (q % 2 ^ 24) else b
  | none => b

theorem finishWaits_eq (b : Block) (q : Nat) : finishWaits b q = finishWait (finishWait b q 0x45) q 0x46 := rfl

theorem finishWait_cases (b : Block) (q sub : Nat) :
    finishWait b q sub = b ∨ finishWait b q sub = finishCmd b 0x9000 sub .ok (q % 2 ^ 24) := by
  unfold finishWait
  split
  · dsimp only
    split
    · exact Or.inr rfl
    · exact Or.inl rfl
  · exact Or.inl rfl

@[simp] theorem finishWaits_fcu (b : Block) (q : Nat) : (finishWaits b q).fcu = b.fcu := by
  have one (b : Block) (sub : Nat) : (finishWait b q sub).fcu = b.fcu := by
    rcases finishWait_cases b q sub with e | e <;> simp [e]
  rw [finishWaits_eq, one, one]

theorem rd_finishWait_other (b : Block) (q : Nat) {sub i j : Nat} (h : objKey i j ≠ objKey 0x9000 (sub + 0x80)) :
    rd (finishWait b q sub) i j = rd b i j := by
  rcases finishWait_cases b q sub with e | e
  · rw [e]
  · rw [e, rd_finishCmd_other _ _ _ h]

theorem pendingCmd_finishWait_other (b : Block) (q : Nat) {sub j : Nat} (h : j ≠ sub) :
    pendingCmd (finishWait b q sub) 0x9000 j = pendingCmd b 0x9000 j := by
  rcases finishWait_cases b q sub with e | e
  · rw [e]
  · rw [e, pendingCmd_finishCmd_other _ (by unfold objKey; omega)]

/-- A waiting command that a new SEQ passes finishes with it. -/
theorem rd_finishWait_self {b : Block} {q sub : Nat} {c : PendCmd} (h : pendingCmd b 0x9000 sub = some c)
    (ha : c.arg < 2 ^ 32) (h1 : 1 ≤ (2 ^ 32 + q - c.arg) % 2 ^ 32) (h2 : (2 ^ 32 + q - c.arg) % 2 ^ 32 < 2 ^ 31) :
    rd (finishWait b q sub) 0x9000 (sub + 0x80) = rd (finishCmd b 0x9000 sub .ok (q % 2 ^ 24)) 0x9000 (sub + 0x80) := by
  unfold finishWait
  rw [h]
  simp only [Nat.mod_eq_of_lt ha, h1, h2, decide_true, Bool.and_self, if_true]

/-- FAULT_WAIT under a SEQ that qualifies finishes at once. -/
theorem finishes_finishWaits {s : State} {acc : Access} {sub arg q : Nat} (h : canTake s.dev 0x9000 sub)
    (hs : sub = 0x45 ∨ sub = 0x46) (ha : arg < 2 ^ 32) (h1 : 1 ≤ (2 ^ 32 + q - arg) % 2 ^ 32)
    (h2 : (2 ^ 32 + q - arg) % 2 ^ 32 < 2 ^ 31) :
    finishes s (s.on (finishWaits (accepted s.dev acc 0x9000 sub arg) q)) 0x9000 sub .ok (q % 2 ^ 24) := by
  have p := pendingCmd_accepted (acc := acc) (a := arg) h
  have done := finishes_finishCmd (acc := acc) (a := arg) (b := accepted s.dev acc 0x9000 sub arg) h rfl .ok (q % 2 ^ 24)
  unfold finishes State.on at done ⊢
  rw [finishWaits_eq]
  rcases hs with rfl | rfl
  · rw [rd_finishWait_other _ _ (by decide), rd_finishWait_self p ha h1 h2]
    exact done
  · have p' := (pendingCmd_finishWait_other (accepted s.dev acc 0x9000 0x46 arg) q (sub := 0x45) (by decide)).trans p
    rw [rd_finishWait_self p' ha h1 h2, rd_finishCmd_self p']
    exact resultWord_mod _ 2 .ok (q % 2 ^ 24) (by decide)

/-! A fault's record (R376, R377) -/

/-- Fields of the given values and widths side by side, the first one lowest. -/
def packed : List (Nat × Nat) → Nat
  | [] => 0
  | (v, w) :: l => v + 2 ^ w * packed l

theorem packed_lt (l : List (Nat × Nat)) (fit : ∀ e ∈ l, e.1 < 2 ^ e.2) : packed l < 2 ^ (l.map (·.2)).sum := by
  induction l with
  | nil => simp [packed]
  | cons e l ih =>
    have hl := ih fun x hx => fit x (List.mem_cons_of_mem e hx)
    have he := fit e List.mem_cons_self
    rw [packed, List.map_cons, List.sum_cons, Nat.pow_add]
    calc e.1 + 2 ^ e.2 * packed l < 2 ^ e.2 * (packed l + 1) := by rw [Nat.mul_add]; omega
      _ ≤ _ := Nat.mul_le_mul_left _ hl

/-- Each packed field reads as its value. -/
theorem bits_packed (l : List (Nat × Nat)) (fit : ∀ e ∈ l, e.1 < 2 ^ e.2) {i v w : Nat} (hi : l[i]? = some (v, w)) :
    bits (packed l) ((l.take i).map (·.2)).sum w = v := by
  induction l generalizing i with
  | nil => simp at hi
  | cons e l ih =>
    have he := fit e List.mem_cons_self
    cases i with
    | zero =>
      obtain rfl : e = (v, w) := by simpa using hi
      simp only [bits, packed, List.take_zero, List.map_nil, List.sum_nil, Nat.shiftRight_zero, Nat.add_mul_mod_self_left]
      exact Nat.mod_eq_of_lt he
    | succ i =>
      have := ih (fun x hx => fit x (List.mem_cons_of_mem e hx)) (by simpa using hi)
      rw [packed, List.take_succ_cons, List.map_cons, List.sum_cons, bits, Nat.shiftRight_add,
        Nat.shiftRight_eq_div_pow _ e.2, Nat.add_mul_div_left _ _ (Nat.two_pow_pos _), Nat.div_eq_of_lt he, Nat.zero_add]
      exact this

/-- The fields of a fault's record, from its lowest bit. -/
def faultFields (now seq addr applied target : Nat) (e : Event) (promoted : Bool) : List (Nat × Nat) :=
  [(0, 32), (target, 4), (ofBool e.injected, 1), (ofBool promoted, 1), (applied, 3), (e.fsrc, 9), (e.pid, 6), (e.unit, 16),
    (e.detail % 2 ^ 32, 32), (addr % 2 ^ 56, 56), (seq, 32), (now, 64)]

theorem faultNum_packed (now seq addr applied target : Nat) (e : Event) (promoted : Bool) :
    faultNum now seq addr applied target e promoted = packed (faultFields now seq addr applied target e promoted) := by
  unfold faultNum faultFields
  simp only [packed, Nat.shiftLeft_eq]
  grind

theorem bitAt_bits (n i : Nat) (b : Bool) (h : bits n i 1 = ofBool b) : bitAt n i = b := by
  rw [bitAt, Nat.testBit_eq_decide_div_mod_eq, ← Nat.shiftRight_eq_div_pow]
  cases b <;> simp_all [bits, ofBool]

theorem faultFields_fit (now seq addr applied target : Nat) (e : Event) (promoted : Bool) (hn : now < 2 ^ 64) (hs : seq < 2 ^ 32)
    (ha : applied < 8) (ht : target < 16) (hu : e.unit < 2 ^ 16) (hp : e.pid < 64) (hf : e.fsrc < 2 ^ 9) :
    ∀ x ∈ faultFields now seq addr applied target e promoted, x.1 < 2 ^ x.2 := by
  have one (b : Bool) : ofBool b < 2 ^ 1 := ofBool_lt b
  unfold faultFields
  simp only [List.forall_mem_cons, List.not_mem_nil, false_implies, implies_true, and_true]
  exact ⟨by decide, ht, one _, one _, ha, hf, hp, hu, Nat.mod_lt _ (by decide), Nat.mod_lt _ (by decide), hs, hn⟩

theorem faultNum_fields (now seq addr applied target : Nat) (e : Event) (promoted : Bool) (hn : now < 2 ^ 64) (hs : seq < 2 ^ 32)
    (ha : applied < 8) (ht : target < 16) (hu : e.unit < 2 ^ 16) (hp : e.pid < 64) (hf : e.fsrc < 2 ^ 9) :
    let r := faultNum now seq addr applied target e promoted
    r < 2 ^ 256 ∧ bits r 192 64 = now ∧ bits r 160 32 = seq ∧ bits r 104 56 = addr % 2 ^ 56 ∧ bits r 72 32 = e.detail % 2 ^ 32
      ∧ bits r 56 16 = e.unit ∧ bits r 50 6 = e.pid ∧ bits r 41 9 = e.fsrc ∧ bits r 38 3 = applied
      ∧ bitAt r 37 = promoted ∧ bitAt r 36 = e.injected ∧ bits r 32 4 = target ∧ bits r 0 32 = 0 := by
  have fit := faultFields_fit now seq addr applied target e promoted hn hs ha ht hu hp hf
  have widths : (faultFields now seq addr applied target e promoted).map (·.2) = [32, 4, 1, 1, 3, 9, 6, 16, 32, 56, 32, 64] := rfl
  have lt := packed_lt _ fit
  have field (i : Nat) {o w v : Nat} (ho : ([32, 4, 1, 1, 3, 9, 6, 16, 32, 56, 32, 64].take i).sum = o)
      (hv : (faultFields now seq addr applied target e promoted)[i]? = some (v, w)) :
      bits (packed (faultFields now seq addr applied target e promoted)) o w = v := by
    have := bits_packed _ fit hv
    rwa [List.map_take, widths, ho] at this
  rw [widths] at lt
  rw [faultNum_packed]
  generalize packed (faultFields now seq addr applied target e promoted) = r at lt field
  exact ⟨lt, field 11 (by decide) rfl, field 10 (by decide) rfl, field 9 (by decide) rfl, field 8 (by decide) rfl,
    field 7 (by decide) rfl, field 6 (by decide) rfl, field 5 (by decide) rfl, field 4 (by decide) rfl,
    bitAt_bits _ _ _ (field 3 (by decide) rfl), bitAt_bits _ _ _ (field 2 (by decide) rfl), field 1 (by decide) rfl,
    field 0 (by decide) rfl⟩

/-! The fault log (R376) -/

/-- The block in which a record is logged, before what it sets off. -/
def recorded (b : Block) (e : Event) (applied target : Nat) (promoted : Bool) : Block :=
  let q := (rd b 0x9000 6 + 1) % 2 ^ 32
  let r := faultNum b.clk.now q (if isSealed b e.pid then 0 else e.addr) applied target e promoted
  let f := b.fcu
  let b := if 256 ≤ f.logged then count b 0x9000 8 else b
  let b := { b with fcu := { f with
    log := insert f.log (f.logged % 256) r
    logged := f.logged + 1
    firstFatal := if applied = 4 && f.firstFatal = 0 then r else f.firstFatal
    lastFence := if 3 ≤ applied then r else f.lastFence
    lastSrc := store f.lastSrc 0 e.unit e.fsrc } }
  wr (wr b 0x9000 6 q) (0x9200 + e.fsrc) 8 q

/-- The interrupt of a record and the waiting commands that it answers. -/
def announced (b : Block) (q applied : Nat) : Block :=
  let b := if 1 ≤ applied then msix b 0 1 else b
  if 3 ≤ applied && rd b 0x9000 1 ≠ 2 && rd b 0xF000 1 ≠ 2 then
    finishWaits { b with fcu := { b.fcu with qualifying := some q } } q
  else b

theorem logEvent_eq (b : Block) (e : Event) (applied target : Nat) (promoted : Bool) : logEvent b e applied target promoted
    = announced (recorded b e applied target promoted) ((rd b 0x9000 6 + 1) % 2 ^ 32) applied := by
  unfold logEvent announced recorded
  exact Eq.refl _

/-- What neither an interrupt nor an answered wait touches stays as it is. -/
theorem announced_keeps {α : Type} (g : Block → α) (b : Block) (q applied : Nat) (hm : ∀ b, g (msix b 0 1) = g b)
    (hf : ∀ b, g (finishWaits { b with fcu := { b.fcu with qualifying := some q } } q) = g b) : g (announced b q applied) = g b := by
  have first : g (if 1 ≤ applied then msix b 0 1 else b) = g b := by
    split
    · exact hm b
    · rfl
  unfold announced
  generalize (if 1 ≤ applied then msix b 0 1 else b) = c at first ⊢
  dsimp only
  split
  · exact (hf _).trans first
  · exact first

theorem announced_log (b : Block) (q applied : Nat) : (announced b q applied).fcu.log = b.fcu.log :=
  announced_keeps (·.fcu.log) b q applied (fun b => by rw [msix_fcu]) fun b => by rw [finishWaits_fcu]

theorem announced_logged (b : Block) (q applied : Nat) : (announced b q applied).fcu.logged = b.fcu.logged :=
  announced_keeps (·.fcu.logged) b q applied (fun b => by rw [msix_fcu]) fun b => by rw [finishWaits_fcu]

theorem rd_announced_other (b : Block) (q applied : Nat) {i j : Nat} (h : objKey i j ≠ objKey 0x9000 0xC5)
    (h' : objKey i j ≠ objKey 0x9000 0xC6) : rd (announced b q applied) i j = rd b i j := by
  refine announced_keeps (rd · i j) b q applied (fun b => rd_congr (by rw [msix_dict]) i j) fun b => ?_
  rw [finishWaits_eq, rd_finishWait_other _ _ h', rd_finishWait_other _ _ h]
  rfl

theorem recorded_mem (b : Block) (e : Event) (applied target : Nat) (promoted : Bool) :
    (recorded b e applied target promoted).mem = b.mem := by
  unfold recorded
  dsimp only
  split <;> rfl

theorem logEvent_spec (b : Block) (e : Event) (applied target : Nat) (promoted : Bool) (he : e.fsrc < 28) :
    let t := logEvent b e applied target promoted
    let q := (rd b 0x9000 6 + 1) % 2 ^ 32
    find? t.fcu.log (b.fcu.logged % 256)
      = some (faultNum b.clk.now q (if isSealed b e.pid then 0 else e.addr) applied target e promoted)
    ∧ (∀ k, k ≠ b.fcu.logged % 256 → find? t.fcu.log k = find? b.fcu.log k) ∧ t.fcu.logged = b.fcu.logged + 1
    ∧ rd t 0x9000 6 = q ∧ rd t (0x9200 + e.fsrc) 8 = q ∧ t.mem = b.mem := by
  have hq : (rd b 0x9000 6 + 1) % 2 ^ 32 % 2 ^ 64 = (rd b 0x9000 6 + 1) % 2 ^ 32 :=
    Nat.mod_eq_of_lt (Nat.lt_trans (Nat.mod_lt _ (by decide)) (by decide))
  dsimp only
  rw [logEvent_eq]
  refine ⟨?_, fun k hk => ?_, ?_, ?_, ?_, ?_⟩
  · rw [announced_log]
    exact find?_insert_self ..
  · rw [announced_log]
    exact find?_insert_other _ _ hk
  · rw [announced_logged]
    rfl
  · rw [rd_announced_other _ _ _ (by decide) (by decide), recorded, rd_wr_other _ _ (objKey_ne (by omega) (by decide) (by decide)),
      rd_wr_self, hq]
  · rw [rd_announced_other _ _ _ (objKey_ne (by omega) (by decide) (by decide)) (objKey_ne (by omega) (by decide) (by decide)),
      recorded, rd_wr_self, hq]
  · rw [announced_keeps (·.mem) _ _ _ (fun b => by rw [msix_mem]) fun b => finishWaits_mem _ _, recorded_mem]

/-! Counts and their windows (R379) -/

theorem countEvent_running {b : Block} {src t k : Nat} (hn : rd b (0x9200 + src) 3 ≠ 0) (hc : currentSeverity b src < 3)
    (hw : find? b.fcu.windows src = some (t, k)) (he : elapsed b t (micros (rd b (0x9200 + src) 4)) = false) :
    countEvent b src = if rd b (0x9200 + src) 3 ≤ k + 1 then
        (count (wr { b with fcu := { b.fcu with windows := erase b.fcu.windows src } } (0x9200 + src) 5
          (currentSeverity b src + 1)) (0x9200 + src) 7, true)
      else ({ b with fcu := { b.fcu with windows := insert b.fcu.windows src (t, k + 1) } }, false) := by
  have hc : ¬ 3 ≤ currentSeverity b src := by omega
  unfold countEvent
  dsimp only
  rw [if_neg (by simp [hn, hc]), hw]
  simp only [he, Bool.false_eq_true, if_false]

/-- A count that does not complete COUNT_N. -/
theorem countEvent_counted {b : Block} {src n t k : Nat} (en : n = rd b (0x9200 + src) 3) (hn : n ≠ 0)
    (hc : currentSeverity b src < 3) (hw : find? b.fcu.windows src = some (t, k))
    (he : elapsed b t (micros (rd b (0x9200 + src) 4)) = false) (hk : k + 1 < n) :
    countEvent b src = ({ b with fcu := { b.fcu with windows := insert b.fcu.windows src (t, k + 1) } }, false) := by
  rw [countEvent_running (en ▸ hn) hc hw he, if_neg (by omega)]

/-- A count that completes COUNT_N. -/
theorem countEvent_completed {b : Block} {src n t k : Nat} (en : n = rd b (0x9200 + src) 3) (hn : n ≠ 0)
    (hc : currentSeverity b src < 3) (hw : find? b.fcu.windows src = some (t, k))
    (he : elapsed b t (micros (rd b (0x9200 + src) 4)) = false) (hk : n ≤ k + 1) :
    (countEvent b src).2 = true ∧ rd (countEvent b src).1 (0x9200 + src) 5 = currentSeverity b src + 1
    ∧ find? (countEvent b src).1.fcu.windows src = none := by
  rw [countEvent_running (en ▸ hn) hc hw he, if_pos (by omega)]
  refine ⟨rfl, ?_, find?_erase_self ..⟩
  rw [rd_count_other _ (objKey_ne (by omega) (by decide) (by decide)), rd_wr_self]
  omega

theorem injectHere_clean {b : Block} (h : noInjection b) (u site : Nat) : injectHere b u site = false := by
  unfold noInjection at h
  simp [injectHere, h]

/-- The block whose oldest event is taken, a held one moving in. -/
def eventTaken (b : Block) (rest : List Event) : Block :=
  { b with fcu := { b.fcu with queue := rest ++ b.fcu.held.take 1, held := b.fcu.held.drop 1 } }

theorem fcuEvent_takes {b : Block} {e : Event} {rest : List Event} (hi : noInjection b) (hq : b.fcu.queue = e :: rest) :
    fcuEvent b = takeEvent (eventTaken b rest) e := by
  have clean : noInjection (eventTaken b rest) := hi
  unfold fcuEvent
  rw [hq]
  change (if injectHere (eventTaken b rest) uFCU 0x16 && _ then _
    else takeEvent (checkWord (eventTaken b rest) uFCU 0x16 0 0 0).1 e) = _
  rw [injectHere_clean clean, checkWord_clean clean, Bool.false_and, if_neg Bool.false_ne_true]

theorem fcuRow_awake {b : Block} {e : Event} {rest : List Event} (ha : awake b) (hq : b.fcu.queue = e :: rest) :
    fcuRow b = fcuEvent b := by
  unfold fcuRow
  rw [hq]
  simp only [wakeEvent_awake ha, ite_self]

/-- FAULT_WAIT_HOST and _FM from a caller that may give them. -/
theorem faultWait_accepted {b : Block} {acc : Access} {sub arg : Nat} (hc : canTake b 0x9000 sub) (hs : sub = 0x45 ∨ sub = 0x46)
    (ht : roleOf acc.path ≠ .tnt) (ha : arg < 2 ^ 32) : faultWait b acc sub arg false
      = match b.fcu.qualifying with
        | some q => finishWaits (accepted b acc 0x9000 sub arg) q
        | none => accepted b acc 0x9000 sub arg := by
  unfold faultWait
  rw [command_accepted hc ht (by rcases hs with rfl | rfl <;> decide) (by simpa [noFails] using ha), accepted_fcu] <;> rfl

/-- The argument of INJECT_EVENT names its event. -/
theorem injectArg {arg fsrc pid unit detail : Nat} (hf : fsrc < 28) (hp : pid < 64) (hu : unit < 65536) (hd : detail < 65536)
    (e : arg = fsrc + (pid <<< 20) + (unit <<< 32) + (detail <<< 48)) :
    bits arg 0 9 = fsrc ∧ bits arg 20 6 = pid ∧ bits arg 32 16 = unit ∧ bits arg 48 16 = detail
    ∧ zeroBits arg 26 6 = true ∧ zeroBits arg 9 11 = true := by
  simp only [Nat.shiftLeft_eq] at e
  simp only [zeroBits, bits, Nat.shiftRight_eq_div_pow, decide_eq_true_eq, beq_iff_eq]
  omega

/-- Settles O57: the log by what its announcement leaves alone, the counts by the window's state. -/
theorem faultEventsAreRecordedCountedAndReactedTo : Obligations.FaultEventsAreRecordedCountedAndReactedTo := by
  unfold Obligations.FaultEventsAreRecordedCountedAndReactedTo
  refine ⟨?taken, ?none, logEvent_spec, faultNum_fields, ?count, ?first, ?off, ?expiry, ?rise, ?release, ?wait, ?inject⟩
  case taken =>
    intro s e rest ha hi hq
    refine next_on (b := fcuRow s.dev) ?_
    rw [fcuRow_awake ha hq, fcuEvent_takes hi hq]
    rfl
  case none =>
    intro s hq
    refine next_on (b := fcuRow s.dev) (b' := s.dev) ?_
    unfold fcuRow
    rw [hq]
  case count =>
    exact fun b src n t k en hn hc hw he => ⟨countEvent_counted en hn hc hw he, countEvent_completed en hn hc hw he⟩
  case first =>
    intro b src hn hc hw
    have hc : ¬ 3 ≤ currentSeverity b src := by omega
    unfold countEvent
    dsimp only
    rw [hw]
    simp only [hc, show rd b (0x9200 + src) 3 ≠ 0 by omega, decide_false, Bool.or_self, Bool.false_eq_true, if_false]
    rw [if_neg (by omega)]
  case off =>
    intro b src h
    exact if_pos (by rcases h with h | h <;> simp [h])
  case expiry =>
    intro s src t k hw
    refine ⟨fun he => next_on (b := countExpiry s.dev src) ?_, fun he => next_on (b := countExpiry s.dev src) (b' := s.dev) ?_⟩
    all_goals
      unfold countExpiry
      rw [hw]
      simp [he]
  case rise =>
    intro s due
    have iff : (rd s.dev 0x9000 3 = 1 && elapsed s.dev s.dev.fcu.faultAt 200 && rd s.dev 0xC000 1 ≠ 0xFF
      && (rd s.dev 0x9000 2 = 0 || s.dev.fcu.faultReleased)) = true ↔ due := by simp [due, and_assoc]
    exact ⟨fun h => next_on (b := faultRise s.dev) (if_pos (iff.mpr h)),
      fun h => next_on (b := faultRise s.dev) (b' := s.dev) (if_neg fun h' => h (iff.mp h'))⟩
  case release =>
    intro s acc hr hc
    refine next_on (b := faultLRelease s.dev acc 0) ?_
    have ht : roleOf acc.path ≠ .tnt := by
      intro h
      simp [notHostFmFw, h] at hr
    unfold faultLRelease
    rw [commandNow_accepted hc ht (by decide) (by simp [noFails, hr])]
    simp only [accepted_fcu]
  case wait =>
    intro s acc arg ha
    refine ⟨fun hr hc => ?_, fun hr hc => ?_⟩
    · have e := faultWait_accepted hc (Or.inl rfl) (byHost_notTnt hr) ha
      rw [← byHost_notHostFw hr] at e
      refine ⟨fun hq => next_on (e.trans (by rw [hq])), fun q hq h1 h2 => goes_on (e.trans (by rw [hq])) ?_⟩
      exact finishes_finishWaits hc (Or.inl rfl) ha h1 h2
    · have e := faultWait_accepted hc (Or.inr rfl) (notFmFw_notTnt hr) ha
      rw [← hr] at e
      refine ⟨fun hq => next_on (e.trans (by rw [hq])), fun q hq h1 h2 => goes_on (e.trans (by rw [hq])) ?_⟩
      exact finishes_finishWaits hc (Or.inr rfl) ha h1 h2
  case inject =>
    intro s acc fsrc pid unit detail arg hr hc hm hf hp hu hd hx earg
    obtain ⟨bf, bp, bu, bd, z26, z9⟩ := injectArg hf hp hu hd earg
    have ht : roleOf acc.path ≠ .tnt := by
      rcases hr with h | h
      · exact byHost_notTnt h
      · simp [h]
    have rights : (notHostFw acc && roleOf acc.path != .dbg) = false := by
      rcases hr with h | h
      · simp [byHost_notHostFw h]
      · simp [h]
    intro b
    refine next_on (b := injectEventCmd s.dev acc arg.toNat) ?_
    unfold injectEventCmd
    rw [command_accepted hc ht (by decide) ?_]
    · simp only [bf, bp, bu, bd, accepted_fcu]
      rfl
    · rw [rights, z26, z9, bf, bu]
      have m : rd (count s.dev 0x1402 5) 0xF000 1 = 2 := by rw [rd_count_other _ (by decide), hm]
      have x : unitPresent (count s.dev 0x1402 5) unit = true := hx
      simp [noFails, m, x]
      omega

end Sys2Proof.Machine
end

section
/-! SUPPORT. The waits-for graph, the Drones and the dumps (O59). -/

namespace Sys2Proof.Machine

/-! Cycles of the waits-for relation (R399, R400) -/

/-- An element put in its place among a list is a permutation of it in front. -/
theorem sortNats_perm (l : List Nat) : (sortNats l).Perm l := by
  have step (l s : List Nat) : (l.foldl (fun s x => s.takeWhile (· < x) ++ x :: s.dropWhile (· < x)) s).Perm (l ++ s) := by
    induction l generalizing s with
    | nil => exact List.Perm.refl _
    | cons x l ih =>
      have put : (s.takeWhile (· < x) ++ x :: s.dropWhile (· < x)).Perm (x :: s) := by
        refine List.perm_middle.trans (List.Perm.of_eq ?_)
        rw [List.takeWhile_append_dropWhile]
      exact (ih _).trans ((put.append_left l).trans List.perm_middle)
  simpa [sortNats] using step l []

/-- A path of edges back to the start, over members above it that are not on the way yet, is found. -/
theorem cyclesFrom_complete (es : List WaitEdge) (start : Nat) (l : List Nat) {fuel : Nat} {path : List Nat} {cur : Nat}
    (edges : ∀ i, i ≤ l.length → ∃ e ∈ es, e.src = (cur :: l).getD i 0 ∧ e.dst = (l ++ [start]).getD i 0)
    (above : ∀ x ∈ l, start < x) (nodup : l.Nodup) (fresh : ∀ x ∈ l, x ∉ path) (hf : l.length < fuel) :
    sortNats (l.reverse ++ path) ∈ cyclesFrom es start fuel path cur := by
  induction l generalizing fuel path cur with
  | nil =>
    obtain ⟨fuel, rfl⟩ := Nat.exists_eq_add_of_lt hf
    obtain ⟨e, he, src, dst⟩ := edges 0 (Nat.zero_le _)
    rw [List.length_nil, Nat.zero_add, cyclesFrom]
    refine List.mem_flatMap.mpr ⟨e, List.mem_filter.mpr ⟨he, by simpa using src⟩, ?_⟩
    rw [if_pos (by simpa using dst)]
    exact List.mem_cons_self
  | cons x l ih =>
    obtain ⟨fuel, rfl⟩ := Nat.exists_eq_add_of_lt (Nat.lt_of_le_of_lt (Nat.zero_le _) hf)
    obtain ⟨e, he, src, dst⟩ := edges 0 (Nat.zero_le _)
    obtain ⟨hx, nodup⟩ := List.nodup_cons.mp nodup
    have hs := above x List.mem_cons_self
    have dst : e.dst = x := by simpa using dst
    rw [Nat.zero_add, cyclesFrom]
    refine List.mem_flatMap.mpr ⟨e, List.mem_filter.mpr ⟨he, by simpa using src⟩, ?_⟩
    rw [dst, if_neg (by omega), if_neg (by simpa [Nat.le_of_lt hs] using fresh x List.mem_cons_self), List.reverse_cons,
      List.append_assoc]
    refine ih (fun i hi => ?_) (fun y hy => above y (List.mem_cons_of_mem x hy)) nodup (fun y hy => ?_) (by simpa using hf)
    · simpa using edges (i + 1) (by simpa using hi)
    · simp only [List.cons_append, List.nil_append, List.mem_cons, not_or]
      exact ⟨fun e => hx (e ▸ hy), fresh y (List.mem_cons_of_mem x hy)⟩

/-- What is found consists of members that each wait for a member. -/
theorem cyclesFrom_sound (es : List WaitEdge) (start fuel : Nat) {path : List Nat} {cur : Nat} {ms : List Nat}
    (hs : start ∈ path) (hp : ∀ m ∈ path, m = cur ∨ ∃ e ∈ es, e.src = m ∧ e.dst ∈ path)
    (h : ms ∈ cyclesFrom es start fuel path cur) : ms ≠ [] ∧ ∀ m ∈ ms, ∃ e ∈ es, e.src = m ∧ e.dst ∈ ms := by
  induction fuel generalizing path cur with
  | zero => simp [cyclesFrom] at h
  | succ fuel ih =>
    rw [cyclesFrom] at h
    obtain ⟨e, out, h⟩ := List.mem_flatMap.mp h
    obtain ⟨he, src⟩ := List.mem_filter.mp out
    have src : e.src = cur := by simpa using src
    split at h
    next dst =>
      obtain rfl : ms = sortNats path := by simpa using h
      have mem {m : Nat} : m ∈ sortNats path ↔ m ∈ path := (sortNats_perm path).mem_iff
      refine ⟨List.ne_nil_of_mem (mem.mpr hs), fun m hm => ?_⟩
      rcases hp m (mem.mp hm) with rfl | ⟨e', he', src', dst'⟩
      · exact ⟨e, he, src, mem.mpr (dst ▸ hs)⟩
      · exact ⟨e', he', src', mem.mpr dst'⟩
    next =>
      split at h
      · simp at h
      · refine ih (List.mem_cons_of_mem _ hs) (fun m hm => ?_) h
        rcases List.mem_cons.mp hm with rfl | hm
        · exact Or.inl rfl
        · right
          rcases hp m hm with rfl | ⟨e', he', src', dst'⟩
          · exact ⟨e, he, src, List.mem_cons_self⟩
          · exact ⟨e', he', src', List.mem_cons_of_mem _ dst'⟩

theorem cycles_complete (es : List WaitEdge) (a : Nat) (l : List Nat) (above : ∀ x ∈ l, a < x) (nodup : l.Nodup)
    (edges : ∀ i, i ≤ l.length → ∃ e ∈ es, e.src = (a :: l).getD i 0 ∧ e.dst = (l ++ [a]).getD i 0) :
    ∃ ms ∈ cycles es, ms.Perm (a :: l) := by
  have sources : ∀ x ∈ a :: l, x ∈ es.map (·.src) := by
    intro x hx
    obtain ⟨i, hi, rfl⟩ := List.getElem_of_mem hx
    obtain ⟨e, he, src, -⟩ := edges i (by simpa using Nat.le_of_lt_succ hi)
    rw [List.getD_eq_getElem?_getD, List.getElem?_eq_getElem hi, Option.getD_some] at src
    exact List.mem_map.mpr ⟨e, he, src⟩
  have distinct : (a :: l).Nodup := List.nodup_cons.mpr ⟨fun h => Nat.lt_irrefl a (above a h), nodup⟩
  have short : (a :: l).length ≤ es.length := by simpa using distinct.length_le_of_subset sources
  refine ⟨sortNats (l.reverse ++ [a]), ?_, (sortNats_perm _).trans ?_⟩
  · rw [cycles, List.mem_eraseDups]
    refine List.mem_flatMap.mpr ⟨a, List.mem_eraseDups.mpr (sources a List.mem_cons_self), ?_⟩
    refine cyclesFrom_complete es a l edges above nodup (fun x hx => ?_) (by simp at short; omega)
    simpa using (Nat.ne_of_lt (above x hx)).symm
  · rw [← List.reverse_cons]
    exact List.reverse_perm _

theorem cycles_sound (es : List WaitEdge) (ms : List Nat) (h : ms ∈ cycles es) :
    ms ≠ [] ∧ ∀ m ∈ ms, ∃ e ∈ es, e.src = m ∧ e.dst ∈ ms := by
  rw [cycles, List.mem_eraseDups] at h
  obtain ⟨start, -, h⟩ := List.mem_flatMap.mp h
  exact cyclesFrom_sound es start _ List.mem_cons_self (fun m hm => Or.inl (by simpa using hm)) h

/-- The one of a list that has waited longest, the first of those that have waited as long. -/
def oldest {α : Type} (age : α → Nat) (l : List α) : Option α :=
  l.foldl (fun m s => match m with
    | none => some s
    | some x => if age x < age s then some s else m) none

theorem oldest_spec {α : Type} (age : α → Nat) (l : List α) (h : l ≠ []) :
    ∃ x ∈ l, oldest age l = some x ∧ ∀ y ∈ l, age y ≤ age x := by
  have step (l : List α) (x : α) : ∃ z ∈ x :: l, (l.foldl (fun m s => match m with
      | none => some s
      | some x => if age x < age s then some s else m) (some x)) = some z ∧ ∀ y ∈ x :: l, age y ≤ age z := by
    induction l generalizing x with
    | nil => exact ⟨x, List.mem_cons_self, rfl, by simp⟩
    | cons s l ih =>
      rw [List.foldl_cons]
      dsimp only
      split
      next lt =>
        obtain ⟨z, hz, e, max⟩ := ih s
        refine ⟨z, List.mem_cons_of_mem x hz, e, fun y hy => ?_⟩
        rcases List.mem_cons.mp hy with rfl | hy
        · exact Nat.le_trans (Nat.le_of_lt lt) (max s List.mem_cons_self)
        · exact max y hy
      next ge =>
        obtain ⟨z, hz, e, max⟩ := ih x
        refine ⟨z, ?_, e, fun y hy => ?_⟩
        · rcases List.mem_cons.mp hz with rfl | hz
          · exact List.mem_cons_self
          · exact List.mem_cons_of_mem _ (List.mem_cons_of_mem _ hz)
        · rcases List.mem_cons.mp hy with rfl | hy
          · exact max _ List.mem_cons_self
          rcases List.mem_cons.mp hy with rfl | hy
          · exact Nat.le_trans (Nat.le_of_not_lt ge) (max x List.mem_cons_self)
          · exact max y (List.mem_cons_of_mem _ hy)
  cases l with
  | nil => exact absurd rfl h
  | cons x l => exact step l x

/-! The scan and the Drones (R399-R402) -/

/-- The cycles of a scan with the scans they have stood. -/
def standingNow (b : Block) (es : List WaitEdge) : List Standing :=
  (cycles es).map fun ms => ⟨ms, ((b.fcu.standing.find? (·.members == ms)).map (·.scans)).getD 0 + 1⟩

/-- The time that the head of a standing cycle has waited. -/
def headAge (es : List WaitEdge) (x : Standing) : Nat := ((longest es x.members).map (·.age)).getD 0

/-- The block that has kept a scan's cycles. -/
def scanned (b : Block) (found : List Standing) : Block :=
  count { b with fcu := { b.fcu with standing := found } } 0x9001 3

theorem wgdScan_served {b : Block} {edges : List WaitEdge} (hm : b.clk.now % 6400 = 0) (hs : served b uWGD = true)
    (ha : asleep b = false) :
    let es := edges.filter (6400 ≤ ·.age)
    wgdScan b edges = match oldest (headAge es) ((standingNow b es).filter fun x => rd b 0x9001 2 ≤ x.scans) with
      | some x => reportHang (scanned b (standingNow b es)) es x.members
      | none => scanned b (standingNow b es) := by
  intro es
  have limit : rd (scanned b (standingNow b es)) 0x9001 2 = rd b 0x9001 2 := rd_count_other _ (by decide)
  unfold wgdScan
  rw [if_neg (by simp [hm, hs, ha]), ← limit]
  extract_lets es' old now' f c age worst
  have e : worst = oldest (headAge es) ((standingNow b es).filter fun x => rd c 0x9001 2 ≤ x.scans) := by
    unfold worst oldest
    congr 1
    funext m x
    cases m <;> rfl
  have ec : scanned b (standingNow b es) = c := rfl
  rw [e, ec] <;> cases oldest (headAge es) ((standingNow b es).filter fun x => rd c 0x9001 2 ≤ x.scans) <;> rfl

theorem droneExpiry_listed (b : Block) {n : Nat} (hn : n < 9) : droneExpiry b n =
    if (!(look (droneLook b n).fcu.drones freshDrone n).armed || !elapsed (droneLook b n)
      (look (droneLook b n).fcu.drones freshDrone n).start (micros (rd (droneLook b n) (0x9010 + n) 2))) = true then droneLook b n
    else
      let c := raiseFree (count { droneLook b n with fcu := { (droneLook b n).fcu with
        drones := store (droneLook b n).fcu.drones freshDrone n { look (droneLook b n).fcu.drones freshDrone n with
          start := (droneLook b n).clk.now } } } (0x9010 + n) 4) 22 (droneUnit n) 0
      if n = 7 then skimEnd c 3 else c := by
  unfold droneExpiry
  rw [if_pos hn]
  simp only [show ¬ 9 ≤ n by omega, decide_false, Bool.false_or]

/-! Dumps (R403-R406) -/

theorem skimFree_accepted (b : Block) (acc : Access) (a : Nat) : skimFree (accepted b acc 0x9002 0x40 a) = skimFree b := by
  unfold skimFree domain
  rw [rd_accepted_other (by decide) (by decide), rd_accepted_other (by decide) (by decide), accepted_fcu]

theorem notHostFmFw_notTnt {acc : Access} (h : notHostFmFw acc = false) : roleOf acc.path ≠ .tnt := by
  intro e
  simp [notHostFmFw, e] at h

theorem skimStartCmd_accepted {b : Block} {acc : Access} (hc : canTake b 0x9002 0x40) (hr : notHostFmFw acc = false) :
    skimStartCmd b acc 0 = if rd b 0x9002 3 = 1 then accepted b acc 0x9002 0x40 0
      else if skimFree b then skimStart (accepted b acc 0x9002 0x40 0) 0
      else finishCmd (accepted b acc 0x9002 0x40 0) 0x9002 0x40 .ok 0 := by
  unfold skimStartCmd
  rw [command_accepted hc (notHostFmFw_notTnt hr) (by decide) (by simp [noFails, hr]), skimFree_accepted,
    rd_accepted_other (by decide) (by decide)]

/-- The units of a dump depend on the straps alone. -/
theorem skimUnits_congr {b b' : Block} (h : b'.straps = b.straps) : skimUnits b' = skimUnits b := by
  unfold skimUnits presentUnits unitPresent esPresent msPresent
  rw [h]

theorem skimUnits_accepted (b : Block) (acc : Access) (i j a : Nat) : skimUnits (accepted b acc i j a) = skimUnits b :=
  skimUnits_congr accepted_straps

theorem skimStart_fcu (b : Block) (trig : Nat) :
    (skimStart b trig).fcu = { b.fcu with skim := ⟨skimUnits b, ⟨0, 0⟩, b.clk.now, b.clk.now, trig, 0, 0⟩ } := by
  unfold skimStart
  dsimp only
  rw [skimUnits_congr (b := b) rfl]
  rfl

theorem rd_skimStart_other (b : Block) (trig : Nat) {i j : Nat} (h : objKey i j ≠ objKey 0x9002 3)
    (h' : objKey i j ≠ objKey 0x9002 4) : rd (skimStart b trig) i j = rd b i j :=
  (rd_count_other (wr b 0x9002 3 1) h').trans (rd_wr_other b 1 h)

theorem rd_skimStart_state (b : Block) (trig : Nat) : rd (skimStart b trig) 0x9002 3 = 1 :=
  (rd_count_other (wr b 0x9002 3 1) (by decide)).trans (rd_wr_self ..)

theorem skimRelease_accepted {b : Block} {acc : Access} (hc : canTake b 0x9002 0x41) (hr : notHostFmFw acc = false)
    (hd : rd b 0x9002 3 ≠ 1) : skimRelease b acc 0
      = finishCmd (wr (wrBlob (accepted b acc 0x9002 0x41 0) 0x9002 0x20 ⟨0, 0⟩) 0x9002 3 0) 0x9002 0x41 .ok 0 := by
  unfold skimRelease
  rw [commandNow_accepted hc (notHostFmFw_notTnt hr) (by decide) ?_]
  rw [rd_count_other _ (by decide)]
  simp [noFails, hr, hd]

/-- The block in which a unit's record has joined the dump. -/
def dumped (b : Block) (rest : List Nat) (r : Bytes) (res : Nat) : Block :=
  progressed { b with fcu := { b.fcu with skim := { b.fcu.skim with
    left := rest, body := bytesAppend b.fcu.skim.body r, asked := b.clk.now, units := b.fcu.skim.units + 1
    noResp := b.fcu.skim.noResp + res } } } uSkim

theorem skimTake_idle {b : Block} (h : rd b 0x9002 3 ≠ 1) (res : Nat) (words : List (BitVec 32)) : skimTake b res words = b := by
  unfold skimTake
  dsimp only
  split
  · rfl
  · rw [if_pos h]

theorem skimTake_room {b : Block} {u : Nat} {rest : List Nat} (hd : rd b 0x9002 3 = 1) (hl : b.fcu.skim.left = u :: rest)
    {res : Nat} (words : List (BitVec 32)) {r : Bytes} (er : skimRecord b u b.fcu.skim.asked res (words.take 1024) = r)
    (room : 64 + b.fcu.skim.body.len + r.len ≤ 2 ^ 20) : skimTake b res words
      = (let c := if res = 1 then count (dumped b rest r (if res = 1 then 1 else 0)) 0x9002 5
          else dumped b rest r (if res = 1 then 1 else 0)
        if rest = [] then skimEnd c 2 else c) := by
  unfold skimTake
  dsimp only
  rw [hl]
  dsimp only
  rw [if_neg (by simp [hd]), er, if_neg (by omega)]
  simp only [List.isEmpty_iff]
  rfl

theorem skimTake_full {b : Block} {u : Nat} {rest : List Nat} (hd : rd b 0x9002 3 = 1) (hl : b.fcu.skim.left = u :: rest)
    {res : Nat} (words : List (BitVec 32)) {r : Bytes} (er : skimRecord b u b.fcu.skim.asked res (words.take 1024) = r)
    (full : 2 ^ 20 < 64 + b.fcu.skim.body.len + r.len) : ∃ body, skimTake b res words
      = skimEnd { b with fcu := { b.fcu with skim := { b.fcu.skim with body := body } } } 3 := by
  unfold skimTake
  dsimp only
  rw [hl]
  dsimp only
  rw [if_neg (by simp [hd]), er, if_pos full]
  exact ⟨_, rfl⟩

/-- Settles O59: the search is complete along a path of edges and sound by what it keeps on its way. -/
theorem hangsAreFoundAndDumpsAreTaken : Obligations.HangsAreFoundAndDumpsAreTaken := by
  unfold Obligations.HangsAreFoundAndDumpsAreTaken
  refine ⟨cycles_complete, cycles_sound, ?scan, ?noScan, ?drone, ?commands, ?record, ?idle⟩
  case scan =>
    intro s edges hm hs ha es found b age
    have e : wgdScan s.dev edges = _ := wgdScan_served hm hs ha
    refine ⟨fun h => next_on (e.trans ?_), fun ⟨x, hx, hxs⟩ => ?_⟩
    · have none : (standingNow s.dev es).filter (fun x => rd s.dev 0x9001 2 ≤ x.scans) = [] :=
        List.filter_eq_nil_iff.mpr fun x hx => by simpa using h x hx
      rw [none]
      rfl
    · have some : (standingNow s.dev es).filter (fun x => rd s.dev 0x9001 2 ≤ x.scans) ≠ [] :=
        List.ne_nil_of_mem (List.mem_filter.mpr ⟨hx, by simpa using hxs⟩)
      obtain ⟨y, hy, ey, max⟩ := oldest_spec (headAge es) _ some
      obtain ⟨hy, hys⟩ := List.mem_filter.mp hy
      refine ⟨y, hy, by simpa using hys, fun z hz hzs => max z (List.mem_filter.mpr ⟨hz, by simpa using hzs⟩), next_on (e.trans ?_)⟩
      rw [ey]
      rfl
  case noScan =>
    intro s edges h
    refine next_on (b := wgdScan s.dev edges) (b' := s.dev) (if_pos ?_)
    rcases h with h | h | h <;> simp [h]
  case drone =>
    intro s n hn b d due c
    have e := droneExpiry_listed s.dev hn
    refine ⟨fun ⟨armed, late⟩ => next_on (e.trans (if_neg ?_)), fun h => next_on (e.trans (if_pos ?_))⟩
    · simp only [b, d] at armed late
      rw [armed, late]
      decide
    · simp only [due, b, d] at h
      simpa [Classical.or_iff_not_imp_left] using h
  case commands =>
    intro s acc hr
    refine ⟨fun hc => ?_, fun hc hd => ?_⟩
    · have e := skimStartCmd_accepted hc hr
      refine ⟨fun free => ?_, fun run => next_on (e.trans (if_pos run)), fun idle held => ?_⟩
      · have idle : rd s.dev 0x9002 3 ≠ 1 := by
          intro h
          simp [skimFree, h] at free
        refine goes_on (e.trans ((if_neg idle).trans (if_pos free))) ⟨?_, ?_, ?_⟩
        · have e : rd (skimStart (accepted s.dev acc 0x9002 0x40 0) 0) 0x9002 0xC0 = _ :=
            rd_skimStart_other (accepted s.dev acc 0x9002 0x40 0) 0 (by decide) (by decide)
          exact e.trans pends_accepted
        · exact rd_skimStart_state _ _
        · simp only [State.on, skimStart_fcu, accepted_fcu, accepted_clk, skimUnits_accepted]
      · exact goes_on (e.trans ((if_neg idle).trans (if_neg (by simp [held])))) ⟨finishes_finishCmd hc rfl .ok 0, by simp [State.on]⟩
    · refine goes_on (skimRelease_accepted hc hr hd) ⟨?_, ?_, ?_, ?_⟩
      · exact finishes_finishCmd (acc := acc) (a := 0)
          (b := wr (wrBlob (accepted s.dev acc 0x9002 0x41 0) 0x9002 0x20 ⟨0, 0⟩) 0x9002 3 0) hc (Eq.refl _) .ok 0
      · simp only [State.on]
        rw [rd_finishCmd_other _ _ _ (by decide), rd_wr_zero]
      · unfold rdBlob State.on
        dsimp only
        rw [finishCmd_blobs]
        exact look_store_self ..
      · simp only [State.on, finishCmd_fcu]
        exact accepted_fcu
  case record =>
    intro s words u rest hd hl k r next
    have er (res : Nat) : skimRecord s.dev u s.dev.fcu.skim.asked res (words.take 1024) = r res := rfl
    refine ⟨fun room => next_on (skimTake_room hd hl words (er 0) room), fun room late => ?_, fun full => ?_, fun early => ?_⟩
    · exact next_on ((if_pos late).trans (skimTake_room hd hl words (er 1) room))
    · obtain ⟨body, e⟩ := skimTake_full hd hl words (er 0) full
      exact ⟨body, next_on e⟩
    · exact next_on (b := skimTimeout s.dev words) (b' := s.dev) (if_neg
        (by simp [show elapsed s.dev s.dev.fcu.skim.asked (micros 50) = false from early]))
  case idle =>
    refine fun s words h => ⟨next_on (b' := s.dev) (skimTake_idle h 0 words), next_on (b := skimTimeout s.dev words) (b' := s.dev) ?_⟩
    unfold skimTimeout
    rw [skimTake_idle h, ite_self]

end Sys2Proof.Machine
end

section
/-! SUPPORT. The mirror's records, timers and commands (O60). -/

namespace Sys2Proof.Machine

/-! Records sent (R416, R417, R419, R420) -/

theorem replayBytes_eq (m : Mirror) : replayBytes m = ((m.queue ++ m.replay).map recBytes).sum := foldl_add_eq_sum _

/-- The block whose marks hold an object for which there was no room. -/
def marked (b : Block) (kind pid index : Nat) (sync : Bool) : Block :=
  let k := kind + (if sync then 256 else 0)
  if b.mirror.marks.any fun x => x.kind == k && x.pid == pid && x.index == index then b
  else { b with mirror := { b.mirror with marks := b.mirror.marks ++ [⟨k, pid, index, b.clk.now⟩] } }

/-- The block whose queue a new record has joined. -/
def joined (b : Block) (kind pid index : Nat) (sync : Bool) (body : Bytes) : Block :=
  let m := b.mirror
  let n := (m.mseq + 1) % 2 ^ 32
  let idle := m.queue.isEmpty && m.replay.isEmpty
  { b with mirror := { m with
      mseq := n
      queue := m.queue ++ [⟨kind, pid, index, n, sync, body, b.clk.now, false⟩]
      syncEnd := if sync then some n else m.syncEnd
      ackAt := if idle then b.clk.now else m.ackAt
      recordAt := b.clk.now } }

theorem emitRec_new {b : Block} {kind index : Nat} (h : ∀ x ∈ b.mirror.queue, kind = 4 → x.kind = 4 → x.index = index → x.sent = true)
    (pid : Nat) (sync : Bool) (body : Bytes) : emitRec b kind pid index sync body
      = if replayBytes b.mirror + 16 + body.len > 4194304 then marked b kind pid index sync
        else joined b kind pid index sync body := by
  have none : ¬ (kind = 4 && b.mirror.queue.any fun r => r.kind == 4 && r.index == index && !r.sent) = true := by
    simp only [Bool.and_eq_true, decide_eq_true_eq, List.any_eq_true, not_and, not_exists]
    intro hk x hx
    simp only [beq_iff_eq, Bool.not_eq_true', and_imp]
    intro h4 hi hs
    simp [h x hx hk h4 hi] at hs
  unfold emitRec
  exact if_neg none

theorem marked_queue (b : Block) (kind pid index : Nat) (sync : Bool) :
    (marked b kind pid index sync).mirror.queue = b.mirror.queue ∧ (marked b kind pid index sync).mirror.mseq = b.mirror.mseq
    ∧ (marked b kind pid index sync).mirror.replay = b.mirror.replay
    ∧ ∃ x ∈ (marked b kind pid index sync).mirror.marks, x.kind = kind + (if sync then 256 else 0) ∧ x.pid = pid ∧ x.index = index := by
  unfold marked
  dsimp only
  generalize kind + (if sync then 256 else 0) = k
  split
  next h =>
    obtain ⟨x, hx, e⟩ := List.any_eq_true.mp h
    simp only [Bool.and_eq_true, beq_iff_eq] at e
    exact ⟨rfl, rfl, rfl, x, hx, e.1.1, e.1.2, e.2⟩
  next => exact ⟨rfl, rfl, rfl, _, List.mem_append_right _ List.mem_cons_self, rfl, rfl, rfl⟩

theorem joined_bytes (b : Block) (kind pid index : Nat) (sync : Bool) (body : Bytes) :
    replayBytes (joined b kind pid index sync body).mirror = replayBytes b.mirror + 16 + body.len := by
  simp only [replayBytes_eq, joined, List.map_append, List.map_cons, List.map_nil, List.sum_append, List.sum_cons, List.sum_nil,
    recBytes]
  omega

theorem emitRec_bounded (b : Block) (kind pid index : Nat) (sync : Bool) (body : Bytes) (hb : replayBytes b.mirror ≤ 4194304)
    (h : ∀ x ∈ b.mirror.queue, kind = 4 → x.kind = 4 → x.index = index → x.sent = true) :
    let t := emitRec b kind pid index sync body
    replayBytes t.mirror ≤ 4194304
    ∧ (replayBytes b.mirror + 16 + body.len ≤ 4194304 → t.mirror.mseq = (b.mirror.mseq + 1) % 2 ^ 32
      ∧ ∃ r, t.mirror.queue = b.mirror.queue ++ [r] ∧ r.mseq = t.mirror.mseq ∧ r.body = body ∧ r.kind = kind)
    ∧ (4194304 < replayBytes b.mirror + 16 + body.len → t.mirror.queue = b.mirror.queue ∧ t.mirror.mseq = b.mirror.mseq
      ∧ ∃ x ∈ t.mirror.marks, x.kind = kind + (if sync then 256 else 0) ∧ x.pid = pid ∧ x.index = index) := by
  intro t
  have et : t = _ := emitRec_new h pid sync body
  clear_value t
  subst et
  split
  next full =>
    obtain ⟨queue, mseq, replay, mark⟩ := marked_queue b kind pid index sync
    refine ⟨?_, fun room => absurd room (by omega), fun _ => ⟨queue, mseq, mark⟩⟩
    unfold replayBytes at hb ⊢
    rwa [queue, replay]
  next room =>
    refine ⟨?_, fun _ => ⟨rfl, _, rfl, rfl, rfl, rfl⟩, fun full => absurd full room⟩
    rw [joined_bytes]
    omega

/-- A queue pair's record not yet sent is replaced in its place. -/
theorem emitRec_replaces (b : Block) (pid index : Nat) (sync : Bool) (body : Bytes) (x : MRec) (hx : x ∈ b.mirror.queue)
    (hk : x.kind = 4) (hi : x.index = index) (hs : x.sent = false) :
    { x with body := body } ∈ (emitRec b 4 pid index sync body).mirror.queue
    ∧ (emitRec b 4 pid index sync body).mirror.mseq = b.mirror.mseq := by
  have own : (x.kind == 4 && x.index == index && !x.sent) = true := by simp [hk, hi, hs]
  have any : (decide (4 = 4) && b.mirror.queue.any fun r => r.kind == 4 && r.index == index && !r.sent) = true := by
    rw [Bool.and_eq_true]
    exact ⟨rfl, List.any_eq_true.mpr ⟨x, hx, own⟩⟩
  unfold emitRec
  dsimp only
  rw [if_pos any]
  exact ⟨List.mem_map.mpr ⟨x, hx, if_pos own⟩, rfl⟩

/-! Records received (R418) -/

theorem rd_shadowRecord (b : Block) (r : MRec) : rd (shadowRecord b r).1 0xA000 0x0A = rd b 0xA000 0x0A := by
  have key (pp : Nat) : objKey 0xA000 0x0A ≠ objKey (0xA200 + pp) 4 := objKey_ne (Or.inr (by decide)) (by decide) (by decide)
  have wrote (b : Block) (pp v : Nat) : rd (wr b (0xA200 + pp) 4 v) 0xA000 0x0A = rd b 0xA000 0x0A := rd_wr_other b v (key pp)
  have shadowed (b : Block) (pp : Nat) (s : Shadow) : rd (setShadow b pp s) 0xA000 0x0A = rd b 0xA000 0x0A := rfl
  unfold shadowRecord
  dsimp only
  (repeat' split) <;> simp only [wrote, shadowed]

/-- A record of the next MSEQ is the last applied, whatever its shadow makes of it. -/
theorem applyRecord_mseq (b : Block) (r : MRec) (hd : (2 ^ 32 + r.mseq - rd b 0xA000 0x0A) % 2 ^ 32 = 1) (hr : r.mseq < 2 ^ 32) :
    rd (applyRecord b r) 0xA000 0x0A = r.mseq := by
  have acked (b : Block) : rd (if 64 ≤ b.mirror.applied then sendMirrorAck b else b) 0xA000 0x0A = rd b 0xA000 0x0A := by
    split <;> rfl
  have counted (b : Block) (ok : Bool) : rd (if ok then count b 0xA000 0x0D else count b 0xA000 0x0E) 0xA000 0x0A
      = rd b 0xA000 0x0A := by
    split <;> exact rd_count_other _ (by decide)
  have shadowed (b : Block) : rd (if r.kind = 8 then (b, true) else shadowRecord b r).1 0xA000 0x0A = rd b 0xA000 0x0A := by
    split
    · rfl
    · exact rd_shadowRecord b r
  unfold applyRecord
  dsimp only
  rw [if_neg (fun h => h hd), acked, counted, shadowed]
  refine (rd_wr_self b 0xA000 0x0A r.mseq).trans (Nat.mod_eq_of_lt (Nat.lt_trans hr (by decide)))

/-! The mirror's commands and timers (R414-R428) -/

theorem served_accepted (b : Block) (acc : Access) (i j a k : Nat) : served (accepted b acc i j a) k = served b k := by
  unfold served domain
  rw [accepted_fcu]

theorem mirrorStart_accepted {b : Block} {acc : Access} (hr : notFmFw acc = false) (hc : canTake b 0xA000 0x40)
    (hm : mirrorState b = 0 ∨ mirrorState b = 4) (hs : served b uMirror = true) :
    mirrorStart b acc 0 = startCopy (accepted b acc 0xA000 0x40 0) := by
  have state : mirrorState (count b 0x1402 5) = mirrorState b := rd_count_other _ (by decide)
  have serves : served (count b 0x1402 5) uMirror = true := hs
  unfold mirrorStart
  refine command_accepted hc (notFmFw_notTnt hr) (by decide) ?_
  rw [state, serves]
  rcases hm with hm | hm <;> simp [noFails, hr, hm]

/-- The block whose mirroring has been stopped. -/
def mirrorStopped (b : Block) : Block := finishCmd (wr (clearMirror b) 0xA000 6 0) 0xA000 0x40 .state 0

theorem mirrorStop_accepted {b : Block} {acc : Access} (hr : notFmFw acc = false) (hc : canTake b 0xA000 0x41) :
    mirrorStop b acc 0 = finishCmd (mirrorStopped (accepted b acc 0xA000 0x41 0)) 0xA000 0x41 .ok 0 := by
  unfold mirrorStop
  exact commandNow_accepted (run := fun b => (mirrorStopped b, .ok, 0)) hc (notFmFw_notTnt hr) (by decide) (by simp [noFails, hr])

theorem mirrorStop_done {s : State} {acc : Access} (hr : notFmFw acc = false) (hc : canTake s.dev 0xA000 0x41) :
    Goes (exec (.mirrorStop acc 0) s) fun t => finishes s t 0xA000 0x41 .ok 0
      ∧ mirrorState t.dev = 0 ∧ t.dev.mirror = (clearMirror s.dev).mirror ∧ memSame s t := by
  refine goes_on (mirrorStop_accepted hr hc) ⟨?_, ?_, ?_, ?_⟩
  · have p : pendingCmd (mirrorStopped (accepted s.dev acc 0xA000 0x41 0)) 0xA000 0x41 = _ :=
      (pendingCmd_finishCmd_other _ (by decide) _ _).trans (pendingCmd_accepted (acc := acc) (a := 0) hc)
    exact (rd_finishCmd_self p .ok 0).trans (resultWord_mod _ 2 .ok 0 (by decide))
  · have zero : rd (mirrorStopped (accepted s.dev acc 0xA000 0x41 0)) 0xA000 6 = 0 :=
      (rd_finishCmd_other _ _ _ (by decide)).trans (rd_wr_zero ..)
    exact (rd_finishCmd_other _ _ _ (by decide)).trans zero
  · simp only [State.on, mirrorStopped, finishCmd_mirror, wr_mirror, clearMirror, accepted_mirror, accepted_clk]
  · refine memSame_of_mem ?_
    simp only [State.on, mirrorStopped, finishCmd_mem, wr_mem, clearMirror_mem, accepted_mem]

theorem takeover_accepted {b : Block} {acc : Access} (hr : notFmFw acc = false) (hc : canTake b 0xA000 0x42)
    (hp : rd b 0xA000 1 ≠ 0xFFFF) (hn : rd b 0xA000 0x11 = 0xFFFF) : takeover b acc 0
      = finishCmd (takeoverRun (accepted b acc 0xA000 0x42 0)).1 0xA000 0x42 .ok (takeoverRun (accepted b acc 0xA000 0x42 0)).2 := by
  unfold takeover
  refine commandNow_accepted (run := fun b => ((takeoverRun b).1, .ok, (takeoverRun b).2)) hc (notFmFw_notTnt hr) (by decide) ?_
  rw [rd_count_other _ (by decide), rd_count_other _ (by decide)]
  simp [noFails, hr, hp, hn]

/-- The queue pairs taken over that ALIAS_END resets. -/
def aliases (b : Block) : SMap Qp :=
  b.tpe.qps.filter fun e => e.2.isAlias && e.2.st != .reset && e.2.st != .draining && !e.2.resetting

theorem aliasEnd_accepted {b : Block} {acc : Access} (hr : notFmFw acc = false) (hc : canTake b 0xA000 0x43)
    (hn : rd b 0xA000 0x11 ≠ 0xFFFF) : aliasEnd b acc 0
      = aliasDone ((aliases b).foldl (fun b e => resetQp b e.1) (accepted b acc 0xA000 0x43 0)) := by
  have same : aliases (accepted b acc 0xA000 0x43 0) = aliases b := by rw [aliases, aliases, accepted_tpe]
  unfold aliasEnd
  rw [command_accepted hc (notFmFw_notTnt hr) (by decide) ?_]
  · rw [← same]
    unfold aliases
    exact Eq.refl _
  · rw [rd_count_other _ (by decide)]
    simp [noFails, hr, hn]

/-- Settles O60: each timer by its guard, the records by the three ways of emitting one. -/
theorem theMirrorCopiesAcknowledgesAndTakesOver : Obligations.TheMirrorCopiesAcknowledgesAndTakesOver := by
  unfold Obligations.TheMirrorCopiesAcknowledgesAndTakesOver
  refine ⟨fun s acc hr => ⟨fun hc hm hs => next_on (mirrorStart_accepted hr hc hm hs), mirrorStop_done hr,
      fun hc hp hn => next_on (takeover_accepted hr hc hp hn), fun hc hn => next_on (aliasEnd_accepted hr hc hn)⟩,
    fun s => ⟨?ack, ?noAck, ?mark, ?noMark, ?qp, ?retx, ?timeout, ?lagging, ?synced, ?noLag⟩,
    fun b r hd => if_pos hd, applyRecord_mseq, emitRec_bounded, emitRec_replaces⟩
  case ack =>
    intro hs ha he
    have due : (served s.dev uMirror && s.dev.mirror.applied ≠ 0 && elapsed s.dev s.dev.mirror.appliedAt 200) = true := by
      simp [hs, ha, he]
    refine goes_on (b := mirrorAckTimer s.dev) (if_pos due) ⟨rfl, ⟨_, List.mem_append_right _ List.mem_cons_self, rfl, rfl⟩, rfl⟩
  case noAck =>
    intro h
    refine next_on (b := mirrorAckTimer s.dev) (b' := s.dev) (if_neg ?_)
    rcases h with h | h | h <;> simp [h]
  case mark =>
    intro hr ha he
    exact next_on (b := markTimer s.dev) (if_pos (by simp [hr, ha, he]))
  case noMark =>
    intro h
    refine next_on (b := markTimer s.dev) (b' := s.dev) (if_neg ?_)
    rcases h with h | h | h <;> simp [h]
  case qp =>
    exact fun i => ⟨fun h => next_on (b := qpRefresh s.dev i) (if_pos (by simpa using h)),
      fun h => next_on (b := qpRefresh s.dev i) (b' := s.dev) (if_neg (by simpa using h))⟩
  case retx =>
    intro m due
    refine ⟨fun ⟨hr, hm, he⟩ => ?_, fun h => next_on (b := mirrorRetx s.dev) (b' := s.dev) (if_pos ?_)⟩
    · have go : ¬ (!mirrorRuns s.dev || s.dev.mirror.replay.isEmpty
          || !elapsed s.dev (max s.dev.mirror.ackAt s.dev.mirror.sentAt) (micros (rd s.dev 0xA000 4))) = true := by
        simp only [m] at he hm
        simp [hr, hm, he]
      refine goes_on (b := mirrorRetx s.dev) (if_neg go) ⟨rfl, ?_, memSame_of_mem rfl⟩
      exact (rd_wr_self ..).trans (rd_wr_self ..).symm
    · simp only [due, m] at h
      simpa [Classical.or_iff_not_imp_left] using h
  case timeout =>
    intro due
    refine ⟨fun ⟨hr, hm, he⟩ => next_on (b := mirrorBroken s.dev) (if_neg ?_),
      fun h => next_on (b := mirrorBroken s.dev) (b' := s.dev) (if_pos ?_)⟩
    · simp [hr, hm, he]
    · simp only [due] at h
      simpa [Classical.or_iff_not_imp_left] using h
  case lagging =>
    intro hs hm hl
    exact next_on (b := lagCheck s.dev) ((if_neg (by simp [hs])).trans (if_pos (by simp [hm, hl])))
  case synced =>
    intro hs hm hl
    exact next_on (b := lagCheck s.dev) ((if_neg (by simp [hs])).trans ((if_neg (by simp [hm])).trans (if_pos (by simp [hm, hl]))))
  case noLag =>
    intro h
    refine next_on (b := lagCheck s.dev) (b' := s.dev) ?_
    unfold lagCheck
    rcases h with h | ⟨h1, h2⟩
    · rw [if_pos (by simp [h])]
    · rw [if_neg (c := (mirrorState s.dev = 2 && 2000 ≤ lag s.dev) = true) (by simp; omega),
        if_neg (c := (mirrorState s.dev = 3 && lag s.dev < 1000) = true) (by simp; omega), ite_self]

end Sys2Proof.Machine
end

section
/-! SUPPORT. Engine requests that reach package memory (O5). -/

namespace Sys2Proof.Machine

/-! Requests that reach package memory (01 R15-R17) -/

section
variable {s : State} {es va beats data compare op : Nat} {st : Step} {b : Block} {segs : List Seg}

/-- A request that is let through goes where its tile lies, and its station goes on. -/
theorem engineMem_letThrough (hr : clusterRuns s.dev es st) (hi : noInjection s.dev)
    (h : engineLetThrough s es op va beats data compare st b segs) : engineMem s.dev es op va beats data compare
      = release (engineSend b es (engineReq s.dev op va beats data compare st) segs) es := by
  obtain ⟨h1, h8, hv, ha, hd, hq, hp⟩ := h
  rw [engineMem_ok hr hi hv h1 h8 ha hd, engineGo]
  refine congrArg (release · es) (engineTry_issued ?_ rfl hp)
  rw [List.any_eq_false]
  intro q he
  simpa using hq q (earlier_addReq he rfl)

/-- The request as it is listed once it has been translated. -/
def sentReq (b : Block) (op va beats data compare : Nat) (st : Step) (segs : List Seg) : EReq :=
  { engineReq b op va beats data compare st with issued := true, segs := segs }

variable (hr : clusterRuns s.dev es st) (hi : noInjection s.dev) (hp : segsPlace b segs = .package)
include hr hi hp

theorem engineMem_read (h : engineLetThrough s es 0 va beats data compare st b segs) :
    engineMem s.dev es 0 va beats data compare
      = release (goRead (setReq b es (sentReq s.dev 0 va beats data compare st segs))
        (reqAsker es (sentReq s.dev 0 va beats data compare st segs)) st.ctx segs) es := by
  rw [engineMem_letThrough hr hi h, engineSend_read hp rfl]
  rfl

theorem engineMem_store (h : engineLetThrough s es op va beats data compare st b segs) (h1 : 1 ≤ op) (h5 : op < 5) :
    engineMem s.dev es op va beats data compare
      = release (engineStore (setReq b es (sentReq s.dev op va beats data compare st segs)) es
        (sentReq s.dev op va beats data compare st segs)) es := by
  rw [engineMem_letThrough hr hi h, engineSend_store hp h1 h5]
  rfl

end

/-- An atomic of package memory that finds its tag and its line is done. -/
theorem engineStore_done {b : Block} {es : Nat} {r : EReq} (hp : segsPlace b r.segs = .package) (h2 : 2 ≤ r.op) (h5 : r.op < 5)
    (ht : tagFree b .mem r.ctx.pid = true) (hn : issued b (reqHolder es r.num) = false) (hl : lockFree b r.pa 1 = true)
    (hs : served b (uMS (stationOf r.pa)) = true) : engineStore b es r
      = (let a := atomicAt (grantTag b (storeTag es r)) r.pa r.aop r.data r.compare
        emit (dropReq a.1 es r.num) (.edData es ⟨8, a.2⟩)) := by
  rw [engineStore_atomic hp h2 h5 ht hn]
  exact engineLock_free hl hs

/-- Settles O5: a request let through is sent, and what it is sent as is its operation's law. -/
theorem engineRequestsReachPackageMemory : Obligations.EngineRequestsReachPackageMemory := by
  intro s es va beats st b segs ha hr hi hp tag ready
  have ht := hr.1
  refine ⟨?read, ?write, ?atomic⟩
  case read =>
    intro h r
    rw [exec_read ha ht]
    exact next_on (engineMem_read hr hi hp h)
  case write =>
    intro data h r
    rw [exec_write ha ht]
    have e := engineMem_store hr hi hp h (by decide) (by decide)
    refine ⟨fun ⟨free, new⟩ => next_on (e.trans (congrArg (release · es) ?_)),
      fun full new => next_on (e.trans (congrArg (release · es) ?_))⟩
    · exact engineStore_write (r := sentReq s.dev 1 va beats data.val 0 st segs) hp rfl free new
    · exact engineStore_wait (r := sentReq s.dev 1 va beats data.val 0 st segs) hp full new
  case atomic =>
    intro op x y h2 h5 h r ⟨free, new⟩ hl hs a t
    have len : engineLen op beats = 8 := if_pos h2
    have word : (sentReq s.dev op va beats x.toNat y.toNat st segs).data = x.toNat := by
      have : x.toNat % 2 ^ (8 * engineLen op beats) = x.toNat := by
        rw [len]
        exact Nat.mod_eq_of_lt x.isLt
      exact this
    have done := engineStore_done (b := setReq b es (sentReq s.dev op va beats x.toNat y.toNat st segs))
      (r := sentReq s.dev op va beats x.toNat y.toNat st segs) hp h2 h5 free new hl hs
    rw [word] at done
    have e := (engineMem_store hr hi hp h (by omega) h5).trans (congrArg (release · es) done)
    refine ⟨fun e2 e0 => ?_, fun e3 => ?_, fun e4 e0 => ?_⟩
    · subst e2 e0
      rw [exec_fetchAdd ha ht]
      exact next_on e
    · subst e3
      rw [exec_cmpSwap ha ht]
      exact next_on e
    · subst e4 e0
      rw [exec_swap ha ht]
      exact next_on e

end Sys2Proof.Machine
end

section
/-! SUPPORT. Control requests of an engine (O7). -/

namespace Sys2Proof.Machine

/-! Control requests of a station without another request (05 R165, 11 R349) -/

section
variable {b : Block} {es op va : Nat} {st : Step}

/-- A control request as its station lists it. -/
def ctlReq (b : Block) (op va : Nat) (st : Step) : EReq := ⟨b.cha.nextReq, op, va, 0, 0, 0, st.ctx, [], false, false⟩

theorem addReq_alone (h : (station b es).reqs = []) (r : EReq) :
    (station (addReq b es r).1 es).reqs = [{ r with num := b.cha.nextReq }] := by
  have e : (station (addReq b es r).1 es).reqs = (station b es).reqs ++ [{ r with num := b.cha.nextReq }] := by
    simp [addReq, onStationES]; simp [station]
  rw [e, h, List.nil_append]

/-- A station that holds one request lets it go on if it may, and then holds its peace. -/
theorem release_one {r : EReq} (h : (station b es).reqs = [r]) (hm : r.isMem = false) (hc : ctlReady b es r = true) :
    release b es = goOn b es r := by
  have f : freed b es = some r := by simp [freed, h, hm, hc]
  unfold release
  rw [h, List.length_singleton, releaseReqs, f]
  rfl

theorem ctlReady_alone {r : EReq} (h : (station b es).reqs = [r]) : ctlReady b es r = true := by
  have none : earlier b es r.num = [] := by simp [earlier, h]
  simp [ctlReady, none]

/-- PACE or COMMIT at a station without another request goes on at once. -/
theorem engineCtl_alone (hr : clusterRuns b es st) (h : (station b es).reqs = []) (ho : 5 ≤ op) :
    engineCtl b es op va = goOn (addReq b es ⟨0, op, va, 0, 0, 0, st.ctx, [], false, false⟩).1 es (ctlReq b op va st) := by
  have listed := addReq_alone h ⟨0, op, va, 0, 0, 0, st.ctx, [], false, false⟩
  unfold engineCtl
  rw [screenReq_ok hr rfl]
  refine release_one listed ?_ (ctlReady_alone listed)
  exact decide_eq_false (by unfold ctlReq; dsimp only; omega)

theorem paceEntry_dropReq (b : Block) (es n l : Nat) : paceEntry (dropReq b es n) l = paceEntry b l := by
  unfold paceEntry rdBlob
  rw [dropReq_blobs]

end

/-- Settles O7: a request alone at its station goes on at once, and does what its operation says. -/
theorem engineControlRequests : Obligations.EngineControlRequests := by
  intro s es st ha
  refine ⟨fun hr h => ?ctl, fun hr va w => ?post, fun ht hs hk hn => ?wait⟩
  case ctl =>
    intro listed
    have ht := hr.1
    refine ⟨?pace, ?commit⟩
    · intro va e
      have acts : exec (.pace es va) s = _ := stationEvent_acts ha ht 4 (.pace es va) fun b => engineCtl b es 8 va
      rw [acts]
      refine next_on ((engineCtl_alone hr h (by decide)).trans ?_)
      change paceNow (addReq s.dev es ⟨0, 8, va, 0, 0, 0, st.ctx, [], false, false⟩).1 es (ctlReq s.dev 8 va st) = _
      unfold paceNow
      dsimp only
      rw [paceEntry_dropReq]
      change (if (paceOwner e ≠ st.ctx.pid || paceSource e ≠ 1) = true then _ else _) = _
      by_cases own : paceOwner e = st.ctx.pid ∧ paceSource e = 1
      · rw [if_pos own, if_neg (by simp [own])]
        rfl
      · rw [if_neg own, if_pos (by simpa [Classical.or_iff_not_imp_left] using own)]
        rfl
    · have acts : exec (.commit es) s = _ := stationEvent_acts ha ht 4 (.commit es) fun b => engineCtl b es 9 0
      rw [acts]
      exact next_on (engineCtl_alone hr h (by decide))
  case post =>
    have acts : exec (.post es va w) s = _ := stationEvent_acts ha hr.1 4 (.post es va w) fun b => enginePost b es va w.toNat
    rw [acts]
    refine next_on ?_
    unfold enginePost
    rw [screenReq_ok hr rfl]
    rfl
  case wait =>
    have acts : exec (.wait es) s = .next (s.on (presented s.dev es fun b => engineWait b es)) := rfl
    rw [acts, presented_takes ht]
    refine next_on ?_
    unfold engineWait
    rw [hn]
    exact (if_neg (by simp [hs])).trans ((if_neg Bool.false_ne_true).trans (if_neg (by simp [hk])))

end Sys2Proof.Machine
end

section
/-! SUPPORT. Responses and grants at the engine stations (O9). -/

namespace Sys2Proof.Machine

/-! Responses and locks (01 R18, 08 R267) -/

/-- A read response for a tag of an engine's request goes to that request. -/
theorem memResponse_engine {b : Block} {tag : Nat} {bad : Bool} {u : TagUse} (h : b.tags.used.find? (·.tag == tag) = some u)
    (hk : u.holder.kind = .engineRead) : memResponse b tag bad
      = engineArrive (draw b).2 u.holder.a u.holder.b ⟨.ok, ⟨512, (draw b).1 % 2 ^ 4096⟩, bad⟩ := by
  unfold memResponse
  rw [h]
  simp only [hk]

/-- An engine's request whose answers are all there is answered. -/
theorem engineArrive_complete {b b' : Block} {es num : Nat} {r : EReq} {ans : Answer} {st : Status} {d : Nat}
    (h : findReq b es num = some r)
    (ha : arrive b (reqHolder es num) r.segs ans (if r.op = 1 then 0 else r.len) = some (b', st, d)) :
    engineArrive b es num ans = engineAnswer b' es r st d := by
  unfold engineArrive
  rw [h]
  simp only [ha]

/-- The oldest request that waits for a free line takes its lock. -/
theorem lockGrant_next {b : Block} {ms : Nat} {w : LockWait} (h : lockNext b ms = some w) :
    lockGrant b ms (lineOf w.pa) = lockServe (lockTake b w) w := by
  unfold lockGrant
  rw [h]
  exact if_neg (fun h => h rfl)

theorem lockServe_engine {b : Block} {w : LockWait} {es num : Nat} {r : EReq} (hw : w.who = .engine es num)
    (h : findReq b es num = some r) : lockServe b w = release (engineAtomic b es r) es := by
  unfold lockServe
  simp only [hw, h]

/-- Settles O9: the response, the tag and the lock each go to the request named. -/
theorem responsesAndGrantsOfTheEngineStations : Obligations.ResponsesAndGrantsOfTheEngineStations := by
  unfold Obligations.ResponsesAndGrantsOfTheEngineStations
  refine ⟨?response, ?tag, ?lock⟩
  case response =>
    intro s tag poison err u r b st d ht hk hf ha
    exact next_on ((memResponse_engine ht hk).trans (engineArrive_complete hf ha))
  case tag =>
    intro s pool p w hp hw b
    rw [exec_tagGrant hp hw, tagGrant_of_waiter hw]
  case lock =>
    intro s ms w hw b
    refine ⟨next_on (lockGrant_next hw), fun es num r who hf => next_on ((lockGrant_next hw).trans ?_)⟩
    exact lockServe_engine who hf

end Sys2Proof.Machine
end

section
/-! SUPPORT. Reset release (O11). -/

namespace Sys2Proof.Machine

/-! Reset release (14 R431, R436) -/

theorem find?_filter_none {α : Type} (m : SMap α) (p : Nat → Nat → Bool) {k : Nat} (h : p (k / 256) (k % 256) = false) :
    find? (filterObjs m p) k = none := by
  induction m with
  | nil => rfl
  | cons e m ih =>
    unfold filterObjs at ih ⊢
    rw [List.filter_cons]
    split
    next he =>
      have : e.1 ≠ k := fun e' => by simp [e', h] at he
      simpa [find?, this] using ih
    next => exact ih

/-- The block before a reset's first step, once the buffer and the pin are settled. -/
def settled (b : Block) (powerOn : Bool) : Block :=
  let b := if !powerOn && rd b 0x9002 3 = 1 then skimClose b 3 else b
  if rd b 0x9000 3 = 1 then emit b (.faultL false) else b

theorem settled_mem (b : Block) (powerOn : Bool) : (settled b powerOn).mem = b.mem := by
  unfold settled
  dsimp only
  rw [apply_ite Block.mem, emit_mem, ite_self, apply_ite Block.mem, skimClose_mem, ite_self]

/-- The block that starts, before its PLLs are looked at. -/
def booted (b : Block) (powerOn lock : Bool) (st : Straps) : Block :=
  (List.range 36).foldl (fun b p => wr b (0x5100 + p) 1 0) (bootBlock (settled b powerOn) (!powerOn) lock st)

theorem resetRelease_eq (b : Block) (powerOn lock : Bool) (st : Straps) :
    resetRelease b powerOn lock st = lockCheck (booted b powerOn lock st) := by
  unfold resetRelease booted settled
  exact Eq.refl _

/-- What dictionary writes leave alone is as the boot leaves it. -/
theorem booted_keeps {α : Type} (g : Block → α) (hw : ∀ b i j v, g (wr b i j v) = g b) (b : Block) (powerOn lock : Bool) (st : Straps) :
    g (booted b powerOn lock st) = g (bootBlock (settled b powerOn) (!powerOn) lock st) :=
  foldl_keeps g _ (fun b p => hw b _ _ _) _ _

/-- What each step of a fold over a list's members keeps, the fold keeps. -/
theorem foldl_keeps_mem {α β : Type} (g : Block → β) (f : Block → α → Block) (l : List α) (h : ∀ b, ∀ a ∈ l, g (f b a) = g b)
    (b : Block) : g (l.foldl f b) = g b := by
  induction l generalizing b with
  | nil => rfl
  | cons a l ih =>
    rw [List.foldl_cons, ih fun b x hx => h b x (List.mem_cons_of_mem a hx), h b a List.mem_cons_self]

theorem startupStep_default : objDefault 0xC000 1 = 1 := by decide +kernel

theorem startupStep_booted (b : Block) (powerOn lock : Bool) (st : Straps) : startupStep (booted b powerOn lock st) = 1 := by
  have boot : rd (bootBlock (settled b powerOn) (!powerOn) lock st) 0xC000 1 = 1 := by
    have none : find? (bootBlock (settled b powerOn) (!powerOn) lock st).dict.objs (objKey 0xC000 1) = none := by
      unfold bootBlock
      cases powerOn
      · exact find?_filter_none _ keptObj (by decide)
      · rfl
    unfold rd look
    rw [none, startupStep_default]
    decide
  refine (foldl_keeps_mem (rd · 0xC000 1) _ _ (fun b p hp => rd_wr_other b 0 (objKey_ne (Or.inl ?_) (by decide) (by decide))) _).trans boot
  have := List.mem_range.mp hp
  omega

theorem lockCheck_keeps {α : Type} (g : Block → α) (hw : ∀ b i j v, g (wr b i j v) = g b)
    (hb : ∀ b i j c, g (wrBlob b i j c) = g b) (b : Block) : g (lockCheck b) = g b := by
  unfold lockCheck
  split
  · exact (hw _ _ _ _).trans ((hb _ _ _ _).trans (hw _ _ _ _))
  · rfl

/-- Settles O11: the boot lists nothing, and the step follows from the PLLs. -/
theorem resetReleaseStartsTheBlock : Obligations.ResetReleaseStartsTheBlock := by
  intro s powerOn lock st
  have keeps {α : Type} (g : Block → α) (hw : ∀ b i j v, g (wr b i j v) = g b) (hb : ∀ b i j c, g (wrBlob b i j c) = g b) :
      g (lockCheck (booted s.dev powerOn lock st)) = g (bootBlock (settled s.dev powerOn) (!powerOn) lock st) :=
    (lockCheck_keeps g hw hb _).trans (booted_keeps g hw _ _ _ _)
  have w {α : Type} (g : Block → α) (hg : ∀ b d, g { b with dict := d } = g b) :
      g (lockCheck (booted s.dev powerOn lock st)) = g (bootBlock (settled s.dev powerOn) (!powerOn) lock st) :=
    keeps g (fun b _ _ _ => hg b _) fun b _ _ _ => hg b _
  refine goes_on (resetRelease_eq s.dev powerOn lock st) ?_
  have mem : (lockCheck (booted s.dev powerOn lock st)).mem = if !powerOn then s.dev.mem else [] :=
    (w (·.mem) fun _ _ => rfl).trans (congrArg (if !powerOn then · else []) (settled_mem _ _))
  refine ⟨w (·.clk.now) fun _ _ => rfl, w (·.clk.released) fun _ _ => rfl, w (·.straps) fun _ _ => rfl, w (·.ptb) fun _ _ => rfl,
    w (·.tags) fun _ _ => rfl, w (·.hub) fun _ _ => rfl, w (·.ladle) fun _ _ => rfl, w (·.tpe.qps) fun _ _ => rfl,
    w (·.tpe.keys) fun _ _ => rfl, w (·.ring) fun _ _ => rfl, w (·.ssu) fun _ _ => rfl, w (·.cru) fun _ _ => rfl,
    w (·.cha) fun _ _ => rfl, w (·.mirror) fun _ _ => rfl, w (·.held) fun _ _ => rfl, ?_, fun h a => ?_, fun h => ?_⟩
  · have units : unlockedUnits (lockCheck (booted s.dev powerOn lock st)) = unlockedUnits (booted s.dev powerOn lock st) :=
      lockCheck_keeps unlockedUnits (fun _ _ _ _ => rfl) (fun _ _ _ _ => rfl) _
    have released : (booted s.dev powerOn lock st).clk.released = true := booted_keeps (·.clk.released) (fun _ _ _ _ => rfl) _ _ _ _
    have locked : (booted s.dev powerOn lock st).clk.coreLock = lock := booted_keeps (·.clk.coreLock) (fun _ _ _ _ => rfl) _ _ _ _
    have first := startupStep_booted s.dev powerOn lock st
    have step : startupStep (lockCheck (booted s.dev powerOn lock st))
        = if lock && (unlockedUnits (lockCheck (booted s.dev powerOn lock st))).isEmpty then 2 else 1 := by
      rw [units]
      unfold lockCheck
      simp only [released, first, locked, decide_true, Bool.true_and, apply_ite startupStep]
      rw [startupStep_stepDone _ 1]
    exact step
  · unfold readByte State.on
    rw [mem, h]
    rfl
  · exact memSame_of_mem (mem.trans (by simp [h]))

end Sys2Proof.Machine
end

section
/-! SUPPORT. Stations at start-up, the start-up scrub and failure events (O13). -/

namespace Sys2Proof.Machine

@[simp] theorem alignCheck_fcu_doms (b : Block) : (alignCheck b).fcu.doms = b.fcu.doms := by
  unfold alignCheck
  simp [apply_ite Block.fcu]

@[simp] theorem readyCheck_fcu_doms (b : Block) : (readyCheck b).fcu.doms = b.fcu.doms := by
  unfold readyCheck
  (repeat' split) <;> simp


/-! Granules that are scrubbed -/

/-- A sparse array without the keys that fail a test. -/
theorem find?_filterKeys {α : Type} (m : SMap α) (p : Nat → Bool) (k : Nat) :
    find? (m.filter fun e => p e.1) k = if p k then find? m k else none := by
  induction m with
  | nil => simp
  | cons e m ih =>
    rw [List.filter_cons]
    by_cases hk : e.1 = k
    · subst hk
      by_cases hp : p e.1 = true
      · simp [find?, hp]
      · simpa [find?, hp] using ih
    · by_cases hp : p e.1 = true
      · simpa [find?, hp, hk] using ih
      · simpa [find?, hp, hk] using ih

theorem readByte_zeroGranule (b : Block) (g a : Nat) :
    readByte (zeroGranule b g) a = if a / 2 ^ 30 = g then 0 else readByte b a := by
  unfold readByte look zeroGranule
  rw [find?_filterKeys b.mem (fun k => k / 2 ^ 30 ≠ g)]
  by_cases h : a / 2 ^ 30 = g
  · rw [if_pos h, if_neg (fun h' => (of_decide_eq_true h') h)]
    rfl
  · rw [if_neg h, if_pos (decide_eq_true h)]

/-- The first granule of a station in ascending order that is to be scrubbed. -/
theorem firstUnscrubbed {b : Block} {g : Nat} (hu : (owner b g).scrub = .unscrubbed) (he : granuleExists b g = true)
    (first : ∀ x, x / 64 = g / 64 → x < g → granuleExists b x = true → (owner b x).scrub ≠ .unscrubbed) :
    ((List.range 64).map (64 * (g / 64) + ·)).find? (fun x => granuleExists b x && (owner b x).scrub == .unscrubbed) = some g := by
  refine List.find?_eq_some_iff_getElem.mpr ⟨by simp [he, hu], g % 64, by simpa using Nat.mod_lt g (by decide), ?_, fun j hj => ?_⟩
  · simpa using Nat.div_add_mod g 64
  · have hj64 : j < 64 := Nat.lt_trans hj (Nat.mod_lt g (by decide))
    have := first (64 * (g / 64) + j) (by omega) (by omega)
    simpa [Classical.or_iff_not_imp_left] using this

theorem startupScrub_done {b : Block} {g : Nat} (hr : ready b (g / 64) = true) (hs : starts b (uMS (g / 64)) = true)
    (hu : (owner b g).scrub = .unscrubbed) (he : granuleExists b g = true)
    (first : ∀ x, x / 64 = g / 64 → x < g → granuleExists b x = true → (owner b x).scrub ≠ .unscrubbed) :
    startupScrub b g = addTo (setOwner (emit (zeroGranule b g) (.memWrite (2 ^ 30 * g) ⟨2 ^ 30, 0⟩ 0)) g
      ⟨0, false, .clean⟩) 0x2000 5 (2 ^ 30) := by
  unfold startupScrub
  dsimp only
  rw [firstUnscrubbed hu he first, hr, hs]
  exact if_neg (by simp)

/-! Events that find room in the queue -/

theorem raiseFree_queued {b : Block} (h : b.fcu.queue.length < 64) (fsrc unit pid : Nat) :
    ∃ d, (raiseFree b fsrc unit pid).fcu.queue = b.fcu.queue ++ [⟨fsrc, unit, pid, 0, d, false⟩] := by
  unfold raiseFree raise raiseEvent
  have room : (draw b).2.fcu.queue.length < 64 := h
  dsimp only
  rw [if_pos room]
  exact ⟨_, rfl⟩

/-- Is an event of source `fsrc` on unit `u`, not injected, in the queue? -/
def queued (b : Block) (fsrc u : Nat) : Prop := ∃ e ∈ b.fcu.queue, e.fsrc = fsrc ∧ e.unit = u ∧ e.injected = false

theorem queued_raiseFree {b : Block} (h : b.fcu.queue.length < 64) (fsrc unit pid : Nat) : queued (raiseFree b fsrc unit pid) fsrc unit := by
  obtain ⟨d, e⟩ := raiseFree_queued h fsrc unit pid
  exact ⟨_, e ▸ List.mem_append_right _ List.mem_cons_self, rfl, rfl, rfl⟩

/-- Each unit of a list whose events find room has its event queued, and what was queued stays. -/
theorem queued_each (fsrc : Nat) (l : List Nat) (b : Block) (room : b.fcu.queue.length + l.length ≤ 64) (u : Nat)
    (hu : u ∈ l ∨ queued b fsrc u) : queued (l.foldl (fun b u => raiseFree b fsrc u 0) b) fsrc u := by
  induction l generalizing b with
  | nil => simpa using hu
  | cons v l ih =>
    have h : b.fcu.queue.length < 64 := by simp at room; omega
    obtain ⟨d, e⟩ := raiseFree_queued h fsrc v 0
    refine ih _ (by rw [e]; simp at room ⊢; omega) ?_
    rcases hu with hu | ⟨x, hx, hs⟩
    · rcases List.mem_cons.mp hu with rfl | hu
      · exact Or.inr (queued_raiseFree h fsrc u 0)
      · exact Or.inl hu
    · exact Or.inr ⟨x, e ▸ List.mem_append_left _ hx, hs⟩

theorem raiseEach_mem (fsrc : Nat) (l : List Nat) (b : Block) : (l.foldl (fun b u => raiseFree b fsrc u 0) b).mem = b.mem :=
  foldl_keeps (·.mem) _ (fun b u => raiseFree_mem b fsrc u 0) l b

theorem raiseEach_clk (fsrc : Nat) (l : List Nat) (b : Block) : (l.foldl (fun b u => raiseFree b fsrc u 0) b).clk = b.clk :=
  foldl_keeps (·.clk) _ (fun b u => raiseFree_clk b fsrc u 0) l b

theorem dieMask : ∀ d < 16, (BitVec.ofNat 16 (2 ^ 16 - 1 - 2 ^ d)).getLsbD d = false := by decide

theorem stationMask : ∀ m < 32, (BitVec.ofNat 32 (2 ^ 32 - 1 - 2 ^ m)).getLsbD m = false := by decide

/-- The block whose die's PLL has lost its lock. -/
def dieUnlocked (b : Block) (d : Nat) : Block :=
  { b with clk := { b.clk with dieLock := b.clk.dieLock &&& BitVec.ofNat 16 (2 ^ 16 - 1 - 2 ^ d) } }

def coreUnlocked (b : Block) : Block := { b with clk := { b.clk with coreLock := false } }

/-- The block whose Memory Station is no longer ready. -/
def stationUnready (b : Block) (m : Nat) : Block :=
  { b with clk := { b.clk with miReady := b.clk.miReady &&& BitVec.ofNat 32 (2 ^ 32 - 1 - 2 ^ m) } }

/-- Settles O13: each row that reports a failure queues its events, and the scrub takes the first granule. -/
theorem stationsEndTheirStartupAndFailuresQueueEvents : Obligations.StationsEndTheirStartupAndFailuresQueueEvents := by
  refine ⟨⟨?timeout, ?scrub⟩, fun s => ⟨?modules, ?die, fun room => ⟨?core, ?fall, ?host, ?firmware⟩⟩⟩
  case timeout =>
    intro s ms hp hd h5 hs hr he
    have e : miReadyTimeout s.dev ms = readyCheck (startupEvent (startupOut s.dev (uMS ms)) 18 (uMS ms) 1) := by
      unfold miReadyTimeout
      rw [if_neg (by simp [hp]), if_neg hd, if_pos (by simp [h5, hs, hr, he])]
    refine goes_on e ⟨?_, memSame_of_mem (by simp [State.on])⟩
    simp only [State.on]
    rw [domain_congr (readyCheck_fcu_doms _)]
    exact out_startupOut [uMS ms] 18 s.dev (uMS ms) (Or.inl List.mem_cons_self)
  case scrub =>
    intro s g hr hs hu he first
    refine goes_on (startupScrub_done hr hs hu he first) ⟨look_store_self .., fun x hx => look_store_other _ _ _ _ hx, fun a => ?_, rfl⟩
    exact readByte_zeroGranule s.dev g a
  case modules =>
    intro m room
    refine goes_on (b := moduleDown s.dev m) rfl ⟨memSame_of_mem (raiseEach_mem ..), fun u hu => ?_⟩
    exact queued_each 16 _ s.dev room u (Or.inl hu)
  case die =>
    intro d hd hw room
    have watched : pllWatched (dieUnlocked s.dev d) = true := hw
    have e : dieLockLoss s.dev d = (stationsOn s.dev s.dev.straps.dieOf d).foldl (fun b u => raiseFree b 15 u 0) (dieUnlocked s.dev d) := by
      unfold dieLockLoss
      dsimp only
      rw [if_pos hd]
      exact if_pos watched
    refine goes_on e ⟨memSame_of_mem (raiseEach_mem ..), ?_, fun u hu => queued_each 15 _ (dieUnlocked s.dev d) room u (Or.inl hu)⟩
    simp only [State.on, raiseEach_clk, dieUnlocked, BitVec.getLsbD_and, dieMask d hd, Bool.and_false]
  case core =>
    intro hw
    have watched : pllWatched (coreUnlocked s.dev) = true := hw
    refine goes_on (b := coreLockLoss s.dev) (if_pos watched) ⟨memSame_of_mem (raiseFree_mem ..), ?_, queued_raiseFree (b := coreUnlocked s.dev) room 14 uFCU 0⟩
    simp only [State.on, raiseFree_clk]
  case fall =>
    intro m hp hr
    have hm : m < 32 := by simpa using (Bool.and_eq_true_iff.mp hp).1
    refine goes_on (b := miReadyFall s.dev m) (if_neg (by simp [hp, hr]))
      ⟨memSame_of_mem (raiseFree_mem ..), ?_, queued_raiseFree (b := stationUnready s.dev m) room 18 (uMS m) 0⟩
    have mask : (BitVec.ofNat 32 (2 ^ 32 - 1 - 2 ^ m)).toNat.testBit m = false := stationMask m hm
    simp only [ready, State.on, raiseFree_clk, BitVec.toNat_and, Nat.testBit_and, mask, Bool.and_false]
  case host => exact fun l hl => goes_on (if_pos hl) ⟨memSame_of_mem (by simp [State.on]), queued_raiseFree room 27 uDXE 0⟩
  case firmware => exact fun n hn => goes_on (if_pos hn) ⟨memSame_of_mem (by simp [State.on]), queued_raiseFree room 26 (uReed n) 0⟩

end Sys2Proof.Machine
end

section
/-! SUPPORT. Hold (O14). -/

namespace Sys2Proof.Machine

/-! Hold (14 R437-R441) -/

section
variable {s : State} {acc : Access}

theorem holdEnter_accepted {b : Block} (hc : canTake b 0xC000 0x40) (hr : notHostFmFw acc = false) :
    holdEnter b acc 0 = match holdFault (accepted b acc 0xC000 0x40 0) with
      | some d => finishCmd (accepted b acc 0xC000 0x40 0) 0xC000 0x40 .state d
      | none => wr (accepted b acc 0xC000 0x40 0) 0xC000 6 1 := by
  unfold holdEnter
  rw [command_accepted hc (notHostFmFw_notTnt hr) (by decide) (by simp [noFails, hr])] <;> rfl

theorem holdEnter_enters (hc : canTake s.dev 0xC000 0x40) (hr : notHostFmFw acc = false)
    (h : holdFault (accepted s.dev acc 0xC000 0x40 0) = none) : Goes (exec (.holdEnter acc 0) s) fun t =>
      rd t.dev 0xC000 6 = 1 ∧ pends s t 0xC000 0x40 ∧ memSame s t := by
  have e : holdEnter s.dev acc 0 = wr (accepted s.dev acc 0xC000 0x40 0) 0xC000 6 1 := (holdEnter_accepted hc hr).trans (by rw [h])
  refine goes_on e ⟨rd_wr_self .., ?_, memSame_of_mem (by simp [State.on])⟩
  exact (rd_wr_other (accepted s.dev acc 0xC000 0x40 0) 1 (by decide)).trans pends_accepted

theorem holdEnter_fails (hc : canTake s.dev 0xC000 0x40) (hr : notHostFmFw acc = false) {d : Nat}
    (h : holdFault (accepted s.dev acc 0xC000 0x40 0) = some d) : Goes (exec (.holdEnter acc 0) s) fun t =>
      rd t.dev 0xC000 6 = 0 ∧ finishes s t 0xC000 0x40 .state d ∧ memSame s t := by
  have e : holdEnter s.dev acc 0 = finishCmd (accepted s.dev acc 0xC000 0x40 0) 0xC000 0x40 .state d :=
    (holdEnter_accepted hc hr).trans (by rw [h])
  refine goes_on e ⟨?_, ?_, memSame_of_mem (by simp [State.on])⟩
  · have run : rd s.dev 0xC000 6 = 0 := hc.1
    exact ((rd_finishCmd_other _ _ _ (by decide)).trans (rd_accepted_other (by decide) (by decide))).trans run
  · exact finishes_finishCmd hc rfl .state d

theorem holdEntryDone_holds {p : PendCmd} (h : rd s.dev 0xC000 6 = 1) (hp : pendingCmd s.dev 0xC000 0x40 = some p)
    (hs : p.cmdSeq < 65536) : Goes (exec .holdEntryDone s) fun t =>
      rd t.dev 0xC000 6 = 2 ∧ rd t.dev 0xC000 7 = (rd s.dev 0xC000 7 + 1) % 2 ^ 64
      ∧ rd t.dev 0xC000 0xC0 = resultWord p.cmdSeq 2 Code.ok.num 0 ∧ memSame s t := by
  have e : holdEntryDone s.dev = finishCmd (count (wr s.dev 0xC000 6 2) 0xC000 7) 0xC000 0x40 .ok 0 := if_pos h
  have pending : pendingCmd (count (wr s.dev 0xC000 6 2) 0xC000 7) 0xC000 0x40 = some p :=
    (pendingCmd_congr rfl 0xC000 0x40).trans hp
  refine goes_on e ⟨?_, ?_, ?_, memSame_of_mem (by simp [State.on])⟩
  · exact ((rd_finishCmd_other _ _ _ (by decide)).trans (rd_count_other _ (by decide))).trans (rd_wr_self ..)
  · refine ((rd_finishCmd_other _ _ _ (by decide)).trans (rd_count_self ..)).trans ?_
    rw [rd_wr_other _ _ (by decide)]
  · have seq := resultWord_mod p.cmdSeq 2 .ok 0 (by decide)
    rw [Nat.mod_eq_of_lt hs] at seq
    exact (rd_finishCmd_self pending .ok 0).trans seq

theorem wakeBy_hold {b : Block} (h : rd b 0xC000 6 = 2) (c : Nat) : wakeBy b c = wr (wr b 0xC000 6 3) 0xC000 9 c := by
  unfold wakeBy
  rw [h]
  exact Eq.refl _

/-- Without a source of credit none is granted. -/
theorem grantUnits_none {b : Block} (h : b.tpe.rxCredit = []) (n : Nat) : grantUnits b [] n = (b, []) := by
  cases n with
  | zero => rfl
  | succ n =>
    rw [grantUnits]
    split
    · rfl
    · dsimp only
      split
      · rfl
      next found =>
        obtain ⟨source, -, e⟩ := List.exists_of_findSome?_eq_some found
        simp [h] at e

theorem grantCredit_none {b : Block} (h : b.tpe.rxCredit = []) : grantCredit b = b := by
  unfold grantCredit
  split
  · rfl
  · rw [grantUnits_none h]
    rfl

theorem wakeComplete_wakes (h : rd s.dev 0xC000 6 = 3) : exec .wakeComplete s = .next (s.on (s.dev.held.foldl replay
    (grantCredit ((s.dev.tpe.rxCredit.map (·.1)).foldl quietEnd (wr { s.dev with held := [] } 0xC000 6 0))))) :=
  next_on (b := wakeComplete s.dev) (if_neg (fun n => n h))

end

/-- Settles O14: each row by the POWER_STATE it finds. -/
theorem holdIsEnteredAndLeft : Obligations.HoldIsEnteredAndLeft := by
  refine ⟨fun s acc hc hr => ⟨holdEnter_enters hc hr, fun d => holdEnter_fails hc hr⟩, fun s p => holdEntryDone_holds, ?wake, ?done,
    fun s => wakeComplete_wakes⟩
  case wake =>
    intro s c h h1 h7
    have e : (if 1 ≤ c && c < 7 then wakeBy s.dev c else s.dev) = _ := (if_pos (by simp [h1, h7])).trans (wakeBy_hold h c)
    refine goes_on e ⟨?_, ?_, memSame_of_mem rfl⟩
    · exact (rd_wr_other _ _ (by decide)).trans (rd_wr_self ..)
    · refine (rd_wr_self ..).trans (Nat.mod_eq_of_lt (by omega))
  case done =>
    intro s h hh hc
    refine ⟨_, wakeComplete_wakes h, ?_⟩
    have none : grantCredit (wr { s.dev with held := [] } 0xC000 6 0) = wr { s.dev with held := [] } 0xC000 6 0 := grantCredit_none hc
    rw [hh, hc, List.map_nil, List.foldl_nil, List.foldl_nil, none]
    exact ⟨rd_wr_zero .., rfl⟩

end Sys2Proof.Machine
end

section
/-! SUPPORT. Management messages and the host's accesses to its functions (O21, O22). -/

namespace Sys2Proof.Machine

/-! Management messages (02 R67-R72) -/

section
variable {b : Block} {eid tag : Nat} {body : Bytes}

/-- A well-formed message of a new sequence number is performed as the endpoint's access. -/
theorem remoteRequest_new {r : Bytes} (h : ∀ k ∈ look b.dict.kept [] eid, k.seq ≠ reqSeq (slice r.val 8 8)) :
    remoteRequest b (.mctp eid tag) r
      = performReq b (.mctp eid tag) (slice r.val 8 8) (BitVec.ofNat 64 (slice r.val 16 8)) (slice r.val 24 256) := by
  have none : (look b.dict.kept [] eid).find? (·.seq == reqSeq (slice r.val 8 8)) = none :=
    List.find?_eq_none.mpr fun k hk => by simpa using h k hk
  unfold remoteRequest
  simp only [keptKey, none]

/-- A message whose sequence number is kept is answered with the response kept. -/
theorem remoteRequest_kept {r : Bytes} {k : Kept} (h : (look b.dict.kept [] eid).find? (·.seq == reqSeq (slice r.val 8 8)) = some k) :
    remoteRequest b (.mctp eid tag) r
      = emit (count b 0x1402 4) (.mctp eid tag false (mctpBody (accessRecord 2 k.resp k.data k.seg))) := by
  unfold remoteRequest
  simp only [keptKey, h, sendRecord]

theorem mctpMessage_unassigned (h : rd b 0x1402 1 = 0) (ic : Bool) : mctpMessage b eid tag ic body = b := if_pos h

theorem mctpMessage_bad (h : rd b 0x1402 1 ≠ 0) {ic : Bool}
    (bad : ic = true ∨ ¬ (slice body.val 0 3 = 0x5B2E7E ∧ recordOk (bytesSlice body 3 (body.len - 3)) = true)) :
    mctpMessage b eid tag ic body = count b 0x1402 2 := by
  refine (if_neg h).trans (if_pos ?_)
  rcases bad with bad | bad
  · simp [bad]
  · simpa [Classical.or_iff_not_imp_left] using fun _ => bad

theorem mctpMessage_good (h : rd b 0x1402 1 ≠ 0) (ht : slice body.val 0 3 = 0x5B2E7E)
    (hr : recordOk (bytesSlice body 3 (body.len - 3)) = true) :
    mctpMessage b eid tag false body = remoteRequest b (.mctp eid tag) (bytesSlice body 3 (body.len - 3)) :=
  (if_neg h).trans (if_neg (by simp [ht, hr]))

end

/-- Settles O21: a message by its form and by whether its sequence number is kept. -/
theorem managementMessagesAreServed : Obligations.ManagementMessagesAreServed := by
  refine ⟨fun s src tag inst eid => ⟨⟨rfl, ?_⟩, rfl, rfl, rfl, rfl⟩, fun s eid tag ic body h => ?_, fun s eid tag body h => ?_⟩
  · exact (rd_wr_self ..).trans (Nat.mod_eq_of_lt (by omega))
  · exact next_on (b' := s.dev) (mctpMessage_unassigned h ic)
  · refine ⟨fun ⟨ht, hr⟩ hk => next_on ((mctpMessage_good h ht hr).trans (remoteRequest_new hk)),
      fun ⟨ht, hr⟩ k hk => next_on ((mctpMessage_good h ht hr).trans (remoteRequest_kept hk)),
      fun bad => next_on (mctpMessage_bad h (Or.inr bad)), next_on (mctpMessage_bad h (Or.inl rfl))⟩

/-! Function accesses of the host (02 R62, 03 R106, 10 R341) -/

section
variable {b : Block} {fn slot width : Nat}

/-- A write to the first bytes of a function's slot. -/
theorem barWrite_slot (hs : slot < (if fn = 0 then 64 else 8)) (hb : fn = 0 ∨ pidOfVf b fn ≠ 0) (v : Word) :
    barWrite b fn (slot * 512) width v = slotWrite b fn slot 0 width v := by
  have at0 : slot * 512 % 512 = 0 := Nat.mul_mod_left ..
  have at' : slot * 512 / 512 = slot := Nat.mul_div_left _ (by decide)
  unfold barWrite
  dsimp only
  rw [at0, at']
  by_cases h0 : fn = 0
  · rw [if_pos h0] at hs
    rw [if_pos h0, if_pos (by simp; omega), h0]
  · rw [if_neg h0] at hs
    rw [if_neg h0, if_neg (hb.resolve_left h0), if_pos (by simp; omega)]

theorem slotWrite_short (h : width < 8) (v : Word) : slotWrite b fn slot 0 width v = shortReq b fn slot :=
  (if_neg (by simp; omega)).trans (if_pos (by decide))

theorem slotWrite_request (v : Word) : slotWrite b fn slot 0 8 v
    = performReq b (slotPath fn slot) v.toNat (slotOf b fn slot).wdata (slotOf b fn slot).seg := by
  unfold slotWrite
  simp only [decide_true, Bool.and_self, if_true]

theorem reqShortWrite_awake (ha : awake b) (hf : fn < 64) (hs : slot < (if fn = 0 then 64 else 8)) (h1 : 1 ≤ width)
    (h8 : width < 8) (hb : fn = 0 ∨ pidOfVf b fn ≠ 0) : reqShortWrite b fn slot width
      = if tlpAdmitted b fn false 0xFF then setSlot b fn slot { slotOf b fn slot with resp := respWord 0 .type 0 }
        else count b 0x7000 0x14 := by
  have legal : ¬ (64 ≤ fn || (if fn = 0 then 64 else 8) ≤ slot || width = 0 || 8 ≤ width) = true := by
    simp only [Bool.or_eq_true, decide_eq_true_eq]
    omega
  unfold reqShortWrite
  rw [if_neg legal, wakeBy_awake ha]
  unfold tlp
  rw [barWrite_slot hs hb, slotWrite_short h8]
  cases tlpAdmitted b fn false 0xFF <;> rfl

theorem unboundWrite_awake {off : Nat} (ha : awake b) (hf : fn ≠ 0) (ht : tlpOk fn off width = true) (hp : pidOfVf b fn = 0)
    (v : Word) : unboundWrite b fn off width v = barWrite b fn off width v := by
  unfold unboundWrite
  rw [if_neg (by simp [hf, ht, hp]), wakeBy_awake ha, wakeEvent_awake ha, ite_self]

theorem tlpReceive_awake {off : Nat} (ha : awake b) (ht : tlpOk fn off width = true) (posted tbit : Bool) (stream : Nat) (v : Word) :
    tlpReceive b fn posted tbit stream off width v = tlp b fn posted tbit stream off width v := by
  unfold tlpReceive
  rw [if_neg (by simp [ht]), wakeBy_awake ha, wakeEvent_awake ha, ite_self]

end

/-- Settles O22: at an awake block each access is what its admission and its offset make it. -/
theorem functionAccessesOfTheHost : Obligations.FunctionAccessesOfTheHost := by
  refine ⟨fun s fn slot width ha hf hs h1 h8 hb => next_on (reqShortWrite_awake ha hf hs h1 h8 hb), ?unbound, ?request, ?tlp⟩
  case unbound =>
    intro s vf off width v ha hv ht hp hd
    refine next_on ((unboundWrite_awake ha hv ht hp v).trans ?_)
    unfold barWrite
    rw [if_neg hv, if_pos hp]
    refine if_neg ?_
    simp only [Bool.and_eq_true, decide_eq_true_eq]
    exact fun ⟨⟨⟨_, h⟩, h'⟩, h8⟩ => hd (by omega) h' h8
  case request =>
    intro s vf slot v ha hv hf hs hp
    have ht : tlpOk vf (512 * slot) 8 = true := by
      simp [tlpOk]
      omega
    have at0 : 512 * slot % 512 = 0 := Nat.mul_mod_right ..
    have at' : 512 * slot / 512 = slot := Nat.mul_div_right _ (by decide)
    have path : slotPath vf slot = .tenant vf slot := if_neg hv
    refine next_on ((unboundWrite_awake ha hv ht hp v).trans ?_)
    unfold barWrite
    dsimp only
    rw [if_neg hv, if_pos hp, at0, at', if_pos (by simp; omega), ← path]
    exact slotWrite_request v
  case tlp =>
    intro s fn tbit stream off width v ha ht
    refine ⟨fun h => ⟨next_on ((tlpReceive_awake ha ht true tbit stream v).trans ?_),
        next_on ((tlpReceive_awake ha ht false tbit stream v).trans ?_)⟩,
      fun h => ⟨next_on ((tlpReceive_awake ha ht true tbit stream v).trans ?_),
        next_on ((tlpReceive_awake ha ht false tbit stream v).trans ?_)⟩⟩
    all_goals
      unfold tlp
      rw [h]
      rfl

end Sys2Proof.Machine
end

section
/-! SUPPORT. Withdrawal, scrubbing and release (O26). -/

namespace Sys2Proof.Machine

/-! Withdrawal, scrubbing and release (03 R96-R102) -/

section
variable {s : State} {acc : Access} {pid : Nat}

section
variable (ha : byHost acc) (hp : isPid pid) (hi : noInjection s.dev)
include ha hp hi

theorem withdraw_accepted (hc : canTake s.dev (0x2100 + pid) 0x11) (hl : isLive s.dev pid = true) :
    withdrawCmd s.dev acc pid 0 = startWithdraw (accepted s.dev acc (0x2100 + pid) 0x11 0) pid 1 := by
  have live : isLive (count s.dev 0x1402 5) pid = true := hl
  rw [withdrawCmd, tableCommand_taken hp hc hi (by decide) (fencedTnt_host (byHost_notTnt ha))]
  · rfl
  · simp [noFails, byHost_notHostFw ha, live]

theorem release_accepted (hc : canTake s.dev (0x2100 + pid) 0x12)
    (hs : (part s.dev pid).st = .building ∨ (part s.dev pid).st = .scrubbing) : releaseCmd s.dev acc pid 0
      = if (part s.dev pid).st = .building then finishCmd (freePid (accepted s.dev acc (0x2100 + pid) 0x12 0) pid) (0x2100 + pid) 0x12 .ok 0
        else accepted s.dev acc (0x2100 + pid) 0x12 0 := by
  have st : (part (count s.dev 0x1402 5) pid).st = (part s.dev pid).st := rfl
  rw [releaseCmd, tableCommand_taken hp hc hi (by decide) (fencedTnt_host (byHost_notTnt ha)), ← accepted, part_accepted]
  rw [st]
  rcases hs with h | h <;> simp [noFails, byHost_notHostFw ha, h]

end

@[simp] theorem freePid_dict_cmds (b : Block) (pid : Nat) : (freePid b pid).dict.cmds = b.dict.cmds := (rfl)

theorem part_freed {b : Block} (i j : Nat) (c : Code) (d : Nat) :
    part (finishCmd (freePid b pid) i j c d) pid = { freePart with ctxs := (part b pid).ctxs } := by
  rw [part_finishCmd]
  exact part_setPart_self ..

theorem part_freed_other {b : Block} (i j : Nat) (c : Code) (d : Nat) {q : Nat} (h : q ≠ pid) :
    part (finishCmd (freePid b pid) i j c d) q = part b q := by
  rw [part_finishCmd]
  exact part_setPart_other _ _ h

theorem withdrawDone_drained (hw : (part s.dev pid).st = .withdrawing) (ho : outstanding s.dev pid = false) :
    withdrawDone s.dev pid = handBack (generation s.dev pid) pid := if_pos (by simp [hw, ho])

theorem withdrawDone_early (ho : outstanding s.dev pid = true) : withdrawDone s.dev pid = s.dev :=
  if_neg (by simp [ho])

theorem withdrawExpire_early (h : elapsed s.dev (part s.dev pid).wd.fencedAt (micros (part s.dev pid).wd.drain) = false
    ∨ (qpsOf s.dev pid = [] ∧ owesNow s.dev pid none = true)) : withdrawExpire s.dev pid = s.dev := by
  refine if_pos ?_
  rcases h with h | ⟨h, h'⟩
  · simp [h]
  · simp [h, h']

/-- The block whose withdrawn partition has given up what was still outstanding, and counted it. -/
def withdrawGivenUp (b : Block) (pid : Nat) : Block :=
  let msgs := ((qpsOf b pid).map (framesOf b)).foldl (· + ·) 0
  let keys := (keysOf b pid).filter fun j => (key b j).st == .revoking
  let g := giveUp b (fun _ c => c.pid == pid) (qpsOf b pid) keys (chansOf b pid) .withdrawn
  let b := addTo (expireSteps g.1 pid .withdrawn) (0x2200 + pid) 0x15 g.2
  setPart b pid { part b pid with wd := { (part b pid).wd with expired := (part b pid).wd.expired + g.2 + msgs } }

theorem withdrawExpire_due (hw : (part s.dev pid).st = .withdrawing)
    (he : elapsed s.dev (part s.dev pid).wd.fencedAt (micros (part s.dev pid).wd.drain) = true)
    (h : qpsOf s.dev pid ≠ [] ∨ owesNow s.dev pid none = false) : withdrawExpire s.dev pid
      = if owesNow (withdrawGivenUp s.dev pid) pid none then withdrawGivenUp s.dev pid
        else handBack (generation (withdrawGivenUp s.dev pid) pid) pid := by
  have go : ¬ ((part s.dev pid).st ≠ .withdrawing || !elapsed s.dev (part s.dev pid).wd.fencedAt (micros (part s.dev pid).wd.drain)
      || ((qpsOf s.dev pid).isEmpty && owesNow s.dev pid none)) = true := by
    rcases h with h | h <;> simp [hw, he, h]
  unfold withdrawExpire withdrawGivenUp
  dsimp only
  rw [if_neg go]

theorem scrubDone_done {b : Block} {g : Nat} (hs : (owner b g).scrub = .scrubbing) (hm : served b (uMS (g / 64)) = true) :
    scrubDone b g = addTo (setOwner (emit (zeroGranule b g) (.memWrite (2 ^ 30 * g) ⟨2 ^ 30, 0⟩ 0)) g
      { owner b g with scrub := .clean }) 0x2000 5 (2 ^ 30) := if_neg (by simp [hs, hm])

/-- The block whose partition's granules have no owner any more. -/
@[irreducible] def granulesFreed (b : Block) (pid : Nat) : Block :=
  (bitList (part b pid).granules 2048).foldl (fun b g => setOwner b g ⟨0, false, .clean⟩) b

theorem granulesFreed_keeps {β : Type} (k : Block → β) (h : ∀ b g e, k (setOwner b g e) = k b) (b : Block) (pid : Nat) :
    k (granulesFreed b pid) = k b := by
  unfold granulesFreed
  exact foldl_keeps k _ (fun b g => h b g _) _ b

theorem owner_granulesFreed (b : Block) (pid : Nat) {g : Nat} (hg : g < 2048) :
    owner (granulesFreed b pid) g = if (part b pid).granules.testBit g then ⟨0, false, .clean⟩ else owner b g := by
  have mem : g ∈ bitList (part b pid).granules 2048 ↔ (part b pid).granules.testBit g = true := by simp [bitList, hg]
  unfold granulesFreed
  rw [foldl_setOwner]
  simp only [mem]

theorem releaseDone_frees {b : Block} {c : PendCmd} (hs : (part b pid).st = .scrubbing)
    (hc : pendingCmd b (0x2100 + pid) 0x12 = some c) (he : elapsed b (part b pid).wd.fencedAt (micros 1000) = true)
    (hl : spillPstate b pid = 0) (hg : ∀ g, (part b pid).granules.testBit g = true → (owner b g).scrub = .clean) :
    releaseDone b pid = finishCmd (freePid (granulesFreed b pid) pid) (0x2100 + pid) 0x12 .ok 0 := by
  have clean : (bitList (part b pid).granules 2048).any (fun g => (owner b g).scrub != .clean) = false := by
    refine List.any_eq_false.mpr fun g hm => ?_
    have bit : (part b pid).granules.testBit g = true := (List.mem_filter.mp hm).2
    simp [hg g bit]
  unfold granulesFreed
  exact if_neg (by simp [hs, hc, he, hl, clean])

end

/-- Settles O26: each row by its guard, what it leaves by the laws of the table it writes. -/
theorem partitionsAreWithdrawnScrubbedAndReleased : Obligations.PartitionsAreWithdrawnScrubbedAndReleased := by
  refine ⟨?commands, ?drain, ?scrub, ?release⟩
  case commands =>
    intro s acc pid ha hp hi o
    refine ⟨fun hc hl => next_on (withdraw_accepted ha hp hi hc hl), fun hc hb => ?_, fun hc hs => ?_⟩
    · refine goes_on ((release_accepted ha hp hi hc (Or.inl hb)).trans (if_pos hb)) ⟨?_, ?_, fun q hq => ?_, ?_⟩
      · exact (part_freed ..).trans (by rw [part_accepted])
      · exact finishes_finishCmd (acc := acc) (a := 0) (b := freePid (accepted s.dev acc (0x2100 + pid) 0x12 0) pid) hc rfl .ok 0
      · exact (part_freed_other _ _ _ _ hq).trans (part_accepted ..)
      · simp [onlyManaged, State.on, freePid]
    · refine goes_on ((release_accepted ha hp hi hc (Or.inr hs)).trans (if_neg (by simp [hs]))) ⟨pends_accepted, fun q => part_accepted .., ?_⟩
      simp [onlyManaged, State.on]
  case drain =>
    intro s pid hw
    refine ⟨fun ho => next_on (withdrawDone_drained hw ho),
      fun ho => next_on (b := withdrawDone s.dev pid) (b' := s.dev) (withdrawDone_early ho),
      fun he => next_on (b := withdrawExpire s.dev pid) (b' := s.dev) (withdrawExpire_early (Or.inl he)), fun he => ⟨fun hq ho => ?_, fun h => ?_⟩⟩
    · exact next_on (b := withdrawExpire s.dev pid) (b' := s.dev) (withdrawExpire_early (Or.inr ⟨hq, ho⟩))
    · exact next_on (b := withdrawExpire s.dev pid) (withdrawExpire_due hw he h)
  case scrub =>
    intro s g hs hm
    refine goes_on (scrubDone_done hs hm) ⟨look_store_self .., fun x hx => look_store_other _ _ _ _ hx, fun a h => ?_, fun a h => ?_, ?_⟩
    · exact (readByte_zeroGranule s.dev g a).trans (if_pos h)
    · exact (readByte_zeroGranule s.dev g a).trans (if_neg h)
    · exact rd_addTo_self ..
  case release =>
    intro s pid c hp hs hc he hl hg
    have parts (q : Nat) : part (granulesFreed s.dev pid) q = part s.dev q := granulesFreed_keeps (part · q) (fun _ _ _ => rfl) s.dev pid
    have keeps {β : Type} (k : Block → β) (h : ∀ b g e, k (setOwner b g e) = k b) := granulesFreed_keeps k h s.dev pid
    have cmds : (freePid (granulesFreed s.dev pid) pid).dict.cmds = s.dev.dict.cmds :=
      Eq.trans (freePid_dict_cmds ..) (keeps (·.dict.cmds) fun _ _ _ => rfl)
    have pending := (pendingCmd_congr cmds (0x2100 + pid) 0x12).trans hc
    refine goes_on (b := releaseDone s.dev pid) (releaseDone_frees hs hc he hl hg) ⟨?_, ?_, fun q hq => ?_, fun g hg => ?_, ?_⟩
    · exact (part_freed ..).trans (by rw [parts])
    · have result := rd_finishCmd_self pending .ok 0
      exact result
    · exact (part_freed_other _ _ _ _ hq).trans (parts q)
    · refine (owner_congr (finishCmd_ptb_owners ..) g).trans (owner_granulesFreed s.dev pid hg)
    · simp [onlyManaged, State.on, freePid, keeps (·.clk) fun _ _ _ => rfl, keeps (·.straps) fun _ _ _ => rfl, keeps (·.tags) fun _ _ _ => rfl, keeps (·.mem) fun _ _ _ => rfl, keeps (·.hub) fun _ _ _ => rfl, keeps (·.ladle) fun _ _ _ => rfl, keeps (·.tpe) fun _ _ _ => rfl, keeps (·.replies) fun _ _ _ => rfl, keeps (·.mirror) fun _ _ _ => rfl, keeps (·.ring) fun _ _ _ => rfl, keeps (·.ssu) fun _ _ _ => rfl, keeps (·.cru) fun _ _ _ => rfl, keeps (·.cha) fun _ _ _ => rfl, keeps (·.fcu) fun _ _ _ => rfl, keeps (·.held) fun _ _ _ => rfl]

end Sys2Proof.Machine
end

section
/-! SUPPORT. Contexts and functions (O27). -/

namespace Sys2Proof.Machine

/-! Contexts and functions (03 R91-R94, R108, R109) -/

@[simp] theorem changeCtx_dict (b : Block) (pid cx : Nat) (c : CtxSlot) : (changeCtx b pid cx c).dict = b.dict :=
  mirrorNote_dict ..

theorem part_changeCtx_self (b : Block) (pid cx : Nat) (c : CtxSlot) :
    part (changeCtx b pid cx c) pid = { part b pid with ctxs := store (part b pid).ctxs freeCtx cx c } :=
  (part_congr (congrArg Ptb.parts (mirrorNote_ptb ..)) pid).trans (part_setPart_self b pid _)

theorem part_changeCtx_other (b : Block) {pid q : Nat} (cx : Nat) (c : CtxSlot) (h : q ≠ pid) :
    part (changeCtx b pid cx c) q = part b q :=
  (part_congr (congrArg Ptb.parts (mirrorNote_ptb ..)) q).trans (part_setPart_other b _ h)

section
variable {s : State} {acc : Access} {pid : Nat}

section
variable {v : Word} (ha : byHost acc) (hp : isPid pid) (hi : noInjection s.dev) (hl : isLive s.dev pid = true) (hv : v.toNat < 1024)
include ha hp hi hl hv

theorem ctxOpen_taken (hc : canTake s.dev (0x2100 + pid) 0x18) (hs : (ctxSlot s.dev pid v.toNat).st = .free) :
    ctxOpenCmd s.dev acc pid v.toNat
      = finishCmd (changeCtx (accepted s.dev acc (0x2100 + pid) 0x18 v.toNat) pid v.toNat
          { ctxSlot s.dev pid v.toNat with st := .open }) (0x2100 + pid) 0x18 .ok (ctxSlot s.dev pid v.toNat).gen := by
  have live : isLive (count s.dev 0x1402 5) pid = true := hl
  have slot : (ctxSlot (count s.dev 0x1402 5) pid v.toNat).st = .free := hs
  rw [ctxOpenCmd, partCommandNow_taken hp hc hi (by decide) ha]
  · have same : ctxSlot (accepted s.dev acc (0x2100 + pid) 0x18 v.toNat) pid v.toNat = ctxSlot s.dev pid v.toNat :=
      congrArg (fun p : Part => look p.ctxs freeCtx v.toNat) (part_accepted ..)
    dsimp only
    rw [same]
  · simp [noFails, byHost_notHostFw ha, live, slot, zeroBits_of_lt (k := 10) hv]

theorem ctxClose_taken (hc : canTake s.dev (0x2100 + pid) 0x19) (hs : (ctxSlot s.dev pid v.toNat).st = .open) :
    ctxCloseCmd s.dev acc pid v.toNat = closeCtx (accepted s.dev acc (0x2100 + pid) 0x19 v.toNat) pid v.toNat := by
  have live : isLive (count s.dev 0x1402 5) pid = true := hl
  have slot : (ctxSlot (count s.dev 0x1402 5) pid v.toNat).st = .open := hs
  rw [ctxCloseCmd, tableCommand_taken hp hc hi (by decide) (fencedTnt_host (byHost_notTnt ha))]
  · rfl
  · simp [noFails, byHost_notHostFw ha, live, slot, zeroBits_of_lt (k := 10) hv]

end

section
variable {cx : Nat}

theorem owesNow_of_idle {b : Block} (h : ctxBusy b pid cx = false) : owesNow b pid (some cx) = false := by
  have none : owing b pid (some cx) = [] := by
    simp only [ctxBusy, Bool.or_eq_false_iff, Bool.not_eq_false', List.isEmpty_iff] at h
    exact h.2
  simp [owesNow, none]

theorem ctxCloseDone_ends {b : Block} (hl : isLive b pid = true) (hs : (ctxSlot b pid cx).st = .closing)
    (hc : (ctxSlot b pid cx).byCommand = true) (he : elapsed b (ctxSlot b pid cx).fencedAt (micros 1000) = true)
    (hb : ctxBusy b pid cx = false) : ctxCloseDone b pid cx
      = match pendingCmd (freeCtxSlot b pid cx) (0x2100 + pid) 0x19 with
        | some c => if c.arg = cx then finishCmd (freeCtxSlot b pid cx) (0x2100 + pid) 0x19 .ok 0 else freeCtxSlot b pid cx
        | none => freeCtxSlot b pid cx := by
  unfold ctxCloseDone
  simp [hl, hs, hc, he, hb, owesNow_of_idle hb] <;> rfl

theorem ctxCloseDone_waits (h : elapsed s.dev (ctxSlot s.dev pid cx).fencedAt (micros 1000) = false
    ∨ (ctxBusy s.dev pid cx = true ∧ elapsed s.dev (ctxSlot s.dev pid cx).fencedAt (drainTime s.dev pid) = false)) :
    ctxCloseDone s.dev pid cx = s.dev := by
  refine if_pos ?_
  rcases h with h | ⟨h, h'⟩
  · simp [h]
  · simp [h, h']

end

/-- The block that has forgotten what it held of a function: its slots, its vectors, its notifications. -/
def functionCleared (b : Block) (vf : Nat) : Block :=
  { b with
    dict := { b.dict with
      slots := b.dict.slots.filter fun e => e.1 / 64 ≠ vf
      cmds := b.dict.cmds.map fun c => match c.acc.path with
        | .tenant v _ => if v = vf then { c with acc := { c.acc with notify := false } } else c
        | _ => c }
    ptb := { b.ptb with msix := b.ptb.msix.filter fun e => e.1 / 256 ≠ vf } }

theorem slotOf_functionCleared (b : Block) (vf fn : Nat) {slot : Nat} (h : slot < 64) :
    slotOf (functionCleared b vf) fn slot = if fn = vf then freshSlot else slotOf b fn slot := by
  have key : slotKey fn slot / 64 = fn := by unfold slotKey; omega
  have filtered := find?_filterKeys b.dict.slots (fun k => decide (k / 64 ≠ vf)) (slotKey fn slot)
  simp only [key] at filtered
  unfold slotOf look functionCleared
  simp only [filtered]
  by_cases e : fn = vf <;> simp [e]

theorem flr_clears {b : Block} {vf : Nat} (h0 : 1 ≤ vf) (hv : vf < 64) : flr b vf
    = if pidOfVf (functionCleared b vf) vf ≠ 0 && isLive b (pidOfVf (functionCleared b vf) vf)
      then startWithdraw (functionCleared b vf) (pidOfVf (functionCleared b vf) vf) 2 else functionCleared b vf := by
  have go : ¬ (vf = 0 || 64 ≤ vf) = true := by simp; omega
  unfold flr
  rw [if_neg go]
  exact Eq.refl _

/-- The block with a function's new TDISP state. -/
def tdispSet (b : Block) (vf code : Nat) : Block :=
  { b with ptb := { b.ptb with tdisp := store b.ptb.tdisp 0 vf code } }

theorem tdispChange_sets {b : Block} {vf code : Nat} (h0 : 1 ≤ vf) (hv : vf < 64) (hc : code < 8) (hn : look b.ptb.tdisp 0 vf ≠ code) :
    tdispChange b vf code
      = if code = 2 then sendPending (tdispSet b vf code) vf
        else if pidOfVf (tdispSet b vf code) vf = 0 || !isLive b (pidOfVf (tdispSet b vf code) vf)
          || !(part b (pidOfVf (tdispSet b vf code) vf)).sealed then tdispSet b vf code
        else if code = 0 then startWithdraw (tdispSet b vf code) (pidOfVf (tdispSet b vf code) vf) 4
        else if 3 ≤ code then startWithdraw (tdispSet b vf code) (pidOfVf (tdispSet b vf code) vf) 5
        else tdispSet b vf code := by
  have go : ¬ (vf = 0 || 64 ≤ vf || 8 ≤ code || look b.ptb.tdisp 0 vf = code) = true := by
    simp [hn]; omega
  unfold tdispChange
  rw [if_neg go]
  exact Eq.refl _

end

/-- Settles O27: commands through the Partition Table, the other rows by their guards. -/
theorem contextsOpenAndCloseAndFunctionsWithdraw : Obligations.ContextsOpenAndCloseAndFunctionsWithdraw := by
  refine ⟨⟨?commands, ?close⟩, ?reset, fun s => rfl, ?tdisp⟩
  case commands =>
    intro s acc pid v ha hp hi hl hv o c
    refine ⟨fun hc hs => ?_, fun hc hs => next_on (ctxClose_taken ha hp hi hl hv hc hs)⟩
    refine goes_on (ctxOpen_taken ha hp hi hl hv hc hs) ⟨?_, ?_, fun x hx => ?_, fun q hq => ?_, ?_⟩
    · unfold ctxSlot
      rw [State.on, part_finishCmd, part_changeCtx_self]
      exact look_store_self (d := freeCtx) ..
    · exact finishes_finishCmd (a := v.toNat) hc (by rw [changeCtx_dict]) .ok _
    · unfold ctxSlot
      rw [State.on, part_finishCmd, part_changeCtx_self]
      refine (look_store_other (α := CtxSlot) _ _ _ _ hx).trans ?_
      rw [part_accepted]
    · rw [State.on, part_finishCmd, part_changeCtx_other _ _ _ hq]
      exact part_accepted ..
    · exact memSame_of_mem (by simp [State.on])
  case close =>
    intro s pid cx hl hs hb
    refine ⟨fun he hi => ⟨fun c hc ha => next_on ?_, fun hn => next_on ?_⟩,
      fun he => next_on (b := ctxCloseDone s.dev pid cx) (b' := s.dev) (ctxCloseDone_waits (Or.inl he)),
      fun hi he => next_on (b := ctxCloseDone s.dev pid cx) (b' := s.dev) (ctxCloseDone_waits (Or.inr ⟨hi, he⟩))⟩
    · rw [ctxCloseDone_ends hl hs hb he hi, hc]
      exact if_pos ha
    · rw [ctxCloseDone_ends hl hs hb he hi]
      cases e : pendingCmd (freeCtxSlot s.dev pid cx) (0x2100 + pid) 0x19 with
      | none => rfl
      | some c => exact if_neg (hn c e)
  case reset =>
    intro s vf h0 hv reset pid
    refine ⟨fun hp hl => next_on ((flr_clears h0 hv).trans (if_pos ?_)), fun h => ?_⟩
    · exact Bool.and_eq_true_iff.mpr ⟨decide_eq_true hp, hl⟩
    · refine goes_on ((flr_clears h0 hv).trans (if_neg ?_)) ⟨memSame_of_mem rfl, fun q => rfl, fun fn slot hs => slotOf_functionCleared s.dev vf fn hs⟩
      have live : pid = 0 ∨ isLive s.dev pid = false := h
      rcases live with h | h
      · simp [show pidOfVf (functionCleared s.dev vf) vf = 0 from h]
      · simp [show isLive s.dev (pidOfVf (functionCleared s.dev vf) vf) = false from h]
  case tdisp =>
    intro s vf code hw h0 hv hc hn now pid
    have run : wakeEvent s.dev 6 (.tdispStateChange vf code) (fun b => tdispChange b vf code) = _ :=
      (wakeEvent_awake hw ..).trans (tdispChange_sets h0 hv hc hn)
    refine ⟨fun hp hl hs => ?_, fun h => ?_, fun h2 h => ?_⟩
    · have bound : ¬ (pid = 0 || !isLive s.dev pid || !(part s.dev pid).sealed) = true := by simp [hp, hl, hs]
      refine ⟨fun h => next_on (run.trans ?_), fun h => next_on (run.trans ?_)⟩
      · rw [if_neg (by omega)]
        exact (if_neg bound).trans (if_pos h)
      · rw [if_neg (by omega)]
        exact ((if_neg bound).trans (if_neg (by omega))).trans (if_pos h)
    · exact next_on (run.trans (if_pos h))
    · refine next_on (run.trans ((if_neg h2).trans ?_))
      by_cases bound : (pid = 0 || !isLive s.dev pid || !(part s.dev pid).sealed) = true
      · exact if_pos bound
      · simp only [Bool.or_eq_true, decide_eq_true_eq, Bool.not_eq_true', not_or, Bool.not_eq_false] at bound
        obtain ⟨⟨b0, bl⟩, bs⟩ := bound
        have c1 : code = 1 := by simpa [b0, bl, bs] using h
        refine (if_neg (c := (pid = 0 || !isLive s.dev pid || !(part s.dev pid).sealed) = true) (by simp [b0, bl, bs])).trans ?_
        exact (if_neg (by omega)).trans (if_neg (by omega))

end Sys2Proof.Machine
end

section
/-! SUPPORT. Table walks (O28). -/

namespace Sys2Proof.Machine

/-! Table walks (04 R126-R132) -/

/-- The block whose waiting miss has its turn: it leaves the list and starts or joins its walk. -/
def missTurn (b : Block) (c : Ctx) (va : Nat) (a : Asker) : Block :=
  miss { b with hub := { b.hub with missWait := b.hub.missWait.erase (c, va, a), walkTurn := c.pid } } c va a

theorem walkerGrant_turn {b : Block} {c : Ctx} {va : Nat} {a : Asker} (h : missNext b = some (c, va, a)) :
    walkerGrant b = if (missTurn b c va a).hub.walks.any (·.askers.contains a) then missTurn b c va a
      else retryAsker (missTurn b c va a) a.holder := by
  unfold walkerGrant
  rw [h] <;> rfl

theorem walkTimeout_issued {b : Block} {n : Nat} {w : Walk} (hw : b.hub.walks.find? (·.num == n) = some w)
    (hi : issued b (walkHolder n) = true) : walkTimeout b n
      = if elapsed b w.since (micros (rd b 0x3000 4)) = true
        then retryAll (endWalkFault b w .xlateFault causeWalkError 0) w.askers else b := by
  unfold walkTimeout
  rw [hw]
  simp only [hi, Bool.not_true, Bool.false_or]
  cases elapsed b w.since (micros (rd b 0x3000 4)) <;> rfl

section
variable {b : Block} {n : Nat} {w : Walk} (hw : b.hub.walks.find? (·.num == n) = some w) (hi : issued b (walkHolder n) = true)
include hw hi

theorem tableReadDone_fails {ans : Answer} (h : ans.poison = true ∨ ans.st ≠ .ok) :
    tableReadDone b n ans
      = retryAll (endWalkFault (memoryUe (settle b (walkHolder n)) (regionOf w.need == .package) w.need w.ctx.pid) w
          (readStatus (if ans.poison then .poison else ans.st)) causeWalkError 0) w.askers := by
  have bad : (ans.poison || ans.st != .ok) = true := by simpa using h
  have st : (if ans.poison then Status.poison else ans.st) ≠ .ok := by
    split
    · decide
    · next e => exact h.resolve_left e
  unfold tableReadDone
  rw [hw]
  simp only [hi, Bool.not_true, bad, Bool.true_and, if_pos st]
  rfl

theorem tableReadDone_advances (data : Bytes) (hr : regionOf w.need = .package) :
    tableReadDone b n ⟨.ok, data, false⟩
      = (let w' := { w with reads := insert w.reads w.need (readMem (settle b (walkHolder n)) w.need 8) }
        let r := walkAdvance (setWalk (settle b (walkHolder n)) w') w'
        if r.2 then retryAll r.1 w'.askers else r.1) := by
  unfold tableReadDone
  rw [hw]
  simp only [hi, hr]
  rfl

end

/-- Settles O28: the grant by its turn, the answers and the time-out by the walk they name. -/
theorem walksAreGrantedReadAndEnded : Obligations.WalksAreGrantedReadAndEnded := by
  refine ⟨fun s c va a h => ⟨fun hj => ?_, fun hn => ?_⟩, fun s n w hw hi => ⟨fun ans h => ?_, fun data hr => ?_, fun he => ?_, fun he => ?_⟩⟩
  · refine next_on ((walkerGrant_turn h).trans (if_pos ?_))
    obtain ⟨w, hm, hc⟩ := hj
    exact List.any_eq_true.mpr ⟨w, hm, List.contains_iff_mem.mpr hc⟩
  · refine next_on ((walkerGrant_turn h).trans (if_neg fun hj => ?_))
    obtain ⟨w, hm, hc⟩ := List.any_eq_true.mp hj
    exact hn w hm (List.contains_iff_mem.mp hc)
  · exact next_on (tableReadDone_fails hw hi h)
  · exact next_on (tableReadDone_advances hw hi data hr)
  · exact next_on ((walkTimeout_issued hw hi).trans (if_pos he))
  · exact next_on (b := walkTimeout s.dev n) (b' := s.dev) ((walkTimeout_issued hw hi).trans (if_neg (by simp [he])))

end Sys2Proof.Machine
end

section
/-! SUPPORT. Channel doorbells (O31). -/

namespace Sys2Proof.Machine

/-! Channel doorbells (05 R153, R154, R168, Table 5-1) -/

theorem insert_insert_self {α : Type} (m : SMap α) (k : Nat) (v w : α) : insert (insert m k v) k w = insert m k w := by
  induction m with
  | nil => simp [insert]
  | cons e m ih => simp only [insert]; (repeat' split) <;> simp_all [insert] <;> omega

theorem erase_insert_self {α : Type} (m : SMap α) (k : Nat) (v : α) : erase (insert m k v) k = erase m k := by
  induction m with
  | nil => simp [insert, erase]
  | cons e m ih => simp only [insert]; (repeat' split) <;> simp_all [erase]

/-- What is stored over a listed value replaces it. -/
theorem store_store_self {α : Type} [DecidableEq α] (m : SMap α) {d v : α} (k : Nat) (w : α) (h : v ≠ d) :
    store (store m d k v) d k w = store m d k w := by
  simp only [store_eq, if_neg h, insert_insert_self, erase_insert_self]

theorem setChan_setChan_self (b : Block) (c : Nat) {x : Chan} (y : Chan) (h : x ≠ freshChan) :
    setChan (setChan b c x) c y = setChan b c y := by
  unfold setChan
  rw [store_store_self _ _ _ h]

/-- What a channel's doorbell word does once it has reached the Ladle (Table 5-1). -/
def chanWord (b : Block) (pid rel w : Nat) : Block :=
  let c := (part b pid).chanBase + rel
  if (!zeroBits w 24 38 || (bits w 62 2 != 3 && !zeroBits w 16 8) || (bits w 62 2 != 0 && !zeroBits w 0 16)) then doorbellDiscard b pid
  else if bits w 62 2 = 3 then
    if paceOwner (paceEntry b (bits w 16 8)) = pid && paceSource (paceEntry b (bits w 16 8)) = 3 then paceRequest b (bits w 16 8)
    else doorbellDiscard b pid
  else if (chan b c).st = .off then doorbellDiscard b pid
  else match bits w 62 2 with
    | 0 => if bits w 0 16 < ringSize b c then chanKick b c (bits w 0 16) else doorbellDiscard b pid
    | 1 => chanAbort b c none
    | _ => if mayResume b c then chanResume b c else doorbellDiscard b pid

section
variable {b : Block} {pid rel : Nat}

/-- The fields of a doorbell word of command `cmd` over a part below bit 24. -/
theorem chanWord_fields {v cmd : Nat} (hv : v < 2 ^ 24) (hc : cmd < 4) :
    let w := (BitVec.ofNat 64 (v + (cmd <<< 62))).toNat
    zeroBits w 24 38 = true ∧ bits w 62 2 = cmd ∧ bits w 16 8 = v / 65536 ∧ bits w 0 16 = v % 65536 := by
  have e : (BitVec.ofNat 64 (v + (cmd <<< 62))).toNat = v + cmd * 2 ^ 62 := by
    rw [BitVec.toNat_ofNat, Nat.shiftLeft_eq]
    omega
  simp only [e, zeroBits, bits_eq, beq_iff_eq]
  omega

theorem chanWord_kick {tail : Nat} (ht : tail < 65536) : chanWord b pid rel (BitVec.ofNat 64 (tail + (0 <<< 62))).toNat
    = if (chan b ((part b pid).chanBase + rel)).st = .off then doorbellDiscard b pid
      else if tail < ringSize b ((part b pid).chanBase + rel) then chanKick b ((part b pid).chanBase + rel) tail
      else doorbellDiscard b pid := by
  obtain ⟨hz, hc, hl, ht'⟩ := chanWord_fields (v := tail) (cmd := 0) (by omega) (by decide)
  have z : tail / 65536 = 0 := by omega
  have r : tail % 65536 = tail := by omega
  unfold chanWord
  simp only [zeroBits] at hz ⊢
  simp only [hz, hc, hl, ht', z, r]
  rfl

theorem chanWord_abort : chanWord b pid rel (BitVec.ofNat 64 (0 + (1 <<< 62))).toNat
    = if (chan b ((part b pid).chanBase + rel)).st = .off then doorbellDiscard b pid
      else chanAbort b ((part b pid).chanBase + rel) none := by
  obtain ⟨hz, hc, hl, ht⟩ := chanWord_fields (v := 0) (cmd := 1) (by decide) (by decide)
  unfold chanWord
  simp only [zeroBits] at hz ⊢
  simp only [hz, hc, hl, ht]
  rfl

theorem chanWord_resume : chanWord b pid rel (BitVec.ofNat 64 (0 + (2 <<< 62))).toNat
    = if (chan b ((part b pid).chanBase + rel)).st = .off then doorbellDiscard b pid
      else if mayResume b ((part b pid).chanBase + rel) then chanResume b ((part b pid).chanBase + rel) else doorbellDiscard b pid := by
  obtain ⟨hz, hc, hl, ht⟩ := chanWord_fields (v := 0) (cmd := 2) (by decide) (by decide)
  unfold chanWord
  simp only [zeroBits] at hz ⊢
  simp only [hz, hc, hl, ht]
  rfl

theorem chanWord_pace {line : Nat} (hl : line < 256) (ho : paceOwner (paceEntry b line) = pid) (hs : paceSource (paceEntry b line) = 3) :
    chanWord b pid rel (BitVec.ofNat 64 (line <<< 16 + (3 <<< 62))).toNat = paceRequest b line := by
  have sh : line <<< 16 = line * 65536 := Nat.shiftLeft_eq ..
  obtain ⟨hz, hc, h16, h0⟩ := chanWord_fields (v := line <<< 16) (cmd := 3) (by omega) (by decide)
  have q : line <<< 16 / 65536 = line := by omega
  have r : line <<< 16 % 65536 = 0 := by omega
  unfold chanWord
  simp only [zeroBits] at hz ⊢
  simp only [hz, hc, h16, h0, q, r]
  simp [ho, hs]

theorem chanWord_reserved {w : Nat} (h : zeroBits w 24 38 = false) : chanWord b pid rel w = doorbellDiscard b pid :=
  if_pos (by simp [h])

end

section
variable {s : State} {vf rel pid : Nat} (h : reachesLadle s.dev vf rel pid)
include h

theorem chanDoorbell_reaches (i : Instr) (w : Word) :
    wakeEvent s.dev 1 i (fun b => chanDoorbell b vf rel w) = chanWord s.dev pid rel w.toNat := by
  obtain ⟨hw, hv, h0, hl, hs, ha, hr, hL⟩ := h
  rw [wakeEvent_awake hw]
  unfold chanDoorbell chanWord
  rw [doorbell_reaches hv h0 hl hs ha _ hr]
  simp only [hL, Bool.not_true, Bool.or_false] <;> rfl

theorem exec_kick (w : Word) : exec (.kick vf rel w) s = .next (s.on (chanWord s.dev pid rel w.toNat)) :=
  next_on (chanDoorbell_reaches h _ w)

theorem exec_abort (w : Word) : exec (.abort (.doorbell vf rel w)) s = .next (s.on (chanWord s.dev pid rel w.toNat)) :=
  next_on (chanDoorbell_reaches h _ w)

theorem exec_resume (w : Word) : exec (.resume (.doorbell vf rel w)) s = .next (s.on (chanWord s.dev pid rel w.toNat)) :=
  next_on (chanDoorbell_reaches h _ w)

theorem exec_paceDoorbell (w : Word) : exec (.paceDoorbell vf rel w) s = .next (s.on (chanWord s.dev pid rel w.toNat)) :=
  next_on (chanDoorbell_reaches h _ w)

end

theorem chanKick_cases (b : Block) (c tail : Nat) : chanKick b c tail
    = if (chan b c).st = .idle ∧ rd b (chanIndex c) 7 ≠ tail then chanFetch (wr b (chanIndex c) 8 tail) c
      else wr b (chanIndex c) 8 tail := by
  have head : rd (wr b (chanIndex c) 8 tail) (chanIndex c) 7 = rd b (chanIndex c) 7 :=
    rd_wr_other b tail (objKey_ne (Or.inr (by decide)) (by decide) (by decide))
  unfold chanKick
  simp only [head, chan_wr]
  by_cases i : (chan b c).st = .idle <;> by_cases t : rd b (chanIndex c) 7 = tail <;> simp [i, t]

theorem chanAbort_idle {b : Block} {c : Nat} (h : (chan b c).st = .idle) : chanAbort b c none = b := by
  unfold chanAbort
  dsimp only
  rw [h] <;> rfl

theorem chanAbort_halted {b : Block} {c : Nat} (hs : (chan b c).st = .halted) (hp : (chan b c).phase = .rest)
    (hk : (chan b c).haltKind = 1 ∨ (chan b c).haltKind = 2) : chanAbort b c none
      = setChan (wr b (chanIndex c) 8 (rd b (chanIndex c) 7)) c
          { chan b c with st := .idle, phase := .rest, io := [], abort := none, stop := none, rejected := false } := by
  have at1 : chanAbort b c none = abortHalted b c none := by
    unfold chanAbort
    dsimp only
    rw [hs, hp] <;> rfl
  have named : { chan b c with abort := some ⟨none⟩ } ≠ freshChan := fun e => by
    simpa [freshChan] using congrArg Chan.abort e
  have k0 : ¬ ((chan b c).haltKind = 0 || (chan b c).haltKind = 3) = true := by simp; omega
  have k4 : (chan b c).haltKind ≠ 4 := by omega
  rw [at1]
  unfold abortHalted
  dsimp only
  rw [if_neg k0]
  unfold abortAtOnce
  rw [chan_setChan_self, if_neg k4]
  unfold abortIdle
  rw [chan_setChan_self]
  exact setChan_setChan_self (wr b (chanIndex c) 8 (rd b (chanIndex c) 7)) c _ named

theorem chanResume_cases (b : Block) (c : Nat) : chanResume b c
    = (let y := { chan b c with st := .active }
      if (chan b c).haltKind = 1 then chanNext (setChan b c y) c
      else if (chan b c).haltKind = 2 then chanFetch b c
      else if (chan b c).haltKind = 4 then chanWriteback (setChan b c y) c
      else beats (burstStart (setChan b c { y with
        phase := .bursts, next := (chan b c).haltBurst, flights := [], io := [], ackTop := 0 }) c)) := by
  unfold chanResume
  dsimp only
  split
  · next e => simp [e]
  · next e => simp [e]
  · next e => simp [e]
  · next h1 h2 h4 => rw [if_neg h1, if_neg h2, if_neg h4]

/-- Settles O31: a word's fields select its row of Table 5-1. -/
theorem channelDoorbellsKickAbortResumeAndPace : Obligations.ChannelDoorbellsKickAbortResumeAndPace := by
  intro s vf rel pid hr c x i word discarded
  refine ⟨fun hx => ⟨fun tail ht hs => ?_, fun hi => ?_, fun hs hp hk => ?_, ?_, fun hm => ?_, fun hm => ?_⟩,
    fun line hl ho hs => ?_, fun tail ht h => ?_, fun hx => ⟨?_, ?_⟩, fun w hw => ?_⟩
  · refine (exec_kick hr _).trans (next_on ?_)
    rw [chanWord_kick ht, if_neg hx, if_pos hs]
    exact chanKick_cases ..
  · refine (exec_abort hr _).trans (next_on (b' := s.dev) ?_)
    rw [chanWord_abort, if_neg hx]
    exact chanAbort_idle hi
  · refine (exec_abort hr _).trans (next_on ?_)
    rw [chanWord_abort, if_neg hx]
    exact chanAbort_halted hs hp hk
  · refine (exec_abort hr _).trans (next_on ?_)
    rw [chanWord_abort]
    exact if_neg hx
  · refine (exec_resume hr _).trans (next_on ?_)
    rw [chanWord_resume, if_neg hx, if_pos hm]
    exact chanResume_cases ..
  · refine (exec_resume hr _).trans (next_on ?_)
    rw [chanWord_resume, if_neg hx]
    exact if_neg (by simpa using hm)
  · exact (exec_paceDoorbell hr _).trans (next_on (chanWord_pace hl ho hs))
  · refine (exec_kick hr _).trans (next_on ?_)
    rw [chanWord_kick ht]
    by_cases hx : (chan s.dev ((part s.dev pid).chanBase + rel)).st = .off
    · exact if_pos hx
    · exact (if_neg hx).trans (if_neg (Nat.not_lt.mpr (h.resolve_left hx)))
  · refine (exec_abort hr _).trans (next_on ?_)
    rw [chanWord_abort]
    exact if_pos hx
  · refine (exec_resume hr _).trans (next_on ?_)
    rw [chanWord_resume]
    exact if_pos hx
  · exact (exec_kick hr _).trans (next_on (chanWord_reserved hw))

end Sys2Proof.Machine
end

section
/-! SUPPORT. Channels at work (O32). -/

namespace Sys2Proof.Machine

/-! Channels at work (05 R154-R171) -/

section
variable {b b' : Block} {c d : Nat} {ans : Answer} {st : Status}

theorem descArrival_answered (hp : (chan b c).phase = .fetch) (hf : chanFenced b' c = false) (ho : (chan b c).offAfter = false)
    (hl : isLive b' (chanPid b' c) = true) (ha : arrive b ⟨.chanDesc, c, 0⟩ (chan b c).io ans 64 = some (b', st, d)) :
    descArrival b c ans = if st = .ok then descTake b' c d else haltAtOnce b' c 2 (headVa b c) st false true := by
  unfold descArrival
  dsimp only
  rw [if_neg (by simp [hp]), ha]
  dsimp only
  rw [if_neg (by simp [hf]), if_neg (by simp [ho]), if_neg (by simp [hl])]

theorem readbackArrival_good (hp : (chan b c).phase = .readback) (hf : chanFenced b' c = false)
    (ha : arrive b ⟨.chanReadback, c, 0⟩ (chan b c).io ans 64 = some (b', .ok, d)) :
    readbackArrival b c ans = chanWriteback b' c := by
  unfold readbackArrival
  dsimp only
  rw [if_neg (by simp [hp]), ha]
  dsimp only
  rw [if_neg (by simp [hf]), if_pos rfl]

theorem statusArrival_good (hp : (chan b c).phase = .writeback) (hf : chanFenced b' c = false)
    (ha : arrive b ⟨.chanStatus, c, 0⟩ (chan b c).io ans 0 = some (b', .ok, d)) : statusArrival b c ans = chanControl b' c := by
  unfold statusArrival
  dsimp only
  rw [if_neg (by simp [hp]), if_neg (by simp [hp]), ha]
  dsimp only
  rw [if_neg (by simp [hf]), if_neg (by simp), if_pos rfl]

theorem controlArrival_good (hp : (chan b c).phase = .control) (hf : chanFenced b' c = false)
    (ha : arrive b ⟨.chanStatus, c, 1⟩ (chan b c).io ans 0 = some (b', .ok, d)) : statusArrival b c ans = chanFinish b' c := by
  unfold statusArrival
  dsimp only
  rw [if_neg (by simp [hp]), if_pos hp, ha]
  dsimp only
  rw [if_neg (by simp [hf]), if_neg (by simp), if_neg (by decide)]

section
variable {n : Nat} {u : Burst} (hu : burstOf (chan b c) n = some u)
include hu

theorem burstArrival_read (hp : u.phase = .reading)
    (ha : arrive b ⟨.chanRead, c, n⟩ u.segs ans (dBurstLen (chan b c).desc n) = some (b', st, d)) :
    burstArrival b c n ans = if st = .ok then
        if chanFenced b' c then addTo (setChan b' c (setBurst (chan b' c) { u with phase := .wantWrite, data := d, segs := [] }))
          0x4000 4 (dBurstLen (chan b c).desc n)
        else beats (chanStep (burstWrite (addTo (setChan b' c (setBurst (chan b' c) { u with phase := .wantWrite, data := d, segs := [] }))
          0x4000 4 (dBurstLen (chan b c).desc n)) c n) c)
      else burstFail b' c u st false (dSrcAt (chan b c).desc n) := by
  unfold burstArrival
  dsimp only
  rw [hu]
  dsimp only
  rw [hp]
  dsimp only
  rw [ha]
  cases st <;> rfl

theorem burstArrival_readOk (hp : u.phase = .reading) (hf : chanFenced b' c = false)
    (ha : arrive b ⟨.chanRead, c, n⟩ u.segs ans (dBurstLen (chan b c).desc n) = some (b', .ok, d)) :
    burstArrival b c n ans = beats (chanStep (burstWrite (addTo (setChan b' c (setBurst (chan b' c)
      { u with phase := .wantWrite, data := d, segs := [] })) 0x4000 4 (dBurstLen (chan b c).desc n)) c n) c) := by
  rw [burstArrival_read hu hp ha, if_pos rfl, if_neg (by simp [hf])]

theorem burstArrival_write (hp : u.phase = .writing)
    (ha : arrive b ⟨.chanWrite, c, n⟩ u.segs ans 0 = some (b', st, d)) :
    burstArrival b c n ans = if st = .ok then chanStep (burstDone b' c n) c
      else burstFail b' c u st true (dDstAt (chan b c).desc n) := by
  unfold burstArrival
  dsimp only
  rw [hu]
  dsimp only
  rw [hp]
  dsimp only
  rw [ha]
  cases st <;> rfl

end

theorem descTake_unowned (h : dOwn d = false) : descTake b c d
    = count (setChan b c { chan b c with
        desc := d, next := 0, flights := [], wrote := false, io := [], lastBurst := 0, ackTop := 0,
        st := .idle, phase := .rest, stop := none }) (chanIndex c) 0x15 := if_pos (by simp [h])

theorem descTake_checked (h : dOwn d = true) : descTake b c d
    = (let x := { chan b c with
        desc := d, next := 0, flights := [], wrote := false, io := [], lastBurst := 0, ackTop := 0, phase := .bursts }
      match descStatus b c d with
      | some st => chanComplete (count (setChan b c { x with rejected := true }) 0x4000 6) c st (dElems d * ((dElem d + 63) / 64))
      | none => chanStep (setChan b c { x with rejected := false }) c) := if_neg (by simp [h])

theorem chanControl_issued {b'' : Block} {segs : List Seg}
    (h : let a := setChan b c { chan b c with phase := .control, io := [] }
      startWrite a (chanAsker a c .chanStatus 1) (chanCtx a c (ringCx a c)) (headVa a c)
        ⟨8, setBit (bits (chan b c).desc 0 64) 63 false⟩ 0 4 false = (b'', .issued segs)) :
    chanControl b c = setChan b'' c { chan b'' c with io := segs } := by
  unfold chanControl
  dsimp only at h ⊢
  rw [h]

theorem paceTaken_starts {line n : Nat} {o : Bool} (hl : paceLevel b line = (n + 1, o)) (hc : paceChoice b line = some c) :
    paceTaken b line
      = (let b := setPace b line (n, o)
        let b := { b with ladle := { b.ladle with turn := c } }
        beats (burstStart (setChan b c { chan b c with st := .active }) c)) := by
  unfold paceTaken
  rw [hl]
  dsimp only
  rw [if_neg (Nat.succ_ne_zero n), hc]
  rfl

end

theorem paceReset_accepted {s : State} {acc : Access} {v : Word} (ha : byHost acc) (hc : canTake s.dev 0x4000 0x40)
    (hv : v.toNat < 256) : paceResetCmd s.dev acc v.toNat
      = finishCmd (setPace (accepted s.dev acc 0x4000 0x40 v.toNat) v.toNat (0, false)) 0x4000 0x40 .ok 0 := by
  rw [paceResetCmd, commandNow_accepted hc (byHost_notTnt ha) (by decide), Nat.mod_eq_of_lt hv]
  simp [noFails, byHost_notHostFw ha, zeroBits_of_lt (k := 8) hv]

/-- Settles O32: what each arrival does by the phase it meets. -/
theorem channelsFetchMoveAndCompleteDescriptors : Obligations.ChannelsFetchMoveAndCompleteDescriptors := by
  refine ⟨?descriptor, ?burst, ?status, ?pace, ?reset⟩
  case descriptor =>
    intro s c ans b d hp hf ho hl
    refine ⟨fun ha => ?_, fun st hst ha => next_on ((descArrival_answered hp hf ho hl ha).trans (if_neg hst))⟩
    have run := (descArrival_answered hp hf ho hl ha).trans (if_pos rfl)
    refine ⟨fun h => next_on (run.trans (descTake_unowned h)), fun h st hs => next_on (run.trans ?_), fun h hs => next_on (run.trans ?_)⟩
    · rw [descTake_checked h, hs]
    · rw [descTake_checked h, hs]
  case burst =>
    intro s c n ans b d u hu x len
    refine ⟨fun hp hf ha => ?_, fun hp ha => ?_, fun st hst => ⟨fun hp ha => ?_, fun hp ha => ?_⟩⟩
    · exact next_on (b := burstArrival s.dev c n ans) (burstArrival_readOk hu hp hf ha)
    · exact next_on (b := burstArrival s.dev c n ans) ((burstArrival_write hu hp ha).trans (if_pos rfl))
    · exact next_on ((burstArrival_read hu hp ha).trans (if_neg hst))
    · exact next_on ((burstArrival_write hu hp ha).trans (if_neg hst))
  case status =>
    intro s c ans b d hf
    refine ⟨fun hp ha => next_on (readbackArrival_good hp hf ha), fun hp ha => ⟨next_on (statusArrival_good hp hf ha), ?_⟩,
      fun hp ha => next_on (controlArrival_good hp hf ha)⟩
    intro a b' segs h
    exact next_on ((statusArrival_good hp hf ha).trans (chanControl_issued h))
  case pace =>
    intro s line n c o hl hc
    exact next_on (paceTaken_starts hl hc)
  case reset =>
    intro s acc v ha hc hv
    refine goes_on (b := paceResetCmd s.dev acc v.toNat) (paceReset_accepted ha hc hv) ⟨?_, ?_, fun l h => ?_, ?_⟩
    · exact (congrArg (fun m => look m (0, false) v.toNat) (congrArg Ladle.pace (finishCmd_ladle ..))).trans (look_store_self ..)
    · exact finishes_finishCmd (b := setPace (accepted s.dev acc 0x4000 0x40 v.toNat) v.toNat (0, false)) (a := v.toNat) hc (Eq.refl _) .ok 0
    · exact (congrArg (fun m => look m (0, false) l) (congrArg Ladle.pace (finishCmd_ladle ..))).trans
        ((look_store_other _ _ _ _ h).trans (congrArg (fun m : Ladle => look m.pace (0, false) l) (accepted_ladle ..)))
    · exact memSame_of_mem (by simp [State.on])

end Sys2Proof.Machine
end

section
/-! SUPPORT. Set-up records (O39). -/

namespace Sys2Proof.Machine

/-! Set-up records (07 R219-R223, R232, R233) -/

section
variable {s : State} {acc : Access} {pid n : Nat}

theorem byHost_hostOrFw (ha : byHost acc) : hostOrFw acc = true := by
  rcases ha with h | h <;> simp [hostOrFw, h]

theorem hostAdmitted_accepted (b : Block) (i j a q : Nat) : hostAdmitted (accepted b acc i j a) q = hostAdmitted b q := by
  simp [hostAdmitted]

theorem setupBase_accepted (b : Block) (pid q j a : Nat) (hj : j < 16) :
    setupBase (accepted b acc (0x5200 + pid) j a) pid = setupBase b pid :=
  rd_accepted_other (by unfold objKey; omega) (by unfold objKey; omega)

theorem viaOf_accepted (b : Block) (pid j a : Nat) (hp : isPid pid) (hj : j < 16) :
    viaOf (accepted b acc (0x5200 + pid) j a) pid true = viaOf b pid true := by
  have key : rd (accepted b acc (0x5200 + pid) j a) (0x7100 + pid) 7 = rd b (0x7100 + pid) 7 :=
    rd_accepted_other (by obtain ⟨_, _⟩ := hp; unfold objKey; omega) (by unfold objKey; omega)
  unfold viaOf
  rw [hostAdmitted_accepted, part_accepted, key]

@[simp] theorem settle_dict (b : Block) (h : Holder) : (settle b h).dict = b.dict :=
  foldl_keeps (·.dict) (fun b (u : TagUse) => dropTag b u.tag) (fun _ _ => rfl) _ b

theorem qpReserved_count (b : Block) (i : Nat) : qpReserved (count b 0x1402 5) i = qpReserved b i := by
  have same (pp k : Nat) (hk : k < 16) : rd (count b 0x1402 5) (0xA200 + pp) k = rd b (0xA200 + pp) k :=
    rd_count_other b (by unfold objKey; omega)
  simp only [qpReserved, shadowHolds, shadowPid, shadowQpBase, same _ 1 (by decide), same _ 2 (by decide)]
  rfl

theorem keyReserved_count (b : Block) (j : Nat) : keyReserved (count b 0x1402 5) j = keyReserved b j := by
  have same (pp k : Nat) (hk : k < 16) : rd (count b 0x1402 5) (0xA200 + pp) k = rd b (0xA200 + pp) k :=
    rd_count_other b (by unfold objKey; omega)
  simp only [keyReserved, shadowHolds, shadowPid, shadowKeyBase, same _ 1 (by decide), same _ 3 (by decide)]
  rfl

/-- A set-up command whose caller, argument and states pass reads its record. -/
theorem setupCmd_reads {sub : Nat} {accepts : Block → Bool} (ha : byHost acc) (hp : isPid pid) (hl : isLive s.dev pid = true)
    (hb : setupBase s.dev pid ≠ 0) (hh : hostAdmitted s.dev pid = true) (hc : canTake s.dev (0x5200 + pid) sub) (hs : sub < 16)
    (hr : if sub = 8 then n < 2 ^ 18 ∧ n < (part s.dev pid).keyCount else n < 2 ^ 16 ∧ n < (part s.dev pid).qpCount)
    (hx : accepts (count s.dev 0x1402 5) = true) :
    setupCmd s.dev acc pid sub n accepts
      = issue (accepted s.dev acc (0x5200 + pid) sub n) ⟨.host, ⟨pid, 0, 0⟩, [], ⟨.setupRecord, pid, sub⟩,
          [.hostRead 0 ((setupBase s.dev pid + (setupPlace sub n).1) % 2 ^ 64) (setupPlace sub n).2 (viaOf s.dev pid true)]⟩ := by
  have live : isLive (count s.dev 0x1402 5) pid = true := hl
  rw [setupCmd, partCommand_taken hp (by decide) hc (fencedTnt_host (byHost_notTnt ha)), ← accepted]
  · rw [setupBase_accepted s.dev pid pid sub n hs, if_neg hb, hostAdmitted_accepted, viaOf_accepted s.dev pid sub n hp hs]
    simp only [hh, Bool.not_true, Bool.false_eq_true, if_false]
  · by_cases h8 : sub = 8
    · rw [if_pos h8] at hr
      simp only [byHost_hostOrFw ha, live, hx, if_pos h8, part_count, Nat.not_le.2 hr.1, Nat.not_le.2 hr.2]
      rfl
    · rw [if_neg h8] at hr
      simp only [byHost_hostOrFw ha, live, hx, if_neg h8, part_count, Nat.not_le.2 hr.1, Nat.not_le.2 hr.2]
      rfl

end

section
variable {b : Block} {pid sub r : Nat} {c : PendCmd} (hc : pendingCmd b (0x5200 + pid) sub = some c)
  (hi : issued b ⟨.setupRecord, pid, sub⟩ = true) (hn : noInjection b)
include hc hi hn

theorem setupDone_runs (hr : r < 2 ^ 512) : setupDone b pid sub ⟨.ok, ⟨64, r⟩, false⟩
    = setupEnd (setupRun (settle b ⟨.setupRecord, pid, sub⟩) pid sub c.arg r).1 pid c
        (setupRun (settle b ⟨.setupRecord, pid, sub⟩) pid sub c.arg r).2.1
        (setupRun (settle b ⟨.setupRecord, pid, sub⟩) pid sub c.arg r).2.2 := by
  have hn' : noInjection (settle b ⟨.setupRecord, pid, sub⟩) :=
    noInjection_congr (rd_congr (congrArg Dict.objs (settle_dict ..)) _ _) hn
  unfold setupDone
  dsimp only
  rw [hc]
  simp only [hi, checkPath_clean hn', keyWordBad, qpWordBad, checkWord_clean hn', ite_self, Nat.mod_eq_of_lt hr]
  rfl

theorem setupDone_fails {st : Status} (hst : st ≠ .ok) (data : Bytes) : setupDone b pid sub ⟨st, data, false⟩
    = setupEnd (settle b ⟨.setupRecord, pid, sub⟩) pid c .resource (statusCode st <<< 16) := by
  have hn' : noInjection (settle b ⟨.setupRecord, pid, sub⟩) :=
    noInjection_congr (rd_congr (congrArg Dict.objs (settle_dict ..)) _ _) hn
  unfold setupDone
  dsimp only
  rw [hc]
  simp [hi, checkPath_clean hn', hst]

end

section
variable {b : Block} {pid n r : Nat} (hl : isLive b pid = true)
include hl

theorem setupRun_init (hs : (qp b ((part b pid).qpBase + n)).st = .reset) (hr : qpReserved b ((part b pid).qpBase + n) = false)
    (hx : ctxOpen b pid (bits r 48 10) = true) : setupRun b pid 1 n r
      = match initFault r with
        | some off => (b, .range, off)
        | none => (noteQp (setQp b ((part b pid).qpBase + n) (initQp b pid r (qp b ((part b pid).qpBase + n)))) ((part b pid).qpBase + n), .ok, 0) :=
  if_neg (by simp [hl, hs, hr, hx])

theorem setupRun_connect (hs : (qp b ((part b pid).qpBase + n)).st = .init) (hr : (qp b ((part b pid).qpBase + n)).resetting = false)
    (hx : ctxOpen b pid (qp b ((part b pid).qpBase + n)).cx = true) : setupRun b pid 2 n r
      = if bits r 308 12 = chipId b then (b, .range, 38)
        else (sqRun (count (noteQp (setQp b ((part b pid).qpBase + n) (connectQp (qp b ((part b pid).qpBase + n)) r))
          ((part b pid).qpBase + n)) 0x5020 5) ((part b pid).qpBase + n), .ok, 0) :=
  if_neg (by simp [hl, hs, hr, hx])

theorem setupRun_key (hs : (key b ((part b pid).keyBase + n)).st = .free) (hr : keyReserved b ((part b pid).keyBase + n) = false)
    (hx : ctxOpen b pid (bits r 32 10) = true) : setupRun b pid 8 n r
      = match keyFault b pid r with
        | some off => (b, .range, off)
        | none => (setKey b ((part b pid).keyBase + n) (regKey (key b ((part b pid).keyBase + n)) pid r), .ok,
            ((key b ((part b pid).keyBase + n)).gen + 1) % 256) :=
  if_neg (by simp [hl, hs, hr, hx])

end

/-- Settles O39: the commands read their record; its arrival runs them, and its end runs what waited. -/
theorem setupRecordsMakeQueuePairsAndKeys : Obligations.SetupRecordsMakeQueuePairsAndKeys := by
  refine ⟨?commands, ?records⟩
  case commands =>
    intro s acc pid v ha hp hl hb hh o p n reads
    refine ⟨fun hv hq => ⟨fun hc hs hr => ?_, fun hc hs => ?_⟩, fun hv hk hc hr => ?_⟩
    · exact next_on (setupCmd_reads (sub := 1) ha hp hl hb hh hc (by decide) ⟨hv, hq⟩
        (Bool.and_eq_true_iff.mpr ⟨beq_iff_eq.mpr hs, by rw [qpReserved_count]; exact congrArg Bool.not hr⟩))
    · exact next_on (setupCmd_reads (sub := 2) ha hp hl hb hh hc (by decide) ⟨hv, hq⟩ (beq_iff_eq.mpr hs))
    · exact next_on (setupCmd_reads (sub := 8) ha hp hl hb hh hc (by decide) ⟨hv, hk⟩
        (by rw [keyReserved_count]; exact congrArg Bool.not hr))
  case records =>
    intro s pid sub c r hc hi hr hn b o i j arrives ends
    refine ⟨fun h hl hs hq hx => ?_, fun h hl hs hq hx => ?_, fun h hl hs hq hx => ?_, fun st data hst => next_on (setupDone_fails hc hi hn hst data)⟩
    all_goals subst h
    · have run := setupRun_init (r := r) hl hs hq hx
      refine ⟨fun hf => next_on ((setupDone_runs hc hi hn hr).trans ?_), fun off hf => next_on ((setupDone_runs hc hi hn hr).trans ?_)⟩
      all_goals rw [run, hf]; rfl
    · have run := setupRun_connect (r := r) hl hs hq hx
      refine ⟨fun hf => next_on ((setupDone_runs hc hi hn hr).trans ?_), fun hf => next_on ((setupDone_runs hc hi hn hr).trans ?_)⟩
      · rw [run, if_neg hf]; rfl
      · rw [run, if_pos hf]; rfl
    · have run := setupRun_key (r := r) hl hs hq hx
      refine ⟨fun hf => next_on ((setupDone_runs hc hi hn hr).trans ?_), fun off hf => next_on ((setupDone_runs hc hi hn hr).trans ?_)⟩
      all_goals rw [run, hf]; rfl

end Sys2Proof.Machine
end

section
/-! SUPPORT. Resetting and draining queue pairs (O40). -/

namespace Sys2Proof.Machine

/-! Resetting and draining queue pairs (07 R217, R218) -/

section
variable {s : State} {acc : Access} {pid n : Nat} (ha : mayCommand s.dev acc pid) (hp : isPid pid)
  (hl : isLive s.dev pid = true) (hv : n < 65536) (hq : n < (part s.dev pid).qpCount)
include ha hp hl hv hq

theorem qpFails_none {ok : Qp → Bool} (h : ok (qp s.dev ((part s.dev pid).qpBase + n)) = true) :
    qpFails (count s.dev 0x1402 5) acc pid n ok = noFails := by
  have live : isLive (count s.dev 0x1402 5) pid = true := hl
  have held : ok (qp (count s.dev 0x1402 5) ((part s.dev pid).qpBase + n)) = true := h
  have low : ¬ 2 ^ 16 ≤ n := by omega
  simp only [qpFails, notHostTntFw_count, mayCommand_rights hp ha, live, part_count, held, low, Nat.not_le.2 hq]
  rfl

/-- A command of a queue pair, once it is taken: it runs in the order of the set-up commands. -/
theorem qpCommand_taken {sub : Nat} {ok : Qp → Bool} {run : Block → Block} (hc : canTake s.dev (0x5200 + pid) sub)
    (h : ok (qp s.dev ((part s.dev pid).qpBase + n)) = true) :
    partCommand s.dev acc 0x5200 pid sub n (fun b => qpFails b acc pid n ok) (fun b => inOrder b pid sub n run)
      = inOrder (accepted s.dev acc (0x5200 + pid) sub n) pid sub n run :=
  partCommand_taken hp (by decide) hc (mayCommand_fence ha) (qpFails_none ha hp hl hv hq h)

theorem qpCommand_runs {sub : Nat} {ok : Qp → Bool} {run : Block → Block} (hs : sub < 128) (hc : canTake s.dev (0x5200 + pid) sub)
    (h : ok (qp s.dev ((part s.dev pid).qpBase + n)) = true) (ho : setupBefore s.dev pid sub n = false) (hn : noInjection s.dev) :
    partCommand s.dev acc 0x5200 pid sub n (fun b => qpFails b acc pid n ok) (fun b => inOrder b pid sub n run)
      = run (accepted s.dev acc (0x5200 + pid) sub n) := by
  rw [qpCommand_taken ha hp hl hv hq hc h, inOrder_clean (noInjection_accepted (by simp only [objKey]; omega) hn)
    ((setupBefore_accepted s.dev acc pid sub n n (by omega)).trans ho)]

theorem qpCommand_waits {sub : Nat} {ok : Qp → Bool} {run : Block → Block} (hs : sub < 128) (hc : canTake s.dev (0x5200 + pid) sub)
    (h : ok (qp s.dev ((part s.dev pid).qpBase + n)) = true) (ho : setupBefore s.dev pid sub n = true) :
    partCommand s.dev acc 0x5200 pid sub n (fun b => qpFails b acc pid n ok) (fun b => inOrder b pid sub n run)
      = accepted s.dev acc (0x5200 + pid) sub n := by
  rw [qpCommand_taken ha hp hl hv hq hc h]
  exact if_pos ((setupBefore_accepted s.dev acc pid sub n n (by omega)).trans ho)

end

/-! ### An acknowledgement leaves its queue pair's state -/

theorem startTimers_untracked {b : Block} {t : Tx} (h : t.tracked = false) : startTimers b t = b := if_neg (by simp [h])

theorem noteWait_untracked {b : Block} {t : Tx} (h : t.tracked = false) :
    (noteWait b t).1.tpe.qps = b.tpe.qps ∧ (noteWait b t).2.tracked = false := by
  unfold noteWait
  split
  · split
    · dsimp only
      rw [startTimers_untracked h]
      refine ⟨?_, h⟩
      split <;> rfl
    · exact ⟨rfl, h⟩
  · exact ⟨rfl, h⟩

theorem enqueue_untracked {b : Block} {t : Tx} (h : t.tracked = false) : (enqueue b t).tpe.qps = b.tpe.qps := by
  have held : (hold b t).tpe.qps = b.tpe.qps := congrArg (·.tpe.qps) (startTimers_untracked h)
  unfold enqueue
  split
  · rw [if_neg (by simp [h])]
  · split
    · next p r _ =>
      obtain ⟨qps, tracked⟩ := noteWait_untracked (b := b) (t := { t with port := p, rport := r }) h
      have quiet := startTimers_untracked (b := (noteWait b { t with port := p, rport := r }).1) tracked
      dsimp only
      rw [quiet, ite_self]
      exact qps
    · exact held

theorem qp_sendAck (b : Block) (i : Nat) : qp (sendAck b i) i = { qp b i with unreported := 0 } := by
  have same : (sendAck b i).tpe.qps = (setQp b i { qp b i with unreported := 0 }).tpe.qps := enqueue_untracked rfl
  rw [qp, same]
  exact qp_setQp_self ..

/-! ### The ends -/

theorem resetDone_early {b : Block} {i : Nat} (h : (qp b i).resetting = false ∨ (qp b i).due ≠ [] ∨ unplaced b i = true) :
    resetDone b i = b := by
  refine if_pos ?_
  rcases h with h | h | h <;> simp [h]

theorem resetDone_ends {b : Block} {i : Nat} (hr : (qp b i).resetting = true) (hn : (qp b i).sqNext = (qp b i).sqTail)
    (hd : (qp b i).due = []) (hm : (qp b i).msgs = []) (hu : unplaced b i = false) : resetDone b i
      = if (qp b i).st = .draining then finishQp (finishQp (toReset b i) i 3 .ok 0) i 4 .ok 0
        else finishQp (toReset b i) i 3 .ok 0 := by
  unfold resetDone leaveQp
  dsimp only
  rw [if_neg (by simp [hr, hn, hd, hm, hu]), if_pos hr]
  simp only [beq_iff_eq]

theorem drainDone_early {b : Block} {i : Nat} (h : (qp b i).st ≠ .draining ∨ unplaced b i = true ∨ (qp b i).due ≠ []) :
    drainDone b i = b := by
  refine if_pos ?_
  rcases h with h | h | h <;> simp [h]

theorem leaveQp_drained {b : Block} {i : Nat} (hs : (qp b i).st = .draining) (hr : (qp b i).resetting = false) :
    leaveQp b i = finishQp (toReset b i) i 4 .ok 0 := by
  unfold leaveQp
  dsimp only
  rw [if_pos (by simp [hs]), if_neg (by simp [hr])]

theorem drainDone_ends {b : Block} {i : Nat} (hs : (qp b i).st = .draining) (hr : (qp b i).resetting = false)
    (hn : (qp b i).sqNext = (qp b i).sqTail) (hm : ∀ m ∈ (qp b i).msgs, m.st ≠ none) (hd : (qp b i).due = []) (hu : unplaced b i = false) :
    drainDone b i = finishQp (toReset (if (qp b i).unreported = 0 then b else sendAck b i) i) i 4 .ok 0 := by
  have done : (qp b i).msgs.any (·.st.isNone) = false :=
    List.any_eq_false.mpr fun m hm' => by simpa [Option.isNone_iff_eq_none] using hm m hm'
  unfold drainDone drainEnd
  dsimp only
  rw [if_neg (by simp [hs, hn, done, hu, hd])]
  by_cases h0 : (qp b i).unreported = 0
  · rw [if_neg (by simp [h0]), if_pos h0]
    exact leaveQp_drained hs hr
  · rw [if_pos (by simp [h0, hr]), if_neg h0]
    exact leaveQp_drained (by rw [qp_sendAck]; exact hs) (by rw [qp_sendAck]; exact hr)

/-- Settles O40: the commands through the Queue Pair Table, the ends by their conditions. -/
theorem queuePairsAreResetAndDrained : Obligations.QueuePairsAreResetAndDrained := by
  refine ⟨?commands, ?ends⟩
  case commands =>
    intro s acc pid v ha hp hl hv hq o i
    have base (sub : Nat) : (part (accepted s.dev acc (0x5200 + pid) sub v.toNat) pid).qpBase = (part s.dev pid).qpBase := by
      rw [part_accepted]
    refine ⟨fun hc h1 h2 => ?_, fun hc h1 h2 => ?_⟩
    · have ok : ((qp s.dev i).st != .reset && (qp s.dev i).st != .draining) = true := by simp [h1, h2]
      refine ⟨fun ho hn => next_on ?_, fun ho => next_on (qpCommand_waits ha hp hl hv hq (by decide) hc ok ho)⟩
      refine (qpCommand_runs ha hp hl hv hq (by decide) hc ok ho hn).trans ?_
      rw [base]
    · have ok : ((qp s.dev i).runs && !(qp s.dev i).resetting) = true := by simp [h1, h2]
      refine ⟨fun ho hn => next_on ?_, fun ho => next_on (qpCommand_waits ha hp hl hv hq (by decide) hc ok ho)⟩
      refine (qpCommand_runs ha hp hl hv hq (by decide) hc ok ho hn).trans ?_
      rw [base]
  case ends =>
    intro s i q
    refine ⟨fun hr hn hd hm hu => ?_, fun h => ?_, fun hs hr hn hm hd hu => ?_, fun h => ?_, fun hs he => ?_, fun he => ?_⟩
    · exact next_on (resetDone_ends hr hn hd hm hu)
    · exact next_on (b := resetDone s.dev i) (b' := s.dev) (resetDone_early h)
    · exact next_on (drainDone_ends hs hr hn hm hd hu)
    · exact next_on (b := drainDone s.dev i) (b' := s.dev) (drainDone_early h)
    · exact next_on (b := drainTimeout s.dev i) (if_neg (by simpa using ⟨hs, he⟩))
    · exact next_on (b := drainTimeout s.dev i) (b' := s.dev) (if_pos (by simpa using Or.inr he))

end Sys2Proof.Machine
end

section
/-! SUPPORT. Work queue entries (O43). -/

namespace Sys2Proof.Machine

/-! Work queue entries (07 R225-R230, R444) -/

section
variable {b : Block} {i : Nat}

theorem wqeFetchDone_answered {b' : Block} {ans : Answer} {st : Status} {w : Nat} (hf : (qp b i).fetch = .readWqe)
    (ha : arrive b ⟨.wqeFetch, i, 0⟩ (qp b i).io ans 64 = some (b', st, w)) (ht : (qp b i).tearing = none) : wqeFetchDone b i ans
      = (let b'' := onQp b' i fun q => { q with fetch := .rest, io := [] }
        if st ≠ .ok then wqeFail b'' i 0 st
        else match wqeStatus b'' (qp b i) w with
          | some f => wqeFail b'' i w f
          | none =>
            let c := onQp b'' i fun q => { q with fetch := .ready, cur := w }
            if wOpcode w = 1 ∨ wOpcode w = 2 then payloadRead c i else c) := by
  unfold wqeFetchDone
  dsimp only
  rw [if_neg (by simp [hf]), ha]
  dsimp only
  rw [ht]
  simp only [bne_iff_ne, Bool.or_eq_true, decide_eq_true_eq] <;> rfl

theorem wqePayload_starts {b' : Block} {ans : Answer} {d op : Nat} (hf : (qp b i).fetch = .readPayload) (ho : wOpcode (qp b i).cur = op)
    (hc : (qp b i).copies = []) (hm : mayStartMsg b (qp b i) (qp b i).cur = true)
    (ha : arrive b ⟨.wqePayload, i, 0⟩ (qp b i).io ans (wBytes (qp b i).cur) = some (b', .ok, d)) :
    wqePayload b i op ans = wqeStart b' i d := by
  unfold wqePayload
  dsimp only
  rw [if_neg (by simp [hf, ho]), if_neg (by simp [hc]), if_neg (by simp [hm]), ha]
  exact if_pos rfl

theorem wqeNoPayload_starts {op : Nat} (hf : (qp b i).fetch = .ready) (ho : wOpcode (qp b i).cur = op)
    (hm : mayStartMsg b (qp b i) (qp b i).cur = true) : wqeNoPayload b i op = wqeStart b i 0 :=
  if_neg (by simp [hf, ho, hm])

theorem wqeNopRun_runs (hf : (qp b i).fetch = .ready) (ho : wOpcode (qp b i).cur = 7) (hr : (qp b i).runs = true)
    (hs : (qp b i).resetting = false) (hx : wFence (qp b i).cur = false ∨ oldestOpen (qp b i) = none) :
    wqeNopRun b i = sqRun (tearWqe b i (qp b i).cur .ok) i := by
  refine if_neg ?_
  rcases hx with h | h <;> simp [hf, ho, hr, hs, h]

theorem localFailure_noResponse {st : Status} (h : ∀ w ∈ b.tpe.works, w.qp ≠ i ∨ w.kind ≠ .response) : localFailure b i st
    = match (qp b i).fetch with
      | .readWqe => wqeFail (onQp (abandon b ⟨.wqeFetch, i, 0⟩ (qp b i).io) i fun q => { q with fetch := .rest, io := [] }) i 0 st
      | .readPayload =>
        wqeFail (onQp (abandon b ⟨.wqePayload, i, 0⟩ (qp b i).io) i fun q => { q with fetch := .rest, io := [] }) i (qp b i).cur st
      | _ => b := by
  have none : b.tpe.works.find? (fun k => k.qp == i && k.kind == .response) = none :=
    List.find?_eq_none.mpr fun w hm => by rcases h w hm with h | h <;> simp [h]
  unfold localFailure
  dsimp only
  rw [none] <;> rfl

section
variable {c : Cqe} {rest : List Cqe} (hd : (qp b i).due = c :: rest) (hf : cqFull (qp b i) = false)
include hd hf

theorem completionWrite_issued {b' : Block} {segs : List Seg} (hg : (qp b i).isAlias = true ∨ (qp b i).ownGen = (ctxSlot b (qp b i).pid (qp b i).cx).gen)
    (hw : writeNow b (qpAsker b i .completion 0) (ctxNow b (qp b i).pid (qp b i).cx) (((qp b i).cqBase + 32 * (qp b i).cqProd) % 2 ^ 52)
      ⟨32, c.entry + (ofBool (qp b i).phase <<< 63)⟩ 0 2 = (b', .issued segs)) : completionWrite b i
      = (let q := qp b i
        let p := (q.cqProd + 1) % cqSize q
        let b := onQp b' i fun x => { x with due := rest, cqProd := p, phase := if p = 0 then !x.phase else x.phase, armed := false }
        freeTracker (if (q.armed || c.always) && q.vec ≠ 0 then msixPart b q.pid q.vec else b) i c.slot) := by
  have current : ¬ (!(qp b i).isAlias && (qp b i).ownGen ≠ (ctxSlot b (qp b i).pid (qp b i).cx).gen) = true := by
    rcases hg with h | h <;> simp [h]
  unfold completionWrite
  dsimp only
  rw [hd]
  dsimp only
  rw [if_neg (by simp [hf]), if_neg current, hw]

end

theorem completionWrite_none (h : (qp b i).due = [] ∨ cqFull (qp b i) = true) : completionWrite b i = b := by
  unfold completionWrite
  dsimp only
  split
  · rfl
  · next hd => exact if_pos (h.resolve_left (by simp [hd]))

theorem completionFail_none (h : (qp b i).due = [] ∨ cqFull (qp b i) = true) (st : Status) : completionFail b i st = b := by
  unfold completionFail
  dsimp only
  split
  · rfl
  · next hd => exact if_pos (h.resolve_left (by simp [hd]))

end

/-- Settles O43: each row by what it finds of the queue pair. -/
theorem workQueueEntriesRunAndComplete : Obligations.WorkQueueEntriesRunAndComplete := by
  refine ⟨?fetch, ?start, ?failure, ?completion, ?idle⟩
  case fetch =>
    intro s i ans b st w hf ha ht _ b'
    have run := wqeFetchDone_answered hf ha ht
    refine ⟨fun h => next_on (run.trans (if_pos h)), fun h f hs => next_on (run.trans ?_), fun h hs => next_on (run.trans ?_)⟩
    · dsimp only
      rw [if_neg (by simp [h]), hs]
    · dsimp only
      rw [if_neg (by simp [h]), hs]
  case start =>
    intro s i ans b d q
    refine ⟨fun hf hc hm ha => ⟨fun ho => ?_, fun ho => ?_⟩, fun hf hm => ?_, fun hf ho hr hs hx => next_on (wqeNopRun_runs hf ho hr hs hx)⟩
    · exact next_on (wqePayload_starts hf ho hc hm ha)
    · exact next_on (wqePayload_starts hf ho hc hm ha)
    · exact ⟨fun ho => next_on (wqeNoPayload_starts hf ho hm), fun ho => next_on (wqeNoPayload_starts hf ho hm),
        fun ho => next_on (wqeNoPayload_starts hf ho hm), fun ho => next_on (wqeNoPayload_starts hf ho hm)⟩
  case failure =>
    intro s i st q h
    refine ⟨fun hf => next_on ((localFailure_noResponse h).trans ?_), fun hf => next_on ((localFailure_noResponse h).trans ?_)⟩
    · rw [show (qp s.dev i).fetch = .readWqe from hf]
    · rw [show (qp s.dev i).fetch = .readPayload from hf]
  case completion =>
    intro s i c rest hd hf q hg
    refine ⟨?_, fun st hst => next_on (b := if st = .ok then s.dev else completionFail s.dev i st) (if_neg hst)⟩
    intro b segs hw p b'
    exact next_on (completionWrite_issued hd hf hg hw)
  case idle =>
    intro s i h
    refine ⟨next_on (b := completionWrite s.dev i) (b' := s.dev) (completionWrite_none h), fun st => ?_⟩
    refine next_on (b := if st = .ok then s.dev else completionFail s.dev i st) (b' := s.dev) ?_
    rw [completionFail_none h, ite_self]

end Sys2Proof.Machine
end

section
/-! SUPPORT. PROG_UNLOAD while an image is validated (O45). -/

namespace Sys2Proof.Machine

/-! PROG_UNLOAD while the program's BLOB is validated (08 R306; 02 Table 2-5) -/

/-- The host's access in the counterexample. -/
def unloader : Access := ⟨.host 0, false, 0⟩

/-- A ready block whose partition 1 may hold one program, with a new image of program 1 being VALIDATED. -/
def validatingImage : State := State.reset.on { Block.reset with dict := { Block.reset.dict with
  objs := [(objKey 0x6401 0x20, 1), (objKey 0xC000 2, 8)]
  xfers := [(objKey 0x6201 1, ⟨.host 0, unloader, 276, 5, 0, 0, some 0⟩)] } }
theorem canTake_validatingImage : canTake validatingImage.dev (0x6400 + 1) 1 := by
  unfold canTake awake
  decide +kernel

theorem execProgUnload_validating : exec (.progUnload unloader 1 1) validatingImage
    = .next (validatingImage.on (progUnloadCmd validatingImage.dev unloader 1 1)) := rfl

/-- The command is accepted, and its result reads PENDING. -/
theorem progUnload_pends : pends validatingImage (validatingImage.on (progUnloadCmd validatingImage.dev unloader 1 1)) (0x6400 + 1) 1 := by
  unfold pends
  decide +kernel

theorem not_finishes_of_pends {s t : State} {i j : Nat} (h : pends s t i j)
    (n : resultWord ((s.dev.dict.cmdSeq + 1) % 65536) 1 Code.pending.num 0 ≠ resultWord ((s.dev.dict.cmdSeq + 1) % 65536) 2 Code.ok.num 0) :
    ¬ finishes s t i j .ok 0 := fun f => n (h.symm.trans f)

/-- Refutes O45: a PROG_UNLOAD of a program whose new image is VALIDATING stays pending, it does not finish. -/
theorem not_groupsAreArmedAndAborted : ¬ Obligations.GroupsAreArmedAndAborted := by
  rintro ⟨-, -, -, -, unload⟩
  obtain ⟨t, run, done, -⟩ := unload validatingImage unloader 1 1 (Or.inl (Or.inl rfl)) ⟨by decide, by decide⟩ canTake_validatingImage
    (by decide) (by decide) (by decide +kernel) (by decide +kernel)
  have same : validatingImage.on (progUnloadCmd validatingImage.dev unloader 1 1) = t :=
    Host.Outcome.next.inj (execProgUnload_validating.symm.trans run)
  exact not_finishes_of_pends progUnload_pends (by decide +kernel) (same ▸ done)

end Sys2Proof.Machine
end

section
/-! SUPPORT. The key port and the key commands (O50). -/

namespace Sys2Proof.Machine

/-! Keys (10 R309, R310, R315) -/

theorem fromRot_notTnt {acc : Access} (h : fromRot acc) : roleOf acc.path ≠ .tnt := by rw [h]; decide

theorem fromRot_notRot {acc : Access} (h : fromRot acc) : notRot acc = false := by unfold notRot; rw [h]

theorem keyPortWord_other {b : Block} {slot : Nat} {w : BitVec 32} (h2 : 2 ≤ slot) (h16 : slot < 16) :
    keyPortWord b slot w = count b 0x7000 0x13 := by
  unfold keyPortWord
  split
  · omega
  · omega
  · exact if_pos h16

section
variable {s : State} {acc : Access} (ha : fromRot acc)

theorem spillState_accepted (b : Block) (j : Nat) (hj : 0x40 ≤ j) (hj' : j < 0x50) :
    spillState (accepted b acc 0x7000 j 0) = spillState b :=
  rd_accepted_other (by unfold objKey; omega) (by decide)

include ha

theorem spillKeyInstall_accepted (hc : canTake s.dev 0x7000 0x40) (hl : s.dev.ring.stageSpill.length = 8)
    (hs : spillState s.dev = 0 ∨ spillState s.dev = 2) : spillKeyInstall s.dev acc 0
      = (let b := accepted s.dev acc 0x7000 0x40 0
        let k := stagedKey s.dev.ring.stageSpill
        if spillState s.dev = 0 then
          finishCmd (setRingKeys b fun r => { r with spillCur := some k, fresh := true, stageSpill := [] }) 0x7000 0x40 .ok 0
        else
          let b := setRingKeys b fun r => { r with spillNext := some k }
          wr (wr { b with ssu := { b.ssu with annealPoisoned := 0, annealAt := b.clk.now } } 0x7000 7 3) 0x7000 8 0) := by
  have state : spillState (count s.dev 0x1402 5) = spillState s.dev := rd_count_other _ (by decide)
  rw [spillKeyInstall, command_accepted hc (fromRot_notTnt ha) (by decide)]
  · rw [accepted_ring, spillState_accepted _ _ (by decide) (by decide)]
  · rcases hs with h | h <;> simp [noFails, fromRot_notRot ha, state, h, hl]

theorem linkKeyInstall_accepted (hc : canTake s.dev 0x7000 0x41) (hl : s.dev.ring.stageLink.length = 8) :
    linkKeyInstall s.dev acc 0
      = finishCmd (if s.dev.ring.linkCur.isNone then
          retryHeld (setRingKeys (accepted s.dev acc 0x7000 0x41 0) fun r =>
            { r with linkCur := some (stagedKey s.dev.ring.stageLink), stageLink := [] })
        else setRingKeys (accepted s.dev acc 0x7000 0x41 0) fun r =>
          { r with linkNext := some (stagedKey s.dev.ring.stageLink), stageLink := [] }) 0x7000 0x41 .ok 0 := by
  rw [linkKeyInstall, commandNow_accepted hc (fromRot_notTnt ha) (by decide)]
  · simp only [accepted_ring]
  · simp [noFails, fromRot_notRot ha, hl]

/-- The block whose spill key is destroyed: what it protected is forgotten. -/
def spillKeyGone (b : Block) : Block :=
  wr { b with
    ring := { b.ring with spillCur := none, fresh := false, stageSpill := [] }
    ssu := { b.ssu with root := List.replicate 8 0, cache := [], condemned := [], retired := [] } } 0x7000 7 0

theorem spillKeyDestroy_accepted (hc : canTake s.dev 0x7000 0x43) (hs : spillState s.dev = 0 ∨ spillState s.dev = 2)
    (hh : spillHeld s.dev = false) : spillKeyDestroy s.dev acc 0
      = finishCmd (spillKeyGone (accepted s.dev acc 0x7000 0x43 0)) 0x7000 0x43 .ok 0 := by
  have state : spillState (count s.dev 0x1402 5) = spillState s.dev := rd_count_other _ (by decide)
  have held : spillHeld (count s.dev 0x1402 5) = spillHeld s.dev := by
    have same (p : Nat) : spillPstate (count s.dev 0x1402 5) p = spillPstate s.dev p := rd_count_other _ (by unfold objKey; omega)
    simp only [spillHeld, same]
  rw [spillKeyDestroy, commandNow_accepted hc (fromRot_notTnt ha) (by decide)]
  · rfl
  · rcases hs with h | h <;> simp [noFails, fromRot_notRot ha, state, h, held, hh]

theorem linkKeyDestroy_accepted (hc : canTake s.dev 0x7000 0x44) (hp : ∀ p, p < 36 → portLive s.dev p = false) :
    linkKeyDestroy s.dev acc 0 = finishCmd (setRingKeys (accepted s.dev acc 0x7000 0x44 0) fun r =>
      { r with linkCur := none, linkNext := none, linkPrev := none, stageLink := [] }) 0x7000 0x44 .ok 0 := by
  have dead : (List.range 36).any (portLive (count s.dev 0x1402 5)) = false := by
    refine List.any_eq_false.mpr fun p hm => ?_
    have same : portState (count s.dev 0x1402 5) p = portState s.dev p := rd_count_other _ (by unfold objKey; omega)
    have quiet := hp p (List.mem_range.mp hm)
    simpa only [portLive, same, Bool.not_eq_true] using quiet
  rw [linkKeyDestroy, commandNow_accepted hc (fromRot_notTnt ha) (by decide)]
  simp [noFails, fromRot_notRot ha, dead]

end

theorem linkKeySwitch_accepted {s : State} {acc : Access} {k : Nat} (ha : notFmFw acc = false) (hc : canTake s.dev 0x7000 0x42)
    (hk : s.dev.ring.linkNext = some k) : linkKeySwitch s.dev acc 0
      = finishCmd (setRingKeys (accepted s.dev acc 0x7000 0x42 0) fun r =>
          { r with linkPrev := r.linkCur, linkCur := r.linkNext, linkNext := none, switchAt := s.dev.clk.now, stageLink := [] })
          0x7000 0x42 .ok 0 := by
  rw [linkKeySwitch, commandNow_accepted hc (notFmFw_notTnt ha) (by decide)]
  · simp only [accepted_clk]
  · simp [noFails, ha, show s.dev.ring.linkNext.isSome = true by rw [hk]; rfl]

/-- A command on the keys, once it has been accepted, finishes. -/
theorem finishes_setRingKeys {s : State} {acc : Access} {j : Nat} (f : Keyring → Keyring) (hc : canTake s.dev 0x7000 j) :
    finishes s (s.on (finishCmd (setRingKeys (accepted s.dev acc 0x7000 j 0) f) 0x7000 j .ok 0)) 0x7000 j .ok 0 :=
  finishes_finishCmd (a := 0) (b := setRingKeys (accepted s.dev acc 0x7000 j 0) f) hc rfl .ok 0

/-- Settles O50: the port by its slot, the commands on the block that has accepted them. -/
theorem keysAreStagedInstalledSwitchedAndDestroyed : Obligations.KeysAreStagedInstalledSwitchedAndDestroyed := by
  refine ⟨?port, ?rot, ?switch, ?grace⟩
  case port =>
    intro s w
    refine ⟨fun h => next_on (b := keyPortWord s.dev 0 w) ?_, fun h => next_on (b := keyPortWord s.dev 1 w) ?_,
      fun h => next_on (b := keyPortWord s.dev 0 w) ?_, fun h => next_on (b := keyPortWord s.dev 1 w) ?_,
      fun slot h2 h16 => next_on (keyPortWord_other h2 h16)⟩
    · simp [keyPortWord, stageWord, setRingKeys, Nat.not_le.mpr h]
    · simp [keyPortWord, stageWord, setRingKeys, Nat.not_le.mpr h]
    · simp [keyPortWord, stageWord, setRingKeys, h]
    · simp [keyPortWord, stageWord, setRingKeys, h]
  case rot =>
    intro s acc ha
    refine ⟨?spillInstall, ?linkInstall, ?spillDestroy, ?linkDestroy⟩
    case spillInstall =>
      intro hc hl k
      refine ⟨fun hs => ?_, fun hs => ?_⟩
      · refine goes_on ((spillKeyInstall_accepted ha hc hl (Or.inl hs)).trans (if_pos hs)) ⟨?_, ?_, ?_⟩
        · exact finishes_setRingKeys _ hc
        · simp [State.on, setRingKeys, k]
        · simp [State.on, setRingKeys]
      · refine goes_on ((spillKeyInstall_accepted ha hc hl (Or.inr hs)).trans (if_neg (by rw [hs]; decide))) ⟨?_, ?_, ?_, ?_, ?_⟩
        · exact (rd_wr_other _ _ (by decide)).trans ((rd_wr_other _ _ (by decide)).trans pends_accepted)
        · simp [State.on, setRingKeys, k]
        · exact (rd_wr_other _ _ (by decide)).trans (rd_wr_self ..)
        · exact rd_wr_self ..
        · simp [State.on, setRingKeys]
    case linkInstall =>
      intro hc hl k
      refine ⟨fun h => next_on ((linkKeyInstall_accepted ha hc hl).trans ?_), fun h => ?_⟩
      · rw [if_pos (by simp [h])]
      · have run := linkKeyInstall_accepted ha hc hl
        rw [if_neg (by simpa [Option.isNone_iff_eq_none] using h)] at run
        refine goes_on run ⟨finishes_setRingKeys _ hc, ?_⟩
        simp [State.on, setRingKeys, k]
    case spillDestroy =>
      intro hc hs hh
      refine goes_on (spillKeyDestroy_accepted ha hc hs hh) ⟨?_, ?_, ?_, ?_⟩
      · exact finishes_finishCmd (a := 0) (b := spillKeyGone (accepted s.dev acc 0x7000 0x43 0)) hc rfl .ok 0
      · simp [State.on, spillKeyGone]
      · refine (rd_finishCmd_other _ _ _ (by decide)).trans (rd_wr_self ..)
      · simp [State.on, spillKeyGone]
    case linkDestroy =>
      intro hc hp
      refine goes_on (linkKeyDestroy_accepted ha hc hp) ⟨finishes_setRingKeys _ hc, ?_⟩
      simp [State.on, setRingKeys]
  case switch =>
    intro s acc k ha hc hk
    refine goes_on (linkKeySwitch_accepted ha hc hk) ⟨finishes_setRingKeys _ hc, ?_⟩
    simp [State.on, setRingKeys, hk]
  case grace =>
    intro s
    exact ⟨fun h => next_on (b := linkGraceOver s.dev) (if_pos h), fun h => next_on (b := linkGraceOver s.dev) (b' := s.dev) (if_neg (by simp [h]))⟩

end Sys2Proof.Machine
end

section
/-! SUPPORT. Steps submitted (O54). -/

namespace Sys2Proof.Machine

/-! Steps submitted (11 R345-R348) -/

section
variable {b : Block} {vf q pid : Nat} {w : Word} {b' : Block} (hd : doorbell b vf q (fun _ => 8) = (b', some pid))
include hd

theorem stepDoorbell_tail (hw : w.toNat < 65536) (hr : w.toNat < stepRingSize b' pid q) : stepDoorbell b vf q w
    = ringFetch (wr (wr b' (0x8100 + pid) (ringSub q 3) w.toNat) (0x8100 + pid) (ringSub q 4) 0) pid q := by
  have low : bits w.toNat 0 16 = w.toNat := by simp only [bits_eq]; omega
  unfold stepDoorbell
  rw [hd]
  dsimp only
  rw [low, zeroBits_of_lt (k := 16) hw (by decide), if_neg (by simp; omega)]

theorem stepDoorbell_bad (h : 65536 ≤ w.toNat ∨ stepRingSize b' pid q ≤ w.toNat) : stepDoorbell b vf q w = doorbellDiscard b' pid := by
  have bad : (!zeroBits w.toNat 16 48 || decide (stepRingSize b' pid q ≤ bits w.toNat 0 16)) = true := by
    have lt := w.isLt
    by_cases hw : w.toNat < 65536
    · have low : bits w.toNat 0 16 = w.toNat := by simp only [bits_eq]; omega
      simp [low, h.resolve_left (by omega)]
    · have high : zeroBits w.toNat 16 48 = false := by
        simp only [zeroBits, bits_eq, beq_eq_false_iff_ne]
        omega
      simp [high]
  unfold stepDoorbell
  rw [hd]
  exact if_pos bad

end

section
variable {b : Block} {es : Nat} {d : Bytes}

theorem submission_buffered {x : Step} (ht : stationTakes b es) (hs : served b (uES es) = true)
    (hx : (station b es).step.bind (stepOf b) = some x) (hr : x.started = true) : submission b es d
      = setStation b es { station b es with subs := (station b es).subs ++ [⟨x.pid, d.val % 2 ^ 512⟩] } := by
  obtain ⟨present, awake, ready⟩ := ht
  unfold submission
  dsimp only
  rw [if_neg (by simp [esServed, present, awake, ready, hs]), hx]
  exact if_pos hr

theorem submission_stray (ht : stationTakes b es) (hs : served b (uES es) = true)
    (hx : ∀ x, (station b es).step.bind (stepOf b) = some x → x.started = false) : submission b es d = count b 0x8000 0x13 := by
  obtain ⟨present, awake, ready⟩ := ht
  unfold submission
  dsimp only
  rw [if_neg (by simp [esServed, present, awake, ready, hs])]
  split
  · next x e => rw [if_neg (by simp [hx x e])]
  · rfl

theorem submission_notReady (h : eqReady b es = false) : submission b es d = b := if_pos (by simp [h])

end

section
variable {b : Block} {pid d list : Nat} {rst : Status}

/-- The ranges a submitted step declares. -/
def rangesRead (d : Nat) (rst : Status) (list : Nat) : List Nat := if rst = .ok && sNRanges d ≤ 16 then rangeList d list else []

/-- The step that a legal submission adds. -/
def newStep (b : Block) (pid d : Nat) (rst : Status) (list : Nat) : Step :=
  { num := b.cha.nextStep, pid := pid, queue := sQueue d, ctx := ctxNow b pid (sCx d), desc := d, ranges := rangesRead d rst list
    seq := look b.cha.seqs 0 pid, st := .queued, kills := 0, clusters := [], before := [], committed := [], since := 0
    cycles := 0, energy := 0, kill := none, left := [], past := false, displaced := false, overrun := 0 }

theorem submitStep_closed (ho : ctxOpen b pid (sCx d) = false) : submitStep b pid d rst list = count b 0x8000 0x13 :=
  if_pos (by simp [ho])

theorem submitStep_queued (ho : ctxOpen b pid (sCx d) = true) (hf : stepFault b pid d rst (rangesRead d rst list) = none) :
    submitStep b pid d rst list = { b with cha := { b.cha with
      nextStep := b.cha.nextStep + 1
      steps := b.cha.steps ++ [newStep b pid d rst list]
      seqs := store b.cha.seqs 0 pid ((look b.cha.seqs 0 pid + 1) % 2 ^ 32) } } := by
  have same : stepFault { b with cha := { b.cha with nextStep := b.cha.nextStep + 1 } } pid d rst (rangesRead d rst list) = none := hf
  unfold submitStep
  rw [if_neg (by simp [ho])]
  rw [rangesRead] at same
  dsimp only
  rw [same]
  rfl

theorem submitStep_failed {st : Status} (ho : ctxOpen b pid (sCx d) = true) (hf : stepFault b pid d rst (rangesRead d rst list) = some st) :
    submitStep b pid d rst list
      = (let c := { b with cha := { b.cha with nextStep := b.cha.nextStep + 1 } }
        stepResult (if st = .conflict then count c (0x8100 + pid) 0x0C else c) b.cha.nextStep pid (ctxNow b pid (sCx d)) d 0 0 0 st) := by
  have same : stepFault { b with cha := { b.cha with nextStep := b.cha.nextStep + 1 } } pid d rst (rangesRead d rst list) = some st := hf
  unfold submitStep
  rw [if_neg (by simp [ho])]
  rw [rangesRead] at same
  dsimp only
  rw [same]

end

section
variable {b c : Block} {pid q : Nat} {desc ranges : Answer} {segs : List Seg} {st : Status} {d : Nat}
  (hr : find? b.cha.rings (ringKey pid q) = some segs) (hs : segs ≠ []) (ha : arrive b ⟨.stepDesc, pid, q⟩ segs desc 64 = some (c, st, d))
include hr hs ha

theorem descTaken_answered : descTaken b pid q desc ranges
    = if st ≠ .ok then wr (setRing c pid q none) (0x8100 + pid) (ringSub q 4) (statusCode st)
      else if !stepRoom b pid then setRing c pid q none
      else match readRanges b pid d ⟨.stepRanges, pid * 8 + q, 0⟩ ranges with
        | (e, none) => e
        | (e, some (rst, list)) =>
          match arrive e ⟨.stepDesc, pid, q⟩ segs desc 64 with
          | none => e
          | some (f, _, _) =>
            ringFetch (submitStep (wr (setRing f pid q none) (0x8100 + pid) (ringSub q 2)
              ((ringRd f pid q 2 + 1) % stepRingSize f pid q)) pid d rst list) pid q := by
  unfold descTaken
  rw [hr]
  split
  · contradiction
  · next e => exact absurd (Option.some.inj e) hs
  · next segs' _ e =>
    cases Option.some.inj e
    rw [ha] <;> rfl

end

theorem submissionForward_goes {b c : Block} {es : Nat} {ranges : Answer} {u : Sub} {rest : List Sub} {rst : Status} {list : Nat}
    (hu : (station b es).subs = u :: rest) (hr : fetchRoom b u.pid = true) (hs : served b uChanter = true)
    (hd : readRanges b u.pid u.desc ⟨.stepRanges, es, 2⟩ ranges = (c, some (rst, list))) : submissionForward b es ranges
      = submitStep (onStationES c es fun x => { x with subs := rest }) u.pid u.desc rst list := by
  unfold submissionForward
  rw [hu]
  dsimp only
  rw [if_neg (by simp [hr, hs]), hd]

theorem submissionForward_waits {b : Block} {es : Nat} {ranges : Answer}
    (h : ∀ u, (station b es).subs.head? = some u → fetchRoom b u.pid = false ∨ served b uChanter = false) :
    submissionForward b es ranges = b := by
  unfold submissionForward
  split
  · rfl
  · next u rest e =>
    refine if_pos ?_
    rcases h u (by rw [e]; rfl) with h | h <;> simp [h]

/-- Settles O54: each row by what it finds of its ring, station or step. -/
theorem stepsAreSubmittedCheckedAndQueued : Obligations.StepsAreSubmittedCheckedAndQueued := by
  refine ⟨?doorbell, ?descriptor, ?submission, ?notReady, ?forward, ?waits, ?check⟩
  case doorbell =>
    intro s vf q pid w b hw hd
    exact ⟨fun hv hr => next_on ((wakeEvent_awake hw ..).trans (stepDoorbell_tail hd hv hr)),
      fun h => next_on ((wakeEvent_awake hw ..).trans (stepDoorbell_bad hd h))⟩
  case descriptor =>
    intro s pid q desc ranges segs c st d hr hs ha
    have run := descTaken_answered (ranges := ranges) hr hs ha
    refine ⟨fun h => next_on (run.trans (if_pos h)), fun h hm => next_on (run.trans ?_), fun h hm e he => next_on (run.trans ?_),
      fun h hm e rst list f st2 d2 he hf => next_on (run.trans ?_)⟩
    · rw [if_neg (by simp [h])]
      exact if_pos (by simp [hm])
    · rw [if_neg (by simp [h]), if_neg (by simp [hm]), he]
    · rw [if_neg (by simp [h]), if_neg (by simp [hm]), he]
      dsimp only
      rw [hf]
  case submission =>
    intro s es d hw ht hs now
    exact ⟨fun x hx hr => next_on ((wakeEvent_awake hw ..).trans (submission_buffered ht hs hx hr)),
      fun hx => next_on ((wakeEvent_awake hw ..).trans (submission_stray ht hs hx))⟩
  case notReady =>
    intro s es d hw h
    exact next_on (b := wakeEvent s.dev 4 (.submission es d) fun b => submission b es d) (b' := s.dev)
      ((wakeEvent_awake hw ..).trans (submission_notReady h))
  case forward =>
    intro s es ranges u rest c rst list hu hr hs hd
    exact next_on (submissionForward_goes hu hr hs hd)
  case waits =>
    intro s es ranges h
    exact next_on (b := submissionForward s.dev es ranges) (b' := s.dev) (submissionForward_waits h)
  case check =>
    intro b pid d rst list rs num c
    have same : rs = rangesRead d rst list := by simp [rs, rangesRead]
    refine ⟨submitStep_closed, fun ho hf => ?_, fun st ho hf => ?_⟩
    · rw [same] at hf
      intro t
      have run : t = _ := submitStep_queued ho hf
      refine ⟨⟨newStep b pid d rst list, by rw [run], rfl, rfl, rfl, rfl, rfl, same.symm, rfl, rfl, rfl⟩, ?_, ?_⟩
      · rw [run]
        exact look_store_self ..
      · rw [run]
    · rw [same] at hf
      exact submitStep_failed ho hf

end Sys2Proof.Machine
end

section
/-! SUPPORT. What leaves the units' domains unchanged. -/

namespace Sys2Proof.Machine

/-! What leaves the units' domains unchanged -/

@[simp] theorem dropHolders_fcu_doms (b : Block) (p : Holder → Bool) : (dropHolders b p).fcu.doms = b.fcu.doms := by
  unfold dropHolders
  simp

@[simp] theorem settle_fcu_doms (b : Block) (h : Holder) : (settle b h).fcu.doms = b.fcu.doms := by unfold settle; simp

@[simp] theorem pumpInv_fcu_doms (b : Block) : (pumpInv b).fcu.doms = b.fcu.doms := by unfold pumpInv; simp

@[simp] theorem settleTile_fcu_doms (b : Block) (h : Holder) : (settleTile b h).fcu.doms = b.fcu.doms := by
  unfold settleTile
  simp

@[simp] theorem dropPieces_fcu_doms (b : Block) (h : Holder) (segs : List Seg) :
    (dropPieces b h segs).fcu.doms = b.fcu.doms := by
  unfold dropPieces
  simp

@[simp] theorem abandon_fcu_doms (b : Block) (h : Holder) (segs : List Seg) :
    (abandon b h segs).fcu.doms = b.fcu.doms := by
  unfold abandon
  simp

@[simp] theorem abortDoneAs_fcu_doms (b : Block) (a : Option AbortReq) (detail : Nat) :
    (abortDoneAs b a detail).fcu.doms = b.fcu.doms := by
  unfold abortDoneAs
  (repeat' split) <;> simp

@[simp] theorem onGroup_fcu_doms (b : Block) (pid g : Nat) (f : Group → Group) :
    (onGroup b pid g f).fcu.doms = b.fcu.doms := by
  unfold onGroup
  simp

@[simp] theorem waitTag_fcu_doms (b : Block) (w : TagWait) : (waitTag b w).fcu.doms = b.fcu.doms := by
  unfold waitTag
  simp [apply_ite Block.fcu]

@[simp] theorem writeBytes_fcu_doms (b : Block) (a v : Nat) (x' : Nat) : (writeBytes b a v x').fcu.doms = b.fcu.doms := by
  fun_induction writeBytes <;> simp_all

@[simp] theorem writeMem_fcu_doms (b : Block) (pa v len : Nat) : (writeMem b pa v len).fcu.doms = b.fcu.doms := by
  unfold writeMem
  simp

@[simp] theorem disturb_fcu_doms (b : Block) (pa len : Nat) : (disturb b pa len).fcu.doms = b.fcu.doms := by
  unfold disturb
  grind [foldl_fcu_doms, foldl_fst_fcu_doms, writeMem_fcu_doms, !draw_fcu]

@[simp] theorem present_fcu_doms (b : Block) (o : Out) : (present b o).fcu.doms = b.fcu.doms := by
  unfold present
  (repeat' split) <;> simp

@[simp] theorem grantTag_fcu_doms (b : Block) (w : TagWait) : (grantTag b w).fcu.doms = b.fcu.doms := by
  unfold grantTag
  simp

@[simp] theorem underTag_fcu_doms (b : Block) (w : TagWait) (f : Block → Block) (hf : ∀ b, (f b).fcu.doms = b.fcu.doms) :
    (underTag b w f).fcu.doms = b.fcu.doms := by
  unfold underTag
  (repeat' split) <;> simp [*]

@[simp] theorem onQp_fcu_doms (b : Block) (i : Nat) (f : Qp → Qp) : (onQp b i f).fcu.doms = b.fcu.doms := by
  unfold onQp
  simp

@[simp] theorem startTimers_fcu_doms (b : Block) (t : Tx) : (startTimers b t).fcu.doms = b.fcu.doms := by
  unfold startTimers
  (repeat' split) <;> simp

@[simp] theorem noteWait_fcu_doms (b : Block) (t : Tx) : (noteWait b t).1.fcu.doms = b.fcu.doms := by
  unfold noteWait
  (repeat' split) <;> simp

@[simp] theorem hold_fcu_doms (b : Block) (t : Tx) : (hold b t).fcu.doms = b.fcu.doms := by unfold hold; simp

@[simp] theorem enqueue_fcu_doms (b : Block) (t : Tx) : (enqueue b t).fcu.doms = b.fcu.doms := by
  unfold enqueue
  grind [setPort_fcu, startTimers_fcu_doms, !noteWait_fcu_doms, hold_fcu_doms]

@[simp] theorem issue_fcu_doms (b : Block) (w : TagWait) : (issue b w).fcu.doms = b.fcu.doms := by
  unfold issue
  (repeat' split) <;> simp

@[simp] theorem takeFrame_fcu_doms (b : Block) (i psn : Nat) : (takeFrame b i psn).1.fcu.doms = b.fcu.doms := by
  unfold takeFrame
  grind [issue_fcu_doms]

@[simp] theorem sendPump_fcu_doms (b : Block) (i : Nat) (x' : Nat) : (sendPump b i x').fcu.doms = b.fcu.doms := by
  fun_induction sendPump <;> grind [enqueue_fcu_doms, setQp_fcu, !takeFrame_fcu_doms]

@[simp] theorem startMsg_fcu_doms (b : Block) (i : Nat) (m : SendMsg) : (startMsg b i m).fcu.doms = b.fcu.doms := by
  unfold startMsg
  simp

@[simp] theorem startAsks_fcu_doms (b : Block) (i : Nat) (x' : Nat) : (startAsks b i x').fcu.doms = b.fcu.doms := by
  fun_induction startAsks <;> simp_all

@[simp] theorem advance_fcu_doms (b : Block) (i : Nat) : (advance b i).fcu.doms = b.fcu.doms := by unfold advance; simp

@[simp] theorem putReply_fcu_doms (b : Block) (r : Reply) : (putReply b r).fcu.doms = b.fcu.doms := by
  unfold putReply
  simp [apply_ite Block.fcu]

@[simp] theorem remoteSend_fcu_doms (b : Block) (i key : Nat) (h : Holder) (c : Ctx) (op pa len data poison operand compare : Nat) :
    (remoteSend b i key h c op pa len data poison operand compare).fcu.doms = b.fcu.doms := by
  unfold remoteSend
  (repeat' split) <;> simp

@[simp] theorem raiseEvent_fcu_doms (b : Block) (e : Event) : (raiseEvent b e).fcu.doms = b.fcu.doms := by
  unfold raiseEvent
  (repeat' split) <;> simp

@[simp] theorem raise_fcu_doms (b : Block) (fsrc unit pid addr detail : Nat) :
    (raise b fsrc unit pid addr detail).fcu.doms = b.fcu.doms := by
  unfold raise
  simp

@[simp] theorem raiseFree_fcu_doms (b : Block) (fsrc unit pid : Nat) :
    (raiseFree b fsrc unit pid).fcu.doms = b.fcu.doms := by
  unfold raiseFree
  simp

@[simp] theorem secAlarm_fcu_doms (b : Block) (cause : Nat) (ps : List Nat) (pp level unit : Nat) :
    (secAlarm b cause ps pp level unit).fcu.doms = b.fcu.doms := by
  unfold secAlarm
  simp

@[simp] theorem countSat_fcu_doms (b : Block) (idx sub w ovIdx ovSub bit unit pid : Nat) :
    (countSat b idx sub w ovIdx ovSub bit unit pid).fcu.doms = b.fcu.doms := by
  unfold countSat
  grind [raiseFree_fcu_doms, wr_fcu]

@[simp] theorem dirtyRecord_fcu_doms (b : Block) (pid addr source : Nat) :
    (dirtyRecord b pid addr source).fcu.doms = b.fcu.doms := by
  unfold dirtyRecord
  grind [setPart_fcu, count_fcu, emit_fcu, wr_fcu, countSat_fcu_doms]

@[simp] theorem dirtyPages_fcu_doms (b : Block) (pid addr source : Nat) (x' : Nat) :
    (dirtyPages b pid addr source x').fcu.doms = b.fcu.doms := by
  fun_induction dirtyPages <;> simp_all

@[simp] theorem hostWrite_fcu_doms (b : Block) (pid addr : Nat) (data : Bytes) (poison : Bool) (source : Nat) :
    (hostWrite b pid addr data poison source).fcu.doms = b.fcu.doms := by
  unfold hostWrite
  dsimp only
  split
  · rfl
  · rw [dirtyPages_fcu_doms]; rfl

@[simp] theorem writePoison_fcu_doms (b : Block) (pid key line major minor : Nat) :
    (writePoison b pid key line major minor).fcu.doms = b.fcu.doms := by
  unfold writePoison
  simp

@[simp] theorem writeLine_fcu_doms (b : Block) (pid key line major minor data : Nat) (poison : Bool) :
    (writeLine b pid key line major minor data poison).fcu.doms = b.fcu.doms := by
  unfold writeLine
  simp

@[simp] theorem putLine_fcu_doms (b : Block) (pid line : Nat) (leaf : TreeNode) (data : Nat) (poison : Bool) :
    (putLine b pid line leaf data poison).fcu.doms = b.fcu.doms := by
  unfold putLine
  simp

@[simp] theorem injectEventAt_fcu_doms (b : Block) (fsrc unit site pid addr word : Nat) :
    (injectEventAt b fsrc unit site pid addr word).fcu.doms = b.fcu.doms := by
  unfold injectEventAt
  simp

@[simp] theorem checkFlit_fcu_doms (b : Block) (unit site pid addr : Nat) :
    (checkFlit b unit site pid addr).1.fcu.doms = b.fcu.doms := by
  unfold checkFlit
  (repeat' split) <;> simp

@[simp] theorem checkFlits_fcu_doms (b : Block) (unit site pid addr : Nat) (x' : Nat) :
    (checkFlits b unit site pid addr x').1.fcu.doms = b.fcu.doms := by
  fun_induction checkFlits <;> grind [!checkFlit_fcu_doms]

@[simp] theorem checkPath_fcu_doms (b : Block) (pid addr n : Nat) (way : List (Nat × Nat)) :
    (checkPath b pid addr n way).1.fcu.doms = b.fcu.doms := by
  unfold checkPath
  simp

@[simp] theorem endLine_fcu_doms (b : Block) (l : LineOp) (st : Status) (data : Nat) :
    (endLine b l st data).fcu.doms = b.fcu.doms := by
  unfold endLine
  grind [setOp_fcu, putReply_fcu_doms, !checkPath_fcu_doms, settle_fcu_doms]

@[simp] theorem lineServe_fcu_doms (b : Block) (l : LineOp) (o : SpillOp) (x : TreeNode) (a : LineAnswer) :
    (lineServe b l o x a).fcu.doms = b.fcu.doms := by
  unfold lineServe
  grind [secAlarm_fcu_doms, writePoison_fcu_doms, count_fcu, putLine_fcu_doms, endLine_fcu_doms]

@[simp] theorem askLine_fcu_doms (b : Block) (l : LineOp) (o : SpillOp) : (askLine b l o).fcu.doms = b.fcu.doms := by
  unfold askLine
  simp

@[simp] theorem lineDo_fcu_doms (b : Block) (l : LineOp) (o : SpillOp) (x : TreeNode) :
    (lineDo b l o x).fcu.doms = b.fcu.doms := by
  unfold lineDo
  grind [lineServe_fcu_doms, askLine_fcu_doms, putLine_fcu_doms, markLine_fcu, settle_fcu_doms, endLine_fcu_doms]

@[simp] theorem fenceSpill_fcu_doms (b : Block) (ps : List Nat) : (fenceSpill b ps).fcu.doms = b.fcu.doms := by
  unfold fenceSpill
  simp [apply_ite Block.fcu]

@[simp] theorem condemn_fcu_doms (b : Block) (cause l n : Nat) : (condemn b cause l n).fcu.doms = b.fcu.doms := by
  unfold condemn
  (repeat' split) <;> simp

@[simp] theorem nodeUse_fcu_doms (b : Block) (l n pid : Nat) : (nodeUse b l n pid).1.fcu.doms = b.fcu.doms := by
  unfold nodeUse
  grind [condemn_fcu_doms, !checkFlit_fcu_doms]

@[simp] theorem fetchNodes_fcu_doms (b : Block) (l : List (Nat × Nat)) : (fetchNodes b l).fcu.doms = b.fcu.doms := by
  unfold fetchNodes
  grind [foldl_fcu_doms, foldl_fst_fcu_doms, issue_fcu_doms, count_fcu]

@[simp] theorem fetchPath_fcu_doms (b : Block) (leaf : Nat) : (fetchPath b leaf).fcu.doms = b.fcu.doms := by
  unfold fetchPath
  simp

@[simp] theorem lineLost_fcu_doms (b : Block) (l : LineOp) (o : SpillOp) : (lineLost b l o).fcu.doms = b.fcu.doms := by
  unfold lineLost
  simp

@[simp] theorem lineStep_fcu_doms (b : Block) (l : LineOp) : (lineStep b l).fcu.doms = b.fcu.doms := by
  unfold lineStep
  grind [lineDo_fcu_doms, !nodeUse_fcu_doms, markLine_fcu, issue_fcu_doms, askLine_fcu_doms, fetchPath_fcu_doms, lineLost_fcu_doms]

@[simp] theorem pumpLines_fcu_doms (b : Block) (n : Nat) : (pumpLines b n).fcu.doms = b.fcu.doms := by
  induction n generalizing b with
  | zero => rfl
  | succ n ih =>
    have once : (b.ssu.lines.foldl (fun b l => if b.ssu.lines.contains l then lineStep b l else b) b).fcu.doms = b.fcu.doms :=
      foldl_fcu_doms _ (fun b l => by split <;> simp) _ b
    unfold pumpLines
    dsimp only
    split
    · exact once
    · rw [ih, once]

@[simp] theorem bumpParent_fcu_doms (b : Block) (l n : Nat) : (bumpParent b l n).fcu.doms = b.fcu.doms := by
  unfold bumpParent
  (repeat' split) <;> simp

@[simp] theorem writeBack_fcu_doms (b : Block) (l n : Nat) (x : TreeNode) :
    (writeBack b l n x).fcu.doms = b.fcu.doms := by
  unfold writeBack
  simp

@[simp] theorem resetLeaf_fcu_doms (b : Block) (leaf : Nat) (x : TreeNode) :
    (resetLeaf b leaf x).fcu.doms = b.fcu.doms := by
  unfold resetLeaf
  (repeat' split) <;> simp

@[simp] theorem rootUse_fcu_doms (b : Block) : (rootUse b).1.fcu.doms = b.fcu.doms := by
  unfold rootUse
  (repeat' split) <;> simp

@[simp] theorem parentUse_fcu_doms (b : Block) (l n : Nat) : (parentUse b l n).1.fcu.doms = b.fcu.doms := by
  unfold parentUse
  (repeat' split) <;> simp

@[simp] theorem resetOn_fcu_doms (b : Block) (pid k : Nat) (x' : Nat) : (resetOn b pid k x').fcu.doms = b.fcu.doms := by
  fun_induction resetOn <;> grind [fetchPath_fcu_doms, resetLeaf_fcu_doms, !parentUse_fcu_doms]

@[simp] theorem pumpResets_fcu_doms (b : Block) : (pumpResets b).fcu.doms = b.fcu.doms := by unfold pumpResets; simp

@[simp] theorem pumpSpill_fcu_doms (b : Block) : (pumpSpill b).fcu.doms = b.fcu.doms := by unfold pumpSpill; simp

@[simp] theorem guardRecord_fcu_doms (b : Block) (unit pa : Nat) (c : Ctx) (reason : Nat) (cls : SrcClass) (ownerPid : Nat) :
    (guardRecord b unit pa c reason cls ownerPid).fcu.doms = b.fcu.doms := by
  unfold guardRecord
  simp [apply_ite Block.fcu]

@[simp] theorem spillAccess_fcu_doms (b : Block) (h : Holder) (c : Ctx) (off len : Nat) (write : Bool) (data poison : Nat) :
    (spillAccess b h c off len write data poison).fcu.doms = b.fcu.doms := by
  unfold spillAccess
  grind [pumpSpill_fcu_doms, addTo_fcu, !checkPath_fcu_doms, guardRecord_fcu_doms, putReply_fcu_doms]

@[simp] theorem sendPieces_fcu_doms (b : Block) (h : Holder) (c : Ctx) (write : Bool) (x' : Nat) (y' : Nat) (z' : Nat) (w' : List Seg) :
    (sendPieces b h c write x' y' z' w').fcu.doms = b.fcu.doms := by
  fun_induction sendPieces <;> grind [remoteSend_fcu_doms, spillAccess_fcu_doms, dropReply_fcu]

@[simp] theorem hostPieces_fcu_doms (b : Block) (pid source : Nat) (x' : Nat) (y' : Nat) (z' : List Seg) :
    (hostPieces b pid source x' y' z').fcu.doms = b.fcu.doms := by
  fun_induction hostPieces <;> grind [hostWrite_fcu_doms]

@[simp] theorem checkData_fcu_doms (b : Block) (c : Ctx) (segs : List Seg) (len : Nat) (way : List (Nat × Nat)) :
    (checkData b c segs len way).1.fcu.doms = b.fcu.doms := by
  unfold checkData
  simp

@[simp] theorem putPieces_fcu_doms (b : Block) (a : Asker) (c : Ctx) (data : Bytes) (poison source : Nat) (segs : List Seg) :
    (putPieces b a c data poison source segs).fcu.doms = b.fcu.doms := by
  unfold putPieces
  simp

@[simp] theorem faultRecord_fcu_doms (b : Block) (a : Asker) (c : Ctx) (op : Access4) (va cause level : Nat) :
    (faultRecord b a c op va cause level).fcu.doms = b.fcu.doms := by
  unfold faultRecord
  simp

@[simp] theorem checkWord_fcu_doms (b : Block) (unit site pid addr word : Nat) :
    (checkWord b unit site pid addr word).1.fcu.doms = b.fcu.doms := by
  unfold checkWord
  (repeat' split) <;> simp

@[simp] theorem msAdmit_fcu_doms (b : Block) (pa : Nat) (c : Ctx) (cls : SrcClass) :
    (msAdmit b pa c cls).1.fcu.doms = b.fcu.doms := by
  unfold msAdmit
  grind [guardRecord_fcu_doms, !checkWord_fcu_doms]

@[simp] theorem admitSegs_fcu_doms (b : Block) (c : Ctx) (cls : SrcClass) (x' : List Seg) :
    (admitSegs b c cls x').1.fcu.doms = b.fcu.doms := by
  fun_induction admitSegs <;> grind [!msAdmit_fcu_doms]

@[simp] theorem pointRefusal_fcu_doms (b : Block) (a : Asker) (c : Ctx) (pa reason : Nat) :
    (pointRefusal b a c pa reason).fcu.doms = b.fcu.doms := by
  unfold pointRefusal
  simp

@[simp] theorem newTile_fcu_doms (b : Block) (segs : List Seg) : (newTile b segs).1.fcu.doms = b.fcu.doms := by
  unfold newTile
  simp

@[simp] theorem remoteRefusal_fcu_doms (b : Block) (a : Asker) (c : Ctx) (op : Access4) (va pa : Nat) :
    (remoteRefusal b a c op va pa).fcu.doms = b.fcu.doms := by
  unfold remoteRefusal
  grind [guardRecord_fcu_doms, faultRecord_fcu_doms]

@[simp] theorem fill_fcu_doms (b : Block) (l : List TEntry) (cap : Nat) (e : TEntry) :
    (fill b l cap e).2.fcu.doms = b.fcu.doms := by
  unfold fill
  grind [!draw_fcu]

@[simp] theorem fillES_fcu_doms (b : Block) (es : Nat) (e : TEntry) : (fillES b es e).fcu.doms = b.fcu.doms := by
  unfold fillES
  simp

@[simp] theorem fillShared_fcu_doms (b : Block) (e : TEntry) : (fillShared b e).fcu.doms = b.fcu.doms := by
  unfold fillShared
  simp

@[simp] theorem progressedBy_fcu_doms (b : Block) (unit n : Nat) : (progressedBy b unit n).fcu.doms = b.fcu.doms := by
  unfold progressedBy
  simp

@[simp] theorem progressed_fcu_doms (b : Block) (unit : Nat) : (progressed b unit).fcu.doms = b.fcu.doms := by
  unfold progressed
  simp

@[simp] theorem endWalkLeaf_fcu_doms (b : Block) (w : Walk) (e : TEntry) (used : List TEntry) :
    (endWalkLeaf b w e used).fcu.doms = b.fcu.doms := by
  unfold endWalkLeaf
  grind [foldl_fcu_doms, foldl_fst_fcu_doms, fillES_fcu_doms, fillShared_fcu_doms, settle_fcu_doms, dropWalk_fcu, progressed_fcu_doms]

@[simp] theorem endWalkFault_fcu_doms (b : Block) (w : Walk) (st : Status) (cause level : Nat) :
    (endWalkFault b w st cause level).fcu.doms = b.fcu.doms := by
  unfold endWalkFault
  simp

@[simp] theorem walkAdvance_fcu_doms (b : Block) (w : Walk) : (walkAdvance b w).1.fcu.doms = b.fcu.doms := by
  unfold walkAdvance
  grind [setWalk_fcu, issue_fcu_doms, !msAdmit_fcu_doms, endWalkLeaf_fcu_doms, endWalkFault_fcu_doms]

@[simp] theorem startWalk_fcu_doms (b : Block) (c : Ctx) (va : Nat) (a : Asker) :
    (startWalk b c va a).1.fcu.doms = b.fcu.doms := by
  unfold startWalk
  simp

@[simp] theorem miss_fcu_doms (b : Block) (c : Ctx) (va : Nat) (a : Asker) : (miss b c va a).fcu.doms = b.fcu.doms := by
  unfold miss
  (repeat' split) <;> simp

@[simp] theorem lookup_fcu_doms (b : Block) (a : Asker) (c : Ctx) (va : Nat) :
    (lookup b a c va).1.fcu.doms = b.fcu.doms := by
  unfold lookup
  grind [fillES_fcu_doms, !checkWord_fcu_doms, count_fcu]

@[simp] theorem takeFault_fcu_doms (b : Block) (a : Asker) (c : Ctx) (va : Nat) :
    (takeFault b a c va).1.fcu.doms = b.fcu.doms := by
  unfold takeFault
  grind []

@[simp] theorem pages_fcu_doms (b : Block) (a : Asker) (c : Ctx) (op : Access4) (x' : Nat) (y' : Nat) (z' : List Seg) (w' : Nat) :
    (pages b a c op x' y' z' w').1.fcu.doms = b.fcu.doms := by
  fun_induction pages <;> grind [miss_fcu_doms, !lookup_fcu_doms, !takeFault_fcu_doms]

@[simp] theorem xlate_fcu_doms (b : Block) (a : Asker) (c : Ctx) (va len : Nat) (op : Access4) (remote : Bool) :
    (xlate b a c va len op remote).1.fcu.doms = b.fcu.doms := by
  unfold xlate
  grind [pointRefusal_fcu_doms, !newTile_fcu_doms, faultRecord_fcu_doms, remoteRefusal_fcu_doms, !pages_fcu_doms]

@[simp] theorem prepare_fcu_doms (b : Block) (a : Asker) (c : Ctx) (va len : Nat) (op : Access4) (remote : Bool) :
    (prepare b a c va len op remote).1.fcu.doms = b.fcu.doms := by
  unfold prepare
  grind [faultRecord_fcu_doms, !admitSegs_fcu_doms, !xlate_fcu_doms]

@[simp] theorem prepareRun_fcu_doms (b : Block) (a : Asker) (c : Ctx) (op : Access4) (x' : Nat) (y' : Nat) (z' : List Seg) (w' : Nat) :
    (prepareRun b a c op x' y' z' w').1.fcu.doms = b.fcu.doms := by
  fun_induction prepareRun <;> grind [!prepare_fcu_doms]

@[simp] theorem writeNow_fcu_doms (b : Block) (a : Asker) (c : Ctx) (va : Nat) (data : Bytes) (poison source : Nat) :
    (writeNow b a c va data poison source).1.fcu.doms = b.fcu.doms := by
  unfold writeNow
  grind [waitTag_fcu_doms, underTag_fcu_doms, putPieces_fcu_doms, !prepareRun_fcu_doms]

@[simp] theorem writeRecord_fcu_doms (b : Block) (pid g rec : Nat) :
    (writeRecord b pid g rec).1.fcu.doms = b.fcu.doms := by
  unfold writeRecord
  grind [onGroup_fcu_doms, !writeNow_fcu_doms]

@[simp] theorem failRecord_fcu_doms (b : Block) (pid g : Nat) (st : Status) :
    (failRecord b pid g st).fcu.doms = b.fcu.doms := by
  unfold failRecord
  grind [!writeRecord_fcu_doms]

@[simp] theorem chanOff_fcu_doms (b : Block) (c : Nat) : (chanOff b c).fcu.doms = b.fcu.doms := by unfold chanOff; simp

@[simp] theorem take_fcu_doms (b : Block) (a : Asker) (c : Ctx) (segs : List Seg) (outs : List Out) :
    (take b a c segs outs).fcu.doms = b.fcu.doms := by
  unfold take
  (repeat' split) <;> simp

@[simp] theorem goWrite_fcu_doms (b : Block) (a : Asker) (c : Ctx) (data : Bytes) (poison source : Nat) (segs : List Seg) :
    (goWrite b a c data poison source segs).fcu.doms = b.fcu.doms := by
  unfold goWrite
  simp

@[simp] theorem goRead_fcu_doms (b : Block) (a : Asker) (c : Ctx) (segs : List Seg) :
    (goRead b a c segs).fcu.doms = b.fcu.doms := by
  unfold goRead
  simp

@[simp] theorem startRead_fcu_doms (b : Block) (a : Asker) (c : Ctx) (va len : Nat) (remote : Bool) :
    (startRead b a c va len remote).1.fcu.doms = b.fcu.doms := by
  unfold startRead
  grind [goRead_fcu_doms, !prepare_fcu_doms]

@[simp] theorem paceRequest_fcu_doms (b : Block) (l : Nat) : (paceRequest b l).fcu.doms = b.fcu.doms := by
  unfold paceRequest
  (repeat' split) <;> simp

@[simp] theorem keyDone_fcu_doms (b : Block) (k : Nat) : (keyDone b k).fcu.doms = b.fcu.doms := by unfold keyDone; simp

@[simp] theorem dropFrames_fcu_doms (b : Block) (p : Tx → Bool) : (dropFrames b p).fcu.doms = b.fcu.doms := by
  unfold dropFrames
  simp

@[simp] theorem killStation_fcu_doms (b : Block) (es : Nat) : (killStation b es).fcu.doms = b.fcu.doms := by
  unfold killStation
  simp

@[simp] theorem onStationES_fcu_doms (b : Block) (es : Nat) (f : Station → Station) :
    (onStationES b es f).fcu.doms = b.fcu.doms := by
  unfold onStationES
  simp

@[simp] theorem killStep_fcu_doms (b : Block) (s : Step) (k : KillEnd) : (killStep b s k).fcu.doms = b.fcu.doms := by
  unfold killStep
  grind [foldl_fcu_doms, foldl_fst_fcu_doms, killStation_fcu_doms, onStationES_fcu_doms, count_fcu, setStep_fcu]

@[simp] theorem flushCheck_fcu_doms (b : Block) (pid : Nat) : (flushCheck b pid).fcu.doms = b.fcu.doms := by
  unfold flushCheck
  (repeat' split) <;> simp

@[simp] theorem flushNote_fcu_doms (b : Block) (s : Step) : (flushNote b s).fcu.doms = b.fcu.doms := by
  unfold flushNote
  (repeat' split) <;> simp

@[simp] theorem setRing_fcu_doms (b : Block) (pid q : Nat) (l : Option (List Seg)) :
    (setRing b pid q l).fcu.doms = b.fcu.doms := by
  unfold setRing
  simp

@[simp] theorem ringFetch_fcu_doms (b : Block) (pid q : Nat) : (ringFetch b pid q).fcu.doms = b.fcu.doms := by
  unfold ringFetch
  grind [setRing_fcu_doms, !startRead_fcu_doms, wr_fcu]

@[simp] theorem ringsGo_fcu_doms (b : Block) : (ringsGo b).fcu.doms = b.fcu.doms := by unfold ringsGo; simp

@[simp] theorem putResult_fcu_doms (b : Block) (r : StepResult) : (putResult b r).fcu.doms = b.fcu.doms := by
  unfold putResult
  grind [count_fcu, !writeNow_fcu_doms]

@[simp] theorem stepResult_fcu_doms (b : Block) (num pid : Nat) (c : Ctx) (d cycles energy kills : Nat) (st : Status) :
    (stepResult b num pid c d cycles energy kills st).fcu.doms = b.fcu.doms := by
  unfold stepResult
  simp [apply_ite Block.fcu]

@[simp] theorem endStep_fcu_doms (b : Block) (s : Step) (st : Status) : (endStep b s st).fcu.doms = b.fcu.doms := by
  have e : endStep b s st = ringsGo (flushNote (count (stepResult (dropStep b s.num) s.num s.pid s.ctx s.desc s.cycles s.energy s.kills st)
      (0x8100 + s.pid) 7) s) := rfl
  rw [e, ringsGo_fcu_doms, flushNote_fcu_doms, count_fcu, stepResult_fcu_doms, dropStep_fcu]

@[simp] theorem stopStep_fcu_doms (b : Block) (s : Step) (st : Status) : (stopStep b s st).fcu.doms = b.fcu.doms := by
  unfold stopStep
  (repeat' split) <;> simp

@[simp] theorem stopSteps_fcu_doms (b : Block) (p : Step → Bool) (st : Status) :
    (stopSteps b p st).fcu.doms = b.fcu.doms := by
  unfold stopSteps
  grind [foldl_fcu_doms, foldl_fst_fcu_doms, stopStep_fcu_doms]

@[simp] theorem emitRec_fcu_doms (b : Block) (kind pid index : Nat) (sync : Bool) (body : Bytes) :
    (emitRec b kind pid index sync body).fcu.doms = b.fcu.doms := by
  unfold emitRec
  simp [apply_ite Block.fcu]

@[simp] theorem mirrorNote_fcu_doms (b : Block) (kind pid index : Nat) (body : Bytes) :
    (mirrorNote b kind pid index body).fcu.doms = b.fcu.doms := by
  unfold mirrorNote
  (repeat' split) <;> simp

@[simp] theorem groupState_fcu_doms (b : Block) (pid g : Nat) (st : GState) :
    (groupState b pid g st).fcu.doms = b.fcu.doms := by
  unfold groupState
  simp

@[simp] theorem stopGroup_fcu_doms (b : Block) (pid g : Nat) : (stopGroup b pid g).fcu.doms = b.fcu.doms := by
  unfold stopGroup
  grind [finishCmd_fcu, groupState_fcu_doms, setGroup_fcu, dropHolders_fcu_doms, dropJobs_fcu, count_fcu]

@[simp] theorem endGroup_fcu_doms (b : Block) (pid g : Nat) (st : Status) (out : Bool) :
    (endGroup b pid g st out).fcu.doms = b.fcu.doms := by
  unfold endGroup
  grind [setGroup_fcu, msixPart_fcu, failRecord_fcu_doms, stopGroup_fcu_doms]

@[simp] theorem requeue_fcu_doms (b : Block) (p : Nat) : (requeue b p).fcu.doms = b.fcu.doms := by unfold requeue; simp

@[simp] theorem addDue_fcu_doms (b : Block) (i : Nat) (c : Cqe) : (addDue b i c).fcu.doms = b.fcu.doms := by
  unfold addDue
  simp

@[simp] theorem endRun_fcu_doms (b : Block) (s : Step) : (endRun b s).fcu.doms = b.fcu.doms := by
  unfold endRun
  simp [apply_ite Block.fcu]

@[simp] theorem killedRun_fcu_doms (b : Block) (s : Step) : (killedRun b s).fcu.doms = b.fcu.doms := by
  unfold killedRun
  simp

theorem expireStep_fcu_doms (st : Status) (b : Block) (s : Step) : (expireStep st b s).fcu.doms = b.fcu.doms := by
  have freed (b : Block) : (s.clusters.foldl (fun b k => onStationES b k fun x => { x with step := none }) b).fcu.doms = b.fcu.doms :=
    foldl_fcu_doms (fun b k => onStationES b k fun x => { x with step := none }) (fun _ _ => rfl) _ b
  unfold expireStep
  rw [endStep_fcu_doms, freed, killedRun_fcu_doms]

@[simp] theorem expireSteps_fcu_doms (b : Block) (pid : Nat) (st : Status) : (expireSteps b pid st).fcu.doms = b.fcu.doms := by
  rw [expireSteps_eq, foldl_fcu_doms _ (expireStep_fcu_doms st)]

@[simp] theorem failResults_fcu_doms (b : Block) (p : Ctx → Bool) : (failResults b p).fcu.doms = b.fcu.doms := by
  unfold failResults
  simp

@[simp] theorem nextEntropy_fcu_doms (b : Block) : (nextEntropy b).2.fcu.doms = b.fcu.doms := by
  unfold nextEntropy
  simp

@[simp] theorem chipTx_fcu_doms (b : Block) (typ chip ext n : Nat) (payload : Bytes) :
    (chipTx b typ chip ext n payload).fcu.doms = b.fcu.doms := by
  unfold chipTx
  simp

@[simp] theorem sendCredit_fcu_doms (b : Block) (chip : Nat) : (sendCredit b chip).fcu.doms = b.fcu.doms := by
  unfold sendCredit
  (repeat' split) <;> simp

@[simp] theorem grantUnits_fcu_doms (b : Block) (rose : List Nat) (x' : Nat) :
    (grantUnits b rose x').1.fcu.doms = b.fcu.doms := by
  fun_induction grantUnits <;> grind [setRx_fcu]

@[simp] theorem grantCredit_fcu_doms (b : Block) : (grantCredit b).fcu.doms = b.fcu.doms := by
  unfold grantCredit
  grind [foldl_fcu_doms, foldl_fst_fcu_doms, sendCredit_fcu_doms, !grantUnits_fcu_doms]

@[simp] theorem freeReserved_fcu_doms (b : Block) (n : Nat) : (freeReserved b n).fcu.doms = b.fcu.doms := by
  unfold freeReserved
  (repeat' split) <;> simp

@[simp] theorem noteQp_fcu_doms (b : Block) (i : Nat) : (noteQp b i).fcu.doms = b.fcu.doms := by
  unfold noteQp
  grind [setQp_fcu, mirrorNote_fcu_doms]

@[simp] theorem aliasDone_fcu_doms (b : Block) : (aliasDone b).fcu.doms = b.fcu.doms := by
  unfold aliasDone
  grind [foldl_fcu_doms, foldl_fst_fcu_doms, finishCmd_fcu, wr_fcu, setShadow_fcu]

@[simp] theorem freeFrames_fcu_doms (b : Block) (i : Nat) : (freeFrames b i).fcu.doms = b.fcu.doms := by
  unfold freeFrames
  simp

@[simp] theorem toReset_fcu_doms (b : Block) (i : Nat) : (toReset b i).fcu.doms = b.fcu.doms := by unfold toReset; simp

@[simp] theorem finishQp_fcu_doms (b : Block) (i sub : Nat) (c : Code) (detail : Nat) :
    (finishQp b i sub c detail).fcu.doms = b.fcu.doms := by
  unfold finishQp
  grind [finishCmd_fcu]

@[simp] theorem failAsks_fcu_doms (b : Block) (i : Nat) (st : Status) : (failAsks b i st).fcu.doms = b.fcu.doms := by
  unfold failAsks
  grind [foldl_fcu_doms, foldl_fst_fcu_doms, setQp_fcu, putReply_fcu_doms]

@[simp] theorem restartWalk_fcu_doms (b : Block) (w : Walk) : (restartWalk b w).fcu.doms = b.fcu.doms := by
  unfold restartWalk
  simp

@[simp] theorem invalidate_fcu_doms (b : Block) (c : Cover) : (invalidate b c).1.fcu.doms = b.fcu.doms := by
  unfold invalidate
  simp

@[simp] theorem setCtx_fcu_doms (b : Block) (pid cx : Nat) (c : CtxSlot) : (setCtx b pid cx c).fcu.doms = b.fcu.doms := by
  unfold setCtx
  simp

@[simp] theorem resetPart_fcu_doms (b : Block) (pid : Nat) : (resetPart b pid).fcu.doms = b.fcu.doms := by
  unfold resetPart
  grind [foldl_fcu_doms, foldl_fst_fcu_doms, expireSteps_fcu_doms, pumpInv_fcu_doms, failResults_fcu_doms, chanOff_fcu_doms, toReset_fcu_doms, finishQp_fcu_doms, failAsks_fcu_doms, onQp_fcu_doms, dropFrames_fcu_doms, !invalidate_fcu_doms, dropHolders_fcu_doms, setCtx_fcu_doms]

@[simp] theorem dropReq_fcu_doms (b : Block) (es num : Nat) : (dropReq b es num).fcu.doms = b.fcu.doms := by
  unfold dropReq
  simp

@[simp] theorem eqStatus_fcu_doms (b : Block) (es : Nat) (st : Status) : (eqStatus b es st).fcu.doms = b.fcu.doms := (rfl)

@[simp] theorem refuseReq_fcu_doms (b : Block) (es : Nat) (r : EReq) (st : Status) :
    (refuseReq b es r st).fcu.doms = b.fcu.doms := by
  unfold refuseReq
  simp

@[simp] theorem fenceReq_fcu_doms (b : Block) (es : Nat) (r : EReq) : (fenceReq b es r).fcu.doms = b.fcu.doms := by
  unfold fenceReq
  simp

@[simp] theorem bindStep_fcu_doms (b : Block) (es : Nat) : (bindStep b es).fcu.doms = b.fcu.doms := by
  unfold bindStep
  (repeat' split) <;> simp

@[simp] theorem releaseClusters_fcu_doms (b : Block) (s : Step) : (releaseClusters b s).fcu.doms = b.fcu.doms := by
  unfold releaseClusters
  simp

@[simp] theorem commitStep_fcu_doms (b : Block) (es : Nat) : (commitStep b es).fcu.doms = b.fcu.doms := by
  unfold commitStep
  grind [endRun_fcu_doms, releaseClusters_fcu_doms, endStep_fcu_doms, addTo_fcu, setStep_fcu]

@[simp] theorem commitNow_fcu_doms (b : Block) (es : Nat) (r : EReq) : (commitNow b es r).fcu.doms = b.fcu.doms := by
  unfold commitNow
  (repeat' split) <;> simp

@[simp] theorem paceNow_fcu_doms (b : Block) (es : Nat) (r : EReq) : (paceNow b es r).fcu.doms = b.fcu.doms := by
  unfold paceNow
  grind [bindStep_fcu_doms, paceRequest_fcu_doms, count_fcu, eqStatus_fcu_doms, dropReq_fcu_doms]

@[simp] theorem noTarget_fcu_doms (b : Block) (es : Nat) (r : EReq) : (noTarget b es r).fcu.doms = b.fcu.doms := by
  unfold noTarget
  simp

@[simp] theorem remoteAtomic_fcu_doms (b : Block) (es : Nat) (r : EReq) :
    (remoteAtomic b es r).fcu.doms = b.fcu.doms := by
  unfold remoteAtomic
  (repeat' split) <;> simp

@[simp] theorem lockWait_fcu_doms (b : Block) (pa n : Nat) (who : LockWho) :
    (lockWait b pa n who).fcu.doms = b.fcu.doms := by
  unfold lockWait
  simp

@[simp] theorem atomicAt_fcu_doms (b : Block) (pa aop operand compare : Nat) :
    (atomicAt b pa aop operand compare).1.fcu.doms = b.fcu.doms := by
  unfold atomicAt
  grind [present_fcu_doms]

@[simp] theorem engineAtomic_fcu_doms (b : Block) (es : Nat) (r : EReq) :
    (engineAtomic b es r).fcu.doms = b.fcu.doms := by
  unfold engineAtomic
  grind [dropReq_fcu_doms, emit_fcu, !atomicAt_fcu_doms, refuseReq_fcu_doms]

@[simp] theorem engineLock_fcu_doms (b : Block) (es : Nat) (r : EReq) : (engineLock b es r).fcu.doms = b.fcu.doms := by
  unfold engineLock
  (repeat' split) <;> simp

@[simp] theorem engineStore_fcu_doms (b : Block) (es : Nat) (r : EReq) : (engineStore b es r).fcu.doms = b.fcu.doms := by
  unfold engineStore
  grind [engineLock_fcu_doms, grantTag_fcu_doms, waitTag_fcu_doms, putPieces_fcu_doms, dropReq_fcu_doms, !draw_fcu]

@[simp] theorem setReq_fcu_doms (b : Block) (es : Nat) (r : EReq) : (setReq b es r).fcu.doms = b.fcu.doms := by
  unfold setReq
  simp

@[simp] theorem engineSend_fcu_doms (b : Block) (es : Nat) (r : EReq) (segs : List Seg) :
    (engineSend b es r segs).fcu.doms = b.fcu.doms := by
  unfold engineSend
  grind [goWrite_fcu_doms, noTarget_fcu_doms, remoteAtomic_fcu_doms, engineStore_fcu_doms, goRead_fcu_doms, bindStep_fcu_doms, setReq_fcu_doms]

@[simp] theorem engineTry_fcu_doms (b : Block) (es : Nat) (r : EReq) : (engineTry b es r).fcu.doms = b.fcu.doms := by
  unfold engineTry
  grind [engineSend_fcu_doms, refuseReq_fcu_doms, !prepare_fcu_doms, setReq_fcu_doms]

@[simp] theorem goOn_fcu_doms (b : Block) (es : Nat) (r : EReq) : (goOn b es r).fcu.doms = b.fcu.doms := by
  unfold goOn
  (repeat' split) <;> simp

@[simp] theorem releaseReqs_fcu_doms (b : Block) (es : Nat) (x' : Nat) : (releaseReqs b es x').fcu.doms = b.fcu.doms := by
  fun_induction releaseReqs <;> simp_all

@[simp] theorem release_fcu_doms (b : Block) (es : Nat) : (release b es).fcu.doms = b.fcu.doms := by
  unfold release
  simp

@[simp] theorem sendNak_fcu_doms (b : Block) (i psn : Nat) (st : Status) :
    (sendNak b i psn st).fcu.doms = b.fcu.doms := by
  unfold sendNak
  simp [apply_ite Block.fcu]

@[simp] theorem enterError_fcu_doms (b : Block) (i : Nat) (st : Status) (msn : Nat) :
    (enterError b i st msn).fcu.doms = b.fcu.doms := by
  unfold enterError
  simp

@[simp] theorem qpError_fcu_doms (b : Block) (i : Nat) (st : Status) (msn : Nat) :
    (qpError b i st msn).fcu.doms = b.fcu.doms := by
  unfold qpError
  grind [enterError_fcu_doms]

@[simp] theorem refuse_fcu_doms (b : Block) (i psn msn : Nat) (st : Status) :
    (refuse b i psn msn st).fcu.doms = b.fcu.doms := by
  unfold refuse
  simp

@[simp] theorem freeSlot_fcu_doms (b : Block) : (freeSlot b).fcu.doms = b.fcu.doms := by unfold freeSlot; simp

@[simp] theorem dropWork_fcu_doms (b : Block) (w : Work) : (dropWork b w).fcu.doms = b.fcu.doms := by
  unfold dropWork
  (repeat' split) <;> simp

@[simp] theorem workRefuse_fcu_doms (b : Block) (w : Work) (psn : Nat) (st : Status) :
    (workRefuse b w psn st).fcu.doms = b.fcu.doms := by
  unfold workRefuse
  (repeat' split) <;> simp

@[simp] theorem paceTransport_fcu_doms (b : Block) (qp : Nat) (send : Bool) :
    (paceTransport b qp send).fcu.doms = b.fcu.doms := by
  unfold paceTransport
  simp

@[simp] theorem retire_fcu_doms (b : Block) (i : Nat) (x' : Nat) : (retire b i x').fcu.doms = b.fcu.doms := by
  fun_induction retire <;> grind [addDue_fcu_doms, paceTransport_fcu_doms, setQp_fcu]

@[simp] theorem finishMsg_fcu_doms (b : Block) (i : Nat) (m : SendMsg) (st : Status) (rstat result : Nat) :
    (finishMsg b i m st rstat result).fcu.doms = b.fcu.doms := by
  unfold finishMsg
  (repeat' split) <;> simp

@[simp] theorem responseFail_fcu_doms (b : Block) (i : Nat) (m : SendMsg) (st : Status) :
    (responseFail b i m st).fcu.doms = b.fcu.doms := by
  unfold responseFail
  simp

@[simp] theorem fenceWork_fcu_doms (b : Block) (w : Work) : (fenceWork b w).fcu.doms = b.fcu.doms := by
  unfold fenceWork
  grind [workRefuse_fcu_doms, dropWork_fcu_doms, responseFail_fcu_doms, abandon_fcu_doms]

@[simp] theorem dropApp_fcu_doms (b : Block) (a : App) : (dropApp b a).fcu.doms = b.fcu.doms := by
  unfold dropApp
  simp [apply_ite Block.fcu]

@[simp] theorem appRefuse_fcu_doms (b : Block) (a : App) (st : Status) : (appRefuse b a st).fcu.doms = b.fcu.doms := by
  unfold appRefuse
  (repeat' split) <;> simp

@[simp] theorem resetMs_fcu_doms (b : Block) (ms : Nat) : (resetMs b ms).fcu.doms = b.fcu.doms := by
  unfold resetMs
  grind [foldl_fcu_doms, foldl_fst_fcu_doms, fenceReq_fcu_doms, release_fcu_doms, fenceWork_fcu_doms, appRefuse_fcu_doms]

@[simp] theorem setPortState_fcu_doms (b : Block) (p v : Nat) : (setPortState b p v).fcu.doms = b.fcu.doms := by
  unfold setPortState
  simp [apply_ite Block.fcu]

@[simp] theorem portLink_fcu_doms (b : Block) (p : Nat) (up deg : Bool) :
    (portLink b p up deg).fcu.doms = b.fcu.doms := by
  unfold portLink
  grind [setPortState_fcu_doms, setPort_fcu]

@[simp] theorem resetReed_fcu_doms (b : Block) : (resetReed b).fcu.doms = b.fcu.doms := by
  unfold resetReed
  simp [apply_ite Block.fcu]

@[simp] theorem skimClose_fcu_doms (b : Block) (st : Nat) : (skimClose b st).fcu.doms = b.fcu.doms := by
  unfold skimClose
  simp

@[simp] theorem emitAcct_fcu_doms (b : Block) (pid : Nat) (sync : Bool) :
    (emitAcct b pid sync).fcu.doms = b.fcu.doms := by
  unfold emitAcct
  simp

@[simp] theorem emitGroup_fcu_doms (b : Block) (pid g : Nat) (sync : Bool) :
    (emitGroup b pid g sync).fcu.doms = b.fcu.doms := by
  unfold emitGroup
  simp

@[simp] theorem emitQp_fcu_doms (b : Block) (pid i : Nat) (sync : Bool) :
    (emitQp b pid i sync).fcu.doms = b.fcu.doms := by
  unfold emitQp
  simp

@[simp] theorem emitKey_fcu_doms (b : Block) (pid j : Nat) (sync : Bool) :
    (emitKey b pid j sync).fcu.doms = b.fcu.doms := by
  unfold emitKey
  simp

@[simp] theorem emitCtx_fcu_doms (b : Block) (pid cx : Nat) (sync : Bool) :
    (emitCtx b pid cx sync).fcu.doms = b.fcu.doms := by
  unfold emitCtx
  simp

@[simp] theorem emitPart_fcu_doms (b : Block) (pid : Nat) (sync : Bool) :
    (emitPart b pid sync).fcu.doms = b.fcu.doms := by
  unfold emitPart
  simp

@[simp] theorem copyPart_fcu_doms (b : Block) (pid : Nat) : (copyPart b pid).fcu.doms = b.fcu.doms := by
  unfold copyPart
  simp

@[simp] theorem syncCheck_fcu_doms (b : Block) : (syncCheck b).fcu.doms = b.fcu.doms := by
  unfold syncCheck
  simp [apply_ite Block.fcu]

@[simp] theorem clearMirror_fcu_doms (b : Block) : (clearMirror b).fcu.doms = b.fcu.doms := by unfold clearMirror; simp

@[simp] theorem startCopy_fcu_doms (b : Block) : (startCopy b).fcu.doms = b.fcu.doms := by unfold startCopy; simp

@[simp] theorem mirrorReset_fcu_doms (b : Block) : (mirrorReset b).fcu.doms = b.fcu.doms := by
  unfold mirrorReset
  grind [startCopy_fcu_doms, clearMirror_fcu_doms]

@[simp] theorem resetSsu_fcu_doms (b : Block) : (resetSsu b).fcu.doms = b.fcu.doms := by
  unfold resetSsu
  grind [foldl_fcu_doms, foldl_fst_fcu_doms, dropHolders_fcu_doms, writeBack_fcu_doms, !parentUse_fcu_doms, !nodeUse_fcu_doms]

@[simp] theorem setKey_fcu_doms (b : Block) (i : Nat) (k : Key) : (setKey b i k).fcu.doms = b.fcu.doms := by
  unfold setKey
  simp

@[simp] theorem finishKey_fcu_doms (b : Block) (j detail : Nat) : (finishKey b j detail).fcu.doms = b.fcu.doms := by
  unfold finishKey
  grind [finishCmd_fcu]

@[simp] theorem freeKey_fcu_doms (b : Block) (j detail : Nat) : (freeKey b j detail).fcu.doms = b.fcu.doms := by
  unfold freeKey
  simp

@[simp] theorem resetTpe_fcu_doms (b : Block) : (resetTpe b).fcu.doms = b.fcu.doms := by
  unfold resetTpe
  grind [foldl_fcu_doms, foldl_fst_fcu_doms, freeKey_fcu_doms, qpError_fcu_doms, enterError_fcu_doms, finishQp_fcu_doms, failAsks_fcu_doms, onQp_fcu_doms, dropWork_fcu_doms, freeSlot_fcu_doms, keyDone_fcu_doms, abandon_fcu_doms]

@[simp] theorem resetTxh_fcu_doms (b : Block) : (resetTxh b).fcu.doms = b.fcu.doms := by unfold resetTxh; simp

theorem ite_fcu_doms {c : Prop} [Decidable c] {x y b : Block} (hx : x.fcu.doms = b.fcu.doms) (hy : y.fcu.doms = b.fcu.doms) :
    (if c then x else y).fcu.doms = b.fcu.doms := by split <;> assumption

@[simp] theorem resetUnit_fcu_doms (b : Block) (u : Nat) : (resetUnit b u).fcu.doms = b.fcu.doms := by
  unfold resetUnit
  refine ite_fcu_doms (resetTxh_fcu_doms b) (ite_fcu_doms (resetTpe_fcu_doms b) (ite_fcu_doms ?ladle (ite_fcu_doms (resetSsu_fcu_doms b)
    (ite_fcu_doms (stopSteps_fcu_doms ..) (ite_fcu_doms (mirrorReset_fcu_doms b) (ite_fcu_doms rfl (ite_fcu_doms ?skim
    (ite_fcu_doms (resetReed_fcu_doms b) (ite_fcu_doms ?port (ite_fcu_doms rfl (ite_fcu_doms (resetMs_fcu_doms ..) rfl)))))))))))
  case ladle => exact foldl_fcu_doms _ (fun b e => ite_fcu_doms rfl (chanOff_fcu_doms ..)) _ b
  case skim => exact ite_fcu_doms (skimClose_fcu_doms ..) rfl
  case port => simp

@[simp] theorem finishDom_fcu_doms (b : Block) (sub arg : Nat) (c : Code) :
    (finishDom b sub arg c).fcu.doms = b.fcu.doms := by
  unfold finishDom
  (repeat' split) <;> simp

@[simp] theorem retryHeld_fcu_doms (b : Block) : (retryHeld b).fcu.doms = b.fcu.doms := by unfold retryHeld; simp

@[simp] theorem readyMs_fcu_doms (b : Block) (ms : Nat) : (readyMs b ms).fcu.doms = b.fcu.doms := by
  unfold readyMs
  simp

end Sys2Proof.Machine
end

section
/-! SUPPORT. Domains from fence to return (O58). -/

namespace Sys2Proof.Machine

/-! Domains from fence to return (12 R387-R395, R445) -/

theorem domain_of_doms {b b' : Block} (h : b.fcu.doms = b'.fcu.doms) (key : Nat) : domain b key = domain b' key := by
  rw [domain, h, domain]

@[simp] theorem domain_setDomain_at (b : Block) (key : Nat) (d : Domain) : domain (setDomain b key d) key = d := look_store_self ..

/-! ### Commands -/

section
variable {s : State} {acc : Access} {u : Nat} (ha : notHostFmFw acc = false)
include ha

theorem unitOut_accepted (hc : canTake s.dev 0x9000 0x42) (hb : badUnit s.dev u = false) (hs : unitState s.dev u = .inService)
    (hr : isReed u = true → 2 ≤ reedsIn s.dev) :
    unitOut s.dev acc u = fenceDomain (accepted s.dev acc 0x9000 0x42 u) u true true false := by
  have bad : badUnit (count s.dev 0x1402 5) u = false := hb
  have state : unitState (count s.dev 0x1402 5) u = .inService := hs
  have reeds : (isReed u && decide (reedsIn (count s.dev 0x1402 5) ≤ 1)) = false := by
    have same : reedsIn (count s.dev 0x1402 5) = reedsIn s.dev := rfl
    cases e : isReed u
    · rfl
    · simp only [same, Bool.true_and, decide_eq_false_iff_not]
      have two := hr e
      omega
  rw [unitOut, command_accepted hc (notHostFmFw_notTnt ha) (by decide)]
  simp [noFails, ha, bad, state, reeds]

theorem unitReturn_accepted (hc : canTake s.dev 0x9000 0x43) (hb : badUnit s.dev u = false) (hs : unitState s.dev u = .out) :
    unitReturn s.dev acc u = dumpOver (startReset (if isPP u then setPortState (accepted s.dev acc 0x9000 0x43 u) (u - 0x100) 0
      else accepted s.dev acc 0x9000 0x43 u) u) := by
  have bad : badUnit (count s.dev 0x1402 5) u = false := hb
  have state : unitState (count s.dev 0x1402 5) u = .out := hs
  rw [unitReturn, command_accepted hc (notHostFmFw_notTnt ha) (by decide)]
  simp [noFails, ha, bad, state]

theorem domainFence_accepted (hc : canTake s.dev 0x9000 0x44) (h1 : 1 ≤ u) (h64 : u < 64) (hs : served s.dev (domKey u) = true) :
    domainFence s.dev acc u = fenceDomain (accepted s.dev acc 0x9000 0x44 u) (domKey u) false true false := by
  have state : served (count s.dev 0x1402 5) (domKey u) = true := hs
  rw [domainFence, command_accepted hc (notHostFmFw_notTnt ha) (by decide)]
  have h0 : u ≠ 0 := by omega
  simp [noFails, ha, state, h64, h0]

theorem recoverBlock_accepted (hc : canTake s.dev 0x9000 0x41) (hs : rd s.dev 0x9000 1 = 1) :
    recoverBlock s.dev acc 0 = startRecovery (accepted s.dev acc 0x9000 0x41 0) := by
  have state : rd (count s.dev 0x1402 5) 0x9000 1 = 1 := (rd_count_other _ (by decide)).trans hs
  rw [recoverBlock, command_accepted hc (notHostFmFw_notTnt ha) (by decide)]
  simp [noFails, ha, state]

end

/-! ### The fence of a unit without effects of its own -/

theorem fenceDomain_plain (b : Block) {key : Nat} (toOut byCommand dump : Bool) (h : key < 0x10000) (he : isES key = false)
    (hm : isMS key = false) (hl : isLane key = false) (hp : isPP key = false) : fenceDomain b key toOut byCommand dump
      = setDomain b key ⟨.fencing, toOut, byCommand, dump, false, b.clk.now, rd b 0x9000 4, false⟩ := by
  have drain : domDrain b key = rd b 0x9000 4 := if_pos h
  unfold fenceDomain
  dsimp only
  rw [drain]
  unfold fenceEffects
  rw [if_neg (by omega), hp, he, hm, hl]
  rfl

/-! ### Drain, reset and retraining -/

section
variable {b : Block} {key : Nat}

theorem dumpOver_running (h : rd b 0x9002 3 = 1) : dumpOver b = b := if_pos h

theorem domainDrainDone_dumping (hs : (domain b key).st = .fencing) (hb : domBusy b key = false) (hd : (domain b key).dump = true)
    (hr : rd b 0x9002 3 = 1) : domainDrainDone b key = setDomain b key { domain b key with st := .dumping } := by
  unfold domainDrainDone
  rw [hs]
  dsimp only
  rw [if_neg (by simp [hb])]
  unfold drained
  dsimp only
  rw [if_pos (by simp [hd, hr])]
  exact dumpOver_running hr

theorem domainDrainDone_ends (hs : (domain b key).st = .fencing) (hb : domBusy b key = false)
    (hd : (domain b key).dump = false ∨ rd b 0x9002 3 ≠ 1) : domainDrainDone b key
      = dumpOver (if (domain b key).toOut && !((domain b key).dump && (domain b key).byCommand) then goOut b key else startReset b key) := by
  unfold domainDrainDone
  rw [hs]
  dsimp only
  rw [if_neg (by simp [hb])]
  unfold drained
  dsimp only
  rw [if_neg (by rcases hd with h | h <;> simp [h])]
  rfl

theorem domainDrainDone_busy (hs : (domain b key).st = .fencing) (hb : domBusy b key = true) : domainDrainDone b key = b := by
  unfold domainDrainDone
  rw [hs]
  exact if_pos hb

theorem domainDrainTimeout_fencing (hs : (domain b key).st = .fencing) : domainDrainTimeout b key
    = if elapsed b (domain b key).since (micros (domain b key).drain) then dumpOver (drained (expireDomain b key) key) else b := by
  unfold domainDrainTimeout
  dsimp only
  rw [hs]

theorem domainDrainTimeout_block {t us : Nat} (hs : (domain b key).st = .blockFenced) (hd : b.fcu.blockDrain = some (t, us)) :
    domainDrainTimeout b key = if elapsed b t (micros us) then recoveryNext (expireBlock b) else b := by
  unfold domainDrainTimeout
  dsimp only
  rw [hs]
  dsimp only
  rw [hd]

theorem domainDrainDone_block (hs : (domain b key).st = .blockFenced) : domainDrainDone b key = recoveryNext b := by
  unfold domainDrainDone
  rw [hs]

/-- A domain that is neither FENCING nor in a fenced block has no drain to end. -/
theorem domainDrain_none (hf : (domain b key).st ≠ .fencing) (hb : (domain b key).st ≠ .blockFenced) :
    domainDrainDone b key = b ∧ domainDrainTimeout b key = b := by
  unfold domainDrainDone domainDrainTimeout
  cases h : (domain b key).st <;> simp_all

theorem domainResetDone_other (h : (domain b key).st ≠ .resetting) : domainResetDone b key = b := if_pos (by simp [h])

theorem domainResetDone_held (h : heldInReset b key = true) : domainResetDone b key = b := if_pos (by simp [h])

theorem domainResetDone_goes (hs : (domain b key).st = .resetting) (hh : heldInReset b key = false) : domainResetDone b key
    = if isPP key then setDomain b key { domain b key with st := .retraining }
      else if isMS key then emit (setDomain b key { domain b key with st := .retraining }) (.miTrain (key - 0x300))
      else comeBack b key := if_neg (by simp [hs, hh])

theorem domainRetrainDone_other (h : (domain b key).st ≠ .retraining) : domainRetrainDone b key = b := if_neg h

/-! ### What a domain is afterwards -/

theorem domain_goOut (b : Block) (key : Nat) : domain (goOut b key) key = { freshDomain with st := .out } := by
  have doms : (goOut b key).fcu.doms = (setDomain b key { freshDomain with st := .out }).fcu.doms := by
    unfold goOut
    rw [finishDom_fcu_doms]
    dsimp only
    split <;> rfl
  rw [domain_of_doms doms, domain_setDomain_at]

theorem domain_startReset (b : Block) (key : Nat) : domain (startReset b key) key = { domain b key with st := .resetting } := by
  have doms : (startReset b key).fcu.doms = (setDomain b key { domain b key with st := .resetting }).fcu.doms := by
    unfold startReset resetDomain
    dsimp only
    split
    · exact resetUnit_fcu_doms ..
    · exact foldl_fcu_doms _ (fun b p => resetPart_fcu_doms b p) _ _
  rw [domain_of_doms doms, domain_setDomain_at]

theorem domain_comeBack_out (hd : (domain b key).degraded = true) (hr : removable key = true) :
    (domain (comeBack b key) key).st = .out := by
  unfold comeBack
  rw [if_pos (by simp [hd, hr]), domain_of_doms (finishDom_fcu_doms ..), domain_goOut]

theorem comeBack_doms (h : (domain b key).degraded = false ∨ removable key = false) :
    (comeBack b key).fcu.doms = (setDomain b key freshDomain).fcu.doms := by
  unfold comeBack
  rw [if_neg (by rcases h with h | h <;> simp [h])]
  refine Eq.trans (ite_fcu_doms (b := count (setDomain b key freshDomain) 0x9000 0x0B) ?_ ?_) rfl
  · rw [finishDom_fcu_doms]
    exact foldl_fcu_doms _ (fun b p => congrArg Fcu.doms (msixPart_fcu b p 0)) _ _
  · rw [finishDom_fcu_doms]
    refine (ite_fcu_doms (foldl_fcu_doms _ (fun b p => foldl_fcu_doms _ (fun b q => ringFetch_fcu_doms ..) _ b) _ _) rfl).trans ?_
    generalize e : (if isPP key = true then _ else count (setDomain b key freshDomain) 0x9000 0x0B) = c
    have port : c.fcu.doms = (count (setDomain b key freshDomain) 0x9000 0x0B).fcu.doms := by
      rw [← e]
      exact ite_fcu_doms (by simp) rfl
    exact (ite_fcu_doms (c := isMS key = true) (b := c) (x := readyMs c (key - 0x300)) rfl rfl).trans port

theorem domain_comeBack_back (h : (domain b key).degraded = false ∨ removable key = false) :
    (domain (comeBack b key) key).st = .inService := by
  rw [domain_of_doms (comeBack_doms h), domain_setDomain_at]
  rfl

end

/-- Settles O58: the commands on the block that has accepted them, the other rows by the domain's state. -/
theorem domainsAreFencedDrainedResetAndReturned : Obligations.DomainsAreFencedDrainedResetAndReturned := by
  refine ⟨?commands, ?fence, ?fencing, ?resetting, ?block, ?after⟩
  case commands =>
    intro s acc arg ha u
    refine ⟨fun hc hb hs hr => next_on (unitOut_accepted ha hc hb hs hr), fun hc hb hs => next_on (unitReturn_accepted ha hc hb hs),
      fun hc h1 h64 hs => next_on (domainFence_accepted ha hc h1 h64 hs), fun hc hs => ?_⟩
    refine goes_on (b := recoverBlock s.dev acc 0) (recoverBlock_accepted ha hc hs) ⟨?_, ?_, ?_, ?_, ?_⟩
    · exact (rd_wr_other (i := 0xC000) (s := 1) _ _ (by decide)).trans ((rd_wr_other _ _ (by decide)).trans pends_accepted)
    · exact (rd_wr_other (i := 0xC000) (s := 1) _ _ (by decide)).trans (rd_wr_self ..)
    · exact rd_wr_self ..
    · have drain : rd (accepted s.dev acc 0x9000 0x41 0) 0x9000 4 = rd s.dev 0x9000 4 := rd_accepted_other (by decide) (by decide)
      simp [State.on, startRecovery, drain]
    · exact memSame_of_mem (by simp [State.on, startRecovery])
  case fence =>
    rintro b key toOut byCommand dump ⟨h, he, hm, hl, hp⟩
    exact fenceDomain_plain b toOut byCommand dump h (by simpa using he) (by simpa using hm) (by simpa using hl) (by simpa using hp)
  case fencing =>
    intro s key hs d
    refine ⟨fun hb => ⟨fun hd hr => next_on (domainDrainDone_dumping hs hb hd hr), fun hd => next_on (domainDrainDone_ends hs hb hd)⟩,
      fun hb => next_on (b := domainDrainDone s.dev key) (b' := s.dev) (domainDrainDone_busy hs hb),
      fun he => next_on ((domainDrainTimeout_fencing hs).trans (if_pos he)),
      fun he => next_on (b := domainDrainTimeout s.dev key) (b' := s.dev) ((domainDrainTimeout_fencing hs).trans (if_neg ?_)), ?_, ?_⟩
    · exact Bool.eq_false_iff.mp he
    · exact next_on (b := domainResetDone s.dev key) (b' := s.dev) (domainResetDone_other (by simp [hs]))
    · exact next_on (b := domainRetrainDone s.dev key) (b' := s.dev) (domainRetrainDone_other (by simp [hs]))
  case resetting =>
    intro s key
    refine ⟨fun _ hh => next_on (b := domainResetDone s.dev key) (b' := s.dev) (domainResetDone_held hh), fun hs hh => ?_, fun hs => ?_, fun h => ?_⟩
    · have run := domainResetDone_goes hs hh
      exact ⟨fun hp => next_on (run.trans (if_pos hp)), fun hp hm => next_on (run.trans ((if_neg (by simp [hp])).trans (if_pos hm))),
        fun hp hm => next_on (run.trans ((if_neg (by simp [hp])).trans (if_neg (by simp [hm]))))⟩
    · exact next_on (b := domainRetrainDone s.dev key) (if_pos hs)
    · have hf : (domain s.dev key).st ≠ .fencing := by rcases h with h | h | h <;> simp [h]
      have hb : (domain s.dev key).st ≠ .blockFenced := by rcases h with h | h | h <;> simp [h]
      have hr : (domain s.dev key).st ≠ .resetting := by rcases h with h | h | h <;> simp [h]
      have ht : (domain s.dev key).st ≠ .retraining := by rcases h with h | h | h <;> simp [h]
      obtain ⟨done, timeout⟩ := domainDrain_none hf hb
      exact ⟨next_on (b := domainDrainDone s.dev key) (b' := s.dev) done, next_on (b := domainDrainTimeout s.dev key) (b' := s.dev) timeout,
        next_on (b := domainResetDone s.dev key) (b' := s.dev) (domainResetDone_other hr),
        next_on (b := domainRetrainDone s.dev key) (b' := s.dev) (domainRetrainDone_other ht)⟩
  case block =>
    intro s key hs
    refine ⟨next_on (domainDrainDone_block hs), fun t us hd => ⟨fun he => ?_, fun he => ?_⟩⟩
    · exact next_on ((domainDrainTimeout_block hs hd).trans (if_pos he))
    · exact next_on (b := domainDrainTimeout s.dev key) (b' := s.dev) ((domainDrainTimeout_block hs hd).trans (if_neg (Bool.eq_false_iff.mp he)))
  case after =>
    intro b key
    exact ⟨domain_comeBack_out, domain_comeBack_back, by rw [domain_goOut], by rw [domain_startReset]⟩

end Sys2Proof.Machine
end

section
/-! SUPPORT. Completion steps of a group (O47). -/

namespace Sys2Proof.Machine

/-! Completion steps of a group (08 R269-R274; 09 R290-R301) -/

section
variable {b b' : Block} {pid g : Nat} {ans : Answer} {st : Status} {v : Nat}

/-- The streams of a table that has been read. -/
def tableStreams (x : Group) (v : Nat) : List Bound :=
  (usedStreams (jobImg x)).map fun n => ⟨n, slice v (16 * n) 16, []⟩

theorem streamTableDone_answered (hs : (group b pid g).stage = .table)
    (ha : arrive b ⟨.streamTable, groupKey pid g, 0⟩ (group b pid g).io ans 128 = some (b', st, v)) : streamTableDone b pid g ans
      = if st ≠ .ok then progFail b' pid g ⟨st, 1, 0⟩
        else match (tableStreams (group b pid g) v).findSome? fun u => entryFails (jobImg (group b pid g)) u.num u.entry with
          | some f => progFail b' pid g f
          | none => onGroup b' pid g fun x => { x with io := [], stage := .bind, streams := tableStreams (group b pid g) v } := by
  unfold streamTableDone
  dsimp only
  rw [if_neg (by simp [hs]), ha]
  simp only [bne_iff_ne] <;> rfl

section
variable (hs : (group b pid g).stage = .bind) (hc : (group b pid g).st = .completing)
include hs hc

theorem streamBindDone_failed {f : ProgFail} (ha : bindAll b pid g (jobImg (group b pid g)) [] (group b pid g).streams = (b', some (.error f))) :
    streamBindDone b pid g = progFail b' pid g f := by
  unfold streamBindDone
  dsimp only
  rw [if_neg (by simp [hs, hc]), ha]

theorem streamBindDone_bound {us : List Bound} {c : Block}
    (ha : bindAll b pid g (jobImg (group b pid g)) [] (group b pid g).streams = (b', some (.ok us)))
    (hp : imagePages b' pid g 0 (gPages (group b pid g).r) = (c, some .ok)) : streamBindDone b pid g
      = (let d := onGroup c pid g fun x =>
          let x := { x with stage := .phase1, streams := us, disturbed := [], results := [], scalar := 0 }
          let img := jobImg x
          { x with extents := imageExtents x (progWb img) ++ us.flatMap fun u => streamExtents x.r (usesStream img true u.num) u }
        startPhase d pid g 0 (imageStations (group d pid g))) := by
  unfold streamBindDone
  dsimp only
  rw [if_neg (by simp [hs, hc]), ha]
  dsimp only
  rw [hp]

end

theorem phaseDone_runs {ms : Nat} (hj : (jobOf b pid g ms).isSome = true) : phaseDone b pid g ms false
    = match jobOf (stationRun b pid g ms (stationFuel b ms)) pid g ms with
      | some j => jobDone (stationRun b pid g ms (stationFuel b ms)) pid g ms j
      | none => stationRun b pid g ms (stationFuel b ms) := by
  unfold phaseDone
  rw [if_neg (by simp [Option.isNone_eq_false_iff.2 hj]), if_neg (by simp)] <;> rfl

theorem phaseDone_poisoned {ms : Nat} (hj : (jobOf b pid g ms).isSome = true) : phaseDone b pid g ms true
    = progFail (raiseFree b 19 (uMS ms) pid) pid g ⟨.poison, 4, 0⟩ := by
  unfold phaseDone
  rw [if_neg (by simp [Option.isNone_eq_false_iff.2 hj])]
  exact if_pos rfl

theorem stationStep_failed {ms : Nat} {j : Job} {f : ProgFail} (ht : turnJob b ms = some j)
    (hr : jobStep b (group b j.pid j.group) ms j false = (b', .error f)) (hf : f.st ≠ .poison) :
    stationStep b ms false = progFail b' j.pid j.group f := by
  unfold stationStep
  rw [ht]
  dsimp only
  rw [hr]
  dsimp only
  rw [if_neg hf]

theorem secondPhase_starts (hs : (group b pid g).stage = .between) : secondPhase b pid g
    = startPhase (setGroup b pid g { group b pid g with stage := .phase2, scalar := phaseScalar (group b pid g) }) pid g 1
        (imageStations (group b pid g)) := if_neg (by simp [hs])

section
variable (hc : (group b pid g).st = .completing)
include hc

theorem outputCast_failed (hs : (group b pid g).stage = .cast) (h : ans.poison = true ∨ ans.st ≠ .ok) : outputCast b pid g ans
    = endGroup b pid g (if ans.poison then .poison else ans.st) false := by
  unfold outputCast
  dsimp only
  rw [if_neg (by simp [hs, hc])]
  exact if_pos (by simpa using h)

theorem outputCast_written (hs : (group b pid g).stage = .cast) (hp : ans.poison = false) (ho : ans.st = .ok)
    {c d e f : Block} {vs : List Nat} {out : Bytes} {sat nan : Nat} {segs : List Seg}
    (hi : imagePages b pid g 0 (gPages (group b pid g).r) = (c, some .ok))
    (hr : castRead c (group c pid g) pid 0 [] (gS (group c pid g).r) = (d, none, vs))
    (ha : castAll d (group c pid g).r 0 vs (⟨0, 0⟩, 0, 0) (slots (gOut (group c pid g).r) (gElements (group c pid g).r)) = (e, out, sat, nan))
    (hw : writeNow e (groupAsker .castOut pid g 0) (groupCtx e pid (group c pid g).r) (gOutVa (group c pid g).r) out 0 2 = (f, .issued segs)) :
    outputCast b pid g ans = afterWrites (onGroup f pid g fun x =>
      { x with saturated := sat, nans := nan, lastVa := some ((gOutVa (group c pid g).r + out.len - 64) % 2 ^ 52) }) pid g := by
  unfold outputCast
  dsimp only
  rw [if_neg (by simp [hs, hc]), if_neg (by simp [hp, ho]), hi]
  dsimp only
  rw [hr]
  dsimp only
  rw [ha]
  dsimp only
  rw [hw]

theorem readbackDone_answered (hs : (group b pid g).stage = .readback)
    (ha : arrive b ⟨.castOut, groupKey pid g, 1⟩ (group b pid g).io ans 64 = some (b', st, v)) : readbackDone b pid g ans
      = if st ≠ .ok then endGroup (onGroup b' pid g fun x => { x with io := [] }) pid g st false
        else finishGroup (onGroup b' pid g fun x => { x with io := [] }) pid g := by
  unfold readbackDone
  dsimp only
  rw [if_neg (by simp [hs, hc]), ha]
  simp only [bne_iff_ne] <;> rfl

end

@[simp] theorem mirrorNote_cru (b : Block) (kind pid index : Nat) (body : Bytes) :
    (mirrorNote b kind pid index body).cru = b.cru := by
  unfold mirrorNote emitRec
  simp [apply_ite Block.cru]

theorem groupState_st (b : Block) (pid g : Nat) (st : GState) : (group (groupState b pid g st) pid g).st = st := by
  have same : (groupState b pid g st).cru = (setGroup b pid g { group b pid g with st := st }).cru := mirrorNote_cru ..
  unfold group
  rw [same]
  exact congrArg Group.st (group_setGroup_self b pid g { group b pid g with st := st })

end

/-- Settles O47: each step by the stage its group is in. -/
theorem groupsRunTheirCompletionSteps : Obligations.GroupsRunTheirCompletionSteps := by
  refine ⟨?table, ?bind, ?phase, fun s pid g hs => next_on (secondPhase_starts hs), ?cast, fun b pid g => groupState_st ..⟩
  case table =>
    intro s pid g ans b st v hs ha img us
    have run := streamTableDone_answered hs ha
    refine ⟨fun h hf => next_on (run.trans ?_), fun f h hf => next_on (run.trans ?_), fun h => next_on (run.trans (if_pos h))⟩
    · have legal : (tableStreams (group s.dev pid g) v).findSome? (fun u => entryFails (jobImg (group s.dev pid g)) u.num u.entry) = none :=
        List.findSome?_eq_none_iff.mpr hf
      rw [if_neg (by simp [h]), legal] <;> rfl
    · have bad : (tableStreams (group s.dev pid g) v).findSome? (fun u => entryFails (jobImg (group s.dev pid g)) u.num u.entry) = some f := hf
      rw [if_neg (by simp [h]), bad]
  case bind =>
    intro s pid g hs hc all
    exact ⟨fun b us c ha hp => next_on (streamBindDone_bound hs hc ha hp), fun b f ha => next_on (streamBindDone_failed hs hc ha)⟩
  case phase =>
    intro s pid g ms hj b
    refine ⟨fun j h => next_on ((phaseDone_runs hj).trans ?_), fun h => next_on ((phaseDone_runs hj).trans ?_),
      fun j f a ht hr hf => stationStep_failed ht hr hf, next_on (phaseDone_poisoned hj)⟩
    · rw [show jobOf (stationRun s.dev pid g ms (stationFuel s.dev ms)) pid g ms = some j from h]
    · rw [show jobOf (stationRun s.dev pid g ms (stationFuel s.dev ms)) pid g ms = none from h]
  case cast =>
    intro s pid g ans hc x
    refine ⟨fun hs hp ho b c vs e out sat nan f segs hi => ?_, fun hs h => next_on (outputCast_failed hc hs h), fun hs b st v ha => ?_⟩
    · intro r hr ha hw
      exact next_on (outputCast_written hc hs hp ho hi hr ha hw)
    · exact ⟨fun h => next_on ((readbackDone_answered hc hs ha).trans (if_neg (by simp [h]))),
        fun h => next_on ((readbackDone_answered hc hs ha).trans (if_pos h))⟩

end Sys2Proof.Machine
end

section
/-! SUPPORT. The instruction rows of the runner (O48). -/

namespace Sys2Proof.Machine

/-! ### What leaves the programs at the stations unchanged -/

@[simp] theorem foldl_cru_jobs {α : Type} (f : Block → α → Block) (h : ∀ b a, (f b a).cru.jobs = b.cru.jobs) (l : List α) (b : Block) :
    (l.foldl f b).cru.jobs = b.cru.jobs := foldl_keeps (·.cru.jobs) f h l b

@[simp] theorem foldl_fst_cru_jobs {α β : Type} (f : Block × β → α → Block × β) (h : ∀ p a, (f p a).1.cru.jobs = p.1.cru.jobs) (l : List α)
    (p : Block × β) : (l.foldl f p).1.cru.jobs = p.1.cru.jobs := by
  induction l generalizing p with
  | nil => rfl
  | cons a l ih => rw [List.foldl_cons, ih, h]

@[simp] theorem setGroup_cru_jobs (b : Block) (pid g : Nat) (x : Group) : (setGroup b pid g x).cru.jobs = b.cru.jobs := by
  unfold setGroup
  simp

@[simp] theorem onGroup_cru_jobs (b : Block) (pid g : Nat) (f : Group → Group) :
    (onGroup b pid g f).cru.jobs = b.cru.jobs := by
  unfold onGroup
  simp

@[simp] theorem injectEventAt_cru_jobs (b : Block) (fsrc unit site pid addr word : Nat) :
    (injectEventAt b fsrc unit site pid addr word).cru.jobs = b.cru.jobs := by
  unfold injectEventAt
  simp

@[simp] theorem guardRecord_cru_jobs (b : Block) (unit pa : Nat) (c : Ctx) (reason : Nat) (cls : SrcClass) (ownerPid : Nat) :
    (guardRecord b unit pa c reason cls ownerPid).cru.jobs = b.cru.jobs := by
  unfold guardRecord
  simp [apply_ite Block.cru]

@[simp] theorem checkWord_cru_jobs (b : Block) (unit site pid addr word : Nat) :
    (checkWord b unit site pid addr word).1.cru.jobs = b.cru.jobs := by
  unfold checkWord
  (repeat' split) <;> simp

@[simp] theorem msAdmit_cru_jobs (b : Block) (pa : Nat) (c : Ctx) (cls : SrcClass) :
    (msAdmit b pa c cls).1.cru.jobs = b.cru.jobs := by
  unfold msAdmit
  grind [guardRecord_cru_jobs, !checkWord_cru_jobs]

@[simp] theorem openResult_cru_jobs (b : Block) (fixed : Option Nat) (ok : Nat → Bool) (near : Nat) :
    (openResult b fixed ok near).1.cru.jobs = b.cru.jobs := by
  unfold openResult
  grind [!draw_cru]

@[simp] theorem specialOp_cru_jobs (b : Block) (opc a : Nat) : (specialOp b opc a).1.cru.jobs = b.cru.jobs := by
  unfold specialOp
  (repeat' split) <;> simp

@[simp] theorem laneStep_cru_jobs (b : Block) (img opc : Nat) (o : RunnerOp) (l : Lane) :
    (laneStep b img opc o l).1.cru.jobs = b.cru.jobs := by
  unfold laneStep
  grind [!specialOp_cru_jobs]

@[simp] theorem bundleStep_cru_jobs (b : Block) (img opc : Nat) (o : RunnerOp) (lanes : List Lane) :
    (bundleStep b img opc o lanes).1.cru.jobs = b.cru.jobs := by
  unfold bundleStep
  (repeat' split) <;> simp

@[simp] theorem streamAdmit_cru_jobs (b : Block) (j : Job) (r s pa : Nat) :
    (streamAdmit b j r s pa).1.cru.jobs = b.cru.jobs := by
  unfold streamAdmit
  grind [!msAdmit_cru_jobs]

@[simp] theorem loadLane_cru_jobs (b : Block) (x : Group) (j : Job) (s : Nat) (u : Bound) (i : Nat) :
    (loadLane b x j s u i).1.cru.jobs = b.cru.jobs := by
  unfold loadLane
  grind [!draw_cru, !streamAdmit_cru_jobs]

@[simp] theorem loadLanes_cru_jobs (b : Block) (x : Group) (j : Job) : (loadLanes b x j).1.cru.jobs = b.cru.jobs := by
  unfold loadLanes
  grind [foldl_cru_jobs, foldl_fst_cru_jobs, !draw_cru, !msAdmit_cru_jobs]

@[simp] theorem writeBackLanes_cru_jobs (b : Block) (x : Group) (j : Job) :
    (writeBackLanes b x j).1.cru.jobs = b.cru.jobs := by
  unfold writeBackLanes
  grind [foldl_cru_jobs, foldl_fst_cru_jobs, onGroup_cru_jobs, writeMem_cru, emit_cru, !draw_cru, !streamAdmit_cru_jobs]

@[simp] theorem bundleEnd_cru_jobs (b : Block) (x : Group) (ms : Nat) (j : Job) :
    (bundleEnd b x ms j).1.cru.jobs = b.cru.jobs := by
  unfold bundleEnd
  grind [!loadLanes_cru_jobs, !writeBackLanes_cru_jobs, addTo_cru]

@[simp] theorem ldsValue_cru_jobs (b : Block) (kind s f : Nat) : (ldsValue b kind s f).1.cru.jobs = b.cru.jobs := by
  unfold ldsValue
  (repeat' split) <;> simp

@[simp] theorem storeLane_cru_jobs (b : Block) (x : Group) (j : Job) (s : Nat) (u : Bound) (i a : Nat) :
    (storeLane b x j s u i a).1.cru.jobs = b.cru.jobs := by
  unfold storeLane
  grind [onGroup_cru_jobs, writeMem_cru, emit_cru, !draw_cru, !streamAdmit_cru_jobs]

@[simp] theorem jobRun_cru_jobs (b : Block) (x : Group) (j : Job) (opc : Nat) (o : RunnerOp) (poison : Bool) :
    (jobRun b x j opc o poison).1.cru.jobs = b.cru.jobs := by
  unfold jobRun
  grind [foldl_cru_jobs, foldl_fst_cru_jobs, !bundleStep_cru_jobs, !ldsValue_cru_jobs, !storeLane_cru_jobs, !loadLane_cru_jobs]

/-! ### The fields of an instruction word (09 Table 9-4) -/

/-- A word whose fields are those of its operation carries its opcode. -/
theorem wordOpc_runnerWord {opc : Nat} {o : RunnerOp} (h : opc < 64) (ho : wordOp (runnerWord opc o) = o) :
    wordOpc (runnerWord opc o) = opc := by
  have low : (o.pg <<< 24) + (ofBool o.pn <<< 23) + (o.vd <<< 18) + (o.sa <<< 13) + (o.sb <<< 6) + (o.sc <<< 1) < 2 ^ 26 := by
    have pg : bits (runnerWord opc o) 24 2 = o.pg := congrArg RunnerOp.pg ho
    have vd : bits (runnerWord opc o) 18 5 = o.vd := congrArg RunnerOp.vd ho
    have sa : bits (runnerWord opc o) 13 5 = o.sa := congrArg RunnerOp.sa ho
    have sb : bits (runnerWord opc o) 6 7 = o.sb := congrArg RunnerOp.sb ho
    have sc : bits (runnerWord opc o) 1 5 = o.sc := congrArg RunnerOp.sc ho
    have pn : ofBool o.pn < 2 := by cases o.pn <;> decide
    simp only [bits_eq] at pg vd sa sb sc
    simp only [Nat.shiftLeft_eq]
    omega
  have word : runnerWord opc o = opc * 2 ^ 26
      + ((o.pg <<< 24) + (ofBool o.pn <<< 23) + (o.vd <<< 18) + (o.sa <<< 13) + (o.sb <<< 6) + (o.sc <<< 1)) := by
    simp only [runnerWord, Nat.shiftLeft_eq]
    omega
  rw [wordOpc, bits_eq, word]
  omega

/-! ### The instruction in turn -/

section
variable {b : Block} {ms opc : Nat} {o : RunnerOp} {j : Job}

theorem runnerRow_none (h : turnJob b ms = none) (poison : Bool) : runnerRow b ms opc o poison = b := by
  unfold runnerRow
  rw [h]

theorem turnJob_fin (ht : turnJob b ms = some j) : j.fin = false := by
  simpa using List.find?_some ht

/-- The jobs at a station beside the one in turn. -/
def otherJobs (b : Block) (ms : Nat) (j : Job) : List Job :=
  (look b.cru.jobs [] ms).filter fun i => !(i.pid == j.pid && i.group == j.group)

/-- What the instruction in turn does to its program's bundle, lane cycles counted. -/
def ranJob (b : Block) (j : Job) (opc : Nat) (o : RunnerOp) (poison : Bool) : Block × Except ProgFail Job :=
  jobRun (addTo b 0x6010 7 (runnerCost opc * activeCount j)) (group b j.pid j.group) j opc o poison

theorem ranJob_jobs {c : Block} {r : Except ProgFail Job} {poison : Bool} (h : ranJob b j opc o poison = (c, r)) :
    c.cru.jobs = b.cru.jobs := by
  have same := jobRun_cru_jobs (addTo b 0x6010 7 (runnerCost opc * activeCount j)) (group b j.pid j.group) j opc o poison
  rw [ranJob] at h
  rw [h] at same
  exact same

/-- An instruction changes nothing of its job but the lanes and the partials. -/
theorem jobRun_keeps {c : Block} {x : Group} {k : Job} {poison : Bool} (h : jobRun b x j opc o poison = (c, .ok k)) :
    ∃ ls ps, k = { j with lanes := ls, partials := ps } := by
  unfold jobRun at h
  dsimp only at h
  split at h
  · split at h
    · cases h
      exact ⟨_, _, rfl⟩
    · split at h
      · cases h
      · split at h
        · cases h
        · cases h
          exact ⟨_, _, rfl⟩
  · split at h
    · cases h
      exact ⟨_, _, rfl⟩
    · split at h
      · cases h
      · cases h
        exact ⟨_, _, rfl⟩
  · cases h
    exact ⟨_, _, rfl⟩
  · cases h
    exact ⟨_, _, rfl⟩
  · cases h
    exact ⟨_, _, rfl⟩

section
variable {c : Block} {poison : Bool} (hopc : opc < 64) (ho : wordOp (runnerWord opc o) = o)
  (hw : progWord (jobImg (group b j.pid j.group)) j.pc = runnerWord opc o)
include hopc ho hw

theorem jobStep_failed {f : ProgFail} (h : ranJob b j opc o poison = (c, .error f)) :
    jobStep b (group b j.pid j.group) ms j poison = (c, .error f) := by
  rw [ranJob] at h
  unfold jobStep
  dsimp only
  rw [hw, ho, wordOpc_runnerWord hopc ho, h]

theorem jobStep_ran {k : Job} (h : ranJob b j opc o poison = (c, .ok k)) : jobStep b (group b j.pid j.group) ms j poison
    = if phaseEnd (jobImg (group b j.pid j.group)) j.phase ≤ j.pc + 1
      then bundleEnd c (group b j.pid j.group) ms { k with pc := j.pc + 1 } else (c, .ok { k with pc := j.pc + 1 }) := by
  obtain ⟨ls, ps, e⟩ := jobRun_keeps h
  rw [ranJob] at h
  unfold jobStep
  dsimp only
  rw [hw, ho, wordOpc_runnerWord hopc ho, h]
  dsimp only
  rw [e]

variable (ht : turnJob b ms = some j)
include ht

theorem runnerRow_turn : runnerRow b ms opc o poison = stationStep b ms poison := by
  unfold runnerRow
  rw [ht]
  exact if_pos hw

theorem runnerRow_failed {f : ProgFail} (h : ranJob b j opc o poison = (c, .error f)) : runnerRow b ms opc o poison
    = progFail (if f.st = .poison then raiseFree c 19 (uMS ms) j.pid else c) j.pid j.group f := by
  rw [runnerRow_turn hopc ho hw ht]
  unfold stationStep
  rw [ht]
  dsimp only
  rw [jobStep_failed hopc ho hw h]

/-- The step of a station whose instruction leaves the job `k`. -/
theorem runnerRow_left {d : Block} {k : Job} (h : jobStep b (group b j.pid j.group) ms j poison = (d, .ok k))
    (hd : d.cru.jobs = b.cru.jobs) : runnerRow b ms opc o poison
      = setJobs d ms (if k.slot = j.slot ∧ k.bundle = j.bundle ∧ k.fin = false then k :: otherJobs b ms j else otherJobs b ms j ++ [k]) := by
  have others : otherJobs d ms j = otherJobs b ms j := by rw [otherJobs, hd, otherJobs]
  rw [runnerRow_turn hopc ho hw ht]
  unfold stationStep
  rw [ht]
  dsimp only
  rw [h]
  dsimp only
  rw [← otherJobs, others]
  by_cases hk : k.slot = j.slot ∧ k.bundle = j.bundle ∧ k.fin = false
  · rw [if_pos (by simpa [and_assoc] using hk), if_pos hk]
  · rw [if_neg (by simpa [and_assoc] using hk), if_neg hk]

/-- Inside a phase the bundle stays in turn, at the next instruction. -/
theorem runnerRow_inside {k : Job} (h : ranJob b j opc o poison = (c, .ok k))
    (hp : j.pc + 1 < phaseEnd (jobImg (group b j.pid j.group)) j.phase) :
    runnerRow b ms opc o poison = setJobs c ms ({ k with pc := j.pc + 1 } :: otherJobs b ms j) := by
  have step := jobStep_ran (ms := ms) hopc ho hw h
  rw [if_neg (Nat.not_le.mpr hp)] at step
  rw [runnerRow_left hopc ho hw ht step (ranJob_jobs h)]
  obtain ⟨ls, ps, e⟩ := jobRun_keeps h
  have running := turnJob_fin ht
  rw [if_pos (by rw [e]; exact ⟨rfl, rfl, running⟩)]

/-- At the phase's end the bundle ends. -/
theorem runnerRow_ends {d : Block} {k m : Job} (h : ranJob b j opc o poison = (c, .ok k))
    (hp : phaseEnd (jobImg (group b j.pid j.group)) j.phase ≤ j.pc + 1)
    (he : bundleEnd c (group b j.pid j.group) ms { k with pc := j.pc + 1 } = (d, .ok m)) : runnerRow b ms opc o poison
      = setJobs d ms (if m.slot = j.slot ∧ m.bundle = j.bundle ∧ m.fin = false then m :: otherJobs b ms j else otherJobs b ms j ++ [m]) := by
  have step := jobStep_ran (ms := ms) hopc ho hw h
  rw [if_pos hp, he] at step
  have same := bundleEnd_cru_jobs c (group b j.pid j.group) ms { k with pc := j.pc + 1 }
  rw [he] at same
  exact runnerRow_left hopc ho hw ht step (same.trans (ranJob_jobs h))

end
end

/-! ### The rows -/

/-- The opcodes of the rows that act on registers and predicates alone, BAR among them. -/
def isRegisterOp (opc : Nat) : Prop := opc < 64 ∧ opc ≠ 0x38 ∧ opc ≠ 0x39 ∧ opc ≠ 0x3A ∧ opc ≠ 0x3B

theorem jobRun_register {opc : Nat} (h : isRegisterOp opc) (b : Block) (x : Group) (j : Job) (o : RunnerOp) :
    jobRun b x j opc o false = ((bundleStep b (jobImg x) opc o j.lanes).1, .ok { j with lanes := (bundleStep b (jobImg x) opc o j.lanes).2 }) := by
  obtain ⟨-, h38, h39, h3A, h3B⟩ := h
  unfold jobRun
  split
  · contradiction
  · contradiction
  · contradiction
  · contradiction
  · rfl

theorem foldl_appends {b : Block} (f : Block × List Lane → Lane → Block × List Lane) (h : ∀ acc l, f (b, acc) l = (b, acc ++ [l]))
    (ls acc : List Lane) : ls.foldl f (b, acc) = (b, acc ++ ls) := by
  induction ls generalizing acc with
  | nil => simp
  | cons l ls ih => rw [List.foldl_cons, h, ih, List.append_assoc, List.singleton_append]

theorem laneStep_still {opc : Nat} (ho : opc = 0 ∨ opc = 0x3C) (b : Block) (img : Nat) (o : RunnerOp) (l : Lane) :
    laneStep b img opc o l = (b, l) := by
  unfold laneStep
  split
  · rfl
  · rcases ho with rfl | rfl <;> rfl

/-- NOP and BAR change no lane. -/
theorem bundleStep_still {opc : Nat} (ho : opc = 0 ∨ opc = 0x3C) (b : Block) (img : Nat) (o : RunnerOp) (ls : List Lane) :
    bundleStep b img opc o ls = (b, ls) := by
  unfold bundleStep
  rw [if_neg (by omega)]
  exact foldl_appends _ (fun acc l => by dsimp only; rw [laneStep_still ho]) ls []

/-! ### SRED (R291) -/

/-- One lane's part in SRED. -/
def sredLane (r : Nat) (j : Job) (o : RunnerOp) (ps : List Nat) (e : Nat × Lane) : List Nat :=
  if e.2.guarded o then
    ps.set (scalarLane (jobElem r j e.1)) (scalarCombine o.sc (ps.getD (scalarLane (jobElem r j e.1)) 0) (opA e.2 o))
  else ps

/-- The station's partials after SRED. -/
def sredPartials (r : Nat) (j : Job) (o : RunnerOp) : List Nat :=
  ((List.range j.lanes.length).zip j.lanes).foldl (sredLane r j o) j.partials

theorem jobRun_sred (b : Block) (x : Group) (j : Job) (o : RunnerOp) :
    jobRun b x j 0x3A o false = (b, .ok { j with partials := sredPartials x.r j o }) := rfl

theorem jobRun_lds (b : Block) (x : Group) (j : Job) (o : RunnerOp) :
    jobRun b x j 0x3B o false = ((ldsValue b (progScalar (jobImg x)) x.scalar o.sc).1, .ok { j with
        lanes := j.lanes.map fun l => if l.active then l.setReg o.vd (ldsValue b (progScalar (jobImg x)) x.scalar o.sc).2 else l }) := rfl

theorem sredLane_length (r : Nat) (j : Job) (o : RunnerOp) (ps : List Nat) (e : Nat × Lane) : (sredLane r j o ps e).length = ps.length := by
  unfold sredLane
  split <;> simp

theorem sredLane_unguarded {r : Nat} {j : Job} {o : RunnerOp} {ps : List Nat} {e : Nat × Lane} (h : e.2.guarded o = false) :
    sredLane r j o ps e = ps := if_neg (by simp [h])

theorem foldl_sredLane_length (r : Nat) (j : Job) (o : RunnerOp) (es : List (Nat × Lane)) (ps : List Nat) :
    (es.foldl (sredLane r j o) ps).length = ps.length := by
  induction es generalizing ps with
  | nil => rfl
  | cons e es ih => rw [List.foldl_cons, ih, sredLane_length]

theorem foldl_sredLane_unguarded {r : Nat} {j : Job} {o : RunnerOp} {es : List (Nat × Lane)} (h : ∀ e ∈ es, e.2.guarded o = false)
    (ps : List Nat) : es.foldl (sredLane r j o) ps = ps := by
  induction es with
  | nil => rfl
  | cons e es ih =>
    rw [List.foldl_cons, sredLane_unguarded (h e (by simp)), ih fun e he => h e (by simp [he])]

theorem sredPartials_unguarded {r : Nat} {j : Job} {o : RunnerOp} (h : ∀ l ∈ j.lanes, l.guarded o = false) :
    sredPartials r j o = j.partials :=
  foldl_sredLane_unguarded (fun e he => h e.2 (List.of_mem_zip he).2) _

/-- A lane whose element is none of the group's. -/
def noLane : Lane := ⟨List.replicate 32 0, 1, false⟩

theorem sredPartials_one {r : Nat} {j : Job} {o : RunnerOp} {i : Nat} {l : Lane} (hl : j.lanes = List.replicate i noLane ++ [l])
    (hg : l.guarded o = true) : sredPartials r j o = j.partials.set (scalarLane (jobElem r j i))
      (scalarCombine o.sc (j.partials.getD (scalarLane (jobElem r j i)) 0) (l.reg o.sa)) := by
  have pairs : (List.range j.lanes.length).zip j.lanes = (List.range i).zip (List.replicate i noLane) ++ [(i, l)] := by
    rw [hl, List.length_append, List.length_replicate, List.length_singleton, List.range_succ,
      List.zip_append (by simp)]
    rfl
  have idle : ∀ e ∈ (List.range i).zip (List.replicate i noLane), e.2.guarded o = false := fun e he => by
    rw [List.eq_of_mem_replicate (List.of_mem_zip he).2]
    rfl
  rw [sredPartials, pairs, List.foldl_append, foldl_sredLane_unguarded idle]
  exact if_pos hg

/-! ### LD and the last BAR -/

theorem ranJob_poisonedLd {b : Block} {j : Job} {o : RunnerOp} (h : ∃ u ∈ (group b j.pid j.group).streams, u.num = o.sa % 8) :
    ranJob b j 0x38 o true = (addTo b 0x6010 7 (activeCount j), .error ⟨.poison, 4, o.sa % 8⟩) := by
  obtain ⟨u, hm, hu⟩ := h
  obtain ⟨v, hv⟩ : ∃ v, (group b j.pid j.group).streams.find? (·.num == o.sa % 8) = some v :=
    Option.isSome_iff_exists.mp (List.find?_isSome.mpr ⟨u, hm, by simpa using hu⟩)
  have cost : runnerCost 0x38 * activeCount j = activeCount j := Nat.one_mul _
  unfold ranJob jobRun
  dsimp only
  rw [hv, cost]
  exact if_pos rfl

theorem bundleEnd_barred {b : Block} {x : Group} {ms : Nat} {j : Job} (hl : lastPhase (jobImg x) j.phase = false)
    (hf : (nextBundle x ms j).fin = true) : bundleEnd b x ms j = (b, .ok (nextBundle x ms j)) := by
  unfold bundleEnd
  dsimp only
  rw [hl]
  exact if_pos hf

/-! ### The rows of Table 9-5 -/

/-- The rows that act on registers and predicates alone, and BAR, with their opcodes. -/
def registerRows : List ((Nat → RunnerOp → Instr) × Nat) :=
  [(.nop, 0x00), (.fadd, 0x01), (.fsub, 0x02), (.fmul, 0x03), (.ffma, 0x04), (.fnma, 0x05), (.fmin, 0x06), (.fmax, 0x07),
   (.fabs, 0x08), (.fneg, 0x09), (.fclip, 0x0A), (.mov, 0x0B), (.iadd, 0x10), (.isub, 0x11), (.imul, 0x12), (.imin, 0x13),
   (.imax, 0x14), (.and, 0x15), (.or, 0x16), (.xor, 0x17), (.shl, 0x18), (.shr, 0x19), (.sra, 0x1A), (.fcmp, 0x20),
   (.icmp, 0x21), (.sel, 0x22), (.plog, 0x23), (.rcp, 0x28), (.rsqrt, 0x29), (.sqrt, 0x2A), (.exp2, 0x2B), (.log2, 0x2C),
   (.cvt, 0x30), (.bamax, 0x31), (.expb, 0x32), (.scalb, 0x33), (.bar, 0x3C)]

/-- The rows of the streams and scalars, with their opcodes. -/
def streamRows : List ((Nat → RunnerOp → Instr) × Nat) :=
  [(fun ms o => .ld ms o false, 0x38), (.st, 0x39), (.sred, 0x3A), (.lds, 0x3B)]

theorem isRegisterOp_of_mem : ∀ row ∈ registerRows, isRegisterOp row.2 := by
  unfold isRegisterOp
  decide

theorem opcode_lt : ∀ row ∈ registerRows ++ streamRows, row.2 < 64 := by decide

/-- Each row runs the instruction of its opcode. -/
theorem exec_runnerRow : ∀ row ∈ registerRows ++ streamRows, ∀ (ms : Nat) (o : RunnerOp) (s : State),
    exec (row.1 ms o) s = .next (s.on (runnerRow s.dev ms row.2 o false)) := by
  simp only [registerRows, streamRows, List.cons_append, List.nil_append, List.forall_mem_cons, List.not_mem_nil, false_imp_iff,
    implies_true, and_true]
  refine ⟨?_, ?_, ?_, ?_, ?_, ?_, ?_, ?_, ?_, ?_, ?_, ?_, ?_, ?_, ?_, ?_, ?_, ?_, ?_, ?_, ?_, ?_, ?_, ?_, ?_, ?_, ?_, ?_, ?_, ?_,
    ?_, ?_, ?_, ?_, ?_, ?_, ?_, ?_, ?_, ?_, ?_⟩ <;> exact fun _ _ _ => rfl

/-- A register instruction inside a phase leaves its bundle in turn, its lanes changed. -/
theorem runnerRow_register {s : State} {ms : Nat} {o : RunnerOp} {j : Job} (ht : turnJob s.dev ms = some j)
    (hp : j.pc + 1 < phaseEnd (jobImg (group s.dev j.pid j.group)) j.phase) {opc : Nat} (hr : isRegisterOp opc)
    (hw : wordOp (runnerWord opc o) = o ∧ progWord (jobImg (group s.dev j.pid j.group)) j.pc = runnerWord opc o) :
    (.next (s.on (runnerRow s.dev ms opc o false)) : Host.Outcome State Fault Refusal)
      = (let after := bundleStep (addTo s.dev 0x6010 7 (runnerCost opc * activeCount j)) (jobImg (group s.dev j.pid j.group)) opc o j.lanes
        .next (s.on (setJobs after.1 ms ({ j with lanes := after.2, pc := j.pc + 1 } :: otherJobs s.dev ms j)))) :=
  next_on (runnerRow_inside hr.1 hw.1 hw.2 ht (jobRun_register hr ..) hp)

/-- Settles O48: each row by the instruction in turn. -/
theorem programsRunInstructionByInstruction : Obligations.ProgramsRunInstructionByInstruction := by
  refine ⟨?inside, ?lastBar, ?rows, ?idle, ?register, fun b img o ls => ⟨bundleStep_still (Or.inl rfl) .., bundleStep_still (Or.inr rfl) ..⟩, ?reduce⟩
  case inside =>
    intro s ms o j img rest turn after on ht hp
    have all : ∀ row ∈ registerRows, turn row.2 → exec (row.1 ms o) s = .next (on row.2) := fun row hm hw =>
      (exec_runnerRow row (List.mem_append_left _ hm) ms o s).trans (runnerRow_register ht hp (isRegisterOp_of_mem row hm) hw)
    simpa only [registerRows, List.forall_mem_cons, List.not_mem_nil, false_imp_iff, implies_true, and_true] using all
  case lastBar =>
    intro s ms o j x rest k ht h0 hb ho hw hf
    have reg : isRegisterOp 0x3C := by unfold isRegisterOp; decide
    have ran : ranJob s.dev j 0x3C o false = (addTo s.dev 0x6010 7 (runnerCost 0x3C * activeCount j), .ok j) := by
      rw [ranJob, jobRun_register reg, bundleStep_still (Or.inr rfl)]
    have stop : phaseEnd (jobImg (group s.dev j.pid j.group)) j.phase = j.pc + 1 := by
      rw [phaseEnd, if_pos h0, show progBar (jobImg (group s.dev j.pid j.group)) = some j.pc from hb]
      rfl
    have first : lastPhase (jobImg (group s.dev j.pid j.group)) j.phase = false := by
      simp [lastPhase, h0, show progBar (jobImg (group s.dev j.pid j.group)) = some j.pc from hb]
    have ends := bundleEnd_barred (b := addTo s.dev 0x6010 7 (runnerCost 0x3C * activeCount j)) (ms := ms) (j := { j with pc := j.pc + 1 }) first hf
    refine next_on ((runnerRow_ends (by decide) ho hw ht ran (Nat.le_of_eq stop) ends).trans ?_)
    have fin : (nextBundle (group s.dev j.pid j.group) ms { j with pc := j.pc + 1 }).fin = true := hf
    rw [if_neg (by simp [fin])]
    rfl
  case rows =>
    intro row hm s ms o j c ht ho x img rest hw ran
    have run := exec_runnerRow row hm ms o s
    have low := opcode_lt row hm
    refine ⟨fun k h hp => run.trans (next_on (runnerRow_inside low ho hw ht h hp)),
      fun k d m h hp he => run.trans (next_on (runnerRow_ends low ho hw ht h hp he)), fun f h hf => run.trans (next_on ?_), fun h38 hu => next_on ?_⟩
    · exact (runnerRow_failed low ho hw ht h).trans (by rw [if_neg hf])
    · rw [h38] at ho hw
      rw [runnerRow_failed (by decide) ho hw ht (ranJob_poisonedLd hu)]
      exact congrArg (progFail · j.pid j.group _) (if_pos rfl)
  case idle =>
    intro row hm s ms o h
    exact (exec_runnerRow row hm ms o s).trans (next_on (b' := s.dev) (runnerRow_none h false))
  case register =>
    intro row hm b x j o
    exact jobRun_register (isRegisterOp_of_mem row hm) b x j o
  case reduce =>
    intro b x j o
    refine ⟨⟨sredPartials x.r j o, jobRun_sred .., foldl_sredLane_length .., sredPartials_unguarded, fun i l hl hg _ => sredPartials_one hl hg⟩, jobRun_lds ..⟩

end Sys2Proof.Machine
end
